-- ==== Sys2Proof/Word.lean ====
section
/-! DEFINITION. The word types of the block and its index types. Every management register is 64 bits wide (00_scope, 'Registers and access codes'). -/
namespace Sys2Proof

/-- One management register, one Bonov register, one beat of the crossbar (R247, R342). -/
abbrev W := BitVec 64
/-- One byte of a flit, a fuse check byte or an image. -/
abbrev Byte := BitVec 8
/-- The 64 payload bytes of one flit; byte 0 is the low byte (R6, R37). -/
abbrev Line := BitVec 512
/-- A tile number y × 12 + x (R17). -/
abbrev Tile := Fin 144
/-- L0, L1, L2 of a tile (R16). -/
abbrev LPort := Fin 3
/-- 0 the request plane, 1 the response plane (R18). -/
abbrev Plane := Fin 2
/-- A router port in the order of R16: N, E, S, W, L0, L1, L2, LA. -/
abbrev RPort := Fin 8
/-- A link direction: 0 N, 1 E, 2 S, 3 W (R439). -/
abbrev LDir := Fin 4
/-- An execution context C0 to C3 (R246). -/
abbrev CtxId := Fin 4
/-- A program ring; 8 is the boot ring (R246). -/
abbrev RingId := Fin 9
/-- A host port H0 to H7 (R342). -/
abbrev HostId := Fin 8
/-- A target context of the event controller (R326). -/
abbrev TgtId := Fin 64
/-- An egress scheduler and its scheduler port (R155). -/
abbrev EsId := Fin 32
/-- A queue-engine port (R155). -/
abbrev QpId := Fin 16
/-- A chain port: 0 U, 1 D0, 2 D1 (R436). -/
abbrev ChPort := Fin 3

end Sys2Proof
end

