-- ==== Sys2Proof/Syntax.lean ====
section
/-! DEFINITION. The commands of the block: one constructor of `Instr` for every row of the opcode table, with the operands that the environment supplies. -/
namespace Sys2Proof

/-- A packet: its header fields (R46), its data flits, and the STRATUM its sideband carries (R39). -/
structure Pkt where
  dest : BitVec 10 := 0
  src : BitVec 10 := 0
  cls : BitVec 2 := 0
  cmd : BitVec 6 := 0
  dfc : BitVec 3 := 0
  tag : BitVec 12 := 0
  resp : BitVec 4 := 0
  pdom : BitVec 4 := 0
  cache : BitVec 2 := 0
  order : BitVec 2 := 0
  atop : BitVec 2 := 0
  addr : BitVec 48 := 0
  lenm1 : BitVec 8 := 0
  be : BitVec 64 := 0
  qid : BitVec 16 := 0
  tstamp : BitVec 32 := 0
  fkey : BitVec 128 := 0
  aux : BitVec 32 := 0
  data : List Line := []
  stratum : Bool := false
  deriving DecidableEq, Repr

/-- One flit as it stands on the 589 logical lanes of a link and on LAR and LAP (R37, R85): payload, check bytes K0 to K7, sideband, its check bits C1 C2 C4 C8 P, LAR, and LAP. -/
structure RawFlit where
  pay : Line
  chk : BitVec 64
  sb : BitVec 8
  sbc : BitVec 5
  lar : BitVec 4
  lap : Bool
  deriving DecidableEq, Repr

/-- The payload signals of a Q transfer at an initiator port (R104). `rsv`: the endpoint drives the reserved QOP 8 + rsv in place of the operation of the command (R107). -/
structure QReq where
  beats : BitVec 3 := 0
  addr : BitVec 48 := 0
  len : BitVec 8 := 0
  mtag : BitVec 8 := 0
  cls : BitVec 2 := 0
  atop : BitVec 2 := 0
  gs : Bool := false
  conn : BitVec 4 := 0
  qid : BitVec 16 := 0
  fkey : BitVec 128 := 0
  aux : BitVec 32 := 0
  rsv : Option (BitVec 3) := none
  deriving DecidableEq, Repr

/-- Who injects a header (R47, R103, R155, R455, R464); `trace` is the trace queue of a tile's probe slots. -/
inductive InjSrc where
  | ni (t : Tile) (p : LPort)
  | agent (t : Tile)
  | sink (t : Tile)
  | cfgep
  | evc
  | qp (q : QpId)
  | sp (k : EsId)
  | trace (t : Tile)
  deriving DecidableEq, Repr

/-- A master of the crossbar as the targets see it: a host, the sequencer running a job of a ring, the loader, and the chain with the rights of the originating master (R36, R433). -/
inductive Master where
  | host (h : HostId)
  | sq (r : RingId)
  | bl
  | chHost (h : HostId)
  | chSq
  deriving DecidableEq, Repr

/-- What a host drives on its port: a request when `valid` (HQVALID), write beats on the write channel, which may belong to requests accepted before, and from now on the level of HSREADY (R347, R348). -/
structure HReq where
  valid : Bool := true
  ready : Bool := true
  write : Bool
  inst : BitVec 8
  addr : BitVec 26
  len : BitVec 3
  data : List W := []
  strb : List (BitVec 8) := []
  deriving DecidableEq, Repr

/-- The fields of a CRSP that reaches the sequencer (R59, R261, R300). -/
structure CrspBody where
  resp : BitVec 4
  aux : BitVec 32 := 0
  lenm1 : BitVec 8 := 7
  data : List W := []
  deriving DecidableEq, Repr

/-- What switches on a FLIP of its own (R141). -/
inductive FlipUnit where
  | agent (t : Tile)
  | pu (t : Tile) (p : LPort)
  | sched (k : EsId)
  deriving DecidableEq, Repr

/-- A link direction named by its sending tile, plane and output (R446). -/
structure LinkId where
  tile : Tile
  plane : Plane
  dir : LDir
  deriving DecidableEq, Repr

/-- The bytes 1 to 3 of a chain frame (R428). -/
structure FrameHdr where
  dst : BitVec 8 := 0
  src : BitVec 8 := 0
  seq : BitVec 8 := 0
  deriving DecidableEq, Repr

/-- A chain frame's payload by TYPE (R428). -/
inductive FrameBody where
  | train (roleD : Bool) (rxok : Bool) (member : BitVec 16)
  | ack (seq : BitVec 8)
  | nak (seq : BitVec 8)
  | enum (gen next depth : BitVec 8)
  | enumRet (gen next status height : BitVec 8) (member tiles : BitVec 16)
  | req (tag orig : BitVec 8) (offset : BitVec 32) (data : List W) (strb : List (BitVec 8))
  | rsp (tag code : BitVec 8) (data : List W)
  | opdn (opid : BitVec 16) (kind func : BitVec 8) (args : List W)
  | opup (opid : BitVec 16) (resp : BitVec 8) (value counts : W)
  | qreq
  | qdata (offset : BitVec 32) (bytes : List Byte)
  | qend (slot : BitVec 8) (imglen : BitVec 32)
  deriving DecidableEq, Repr

/-- What the loader reads of the serial memory's SFDP space (R407, R408): the signature, the DWORDs of the Basic Flash Parameter Table from DWORD 1 on, and DWORD 1 of the 4-Byte Address Instruction Table where the device has one. -/
structure Sfdp where
  sig : BitVec 32
  bfpt : List (BitVec 32)
  fourByte : Option (BitVec 32) := none
  deriving DecidableEq, Repr

/-- A clock input that the integrator may stop (R365). -/
inductive ClkId where
  | host (h : HostId)
  | ep (t : Tile) (p : LPort)
  deriving DecidableEq, Repr

/-- A crossing whose sender cannot stall (R382, R384). -/
inductive CtId where
  | wake (t : TgtId)
  | leaseExpiry
  | islandEvents
  deriving DecidableEq, Repr

/-- A crossing with two sides that can be reset apart (R382, R385). -/
inductive CrossId where
  | ep (t : Tile) (p : LPort)
  | host (h : HostId)
  deriving DecidableEq, Repr

/-- Where a credit returns to: the sender at a router's output, or the originator at a local input (R85, R91). -/
inductive CreditSide where
  | out (p : RPort)
  | input (p : RPort)
  deriving DecidableEq, Repr

/-- The commands of the block; those without operands come last. -/
inductive Instr where
  | flitArrival (t : Tile) (pl : Plane) (port : RPort) (f : RawFlit)
  | creditReturn (t : Tile) (pl : Plane) (side : CreditSide) (crv : Bool) (crvc : BitVec 3) (crp : Bool)
  | flint (t : Tile) (pl : Plane) (port : RPort) (dest : BitVec 8) (str : Bool) (flp : Bool)
  | packetEjection (t : Tile) (pl : Plane) (out : RPort) (flits : List RawFlit)
  | read (t : Tile) (p : LPort) (q : QReq)
  | write (t : Tile) (p : LPort) (q : QReq)
  | writeNp (t : Tile) (p : LPort) (q : QReq)
  | atomic (t : Tile) (p : LPort) (q : QReq)
  | message (t : Tile) (p : LPort) (q : QReq)
  | doorbell (t : Tile) (p : LPort) (q : QReq)
  | cell (t : Tile) (p : LPort) (q : QReq)
  | enqueue (t : Tile) (p : LPort) (q : QReq)
  | dlastBeat (t : Tile) (p : LPort) (beats : List Line) (dbe : BitVec 64)
  | injectHeader (src : InjSrc) (cls : BitVec 2) (tag : BitVec 12)
  | rd (t : Tile) (p : LPort) (mtag : BitVec 8)
  | wr (t : Tile) (p : LPort) (mtag : BitVec 8)
  | wrn (t : Tile) (p : LPort) (mtag : BitVec 8)
  | atm (t : Tile) (p : LPort) (mtag : BitVec 8) (old : W)
  | msg (t : Tile) (p : LPort)
  | pkt (t : Tile) (p : LPort) (mtag : BitVec 8)
  | enq (q : QpId) (cls : BitVec 2)
  | internalEvent (src : BitVec 10)
  | rdata (t : Tile) (p : LPort)
  | wack (t : Tile) (p : LPort)
  | crsp (id : Nat) (r : CrspBody)
  | responseTimeout (t : Tile) (p : LPort) (tag : BitVec 12)
  | tagHoldExpiry (t : Tile) (p : LPort) (tag : BitVec 12)
  | targetTimeout (t : Tile) (p : LPort) (mtag : BitVec 8)
  | targetResponse (t : Tile) (p : LPort) (mtag : BitVec 8) (code : BitVec 4) (data : List Line)
  | mailboxDelivery (t : Tile) (p : LPort)
  | endpointResetAssert (t : Tile) (p : LPort)
  | endpointResetRelease (t : Tile) (p : LPort)
  | crossingReconnect (x : CrossId)
  | portDisable (t : Tile) (p : LPort) (force : Bool)
  | portEnable (t : Tile) (p : LPort)
  | disableComplete (t : Tile) (p : LPort)
  | abortTimeout (t : Tile) (p : LPort)
  | allocate (q : QpId) (picks : List Nat)
  | freeCells (q : QpId)
  | pbcfgInit (m : Master) (v : W)
  | ftEntryWrite (m : Master) (word : Fin 524288) (v : W)
  | recordRead (k : EsId) (qid : BitVec 16)
  | dequeueDecision (k : EsId)
  | cellReadResponse (k : EsId) (rid : Nat) (resp : BitVec 4) (data : List Line)
  | delivery (k : EsId)
  | lastDeliveryInjected (k : EsId)
  | shaperConfigWrite (m : Master) (i : Fin 8192) (v : W)
  | meterConfigWrite (m : Master) (i : Fin 16384) (word : Fin 4) (v : W)
  | meterReset (m : Master) (i : Fin 16384)
  | policerReset (m : Master) (i : Fin 256)
  | qpartWrite (m : Master) (i : Fin 1024) (v : W)
  | qdescWrite (m : Master) (qid : BitVec 16) (word : Fin 4) (v : W)
  | gateListStart (k : EsId)
  | puCtlWrite (m : Master) (t : Tile) (p : LPort) (v : W)
  | violationClear (m : Master) (t : Tile) (p : LPort)
  | registerWrite (m : Master) (off : BitVec 26) (v : W) (strb : BitVec 8)
  | jobStart (c : CtxId)
  | ringSlotWrite (m : Master) (r : RingId) (slot : BitVec 12) (w : BitVec 32)
  | ringtailWrite (m : Master) (r : RingId) (v : BitVec 16)
  | cplheadWrite (m : Master) (r : RingId) (v : BitVec 16)
  | add (c : CtxId) | sub (c : CtxId) | and (c : CtxId) | or (c : CtxId) | xor (c : CtxId) | sll (c : CtxId)
  | srl (c : CtxId) | sra (c : CtxId) | mul (c : CtxId) | ceq (c : CtxId) | clt (c : CtxId) | cltu (c : CtxId)
  | addi (c : CtxId) | andi (c : CtxId) | ori (c : CtxId) | xori (c : CtxId) | slli (c : CtxId) | srli (c : CtxId)
  | srai (c : CtxId) | ceqi (c : CtxId) | clti (c : CtxId) | cltui (c : CtxId) | ext (c : CtxId)
  | ins (c : CtxId) | li (c : CtxId) | lih (c : CtxId) | ldc (c : CtxId) | ldcw (c : CtxId) | stc (c : CtxId)
  | stcw (c : CtxId) | stcs (c : CtxId) | tsend (c : CtxId) | tcall (c : CtxId) | tbcast (c : CtxId)
  | tgsum (c : CtxId) | tgor (c : CtxId) | tgmax (c : CtxId) | tgand (c : CtxId) | lock (c : CtxId)
  | unlk (c : CtxId) | barr (c : CtxId) | waitc (c : CtxId) | waitt (c : CtxId) | fence (c : CtxId)
  | stprep (c : CtxId) | stcommit (c : CtxId) | stdrain (c : CtxId) | stquery (c : CtxId) | trd (c : CtxId)
  | tload (c : CtxId) | tadj (c : CtxId) | tslew (c : CtxId) | br (c : CtxId) | brc (c : CtxId) | call (c : CtxId)
  | ret (c : CtxId) | halt (c : CtxId) | trap (c : CtxId) | nop (c : CtxId) | yield (c : CtxId) | waitTimeout (c : CtxId)
  | waitcPoll (c : CtxId) | waittTarget (c : CtxId) | lockWaitExpiry (c : CtxId)
  | leaseExpiry (slot : Fin 64)
  | calltoExpiry (id : Nat)
  | runlimExpiry (c : CtxId)
  | scrubRead (bad : Bool)
  | microcodeReload (ok : Bool)
  | hostResetAssert (h : HostId)
  | hostResetRelease (h : HostId)
  | ping (t : Tile)
  | rdreg (t : Tile)
  | wrreg (t : Tile)
  | rdfld (t : Tile)
  | snaparm (t : Tile)
  | snapclr (t : Tile)
  | evflush (t : Tile)
  | trst (t : Tile)
  | hold (t : Tile)
  | configRead (t : Tile) (tag : BitVec 12) (off : BitVec 26)
  | configWrite (t : Tile) (tag : BitVec 12) (off : BitVec 26) (v : W) (strb : BitVec 8)
  | barrierConfirm (t : Tile) (tag : BitVec 12)
  | stcopy (t : Tile) (tag : BitVec 12) (mask : BitVec 4)
  | flip (u : FlipUnit) (stratum : Bool) (hold : Option Plane)
  | release (t : Tile) (stratum : Bool)
  | oldCountGather (t : Tile) (tag : BitVec 12)
  | flush (t : Tile)
  | relayAnswer (t : Tile) (tag : BitVec 12) (src : Tile) (r : CrspBody)
  | relayTimeout (t : Tile) (tag : BitVec 12) (src : Tile)
  | snapshotCapture (t : Tile)
  | childTimeout (opid : BitVec 16) (p : ChPort)
  | evcClaim (h : HostId) (t : TgtId)
  | evcComplete (m : Master) (t : TgtId) (id : BitVec 10)
  | evcSetpend (m : Master) (k : Fin 16) (v : W)
  | evcClrpend (m : Master) (k : Fin 16) (v : W)
  | evcEnset (m : Master) (t : TgtId) (k : Fin 16) (v : W)
  | evcEnclr (m : Master) (t : TgtId) (k : Fin 16) (v : W)
  | evcThresh (m : Master) (t : TgtId) (v : BitVec 8)
  | prisplitWrite (m : Master) (v : BitVec 3)
  | hostRequest (h : HostId) (r : HReq)
  | portGrant (j : Fin 11)
  | watchdogFire (j : Fin 11)
  | tileIdleEntry (t : Tile)
  | tileSleepEntry (t : Tile)
  | tileWakeDone (t : Tile)
  | minstWrite (m : Master) (t : Tile) (v : BitVec 2)
  | pmFence (m : Master) (t : Tile)
  | pmOff (m : Master) (t : Tile)
  | pmOn (m : Master) (t : Tile)
  | pmUnfence (m : Master) (t : Tile)
  | pmWake (m : Master) (t : Tile)
  | fencingComplete (t : Tile)
  | powerOffComplete (t : Tile)
  | powerOnComplete (t : Tile)
  | restoreAccess (m : Master) (write : Bool) (v : W)
  | ctRoundTripEnd (x : CtId)
  | tbPeriodWrite (m : Master) (v : W)
  | timeInvalidate (m : Master)
  | todTransfer (time : W) (atpps : Bool)
  | sfdpDiscovery (t : Sfdp)
  | slotHeaderCheck (a b : List Byte)
  | sectionLoad (slot : Bool) (sections : List (List Byte))
  | faddr (v : BitVec 8)
  | fdata (v : W)
  | fprog (idle : Option Bool)
  | fuseProgramDone (blown : Bool)
  | mbist (group : BitVec 8) (start : Option Bool)
  | train (p : ChPort) (roleD : Bool) (rxok : Bool) (member : BitVec 16)
  | ack (p : ChPort) (seq : BitVec 8)
  | nak (p : ChPort) (seq : BitVec 8)
  | enum (hdr : FrameHdr) (gen next depth : BitVec 8)
  | enumret (p : ChPort) (hdr : FrameHdr) (gen next status height : BitVec 8) (member tiles : BitVec 16)
  | req (p : ChPort) (hdr : FrameHdr) (tag orig : BitVec 8) (offset : BitVec 32) (data : List W) (strb : List (BitVec 8))
  | rsp (p : ChPort) (hdr : FrameHdr) (tag code : BitVec 8) (data : List W)
  | opdn (hdr : FrameHdr) (opid : BitVec 16) (kind func : BitVec 8) (args : List W)
  | opup (p : ChPort) (hdr : FrameHdr) (opid : BitVec 16) (resp : BitVec 8) (value counts : W)
  | qreq (p : ChPort) (hdr : FrameHdr)
  | qdata (hdr : FrameHdr) (offset : BitVec 32) (bytes : List Byte)
  | qend (hdr : FrameHdr) (slot : BitVec 8) (imglen : BitVec 32)
  | replayTimeout (p : ChPort)
  | linkSilence (p : ChPort)
  | idleAckTimer (p : ChPort)
  | chnReenum (m : Master)
  | enumretTimeout (p : ChPort)
  | calibrationStep (l : LinkId) (lane : Fin 597) (margin : BitVec 6)
  | repairApply (l : LinkId)
  | trainingEnd (l : LinkId) (failing : List Nat)
  | reinitBuffersEmpty (l : LinkId)
  | lstat (t : Tile)
  | lfence (t : Tile)
  | lunfence (t : Tile)
  | ltest (t : Tile)
  | ldtest (t : Tile)
  | lrepair (t : Tile)
  | lreinit (t : Tile)
  | lpeer (t : Tile) (l : LinkId) (lane : Fin 597) (ka : Nat)
  | linkTestDrained (l : LinkId)
  | drainTimeout (l : LinkId)
  | testPatternEnd (l : LinkId) (failing : List Nat)
  | tlMbistStart (m : Master) (v : W)
  | mbistDone (tile : Option Tile) (failGroups : BitVec 3) (faddr : BitVec 16)
  | probeControlWrite (m : Master) (p : Fin 32) (v : W)
  | probeBound (p : Fin 32)
  | traceBufferArm (m : Master) (b : Fin 8) (v : W)
  | traceRecord
  | clockStop (k : ClkId)
  | clockRestart (k : ClkId)
  | targetQTransfer (t : Tile) (p : LPort) (mtag : BitVec 8)
  | responseLeavesOnS (t : Tile) (p : LPort)
  | holdExpiry (t : Tile)
  | snapshotWake (t : Tile)
  | badFrame (p : ChPort) (bytes : List Byte)
  | dbl | bypass | slotBankSwitch | initComplete | learnInsert | ageClockTick | ageScan | latchDoorbell | mgmtRetentionEntry | mgmtWake
  | evcRestore | governorWindow | timeApply | ppsEdge | ppsTimeout | powerOnResetAssert | coldResetRelease | fabricResetAssert
  | fabricResetRelease | signatureCheck | handover | tapReset | idcode | fread | enumStart | qendTimeout | sharedStepBoundary
  | fuseVppLoss
  deriving DecidableEq, Repr

end Sys2Proof
end

