-- ==== Sys2Proof/Decode.lean ====
section
/-! DEFINITION. The command that a word spells by the table's bits. No row of spec/opcode_table.json gives bits: every row's list of fields is empty, since a command of this block is an event of its environment and no word of a fetched program. The words of Bonov instructions stand in the program rings, and Machine/Operands.lean reads them. -/
namespace Sys2Proof

/-- No row gives bits, so no word spells a command. -/
def decodeTableWord (_nbits _w : Nat) : Option Instr := none

end Sys2Proof
end

