-- ==== Sys2Proof/Machine/Bits.lean ====
section
/-! DEFINITION. Bit fields, sign extension, byte order and sparse tables. -/
namespace Sys2Proof.Machine

/-- The field of width w whose lowest bit is lo, as a number. -/
def fld {n : Nat} (v : BitVec n) (lo w : Nat) : Nat := (v.extractLsb' lo w).toNat

/-- v with the field of width w at lo replaced by x modulo 2^w. -/
def setFld {n : Nat} (v : BitVec n) (lo w : Nat) (x : Nat) : BitVec n :=
  (v &&& ~~~(BitVec.ofNat n (2 ^ w - 1) <<< lo)) ||| (BitVec.ofNat n (x % 2 ^ w) <<< lo)

/-- Bit i of v. -/
def bitOf {n : Nat} (v : BitVec n) (i : Nat) : Bool := v.getLsbD i

/-- v with bit i set to b. -/
def putBit {n : Nat} (v : BitVec n) (i : Nat) (b : Bool) : BitVec n := setFld v i 1 b.toNat

/-- A word with byte k of `new` where bit k of the strobe is 1 and byte k of `old` elsewhere (R348). -/
def strbMask (strb : BitVec 8) : W :=
  (List.range 8).foldl (fun m k => if strb.getLsbD k then m ||| (0xFF#64 <<< (8 * k)) else m) 0

/-- The sum of n and k, stopped at 2^w − 1: a saturating counter. -/
def satSum (w n k : Nat) : Nat := min (n + k) (2 ^ w - 1)

/-- The two's complement reading of a field of width w. -/
def sgn (w x : Nat) : Int := if x < 2 ^ (w - 1) then (x : Int) else (x : Int) - 2 ^ w

/-- The numbers below n whose bit is set in v. -/
def bitsOf {n : Nat} (v : BitVec n) : List Nat := (List.range n).filter (v.getLsbD ·)

/-- The number of ones. -/
def popcount {n : Nat} (v : BitVec n) : Nat := (bitsOf v).length

/-- Even parity over all bits: true when the number of ones is odd. -/
def parity {n : Nat} (v : BitVec n) : Bool := popcount v % 2 == 1

/-- The bytes of a vector, lowest first (R6). -/
def bytesOf {n : Nat} (v : BitVec n) : List Byte := (List.range (n / 8)).map (fun k => v.extractLsb' (8 * k) 8)

/-- The little-endian number that bytes spell. -/
def leNat : List Byte → Nat
  | [] => 0
  | b :: bs => b.toNat + 256 * leNat bs

/-- The 64-bit words of a byte list, 8 bytes each, the last padded with zeros. -/
def wordsOf (fuel : Nat) (bs : List Byte) : List W :=
  match fuel, bs with
  | 0, _ => []
  | _, [] => []
  | k + 1, bs => BitVec.ofNat 64 (leNat (bs.take 8)) :: wordsOf k (bs.drop 8)

/-- Word k of a flit's payload. -/
def lineWord (l : Line) (k : Nat) : W := l.extractLsb' (64 * k) 64

/-- A flit's payload from eight words, missing ones zero. -/
def lineOf (ws : List W) : Line :=
  BitVec.ofNat 512 ((ws.take 8).foldr (fun w acc => w.toNat + 2 ^ 64 * acc) 0)

/-- CRC, least significant bit first over the bytes given, with a reflected polynomial of width n. -/
def crcReflected (n : Nat) (poly init : BitVec n) (bs : List Byte) : BitVec n :=
  bs.foldl (fun c b =>
    (List.range 8).foldl (fun c _ => if c.getLsbD 0 then (c >>> 1) ^^^ poly else c >>> 1)
      (c ^^^ BitVec.ofNat n b.toNat)) init

/-- CRC, most significant bit first, with a polynomial of width n ≥ 8. -/
def crcForward (n : Nat) (poly init : BitVec n) (bs : List Byte) : BitVec n :=
  bs.foldl (fun c b =>
    (List.range 8).foldl (fun c _ => if c.getLsbD (n - 1) then (c <<< 1) ^^^ poly else c <<< 1)
      (c ^^^ (BitVec.ofNat n b.toNat <<< (n - 8)))) init


/-- The first element with a property, and the list without it. -/
def extract {α : Type} (p : α → Bool) : List α → Option (α × List α)
  | [] => none
  | a :: as => if p a then some (a, as) else (extract p as).map (fun (x, r) => (x, a :: r))

/-- The first element with a property replaced. -/
def replaceFirst {α : Type} (p : α → Bool) (f : α → α) : List α → List α
  | [] => []
  | a :: as => if p a then f a :: as else a :: replaceFirst p f as

end Sys2Proof.Machine
end

