-- ==== Sys2Proof/Machine/Code.lean ====
section
/-! DEFINITION. The sideband code (R43, R44), the flit code (R63 to R65), and the CRC-32C (R67). -/
namespace Sys2Proof.Machine

-- Sideband.

/-- C1, C2, C4, C8 in bits 0 to 3 and P in bit 4, for a sideband byte (R43). -/
def sbCheck (d : BitVec 8) : BitVec 5 :=
  let x (l : List Nat) : Bool := l.foldl (fun a i => Bool.xor a (bitOf d i)) false
  let c1 := x [0, 1, 3, 4, 6]
  let c2 := x [0, 2, 3, 5, 6]
  let c4 := x [1, 2, 3, 7]
  let c8 := x [4, 5, 6, 7]
  let p := Bool.xor (parity d) (Bool.xor (Bool.xor c1 c2) (Bool.xor c4 c8))
  BitVec.ofNat 5 (c1.toNat + 2 * c2.toNat + 4 * c4.toNat + 8 * c8.toNat + 16 * p.toNat)

/-- What the sideband decoder finds: the byte as corrected, with the logical lane corrected if one was, or nothing (R44). -/
inductive SbRes where
  | ok (sb : BitVec 8) (lane : Option Nat)
  | bad
  deriving DecidableEq, Repr

/-- The data bit at a Hamming position (R43). -/
def sbData (pos : Nat) : Option Nat := [3, 5, 6, 7, 9, 10, 11, 12].findIdx? (· == pos)

/-- The sideband decoder (R44). -/
def sbDecode (d : BitVec 8) (c : BitVec 5) : SbRes :=
  let s := ((c ^^^ sbCheck d) &&& 0xF#5).toNat
  let odd := Bool.xor (parity d) (parity c)
  if s = 0 then (if odd then .ok d (some 588) else .ok d none)
  else if odd ∧ s ≤ 12 then
    match sbData s with
    | some i => .ok (d ^^^ (1#8 <<< i)) (some (576 + i))
    | none => .ok d (some (if s = 1 then 584 else if s = 2 then 585 else if s = 4 then 586 else 587))
  else .bad

-- Arithmetic of GF(2^8), p(x) = 0x11D.

/-- Multiplication by α = 2. -/
def gfX (a : Byte) : Byte := if bitOf a 7 then (a <<< 1) ^^^ 0x1D#8 else a <<< 1
/-- Multiplication, one bit of b at a time. -/
def gfMulN : Nat → Byte → Byte → Byte
  | 0, _, _ => 0
  | k + 1, a, b => (if bitOf b 0 then a else 0) ^^^ gfMulN k (gfX a) (b >>> 1)
def gfMul (a b : Byte) : Byte := gfMulN 8 a b
/-- α^n. -/
def gfAlpha : Nat → Byte
  | 0 => 1
  | n + 1 => gfX (gfAlpha n)
/-- a^(2^k), by squaring. -/
def gfSq : Nat → Byte → Byte
  | 0, a => a
  | k + 1, a => gfSq k (gfMul a a)
/-- The inverse: a^254 = a^2 · a^4 · … · a^128. -/
def gfInv (a : Byte) : Byte := [1, 2, 3, 4, 5, 6, 7].foldl (fun r k => gfMul r (gfSq k a)) 1

-- Polynomials over GF(2^8), lowest coefficient first.

def polyEval (p : List Byte) (x : Byte) : Byte := p.foldr (fun c acc => c ^^^ gfMul x acc) 0
def polyAdd : List Byte → List Byte → List Byte
  | [], q => q
  | p, [] => p
  | a :: p, b :: q => (a ^^^ b) :: polyAdd p q
def polyScale (c : Byte) (p : List Byte) : List Byte := p.map (gfMul c)
def polyMul : List Byte → List Byte → List Byte
  | [], _ => []
  | a :: p, q => polyAdd (polyScale a q) (0 :: polyMul p q)

/-- The generator polynomial (x − α^0) … (x − α^7), lowest coefficient first (R63). -/
def rsGen : List Byte := (List.range 8).foldl (fun g i => polyMul g [gfAlpha i, 1]) [1]

/-- The remainder of (Σ payload_i x^(8+i)) divided by g(x): the check bytes K0 to K7 (R63). -/
def rsCheckBytes (pay : List Byte) : List Byte :=
  pay.reverse.foldl (fun r b =>
    let f := b ^^^ r.getD 7 0
    polyAdd (0 :: r.take 7) (polyScale f (rsGen.take 8))) (List.replicate 8 0)

/-- The check bytes of a payload, K0 lowest. -/
def rsEncode (pay : Line) : BitVec 64 := BitVec.ofNat 64 (leNat (rsCheckBytes (bytesOf pay)))

/-- The codeword c_0 to c_71: check bytes, then payload bytes (R63). -/
def rsWord (pay : Line) (chk : BitVec 64) : List Byte := bytesOf chk ++ bytesOf pay

/-- The syndromes c(α^0) to c(α^7). -/
def rsSyndromes (c : List Byte) : List Byte := (List.range 8).map (fun i => polyEval c (gfAlpha i))

/-- The state of the Berlekamp–Massey recursion: the locator, the previous locator, its discrepancy, the length, the shift. -/
structure Bm where
  c : List Byte
  b : List Byte
  d : Byte
  l : Nat
  m : Nat
  deriving DecidableEq, Repr

/-- One step of the recursion, at syndrome n. -/
def bmStep (syn : List Byte) (z : Bm) (n : Nat) : Bm :=
  let d := (List.range (z.l + 1)).foldl (fun acc i => acc ^^^ gfMul (z.c.getD i 0) (syn.getD (n - i) 0)) 0
  if d = 0 then { z with m := z.m + 1 }
  else
    let c' := polyAdd z.c (List.replicate z.m 0 ++ polyScale (gfMul d (gfInv z.d)) z.b)
    if 2 * z.l ≤ n then ⟨c', z.c, d, n + 1 - z.l, 1⟩ else { z with c := c', m := z.m + 1 }

/-- The error locator of the syndromes, with its length. -/
def rsLocator (syn : List Byte) : Bm := (List.range 8).foldl (bmStep syn) ⟨[1], [1], 1, 0, 1⟩

/-- The formal derivative. -/
def polyDeriv (p : List Byte) : List Byte :=
  ((List.range p.length).map (fun i => if i % 2 = 1 then p.getD i 0 else 0)).drop 1

/-- What the flit decoder finds: no error, the positions and values of at most four symbol errors, or an uncorrectable flit (R64, R65). -/
inductive RsRes where
  | clean
  | fixed (errs : List (Nat × Byte))
  | bad
  deriving DecidableEq, Repr

/-- The flit decoder: the locator must have as many roots as its length, at most four, all in the 72 positions that exist (R65). -/
def rsDecode (c : List Byte) : RsRes :=
  let syn := rsSyndromes c
  if syn.all (· == 0) then .clean
  else
    let z := rsLocator syn
    let omega := (polyMul syn z.c).take 8
    let roots := (List.range 72).filter (fun j => polyEval z.c (gfAlpha ((255 - j) % 255)) == 0)
    if z.l ≤ 4 ∧ roots.length = z.l then
      .fixed (roots.map (fun j =>
        let xi := gfAlpha ((255 - j) % 255)
        (j, gfMul (gfMul (gfAlpha j) (polyEval omega xi)) (gfInv (polyEval (polyDeriv z.c) xi)))))
    else .bad

/-- The payload with the errors taken out. -/
def rsFixPay (pay : Line) (errs : List (Nat × Byte)) : Line :=
  errs.foldl (fun p (j, e) => if j < 8 then p else p ^^^ (BitVec.ofNat 512 e.toNat <<< (8 * (j - 8)))) pay
/-- The check bytes with the errors taken out. -/
def rsFixChk (chk : BitVec 64) (errs : List (Nat × Byte)) : BitVec 64 :=
  errs.foldl (fun p (j, e) => if j < 8 then p ^^^ (BitVec.ofNat 64 e.toNat <<< (8 * j)) else p) chk
/-- The logical lanes of the bits corrected (R37). -/
def rsLanes (errs : List (Nat × Byte)) : List Nat :=
  errs.flatMap (fun (j, e) => (bitsOf e).map (fun b => if j < 8 then 512 + 8 * j + b else 8 * (j - 8) + b))

-- CRC.

/-- CRC-32C of bytes, from a given initial value of the reflected register (R67, R178). -/
def crc32cFrom (init : BitVec 32) (bs : List Byte) : BitVec 32 := ~~~(crcReflected 32 0x82F63B78#32 init bs)
/-- CRC-32C (R67). -/
def crc32c (bs : List Byte) : BitVec 32 := crc32cFrom 0xFFFFFFFF#32 bs

end Sys2Proof.Machine
end

