-- ==== Sys2Proof/Machine/State.lean ====
section
/-! DEFINITION. The state of the block as plain data, the reasons a step can stop, and the state after reset. -/
namespace Sys2Proof.Machine

/-- A sparse table: keys strictly rising, no entry equal to what an unlisted key reads as. -/
abbrev Tab (α : Type) := List (Nat × α)

/-- Raised by no meaning: the block has no behaviour that the spec calls undefined for a whole command (safe). -/
inductive Fault where
  | none
  deriving DecidableEq, Repr

/-- Why a command has no meaning. -/
inductive Refusal where
  /-- Raised by an arm of `exec` whose command is not modelled yet; safe, since the run stops. -/
  | notModelled (mnemonic : String)
  deriving DecidableEq, Repr

/-- What stands at an L position of a tile (R103, R155, R464); `none` is an unpopulated position (R16). -/
inductive NiKind where
  | none | initiator | target | message | memory | engine
  deriving DecidableEq, Repr

/-- One row of the parameter set: the L position p of tiles lo to hi is of a kind. -/
structure KindRow where
  p : Nat
  lo : Nat
  hi : Nat
  kind : NiKind
  deriving DecidableEq, Repr

/-- The Wotrum parameter set and the pins sampled at cold reset: built values, which no command changes (R16, R103, R155, R315, R319, R426, R455, R464). -/
structure Build where
  kinds : List KindRow
  root : Tile
  dbep : BitVec 10
  cfgep : BitVec 10
  obsTrace : BitVec 10
  qpEp : List (BitVec 10)
  spEpA : List (BitVec 10)
  spEpB : List (BitVec 10)
  chnRoot : Bool
  chnBoot : Bool
  deriving DecidableEq, Repr

/-- A change of the timebase that waits for its apply cycle (R394, R397, R398). A load bears the nanoseconds loaded and the running time at which they held. -/
inductive TimeChange where
  | load (ns : Nat) (atRun : Nat)
  | pps (ns : Nat) (atRun : Nat)
  | step (ns : Int)
  | period (p : Nat)
  | slew (ns : Int)
  deriving DecidableEq, Repr

/-- A slew in progress: the offset not absorbed at cb, in units of 2^-32 ns, and the rate in ppm (R398). -/
structure Slew where
  rem : Int
  ppm : Nat
  deriving DecidableEq, Repr

/-- The timebase and the copies of base, cb and period that every tile holds (R392). Times are in units of 2^-32 ns; `run` is the time at cb that no step has moved (R399); `edged`: the armed load has met its PPS edge and awaits its apply cycle (R397). -/
structure TimeBase where
  base : Nat
  cb : Nat
  period : Nat
  run : Nat
  pend : List (Nat × TimeChange)
  slew : Option Slew
  armed : Option Nat
  edged : Bool
  lastPps : Option Nat
  deriving DecidableEq, Repr

/-- A flit in an input buffer, after the decoders of its arrival cycle (R86). -/
structure Flit where
  pay : Line
  chk : BitVec 64
  ftype : BitVec 2
  stratum : Bool
  poison : Bool
  route : Nat
  deriving DecidableEq, Repr

/-- The packet whose header has left an input VC and whose tail has not: its header, its output (8 is the fence sink), its output VC, the data flits forwarded, the probes whose match was decided at its header, each with the number of its binding (R452, R453). -/
structure Passing where
  hdr : Pkt
  route : Nat
  vc : Nat
  sent : Nat
  probes : List (Nat × Nat)
  deriving DecidableEq, Repr

/-- One virtual channel of a router input (R91, R94, R66). -/
structure InVc where
  buf : List Flit
  cur : Option Passing
  discard : Bool
  deriving DecidableEq, Repr

/-- A flint on an output, with the cycle it was raised in and the input it came from (R88, R90). -/
structure FlintOut where
  cyc : Nat
  inp : Nat
  dest : BitVec 8
  stratum : Bool
  deriving DecidableEq, Repr

/-- One router: input VCs (key input × 8 + VC), holders of output VCs (1 + key of the input VC, 0 free), credit counters of its outputs, those that the originators hold for its local inputs (R85, R111), round-robin pointers, and what stands on its wires. -/
structure Router where
  inv : Tab InVc
  own : Tab Nat
  cred : Tab Nat
  lcred : Tab Nat
  rrVc : Tab Nat
  rrIn : Tab Nat
  outw : Tab (List RawFlit)
  inw : Tab (List RawFlit)
  crOut : List (Nat × Nat)
  flints : Tab (Option FlintOut)
  deriving DecidableEq, Repr

/-- A link test under way (R447, R448): the CTL it answers, whether it repairs, whether it is LDTEST, whether it still drains, the lanes that failed the pattern, whether spares ran out. -/
structure LinkTest where
  ctl : Pkt
  repair : Bool
  live : Bool
  draining : Bool
  failed : List Nat
  exh : Bool
  deriving DecidableEq, Repr

/-- The bookkeeping of one link direction beside its registers: the repair pending with its apply step and whether the sender took it, the LREPAIR it answers and the lanes that wait (R442), the training pass under way, 0 while the buffers empty (R444), the test, LREINITs waiting, CTLs that wait for a test or a repair to finish (R446), lanes marked MARGINAL, the lowest margin of a rotation and that rotation's number (R441, R449), the window's error counts, the apply step of the last repair (R442), the TAGs of the LPEERs that the sending agent has not answered, and that of the repair pending (R59, R442). -/
structure LinkX where
  pend : Option (Nat × Nat × Bool)
  repCtl : Option Pkt
  waiting : List Nat
  passes : Nat
  test : Option LinkTest
  ctls : List Pkt
  later : List Pkt
  marginal : List Nat
  rotMin : Nat
  rot : Nat
  winErr : Tab Nat
  window : Nat
  lastKa : Option Nat
  peers : List (BitVec 12)
  peer : BitVec 12
  deriving DecidableEq, Repr

/-- A request an initiator NI has accepted on Q (R107, R111, R135, R227). `hold`: at its acceptance an earlier access that it is ordered after had another class, stratum or DEST (R112). `seq`: its place in the order of acceptance. -/
structure NiReq where
  seq : Nat
  op : BitVec 4
  q : QReq
  stratum : Bool
  dest : BitVec 10
  pdom : BitVec 4
  cache : BitVec 2
  order : BitVec 2
  data : List Line
  dbe : BitVec 64
  tstamp : BitVec 32
  refuse : Option (BitVec 4)
  hold : Bool
  deriving DecidableEq, Repr

/-- A non-posted request injected and not yet answered (R116, R117), with its place in the order of acceptance. `lost`: its master was reset (R127). -/
structure NiOut where
  seq : Nat
  tag : BitVec 12
  mtag : BitVec 8
  op : BitVec 4
  dest : BitVec 10
  cls : BitVec 2
  stratum : Bool
  addr : BitVec 48
  len : BitVec 8
  lost : Bool
  at_ : Nat
  deriving DecidableEq, Repr

/-- An access injected by a port since the last drain: its stratum, destination and first and last 64-byte block (R114). -/
structure NiAcc where
  stratum : Bool
  dest : BitVec 10
  lo : Nat
  hi : Nat
  deriving DecidableEq, Repr

/-- An answer waiting on S: `entry` when it occupies an entry of the response buffer, `np` when it answers a non-posted request, `sent` when that request had been injected, `pu` the epoch whose in-flight counter falls when it leaves (R116, R235). -/
structure SResp where
  mtag : BitVec 8
  code : BitVec 4
  data : List Line
  entry : Bool
  np : Bool
  sent : Bool
  pu : Option Bool
  deriving DecidableEq, Repr

/-- A request whose header an initiator NI has injected and whose tail flit still stands on its wires (R108, R116, R235): its place in the order of acceptance, class, tag of the master and stratum. `posted`: the tail brings its OK; `dbl`: a DOORBELL, which no PU counts; `owed`: the OK is still to be given. -/
structure NiGo where
  seq : Nat
  cls : BitVec 2
  mtag : BitVec 8
  stratum : Bool
  posted : Bool
  dbl : Bool
  owed : Bool
  deriving DecidableEq, Repr

/-- A request presented to an endpoint (R115, R118). `dead`: answered without the endpoint. `old` and `stored`: what an ATM read and what it wrote (R56). `qaddr`: QADDR as it is presented (R125). `at_`: the cycle in which QVALID was first raised for it (R118). -/
structure Pres where
  mtag : BitVec 8
  pkt : Pkt
  qaddr : BitVec 48
  np : Bool
  taken : Bool
  dead : Bool
  old : Option W
  stored : Option W
  at_ : Option Nat
  deriving DecidableEq, Repr

/-- A mailbox entry (R124). -/
structure MboxEntry where
  box : Nat
  pkt : Pkt
  deriving DecidableEq, Repr

/-- One NI port. The first part serves the initiator kind, the second the other kinds. Of an initiator: the number of the next request, the packets of which flits still stand on its wires, the TAGs held out of use until a cycle, the TAGs of requests that an abort abandoned with the cycle of their injection (R117, R129), the cycle of the slot used last (R121), the items taken on Q and D while the tile's core does not run (R382). Of a message NI: the mailbox whose entry stands on Q (R105, R124). -/
structure Ni where
  nextSeq : Nat
  injq : List NiReq
  dwait : Option NiReq
  outs : List NiOut
  going : List NiGo
  sresp : List SResp
  held : List (BitVec 12 × Nat)
  tok : Tab Nat
  tokAt : Nat
  slotBank : Bool
  slotOld : Bool
  slotUsed : Option Nat
  hist : List NiAcc
  epLow : Bool
  epUp : Bool
  waitZero : Bool
  abandoned : List (BitVec 12 × Nat)
  xin : Nat
  disAt : Nat
  frame : Nat
  frameLk : Nat
  frameBk : Nat
  rx : List Pkt
  pres : List Pres
  rspq : List Pkt
  mbox : List MboxEntry
  mboxLast : Nat
  mboxQ : Option Nat
  clkStop : Bool
  deriving DecidableEq, Repr

/-- A spread CTL that awaits its own action or relays at an agent (R300): the relays not answered, with the tiles each covers, what has been combined, and the status word of its own answer. -/
structure Spread where
  ctl : Pkt
  own : Bool
  waits : List (Nat × Nat)
  value : W
  ok : Nat
  bad : Nat
  silent : Nat
  resp : BitVec 4
  bits : BitVec 32
  deriving DecidableEq, Repr

/-- A tile agent and its island: CTLs and CRSPs taken, packets to inject, spreads under way, held events, the end of a HOLD in basalt ticks, the capture time, the power state that a CTL by SRC and TAG met, the tick in which a HOLD by SRC and TAG was received (R372), the CTLs for this tile alone whose local action still runs (R295, R446), a wake under way, when the tile went IDLE, trace records, the self-test running (R295, R299, R304, R321, R372, R455). -/
structure Agent where
  rx : List Pkt
  crsps : List Pkt
  outq : List Pkt
  sinkq : List Pkt
  spreads : List Spread
  edge : List Nat
  level : List (Nat × Bool)
  holdEnd : Option Nat
  capT : W
  pwrAt : List (BitVec 10 × BitVec 12 × Nat)
  holdAt : List (BitVec 10 × BitVec 12 × Nat)
  busy : List Pkt
  waking : Bool
  idleAt : Nat
  traceq : List (List W)
  bist : Option Nat
  mbistDone : Bool
  deriving DecidableEq, Repr

/-- The event controller beside its registers (R323, R325, R337, R462). `once`: for an event that is raised at most once in a management cycle, 1 + the cycle of its last occurrence (R69, R163, R211, R241). -/
structure Evc where
  stks : Tab (List (Nat × Nat))
  spur : BitVec 64
  irq : BitVec 64
  wakes : Tab Nat
  evq : List Nat
  rx : List Pkt
  outq : List Pkt
  lEdge : List Nat
  lLevel : List (Nat × Bool)
  lMerge : Nat
  lBadsrc : Nat
  lKinderr : Nat
  lNondbl : Nat
  once : Tab Nat
  deriving DecidableEq, Repr

/-- A job from its start to its completion record, with the context that last ran it (R247, R289). -/
structure Job where
  ring : RingId
  jobid : BitVec 16
  len : Nat
  evt : Bool
  pchain : Bool
  ptime : Bool
  w : Vector W 16
  pc : BitVec 12
  lastPc : BitVec 12
  insns : Nat
  tserr : Nat
  sref : Nat
  key : Nat
  lastCtx : CtxId
  deriving DecidableEq, Repr

/-- A step of a stratum instruction or of a barrier that awaits the combined CRSP of a spread (R140, R141, R144, R146, R147, R153, R267). `failed`: the agents that did not confirm a FLIP, known once the CRSP has come, while schedulers still have to switch. `revert`: the step belongs to STCOMMIT with REVERT. `left`: the agents that reported PAUSE in the gather before, to which RELEASE went again (R144). -/
inductive StepKind where
  | prepCopy
  | commitBarrier
  | flip (revert : Bool) (failed : Option Nat)
  | flush
  | gather (revert : Bool) (left : Nat)
  | release (revert : Bool)
  | queryGather
  | barrier (abandoned : Nat)
  deriving DecidableEq, Repr

/-- What a context waits for (R261, R262, R264 to R269, R394): an access of LDC or STC, a condition, a time, a fence, a lock, a CRSP, a gather, a change of the timebase, a step of a stratum instruction, the accesses and messages numbered below id and key that a BARR or the barrier of an STCOMMIT awaits, the injection of the CTL of a TSEND or TBCAST, a CRSP that makes room for the next one. -/
inductive Wait where
  | none
  | access
  | waitc (cond : BitVec 9)
  | waitt (target : W)
  | fence (pu : Nat)
  | lock (slot : Nat) (lease : Nat)
  | call (id : Nat) (l : Bool)
  | gather (id : Nat)
  | time (at_ : Nat)
  | step (k : StepKind) (id : Nat)
  | barrDrain (ch : Bool) (id key : Nat)
  | commitDrain (id key : Nat)
  | inject (tag : BitVec 12) (dest : BitVec 10)
  | room
  deriving DecidableEq, Repr

/-- What a context does with the answer of its control-space access: a load, of half a register or of all, a store, a store with status, a load of WAITC (R255, R256, R265). -/
inductive AccUse where
  | load
  | half (hi : Bool)
  | store
  | status
  | poll
  deriving DecidableEq, Repr

/-- Why a job ends at its next instruction boundary (R279, R281, R284); an abort sets HEAD to the tail that the ring had at the reset. -/
inductive Due where
  | runlim
  | abort (tail : Nat)
  | mcheck
  deriving DecidableEq, Repr

/-- One execution context: its job, the word of its current instruction, what it waits for, the end of the wait in basalt ticks, its access outstanding with its number, use and control address, when the job last started or resumed, and why it must end. -/
structure Ctx where
  job : Option Job
  word : BitVec 32
  wait : Wait
  deadline : Nat
  acc : Option (Nat × AccUse × W)
  started : Nat
  due : Option Due
  deriving DecidableEq, Repr

/-- What an outstanding CTL belongs to (R260 to R262, R254, R307): a TSEND, a TBCAST, a TCALL or a gather, the configuration access of the CFG port, a step of an instruction, the local part of a chain operation that a parent asked for. -/
inductive CtlKind where
  | send
  | bcast
  | call
  | port
  | step
  | chain (opid : BitVec 16)
  deriving DecidableEq, Repr

/-- A CTL of the sequencer or of the CFG port that awaits its CRSP: its number, TAG and destination, the context, job and ring it was sent for, the basalt tick of its send, the tiles in its scope, the opid of the chain operation it belongs to. `held`: the packet while it awaits a TAG that no outstanding CTL bears (R59). -/
structure OutCtl where
  id : Nat
  tag : BitVec 12
  dest : BitVec 10
  kind : CtlKind
  ctx : CtxId
  key : Nat
  ring : Nat
  sent : Nat
  tiles : Nat
  op : Option (BitVec 16)
  held : Option Pkt
  deriving DecidableEq, Repr

/-- The sequencer beside its registers: contexts, save slots, the ring from which a job was taken last, CTLs outstanding, numbers for CTLs and jobs, LOCKs that wait, the ends of leases in basalt ticks, packets to inject and received, messages abandoned since the last BARR, the plane on which it still sends under the old stratum and the context that runs the stratum instructions (R143), whether the last FLIP round was partial (R154), the gate-list banks written since STPREP (R137), the scrubber's place, the cycle of the last FLIP. -/
structure Seq where
  ctx : Vector Ctx 4
  saved : Tab (Option Job)
  lastRing : Nat
  ctls : List OutCtl
  nextId : Nat
  nextKey : Nat
  lockq : List (Nat × CtxId)
  leaseEnd : Tab Nat
  outq : List Pkt
  rx : List Pkt
  abandoned : Nat
  planeStr : Option Plane
  strCtx : Option CtxId
  partialFlip : Bool
  written : BitVec 32
  scrub : Nat
  flipAt : Nat
  deriving DecidableEq, Repr

/-- An access on its way through the crossbar (R344, R350): its master and the rights it carries, the number of the host's request or of the context's access, the beats of a write that have arrived, the CTL of its beat under way, the beats answered, and for an inbound access of the chain the number of its remote access. -/
structure Acc where
  master : Nat
  who : Master
  req : Nat
  ctx : Option CtxId
  write : Bool
  inst : BitVec 8
  off : BitVec 26
  beats : Nat
  data : List W
  strb : List (BitVec 8)
  done : List (Nat × W)
  deriving DecidableEq, Repr

/-- One target port (R351 to R354, R358): holder, the CTL, chain TAG or apply cycle that it waits for, whether its answer is sunk, consecutive transactions, the last master granted, pending slots with the requests behind them in the order of arrival, the winner decided in the cycle of the last response beat and whether it keeps the port (R353). -/
structure XPort where
  holder : Option Acc
  waits : Option Nat
  sunk : Bool
  cons : Nat
  last : Nat
  pend : List Acc
  next : Option (Nat × Bool)
  deriving DecidableEq, Repr

/-- The answer to a host request: a code and a word for each beat; a write has one beat (R346, R348). -/
structure HAns where
  beats : List (BitVec 3 × W)
  deriving DecidableEq, Repr

/-- One host port: the requests accepted and not delivered, in order, by number, with their answers (none: not answered by its target yet), the answers delivered (R349), write beats that came before their write (R357), by write in the order of acceptance the beats that it still owes, also those of a write that was discarded (R348, R358), items in its crossing while the management clock stands (R382), its reset, the wait of R361, its stopped clock, the level of HSREADY (R347), the EVC_IRQ levels that its side of the crossing holds while it cannot take others (R382). -/
structure XHost where
  reqs : List (Nat × Option HAns)
  out : List HAns
  extra : List (W × BitVec 8)
  owed : List (Nat × Nat)
  xin : Nat
  low : Bool
  waitClear : Bool
  stopped : Bool
  hold : Bool
  irqKept : Option (BitVec 8)
  deriving DecidableEq, Repr

/-- The management domain's clock: running, stopped, its wake started, running again before the restore (R336, R380). -/
inductive MState where
  | running | retention | waking | clocked
  deriving DecidableEq, Repr

/-- A toggle crossing with its coalescing counter (R384). -/
structure Ct where
  busy : Bool
  cnt : Nat
  delivered : Nat
  deriving DecidableEq, Repr

/-- The power controller beside its registers: the smoothed estimate in mW, the window's counts, PM_GOVCAP and PM_GOVCOEF as they stood when the window began (R391), the tiles being switched off (R376, R380, R384, R388 to R390). -/
structure Pm where
  pavg : Rat
  hops : Nat
  niflits : Nat
  cells : Nat
  cap : W
  coef : W
  satSeen : Bool
  mstate : MState
  cts : Tab Ct
  offing : List Nat
  deriving DecidableEq, Repr

/-- A packet record (R168). -/
structure Rec where
  cp0 : Nat
  len : Nat
  ncells : Nat
  color : Nat
  hit : Bool
  pool : Nat
  tstamp : BitVec 32
  fidx : Option Nat
  qid : Nat
  ptrs : Line
  deriving DecidableEq, Repr

/-- Where a queue's record is: in the record store, in memory, or on its way from memory to the store (R169). -/
inductive RecAt where
  | store | memory | reading
  deriving DecidableEq, Repr

/-- A record of a queue, with its ring index modulo 2^24. -/
structure QRec where
  rec_ : Rec
  at_ : RecAt
  idx : Nat
  deriving DecidableEq, Repr

/-- One queue beside its registers: its records in ring order, DRR deficit and turn, the time of its last sample in ns (R169, R186, R199). -/
structure Queue where
  recs : List QRec
  dc : Nat
  turn : Bool
  lastSmp : Option Nat
  deriving DecidableEq, Repr

/-- A read of a scheduler port: what it reads and, once answered, its data (R174). -/
structure SpRead where
  rid : Nat
  cp : Nat
  bytes : Nat
  done : Bool
  data : List Line
  deriving DecidableEq, Repr

/-- A packet selected and not yet freed (R174 to R177): its class and SEQ, the data cells known, whether the extension cell is still to be read, the reads issued. `disc`: discarded by colour, waiting for its extension cell only (R212). -/
structure Sel where
  rec_ : Rec
  cls : BitVec 2
  seq : Nat
  cells : List Nat
  xneed : Bool
  xrid : Option Nat
  reads : List SpRead
  issued : Bool
  delivered : Bool
  failed : Bool
  disc : Bool
  deriving DecidableEq, Repr

/-- The gate lists of a scheduler: the bank in force, its start, the start of the other bank's list when that is pending (R217). -/
structure Gate where
  bank : Bool
  start : Nat
  pend : Option Nat
  deriving DecidableEq, Repr

/-- A record read of a scheduler port: its tag, queue and ring index. -/
structure RecRead where
  rid : Nat
  qid : Nat
  idx : Nat
  deriving DecidableEq, Repr

/-- A record write not yet answered: its port, tag, queue and ring index. -/
structure RecWrite where
  port : Nat
  tag : Nat
  qid : Nat
  idx : Nat
  deriving DecidableEq, Repr

/-- A block of a free list: a free cell that holds up to 63 further free pointers (R161). -/
structure FBlock where
  cell : Nat
  ptrs : List Nat
  deriving DecidableEq, Repr

/-- The free list of a channel (R161): the blocks that frees have stacked, the top one first; below them the blocks that INIT built, whose top one still holds `left` pointers of INIT and the pointers `back` freed into it; `base` cells of INIT stand on the list. -/
structure FreeList where
  blocks : List FBlock
  left : Nat
  back : List Nat
  base : Nat
  deriving DecidableEq, Repr

/-- A packet dropped at its ENQ whose extension cell is being read: the port and the tag of the read, the pool, the cells known, the cells that the extension cell names (R167). -/
structure XDrop where
  port : Nat
  tag : Nat
  pool : Nat
  cells : List Nat
  more : Nat
  deriving DecidableEq, Repr

/-- The traffic manager beside its registers: the configuration that INIT took over; the cells handed out from the lists that INIT built; the free list of each channel and the channel each pool used last; the queues; DRR lists and tags by scheduler × 4,096 + group, virtual times by scheduler × 8 + class; shaper, port, meter and policer tokens with the running time of the last refill, in bytes × 8,000 × 2^32 (shapers) and bytes × 8,000,000 × 2^32 (meters and policers); the tree bank of each scheduler and the bank its FLIP named; gates; selected packets; reads and writes of records; samples written and the management cycle of the last; the extension cells that a port reads for a drop; the cycle of the decisions now made, the schedulers that made one in it, and the bytes each has charged a shaper in it; packets in and out by port (R161 to R219). -/
structure Tm where
  cfg : W
  alloc : List Nat
  built : Bool
  initBusy : Bool
  lists : Tab FreeList
  lastCh : Tab Nat
  qs : Tab Queue
  drr : Tab (List Nat)
  stag : Tab Nat
  vt : Tab Nat
  sh : Tab (Int × Nat)
  ptok : Tab (Int × Nat)
  mtr : Tab (Nat × Nat × Nat)
  pol : Tab (Nat × Nat)
  tree : BitVec 32
  flipTree : BitVec 32
  gates : Tab Gate
  disp : Tab (List Sel)
  recReads : Tab (List RecRead)
  wrns : List RecWrite
  nextRid : Nat
  alt : BitVec 32
  smpN : Nat
  smpAt : Option Nat
  xdrops : List XDrop
  dcyc : Nat
  dset : List Nat
  owed : Tab Nat
  rx : Tab (List Pkt)
  outq : Tab (List Pkt)
  spFrame : Tab (Nat × Nat × Nat)
  deriving DecidableEq, Repr

/-- A key that the learn engine is inserting: the key, the LEN of its ENQ, the path of entry indices from the slot for the key to the slot the next move fills, every slot of the path chosen, and the cycle of a move's first write while its second is to come (R180, R181, R183). -/
structure Learn where
  key : BitVec 128
  len : Nat
  path : List Nat
  slots : List Nat
  half : Option Nat
  deriving DecidableEq, Repr

/-- The flow table beside its entries and registers: keys to learn with their lengths, the insertion in progress, the age clock, the bucket the scanner visits next (R179, R180, R182). -/
structure Flow where
  learnq : List (BitVec 128 × Nat)
  cur : Option Learn
  age : BitVec 16
  scan : Nat
  deriving DecidableEq, Repr

/-- A section entry of a slot header (R411). -/
structure Sect where
  type : Nat
  dest : Nat
  off : Nat
  len : Nat
  crc : Nat
  deriving DecidableEq, Repr

/-- A slot header that passed the header checks: version, key slot, section entries, the header bytes (R410). -/
structure SlotHdr where
  version : Nat
  keyidx : Nat
  sects : List Sect
  bytes : List Byte
  deriving DecidableEq, Repr

/-- What the loader has still to do of a load or of the hand-over (R412, R415): a register write as master BL, the dispatch table, the control store, the end of a slot's load or its failure, the end of the hand-over. -/
inductive LoadStep where
  | write (o : Nat) (v : W) (strb : BitVec 8)
  | disp (bytes : List Byte)
  | mcode (bytes : List Byte)
  | loaded (hdr : SlotHdr) (sects : List (Sect × List Byte))
  | fails (code : Nat)
  | handed
  deriving DecidableEq, Repr

/-- The boot loader beside its registers (R403 to R416, R434): the slots that passed the header checks, the slot chosen first, the slot being loaded, the digest of the signed message, BOOTPROG's length in words, whether every check has passed, the image read by offset (from the serial memory, or the QDATA received), the steps that follow an access of its that waits for its port (R342), the two outputs. -/
structure Boot where
  hdrA : Option SlotHdr
  hdrB : Option SlotHdr
  first : Bool
  cur : Bool
  msgHash : Nat
  tail : Nat
  ready : Bool
  image : List (Nat × List Byte)
  todo : List LoadStep
  bootDone : Bool
  bootFail : Bool
  deriving DecidableEq, Repr

/-- The fuse array and the TAP (R417, R422, R423, R451): the instruction, its data registers, the status of FPROG, the word being programmed, what the data register captured last, the MBIST register. -/
structure Tap where
  fuses : Tab W
  ir : BitVec 4
  faddr : BitVec 8
  fdata : W
  status : BitVec 8
  prog : Option Nat
  captured : W
  mb : BitVec 32
  deriving DecidableEq, Repr

/-- A chain frame kept for replay or sent (R428, R429). -/
structure Frame where
  hdr : FrameHdr
  body : FrameBody
  deriving DecidableEq, Repr

/-- One chain port: SEQ of the next frame to send and to receive, frames kept for replay with the replays of each, frames that wait for room there, consecutive good TRAIN frames, the peer's RXOK, the frames launched in their order (R429). -/
structure CPort where
  txSeq : BitVec 8
  rxSeq : BitVec 8
  replay : List (Frame × Nat)
  wait : List Frame
  goodTrain : Nat
  peerOk : Bool
  out : List Frame
  deriving DecidableEq, Repr

/-- An enumeration in progress at an instance: GEN, the next address, the downstream port whose ENUMRET it awaits, whether a child answered FULL (R430). -/
structure Enum where
  gen : BitVec 8
  next : Nat
  port : Nat
  full : Bool
  deriving DecidableEq, Repr

/-- A remote write to every instance that this one floods, or an inbound access that it performs (R432, R433): number, TAG and originator, the downstream ports still to answer, whether its own part is done, the highest code, whether the answer goes up. -/
structure Remote where
  key : Nat
  tag : BitVec 8
  src : BitVec 8
  flood : Bool
  waits : List Nat
  own : Bool
  code : Nat
  data : List W
  up : Bool
  deriving DecidableEq, Repr

/-- A chain operation in progress at this instance (R307, R308): OPID, the gather's OP, the ports that await OPUP with the tiles below each, whether the local part is done, what has been combined, whether the answer goes up, whether event 945 was raised. -/
structure ChainOp where
  opid : BitVec 16
  op : Nat
  waits : List (Nat × Nat)
  own : Bool
  value : W
  ok : Nat
  bad : Nat
  silent : Nat
  resp : BitVec 4
  up : Bool
  raised : Bool
  deriving DecidableEq, Repr

/-- The chain control beside its registers: ports, enumeration, inbound and flooded accesses, operations, numbers for TAGs, OPIDs and records, a broadcast asked for while one goes on, QREQs sent, a chain reload of the microcode (R284, R434), the frames, with their ports, that stand in the crossing to the management domain while its clock stands (R382). -/
structure Chain where
  ports : Vector CPort 3
  enum : Option Enum
  remotes : List Remote
  ops : List ChainOp
  nextTag : BitVec 8
  nextOp : BitVec 16
  nextKey : Nat
  bcastWanted : Bool
  qtries : Nat
  reload : Bool
  xin : List (Nat × Frame)
  deriving DecidableEq, Repr

/-- OBS beside its registers: the changes of the link settings that wait, each with its boundary, and the settings in force (R450), by probe the bindings so far (R452), the SEQ of its next record, the mark that records were lost and the matches since sampling (R454, R455), by buffer the records left after its trigger, the trace records that have arrived (R456). -/
structure Obs where
  calPend : List (Nat × Bool × Nat)
  calLog2 : Nat
  calEn : Bool
  binds : Tab Nat
  seqs : Tab Nat
  lost : List Nat
  sampCnt : Tab Nat
  post : Tab (Option Nat)
  rx : List (List W)
  deriving DecidableEq, Repr

/-- The block. -/
structure State where
  pending : List Instr
  cyc : Nat
  rst0 : Nat
  bas0 : Nat
  porstLow : Bool
  rstLow : Bool
  build : Build
  regs : Tab W
  micro : Tab (BitVec 96)
  tb : TimeBase
  routers : Tab Router
  links : Tab LinkX
  nis : Tab Ni
  agents : Tab Agent
  evc : Evc
  seq : Seq
  xports : Tab XPort
  hosts : Tab XHost
  pm : Pm
  tm : Tm
  ft : Flow
  boot : Boot
  tap : Tap
  chn : Chain
  obs : Obs
  free : Nat
  deriving DecidableEq, Repr

/-- The parameter set of the state after reset (DESIGN CHOICE, notes/assumptions/3.md). -/
def Build.sample : Build where
  kinds := [⟨0, 0, 143, .initiator⟩, ⟨1, 0, 1, .engine⟩, ⟨2, 0, 0, .engine⟩, ⟨1, 2, 7, .target⟩, ⟨2, 1, 7, .message⟩,
    ⟨1, 8, 39, .engine⟩, ⟨2, 8, 39, .engine⟩, ⟨1, 40, 55, .engine⟩, ⟨2, 40, 55, .message⟩, ⟨1, 56, 143, .target⟩,
    ⟨2, 64, 127, .memory⟩]
  root := 0
  dbep := 0x002#10
  cfgep := 0x001#10
  obsTrace := 0x005#10
  qpEp := [0xD1#10, 0xD5#10, 0xD9#10, 0xDD#10, 0xE1#10, 0xE5#10, 0xE9#10, 0xED#10, 0x101#10, 0x105#10, 0x109#10,
    0x10D#10, 0x111#10, 0x115#10, 0x119#10, 0x11D#10]
  spEpA := [0x021#10, 0x025#10, 0x029#10, 0x02D#10, 0x041#10, 0x045#10, 0x049#10, 0x04D#10, 0x051#10, 0x055#10, 0x059#10,
    0x05D#10, 0x061#10, 0x065#10, 0x069#10, 0x06D#10, 0x081#10, 0x085#10, 0x089#10, 0x08D#10, 0x091#10, 0x095#10, 0x099#10,
    0x09D#10, 0x0A1#10, 0x0A5#10, 0x0A9#10, 0x0AD#10, 0x0C1#10, 0x0C5#10, 0x0C9#10, 0x0CD#10]
  spEpB := [0x022#10, 0x026#10, 0x02A#10, 0x02E#10, 0x042#10, 0x046#10, 0x04A#10, 0x04E#10, 0x052#10, 0x056#10, 0x05A#10,
    0x05E#10, 0x062#10, 0x066#10, 0x06A#10, 0x06E#10, 0x082#10, 0x086#10, 0x08A#10, 0x08E#10, 0x092#10, 0x096#10, 0x09A#10,
    0x09E#10, 0x0A2#10, 0x0A6#10, 0x0AA#10, 0x0AE#10, 0x0C2#10, 0x0C6#10, 0x0CA#10, 0x0CE#10]
  chnRoot := true
  chnBoot := false

/-- The timebase after fabric reset: network time 0, not valid, 0.4 ns a cycle (R367, R395, R400). -/
def TimeBase.reset : TimeBase := ⟨0, 0, 0x66666666, 0, [], none, none, false, none⟩
/-- An empty input VC. -/
def InVc.reset : InVc := ⟨[], none, false⟩
/-- A router after fabric reset (R91, R93). -/
def Router.reset : Router := ⟨[], [], [], [], [], [], [], [], [], []⟩
/-- A link direction with nothing pending. -/
def LinkX.reset : LinkX := ⟨none, none, [], 0, none, [], [], [], 63, 0, [], 0, none, [], 0⟩
/-- A port after fabric reset. The round robin of its mailboxes starts at mailbox 0 (DESIGN CHOICE, notes/assumptions/144.md). -/
def Ni.reset : Ni :=
  ⟨0, [], none, [], [], [], [], [], 0, false, false, none, [], false, true, false, [], 0, 0, 0, 0, 0, [], [], [], [], 15, none, false⟩
/-- An agent after fabric reset. -/
def Agent.reset : Agent := ⟨[], [], [], [], [], [], [], none, 0, [], [], [], false, 0, [], none, false⟩
/-- The event controller after fabric reset. -/
def Evc.reset : Evc := ⟨[], 0, 0, [], [], [], [], [], [], 0, 0, 0, 0, []⟩
/-- A context without a job. -/
def Ctx.reset : Ctx := ⟨none, 0, .none, 0, none, 0, none⟩
/-- The sequencer after fabric reset; the ring search starts at ring 0. -/
def Seq.reset : Seq :=
  ⟨Vector.replicate 4 Ctx.reset, [], 7, [], 0, 1, [], [], [], [], 0, none, none, false, 0, 0, 0⟩
/-- A target port after reset: the pointer stands as though master 10 had been granted last (R351). -/
def XPort.reset : XPort := ⟨none, none, false, 0, 10, [], none⟩
/-- A host port out of reset. -/
def XHost.reset : XHost := ⟨[], [], [], [], 0, false, false, false, false, none⟩
/-- The power controller after reset. -/
def Pm.reset : Pm := ⟨0, 0, 0, 0, 0, 0x0202159A028F0614, false, .running, [], []⟩
/-- An empty queue. -/
def Queue.reset : Queue := ⟨[], 0, false, none⟩
/-- Gate lists after fabric reset: bank 0 in force. -/
def Gate.reset : Gate := ⟨false, 0, none⟩
/-- A free list before INIT: empty. -/
def FreeList.reset : FreeList := ⟨[], 0, [], 0⟩
/-- The traffic manager after fabric reset. -/
def Tm.reset : Tm :=
  ⟨0x000036003FFFFFFF, [], false, false, [], [], [], [], [], [], [], [], [], [], 0, 0, [], [], [], [], 0, 0, 0, none, [], 0, [], [], [], [], []⟩
/-- The flow table after fabric reset. -/
def Flow.reset : Flow := ⟨[], none, 0, 0⟩
/-- The loader before its first step. -/
def Boot.reset : Boot := ⟨none, none, false, false, 0, 0, false, [], [], false, false⟩
/-- The TAP after Test-Logic-Reset, with blank fuses (R417, R422). -/
def Tap.reset : Tap := ⟨[], 1, 0, 0, 0, none, 0, 0⟩
/-- A chain port before training. -/
def CPort.reset : CPort := ⟨0, 0, [], [], 0, false, []⟩
/-- The chain control after cold reset. -/
def Chain.reset : Chain := ⟨Vector.replicate 3 CPort.reset, none, [], [], 0, 0, 0, false, 0, false, []⟩
/-- The observation block after fabric reset: calibration runs with CALPLOG2 16 (R450). -/
def Obs.reset : Obs := ⟨[], 16, true, [], [], [], [], [], []⟩

/-- The machine right after reset: both reset inputs still asserted, every register at its reset value, nothing in flight, no command waiting. -/
def State.reset : State where
  pending := []
  cyc := 0
  rst0 := 0
  bas0 := 0
  porstLow := true
  rstLow := true
  build := Build.sample
  regs := []
  micro := []
  tb := TimeBase.reset
  routers := []
  links := []
  nis := []
  agents := []
  evc := Evc.reset
  seq := Seq.reset
  xports := []
  hosts := []
  pm := Pm.reset
  tm := Tm.reset
  ft := Flow.reset
  boot := Boot.reset
  tap := Tap.reset
  chn := Chain.reset
  obs := Obs.reset
  free := 0

end Sys2Proof.Machine
end

