-- ==== Sys2Proof/Machine/Packet.lean ====
section
/-! DEFINITION. Commands, the header bit map, and the flits of a packet (R39 to R60). -/
namespace Sys2Proof.Machine

-- Commands (R54).
namespace Cmd
def RD : BitVec 6 := 0x01
def WR : BitVec 6 := 0x02
def WRN : BitVec 6 := 0x03
def ATM : BitVec 6 := 0x04
def MSG : BitVec 6 := 0x05
def DBL : BitVec 6 := 0x06
def PKT : BitVec 6 := 0x07
def ENQ : BitVec 6 := 0x08
def CTL : BitVec 6 := 0x09
def RDATA : BitVec 6 := 0x21
def WACK : BitVec 6 := 0x22
def CRSP : BitVec 6 := 0x23
end Cmd

-- Response codes (R61).
namespace Resp
def OK : BitVec 4 := 0
def DECERR : BitVec 4 := 1
def PROT : BitVec 4 := 2
def FENCED : BitVec 4 := 3
def POISON : BitVec 4 := 4
def RETRY : BitVec 4 := 5
def TIMEOUT : BitVec 4 := 6
def ABORTED : BitVec 4 := 7
end Resp

/-- A response code as the receiver takes it: reserved codes are treated as DECERR (R61). -/
def respRead (r : BitVec 4) : BitVec 4 := if 8 ≤ r.toNat then Resp.DECERR else r

/-- The answer command of a request; none for posted and reserved commands (R54, R58). -/
def answerOf (c : BitVec 6) : Option (BitVec 6) :=
  if c = Cmd.RD ∨ c = Cmd.ATM then some Cmd.RDATA
  else if c = Cmd.WRN ∨ c = Cmd.MSG ∨ c = Cmd.PKT ∨ c = Cmd.ENQ then some Cmd.WACK
  else if c = Cmd.CTL then some Cmd.CRSP
  else none

/-- The plane on which a command is sent: reserved codes have none (R54). -/
def planeOf (c : BitVec 6) : Option Nat :=
  if 1 ≤ c.toNat ∧ c.toNat ≤ 9 then some 0 else if 0x21 ≤ c.toNat ∧ c.toNat ≤ 0x23 then some 1 else none

/-- The least and the greatest data flit count of a command (R54). -/
def dfcRange (c : BitVec 6) : Option (Nat × Nat) :=
  if c = Cmd.RD ∨ c = Cmd.DBL ∨ c = Cmd.WACK then some (0, 0)
  else if c = Cmd.WR ∨ c = Cmd.WRN ∨ c = Cmd.PKT then some (1, 4)
  else if c = Cmd.ATM then some (1, 1)
  else if c = Cmd.MSG ∨ c = Cmd.CTL ∨ c = Cmd.RDATA ∨ c = Cmd.CRSP then some (0, 4)
  else if c = Cmd.ENQ then some (0, 1)
  else none

/-- The command is one of the plane's, with a data flit count in its range (R58). -/
def cmdValid (pl : Nat) (c : BitVec 6) (dfc : Nat) : Bool :=
  planeOf c == some pl && (match dfcRange c with | some (a, b) => decide (a ≤ dfc) && decide (dfc ≤ b) | none => false)

/-- Data flits of n bytes (R48). -/
def flitsFor (n : Nat) : Nat := (n + 63) / 64

/-- The header of a packet with zero in its CRC field (R46). -/
def pktHeader (k : Pkt) : Line :=
  let f (v : Line) (lo : Nat) (x : Nat) : Line := v ||| (BitVec.ofNat 512 x <<< lo)
  f (f (f (f (f (f (f (f (f (f (f (f (f (f (f (f (f (f 0 0 k.dest.toNat) 10 k.src.toNat) 20 k.cls.toNat) 22 k.cmd.toNat)
    28 k.dfc.toNat) 32 k.tag.toNat) 44 k.resp.toNat) 48 k.pdom.toNat) 52 k.cache.toNat) 54 k.order.toNat)
    56 k.atop.toNat) 64 k.addr.toNat) 112 k.lenm1.toNat) 128 k.be.toNat) 192 k.qid.toNat) 224 k.tstamp.toNat)
    256 k.fkey.toNat) 384 k.aux.toNat

/-- The fields that a header holds (R46); receivers ignore reserved fields (R47). -/
def hdrOf (l : Line) : Pkt :=
  { dest := l.extractLsb' 0 10, src := l.extractLsb' 10 10, cls := l.extractLsb' 20 2, cmd := l.extractLsb' 22 6,
    dfc := l.extractLsb' 28 3, tag := l.extractLsb' 32 12, resp := l.extractLsb' 44 4, pdom := l.extractLsb' 48 4,
    cache := l.extractLsb' 52 2, order := l.extractLsb' 54 2, atop := l.extractLsb' 56 2, addr := l.extractLsb' 64 48,
    lenm1 := l.extractLsb' 112 8, be := l.extractLsb' 128 64, qid := l.extractLsb' 192 16, tstamp := l.extractLsb' 224 32,
    fkey := l.extractLsb' 256 128, aux := l.extractLsb' 384 32, data := [], stratum := false : Pkt }

/-- The CRC of a packet: header bytes 0 to 59, then every data flit (R67). -/
def pktCrc (hdr : Line) (data : List Line) : BitVec 32 :=
  crc32c ((bytesOf hdr).take 60 ++ data.flatMap bytesOf)

/-- The header flit's payload, CRC included. -/
def pktHeadFlit (k : Pkt) : Line := pktHeader k ||| (BitVec.ofNat 512 (pktCrc (pktHeader k) k.data).toNat <<< 480)

/-- The fields that a command does not use are zero (R47, R54). -/
def pktNorm (k : Pkt) : Pkt :=
  let b : Pkt :=
    { dest := k.dest, src := k.src, cls := k.cls, cmd := k.cmd, dfc := BitVec.ofNat 3 k.data.length, tag := k.tag,
      pdom := k.pdom, tstamp := k.tstamp, data := k.data, stratum := k.stratum }
  let m : Pkt := { b with addr := k.addr, lenm1 := k.lenm1, cache := k.cache, order := k.order }
  if k.cmd = Cmd.RD then m
  else if k.cmd = Cmd.WR ∨ k.cmd = Cmd.WRN then { m with be := k.be }
  else if k.cmd = Cmd.ATM then { m with atop := k.atop }
  else if k.cmd = Cmd.MSG then { b with addr := k.addr, lenm1 := k.lenm1 }
  else if k.cmd = Cmd.DBL then { b with aux := k.aux }
  else if k.cmd = Cmd.PKT then { b with addr := k.addr, lenm1 := k.lenm1, qid := k.qid, fkey := k.fkey }
  else if k.cmd = Cmd.ENQ then { b with addr := k.addr, qid := k.qid, fkey := k.fkey, aux := k.aux }
  else if k.cmd = Cmd.CTL then { b with aux := k.aux, lenm1 := k.lenm1 }
  else if k.cmd = Cmd.RDATA then { b with resp := k.resp, lenm1 := k.lenm1 }
  else if k.cmd = Cmd.WACK then { b with resp := k.resp }
  else if k.cmd = Cmd.CRSP then { b with resp := k.resp, lenm1 := k.lenm1, aux := k.aux }
  else b

/-- The response to a request (R59): its stratum is set at injection. A response that is not OK carries no data (R60). -/
def respTo (q : Pkt) (code : BitVec 4) (lenm1 : BitVec 8) (data : List Line) (aux : BitVec 32 := 0) : Option Pkt :=
  (answerOf q.cmd).map (fun c =>
    { dest := q.src, src := q.dest, cls := q.cls, cmd := c, dfc := 0, tag := q.tag, pdom := q.pdom, tstamp := q.tstamp,
      resp := code, lenm1 := if data.isEmpty then 0 else lenm1, aux := aux, data := data : Pkt })

/-- Flit types (R39). -/
def ftHeadTail : Nat := 0
def ftHead : Nat := 1
def ftBody : Nat := 2
def ftTail : Nat := 3

/-- The type of flit i of a packet with n data flits (R41). -/
def ftypeOf (i n : Nat) : Nat := if n = 0 then ftHeadTail else if i = 0 then ftHead else if i = n then ftTail else ftBody

/-- The sideband byte (R39). -/
def sideband (vc ftype : Nat) (stratum poison : Bool) : BitVec 8 :=
  BitVec.ofNat 8 (vc % 8 + 8 * (ftype % 4) + 32 * stratum.toNat + 64 * poison.toNat)

/-- A flit as it leaves a router or an originator, with LAR for a header and LAP (R85). -/
def rawFlit (pay : Line) (chk : BitVec 64) (sb : BitVec 8) (lar : Nat) : RawFlit :=
  { pay := pay, chk := chk, sb := sb, sbc := sbCheck sb, lar := BitVec.ofNat 4 lar,
    lap := Bool.xor true (parity (BitVec.ofNat 4 lar)) }

/-- The flits of a packet as its originator sends them on VC class × 2 (R40, R64). -/
def pktFlits (k : Pkt) (lar : Nat) (poison : Bool := false) : List RawFlit :=
  let n := k.data.length
  let vc := 2 * k.cls.toNat
  rawFlit (pktHeadFlit k) (rsEncode (pktHeadFlit k)) (sideband vc (ftypeOf 0 n) k.stratum false) lar
    :: (List.range n).map (fun i =>
      rawFlit (k.data.getD i 0) (rsEncode (k.data.getD i 0)) (sideband vc (ftypeOf (i + 1) n) k.stratum poison) 0)

end Sys2Proof.Machine
end

