-- ==== Sys2Proof/Config.lean ====
section
/-! DEFINITION. What the SKV-Z144 parameter set fixes (R2), and the free values: constants without a body, of which no proof can know anything (notes/assumptions/5.md). -/
namespace Sys2Proof.Config

/-- Length of every row ring (R2). -/
def gridX : Nat := 12
/-- Length of every column ring (R2). -/
def gridY : Nat := 12
/-- Fabric cycles in one basalt tick at 2.5 GHz and 50 MHz (R8). -/
def cyclesPerTick : Nat := 50
/-- The member code of XB_IDENT (R2, R5). -/
def member : BitVec 16 := 0x0144#16

/-- Where the search for an unused SERIAL starts for the n-th CTL that the sequencer originates: R296 says only that SERIAL tells outstanding CTLs apart. -/
opaque freeSerial : Nat → Nat
/-- The low seven bits of the FUNC code of an engine function: R298 leaves the values in 0x80 to 0xFF to the implementation. The argument numbers the function. -/
opaque engineFunc : Nat → BitVec 7
/-- The data flit of an engine function's CTL (R298); the argument numbers the function's operands. -/
opaque engineArgs : Nat → BitVec 512
/-- The KIND byte of an OPDN frame (R428, R307): the spec names the byte and gives it no coding. The argument numbers the operation. -/
opaque opKind : Nat → BitVec 8
/-- The CODE byte of a test function's answer where R442 and R446 name an answer and give it no code: LATE, and the success of LREPAIR. The argument is the model's count of free values. -/
opaque freeCode : Nat → BitVec 8
/-- Whether the PU at an index lets a remote sequencer's write through: a chain frame carries no ring (R428), so R239 does not decide it. -/
opaque remoteSequencerOwns : Nat → Bool
/-- The payload of a data flit that a router or an NI makes up to complete a packet: R53, R127 and R129 say only that it is poisoned. -/
opaque freeLine : Nat → BitVec 512
/-- The address in the WR of a trace record: R455 names its endpoint and no address. The argument is the model's count of free values. -/
opaque traceAddr : Nat → BitVec 48

end Sys2Proof.Config
end

