-- ==== Sys2Proof/Machine/Fields.lean ====
section
/-! DEFINITION. The fields of the registers, as the register tables of spec/ give them: low bit, width, access code, reset value. A field that fuses, pins or the parameter set fill has reset 0 here; Regs.lean and the resets fill it. -/
namespace Sys2Proof.Machine

/-- The access codes (R9). -/
inductive Code where
  | ro | rw | w1s | w1c | wo | sq | fz
  deriving DecidableEq, Repr

/-- One field of a register. -/
structure Fd where
  lo : Nat
  w : Nat
  code : Code
  rst : Nat
  deriving DecidableEq, Repr

/-! R5, XB_IDENT -/
def XB_IDENT.VENDOR : Fd := ⟨16, 16, .ro, 0xd1a4⟩
def XB_IDENT.MEMBER : Fd := ⟨0, 16, .ro, 0x144⟩
def rowsXB_IDENT : List Fd := [XB_IDENT.VENDOR, XB_IDENT.MEMBER]
/-! R5, XB_REV -/
def XB_REV.MAJOR : Fd := ⟨8, 8, .ro, 2⟩
def XB_REV.MINOR : Fd := ⟨0, 8, .ro, 1⟩
def rowsXB_REV : List Fd := [XB_REV.MAJOR, XB_REV.MINOR]
/-! R80, TL_CTL -/
def TL_CTL.PEN : Fd := ⟨0, 8, .sq, 0xff⟩
def rowsTL_CTL : List Fd := [TL_CTL.PEN]
/-! R80, TL_MAP -/
def TL_MAP.COL_DL : Fd := ⟨52, 4, .sq, 0xb⟩
def TL_MAP.ROW_DL : Fd := ⟨48, 4, .sq, 0xb⟩
def TL_MAP.COL_S : Fd := ⟨36, 12, .sq, 0xfff⟩
def TL_MAP.COL_N : Fd := ⟨24, 12, .sq, 0xfff⟩
def TL_MAP.ROW_W : Fd := ⟨12, 12, .sq, 0xfff⟩
def TL_MAP.ROW_E : Fd := ⟨0, 12, .sq, 0xfff⟩
def rowsTL_MAP : List Fd := [TL_MAP.COL_DL, TL_MAP.ROW_DL, TL_MAP.COL_S, TL_MAP.COL_N, TL_MAP.ROW_W, TL_MAP.ROW_E]
/-! R80, TL_RSTAT -/
def TL_RSTAT.FSDROP : Fd := ⟨48, 16, .sq, 0⟩
def TL_RSTAT.FSREQ : Fd := ⟨32, 16, .sq, 0⟩
def TL_RSTAT.LAREPAIR : Fd := ⟨16, 16, .sq, 0⟩
def TL_RSTAT.UNROUTE : Fd := ⟨0, 16, .sq, 0⟩
def rowsTL_RSTAT : List Fd := [TL_RSTAT.FSDROP, TL_RSTAT.FSREQ, TL_RSTAT.LAREPAIR, TL_RSTAT.UNROUTE]
/-! R131, TL_NICFG -/
def TL_NICFG.ABTO : Fd := ⟨32, 16, .sq, 0x100⟩
def TL_NICFG.RTO : Fd := ⟨16, 16, .sq, 0xc35⟩
def TL_NICFG.KIND : Fd := ⟨8, 2, .ro, 0⟩
def TL_NICFG.STATE : Fd := ⟨4, 2, .ro, 0⟩
def TL_NICFG.FORCE : Fd := ⟨1, 1, .sq, 0⟩
def TL_NICFG.ENABLE : Fd := ⟨0, 1, .sq, 0⟩
def rowsTL_NICFG : List Fd := [TL_NICFG.ABTO, TL_NICFG.RTO, TL_NICFG.KIND, TL_NICFG.STATE, TL_NICFG.FORCE, TL_NICFG.ENABLE]
/-! R131, TL_NISTAT -/
def TL_NISTAT.LATE : Fd := ⟨48, 16, .sq, 0⟩
def TL_NISTAT.DROP : Fd := ⟨32, 16, .sq, 0⟩
def TL_NISTAT.DECERR_CNT : Fd := ⟨16, 16, .sq, 0⟩
def TL_NISTAT.OUTSTD : Fd := ⟨0, 9, .ro, 0⟩
def rowsTL_NISTAT : List Fd := [TL_NISTAT.LATE, TL_NISTAT.DROP, TL_NISTAT.DECERR_CNT, TL_NISTAT.OUTSTD]
/-! R131, TL_NIERR -/
def TL_NIERR.MALFORMED : Fd := ⟨48, 16, .sq, 0⟩
def TL_NIERR.MISROUTE : Fd := ⟨32, 16, .sq, 0⟩
def TL_NIERR.CRCERR : Fd := ⟨16, 16, .sq, 0⟩
def TL_NIERR.POISONED : Fd := ⟨0, 16, .sq, 0⟩
def rowsTL_NIERR : List Fd := [TL_NIERR.MALFORMED, TL_NIERR.MISROUTE, TL_NIERR.CRCERR, TL_NIERR.POISONED]
/-! R131, TL_NILIM -/
def TL_NILIM.MAXNP : Fd := ⟨0, 9, .sq, 0x40⟩
def rowsTL_NILIM : List Fd := [TL_NILIM.MAXNP]
/-! R131, TL_NIREG -/
def TL_NIREG.EN : Fd := ⟨63, 1, .sq, 0⟩
def TL_NIREG.TOKENS : Fd := ⟨40, 8, .ro, 0⟩
def TL_NIREG.BURST : Fd := ⟨24, 8, .sq, 5⟩
def TL_NIREG.RATE : Fd := ⟨0, 16, .sq, 0⟩
def rowsTL_NIREG : List Fd := [TL_NIREG.EN, TL_NIREG.TOKENS, TL_NIREG.BURST, TL_NIREG.RATE]
/-! R131, TL_NIDEC -/
def TL_NIDEC.SIZE : Fd := ⟨58, 6, .sq, 0⟩
def TL_NIDEC.DEST : Fd := ⟨48, 10, .sq, 0⟩
def TL_NIDEC.BASE : Fd := ⟨12, 36, .sq, 0⟩
def TL_NIDEC.V : Fd := ⟨0, 1, .sq, 0⟩
def rowsTL_NIDEC : List Fd := [TL_NIDEC.SIZE, TL_NIDEC.DEST, TL_NIDEC.BASE, TL_NIDEC.V]
/-! R131, TL_NISLOT -/
def TL_NISLOT.V : Fd := ⟨4, 1, .sq, 0⟩
def TL_NISLOT.CONN : Fd := ⟨0, 4, .sq, 0⟩
def rowsTL_NISLOT : List Fd := [TL_NISLOT.V, TL_NISLOT.CONN]
/-! R131, TL_NIMBOX -/
def TL_NIMBOX.EN : Fd := ⟨63, 1, .sq, 0⟩
def TL_NIMBOX.COUNT : Fd := ⟨40, 8, .ro, 0⟩
def TL_NIMBOX.EVT : Fd := ⟨8, 1, .sq, 0⟩
def TL_NIMBOX.DEPTH : Fd := ⟨0, 7, .sq, 0⟩
def rowsTL_NIMBOX : List Fd := [TL_NIMBOX.EN, TL_NIMBOX.COUNT, TL_NIMBOX.EVT, TL_NIMBOX.DEPTH]
/-! R131, TL_NIDOMEN -/
def TL_NIDOMEN.DOMEN : Fd := ⟨0, 9, .sq, 0⟩
def rowsTL_NIDOMEN : List Fd := [TL_NIDOMEN.DOMEN]
/-! R149, TL_STRAT -/
def TL_STRAT.OLDRS : Fd := ⟨32, 16, .ro, 0⟩
def TL_STRAT.OLDRQ : Fd := ⟨16, 16, .ro, 0⟩
def TL_STRAT.SLOTOLD : Fd := ⟨5, 1, .ro, 0⟩
def TL_STRAT.DLDIFF : Fd := ⟨3, 2, .ro, 0⟩
def TL_STRAT.PAUSE : Fd := ⟨1, 2, .ro, 0⟩
def TL_STRAT.INJ : Fd := ⟨0, 1, .ro, 0⟩
def rowsTL_STRAT : List Fd := [TL_STRAT.OLDRS, TL_STRAT.OLDRQ, TL_STRAT.SLOTOLD, TL_STRAT.DLDIFF, TL_STRAT.PAUSE, TL_STRAT.INJ]
/-! R150, SEQ_STSTATE -/
def SEQ_STSTATE.COMMITS : Fd := ⟨32, 32, .ro, 0⟩
def SEQ_STSTATE.WAITING : Fd := ⟨16, 8, .ro, 0⟩
def SEQ_STSTATE.WRBLOCK : Fd := ⟨12, 1, .sq, 0⟩
def SEQ_STSTATE.PAUSE : Fd := ⟨10, 2, .ro, 0⟩
def SEQ_STSTATE.DLDIFF : Fd := ⟨8, 2, .ro, 0⟩
def SEQ_STSTATE.PHASE : Fd := ⟨2, 3, .ro, 0⟩
def SEQ_STSTATE.REVERTED : Fd := ⟨1, 1, .ro, 0⟩
def SEQ_STSTATE.CUR : Fd := ⟨0, 1, .ro, 0⟩
def rowsSEQ_STSTATE : List Fd := [SEQ_STSTATE.COMMITS, SEQ_STSTATE.WAITING, SEQ_STSTATE.WRBLOCK, SEQ_STSTATE.PAUSE, SEQ_STSTATE.DLDIFF, SEQ_STSTATE.PHASE, SEQ_STSTATE.REVERTED, SEQ_STSTATE.CUR]
/-! R164, TM_PBCFG -/
def TM_PBCFG.INIT : Fd := ⟨63, 1, .wo, 0⟩
def TM_PBCFG.PBTAG : Fd := ⟨46, 10, .sq, 0⟩
def TM_PBCFG.NCHLOG2 : Fd := ⟨43, 3, .sq, 6⟩
def TM_PBCFG.CLOG2 : Fd := ⟨38, 5, .sq, 0x18⟩
def TM_PBCFG.RECBASE : Fd := ⟨0, 30, .sq, 0x3fffffff⟩
def rowsTM_PBCFG : List Fd := [TM_PBCFG.INIT, TM_PBCFG.PBTAG, TM_PBCFG.NCHLOG2, TM_PBCFG.CLOG2, TM_PBCFG.RECBASE]
/-! R164, TM_BMSTAT -/
def TM_BMSTAT.READY : Fd := ⟨63, 1, .ro, 0⟩
def TM_BMSTAT.CFGREJ : Fd := ⟨62, 1, .sq, 0⟩
def TM_BMSTAT.BADFREE : Fd := ⟨32, 16, .sq, 0⟩
def TM_BMSTAT.FREE : Fd := ⟨0, 30, .ro, 0⟩
def rowsTM_BMSTAT : List Fd := [TM_BMSTAT.READY, TM_BMSTAT.CFGREJ, TM_BMSTAT.BADFREE, TM_BMSTAT.FREE]
/-! R164, TM_POOLCH -/
def TM_POOLCH.CHMASK : Fd := ⟨0, 64, .sq, 0⟩
def rowsTM_POOLCH : List Fd := [TM_POOLCH.CHMASK]
/-! R164, TM_POOLQ -/
def TM_POOLQ.HELD : Fd := ⟨32, 30, .ro, 0⟩
def TM_POOLQ.MAXHELD : Fd := ⟨0, 30, .sq, 0⟩
def rowsTM_POOLQ : List Fd := [TM_POOLQ.HELD, TM_POOLQ.MAXHELD]
/-! R173, TM_QPART -/
def TM_QPART.V : Fd := ⟨5, 1, .sq, 0⟩
def TM_QPART.ES : Fd := ⟨0, 5, .sq, 0⟩
def rowsTM_QPART : List Fd := [TM_QPART.V, TM_QPART.ES]
/-! R173, TM_QDESC0 -/
def TM_QDESC0.EN : Fd := ⟨63, 1, .sq, 0⟩
def TM_QDESC0.PRIV : Fd := ⟨62, 1, .sq, 0⟩
def TM_QDESC0.SAMP : Fd := ⟨61, 1, .sq, 0⟩
def TM_QDESC0.RSZ : Fd := ⟨56, 5, .sq, 0⟩
def TM_QDESC0.PF : Fd := ⟨52, 4, .sq, 1⟩
def TM_QDESC0.RBASE : Fd := ⟨0, 31, .sq, 0⟩
def rowsTM_QDESC0 : List Fd := [TM_QDESC0.EN, TM_QDESC0.PRIV, TM_QDESC0.SAMP, TM_QDESC0.RSZ, TM_QDESC0.PF, TM_QDESC0.RBASE]
/-! R173, TM_QDESC1 -/
def TM_QDESC1.MAXCELLS : Fd := ⟨32, 30, .sq, 0⟩
def TM_QDESC1.MAXDLY : Fd := ⟨0, 32, .sq, 0⟩
def rowsTM_QDESC1 : List Fd := [TM_QDESC1.MAXCELLS, TM_QDESC1.MAXDLY]
/-! R173, TM_QDESC2 -/
def TM_QDESC2.DROPS : Fd := ⟨48, 16, .sq, 0⟩
def TM_QDESC2.TAIL : Fd := ⟨24, 24, .ro, 0⟩
def TM_QDESC2.HEAD : Fd := ⟨0, 24, .ro, 0⟩
def rowsTM_QDESC2 : List Fd := [TM_QDESC2.DROPS, TM_QDESC2.TAIL, TM_QDESC2.HEAD]
/-! R173, TM_QDESC3 -/
def TM_QDESC3.DLYAVG : Fd := ⟨32, 32, .ro, 0⟩
def TM_QDESC3.CELLS : Fd := ⟨0, 30, .ro, 0⟩
def rowsTM_QDESC3 : List Fd := [TM_QDESC3.DLYAVG, TM_QDESC3.CELLS]
/-! R177, TM_ESOUT -/
def TM_ESOUT.DUAL : Fd := ⟨63, 1, .sq, 0⟩
def TM_ESOUT.SEQ : Fd := ⟨32, 12, .ro, 0⟩
def TM_ESOUT.DEST1 : Fd := ⟨10, 10, .sq, 0⟩
def TM_ESOUT.DEST0 : Fd := ⟨0, 10, .sq, 0⟩
def rowsTM_ESOUT : List Fd := [TM_ESOUT.DUAL, TM_ESOUT.SEQ, TM_ESOUT.DEST1, TM_ESOUT.DEST0]
/-! R177, TM_PORTMAP -/
def TM_PORTMAP.EPB : Fd := ⟨10, 10, .ro, 0⟩
def TM_PORTMAP.EPA : Fd := ⟨0, 10, .ro, 0⟩
def rowsTM_PORTMAP : List Fd := [TM_PORTMAP.EPB, TM_PORTMAP.EPA]
/-! R184, FT_CFG -/
def FT_CFG.LEARN : Fd := ⟨63, 1, .sq, 0⟩
def FT_CFG.AGEEN : Fd := ⟨62, 1, .sq, 0⟩
def FT_CFG.MAXMOV : Fd := ⟨59, 3, .sq, 4⟩
def FT_CFG.LIMIT : Fd := ⟨32, 16, .sq, 0x100⟩
def FT_CFG.UNIT : Fd := ⟨16, 16, .sq, 0x3e8⟩
def FT_CFG.SCANDIV : Fd := ⟨0, 16, .sq, 0x400⟩
def rowsFT_CFG : List Fd := [FT_CFG.LEARN, FT_CFG.AGEEN, FT_CFG.MAXMOV, FT_CFG.LIMIT, FT_CFG.UNIT, FT_CFG.SCANDIV]
/-! R184, FT_SEED -/
def FT_SEED.SEED : Fd := ⟨0, 32, .sq, 0xffffffff⟩
def rowsFT_SEED : List Fd := [FT_SEED.SEED]
/-! R184, FT_STAT -/
def FT_STAT.LQ : Fd := ⟨18, 7, .ro, 0⟩
def FT_STAT.COUNT : Fd := ⟨0, 18, .ro, 0⟩
def rowsFT_STAT : List Fd := [FT_STAT.LQ, FT_STAT.COUNT]
/-! R184, FT_CNT -/
def FT_CNT.FULL : Fd := ⟨48, 16, .sq, 0⟩
def FT_CNT.LOVF : Fd := ⟨32, 16, .sq, 0⟩
def FT_CNT.AGED : Fd := ⟨16, 16, .sq, 0⟩
def FT_CNT.ABORT : Fd := ⟨0, 16, .sq, 0⟩
def rowsFT_CNT : List Fd := [FT_CNT.FULL, FT_CNT.LOVF, FT_CNT.AGED, FT_CNT.ABORT]
/-! R186, TM_SMPCFG -/
def TM_SMPCFG.EN : Fd := ⟨63, 1, .sq, 0⟩
def TM_SMPCFG.W : Fd := ⟨32, 4, .sq, 4⟩
def TM_SMPCFG.INTVL : Fd := ⟨0, 32, .sq, 0x2710⟩
def rowsTM_SMPCFG : List Fd := [TM_SMPCFG.EN, TM_SMPCFG.W, TM_SMPCFG.INTVL]
/-! R186, TM_SMPIDX -/
def TM_SMPIDX.LOST : Fd := ⟨48, 16, .sq, 0⟩
def TM_SMPIDX.WIDX : Fd := ⟨0, 12, .ro, 0⟩
def rowsTM_SMPIDX : List Fd := [TM_SMPIDX.LOST, TM_SMPIDX.WIDX]
/-! R192, TM_QMAP -/
def TM_QMAP.GMODE : Fd := ⟨58, 1, .sq, 0⟩
def TM_QMAP.POLICE : Fd := ⟨56, 2, .sq, 0⟩
def TM_QMAP.SHEN : Fd := ⟨55, 1, .sq, 0⟩
def TM_QMAP.MTR : Fd := ⟨41, 14, .sq, 0⟩
def TM_QMAP.SHP : Fd := ⟨28, 13, .sq, 0⟩
def TM_QMAP.QUANTUM : Fd := ⟨12, 16, .sq, 0x600⟩
def TM_QMAP.GROUP : Fd := ⟨0, 12, .sq, 0⟩
def rowsTM_QMAP : List Fd := [TM_QMAP.GMODE, TM_QMAP.POLICE, TM_QMAP.SHEN, TM_QMAP.MTR, TM_QMAP.SHP, TM_QMAP.QUANTUM, TM_QMAP.GROUP]
/-! R193, TM_GRPA -/
def TM_GRPA.SHEN : Fd := ⟨41, 1, .sq, 0⟩
def TM_GRPA.SHP : Fd := ⟨28, 13, .sq, 0⟩
def TM_GRPA.WEIGHT : Fd := ⟨12, 16, .sq, 0x100⟩
def TM_GRPA.FCLASS : Fd := ⟨9, 2, .sq, 3⟩
def TM_GRPA.TC : Fd := ⟨6, 3, .sq, 0⟩
def TM_GRPA.ES : Fd := ⟨1, 5, .sq, 0⟩
def TM_GRPA.V : Fd := ⟨0, 1, .sq, 0⟩
def rowsTM_GRPA : List Fd := [TM_GRPA.SHEN, TM_GRPA.SHP, TM_GRPA.WEIGHT, TM_GRPA.FCLASS, TM_GRPA.TC, TM_GRPA.ES, TM_GRPA.V]
/-! R193, TM_GRPB -/
def TM_GRPB.RDLY : Fd := ⟨32, 32, .sq, 0⟩
def TM_GRPB.YDLY : Fd := ⟨0, 32, .sq, 0⟩
def rowsTM_GRPB : List Fd := [TM_GRPB.RDLY, TM_GRPB.YDLY]
/-! R206, TM_SHPCFG -/
def TM_SHPCFG.FORGIVE : Fd := ⟨63, 1, .wo, 0⟩
def TM_SHPCFG.CEIL : Fd := ⟨32, 24, .sq, 0x2000⟩
def TM_SHPCFG.RATE : Fd := ⟨0, 24, .sq, 0⟩
def rowsTM_SHPCFG : List Fd := [TM_SHPCFG.FORGIVE, TM_SHPCFG.CEIL, TM_SHPCFG.RATE]
/-! R206, TM_SHPSTAT -/
def TM_SHPSTAT.TOKENS : Fd := ⟨0, 32, .ro, 0⟩
def rowsTM_SHPSTAT : List Fd := [TM_SHPSTAT.TOKENS]
/-! R209, TM_MTRA -/
def TM_MTRA.PIR : Fd := ⟨32, 32, .sq, 0⟩
def TM_MTRA.CIR : Fd := ⟨0, 32, .sq, 0⟩
def rowsTM_MTRA : List Fd := [TM_MTRA.PIR, TM_MTRA.CIR]
/-! R209, TM_MTRB -/
def TM_MTRB.XBS : Fd := ⟨32, 32, .sq, 0⟩
def TM_MTRB.CBS : Fd := ⟨0, 32, .sq, 0⟩
def rowsTM_MTRB : List Fd := [TM_MTRB.XBS, TM_MTRB.CBS]
/-! R209, TM_MTRC -/
def TM_MTRC.XTOK : Fd := ⟨32, 32, .ro, 0⟩
def TM_MTRC.CTOK : Fd := ⟨0, 32, .ro, 0⟩
def rowsTM_MTRC : List Fd := [TM_MTRC.XTOK, TM_MTRC.CTOK]
/-! R209, TM_MTRD -/
def TM_MTRD.RED : Fd := ⟨44, 20, .ro, 0⟩
def TM_MTRD.YELLOW : Fd := ⟨24, 20, .ro, 0⟩
def TM_MTRD.GREEN : Fd := ⟨4, 20, .ro, 0⟩
def TM_MTRD.RESET : Fd := ⟨2, 1, .wo, 0⟩
def TM_MTRD.AWARE : Fd := ⟨1, 1, .sq, 0⟩
def TM_MTRD.MODE : Fd := ⟨0, 1, .sq, 0⟩
def rowsTM_MTRD : List Fd := [TM_MTRD.RED, TM_MTRD.YELLOW, TM_MTRD.GREEN, TM_MTRD.RESET, TM_MTRD.AWARE, TM_MTRD.MODE]
/-! R211, TM_POLA -/
def TM_POLA.BURST : Fd := ⟨32, 32, .sq, 0⟩
def TM_POLA.RATE : Fd := ⟨0, 32, .sq, 0⟩
def rowsTM_POLA : List Fd := [TM_POLA.BURST, TM_POLA.RATE]
/-! R211, TM_POLB -/
def TM_POLB.RESET : Fd := ⟨63, 1, .wo, 0⟩
def TM_POLB.DROPPED : Fd := ⟨32, 24, .ro, 0⟩
def TM_POLB.TOKENS : Fd := ⟨0, 32, .ro, 0⟩
def rowsTM_POLB : List Fd := [TM_POLB.RESET, TM_POLB.DROPPED, TM_POLB.TOKENS]
/-! R218, TM_GENT -/
def TM_GENT.INTERVAL : Fd := ⟨8, 32, .sq, 0⟩
def TM_GENT.GATES : Fd := ⟨0, 8, .sq, 0⟩
def rowsTM_GENT : List Fd := [TM_GENT.INTERVAL, TM_GENT.GATES]
/-! R218, TM_GBASE -/
def TM_GBASE.BASE : Fd := ⟨0, 64, .sq, 0⟩
def rowsTM_GBASE : List Fd := [TM_GBASE.BASE]
/-! R218, TM_GCYC -/
def TM_GCYC.NENT : Fd := ⟨32, 11, .sq, 0⟩
def TM_GCYC.CYCLE : Fd := ⟨0, 32, .sq, 0⟩
def rowsTM_GCYC : List Fd := [TM_GCYC.NENT, TM_GCYC.CYCLE]
/-! R220, TM_ESCFG -/
def TM_ESCFG.EN : Fd := ⟨63, 1, .sq, 0⟩
def TM_ESCFG.GATEMSK : Fd := ⟨40, 8, .sq, 0⟩
def TM_ESCFG.OVH : Fd := ⟨32, 8, .sq, 0⟩
def TM_ESCFG.LRATE : Fd := ⟨0, 24, .sq, 0⟩
def rowsTM_ESCFG : List Fd := [TM_ESCFG.EN, TM_ESCFG.GATEMSK, TM_ESCFG.OVH, TM_ESCFG.LRATE]
/-! R220, TM_ESCFG2 -/
def TM_ESCFG2.GADV : Fd := ⟨32, 16, .sq, 0⟩
def TM_ESCFG2.PCEIL : Fd := ⟨0, 24, .sq, 0x2000⟩
def rowsTM_ESCFG2 : List Fd := [TM_ESCFG2.GADV, TM_ESCFG2.PCEIL]
/-! R220, TM_ESSTAT -/
def TM_ESSTAT.GERR : Fd := ⟨35, 1, .sq, 0⟩
def TM_ESSTAT.LATE : Fd := ⟨34, 1, .sq, 0⟩
def TM_ESSTAT.POLMIS : Fd := ⟨33, 1, .sq, 0⟩
def TM_ESSTAT.TREEERR : Fd := ⟨32, 1, .sq, 0⟩
def TM_ESSTAT.DISC : Fd := ⟨0, 32, .sq, 0⟩
def rowsTM_ESSTAT : List Fd := [TM_ESSTAT.GERR, TM_ESSTAT.LATE, TM_ESSTAT.POLMIS, TM_ESSTAT.TREEERR, TM_ESSTAT.DISC]
/-! R220, TM_GSTAT -/
def TM_GSTAT.GATES : Fd := ⟨16, 8, .ro, 0xff⟩
def TM_GSTAT.ENTRY : Fd := ⟨3, 10, .ro, 0⟩
def TM_GSTAT.PEND : Fd := ⟨1, 1, .ro, 0⟩
def TM_GSTAT.BANK : Fd := ⟨0, 1, .ro, 0⟩
def rowsTM_GSTAT : List Fd := [TM_GSTAT.GATES, TM_GSTAT.ENTRY, TM_GSTAT.PEND, TM_GSTAT.BANK]
/-! R220, TM_GSTART -/
def TM_GSTART.START : Fd := ⟨0, 64, .ro, 0⟩
def rowsTM_GSTART : List Fd := [TM_GSTART.START]
/-! R220, TM_ESTOK -/
def TM_ESTOK.PTOK : Fd := ⟨0, 32, .ro, 0⟩
def rowsTM_ESTOK : List Fd := [TM_ESTOK.PTOK]
/-! R225, PU_RULE0 -/
def PU_RULE0.V : Fd := ⟨63, 1, .sq, 0⟩
def PU_RULE0.RD : Fd := ⟨62, 1, .sq, 0⟩
def PU_RULE0.WR : Fd := ⟨61, 1, .sq, 0⟩
def PU_RULE0.AT : Fd := ⟨60, 1, .sq, 0⟩
def PU_RULE0.MS : Fd := ⟨59, 1, .sq, 0⟩
def PU_RULE0.PK : Fd := ⟨58, 1, .sq, 0⟩
def PU_RULE0.CACHE : Fd := ⟨56, 2, .sq, 0⟩
def PU_RULE0.ORDER : Fd := ⟨54, 2, .sq, 0⟩
def PU_RULE0.BASE : Fd := ⟨12, 36, .sq, 0⟩
def rowsPU_RULE0 : List Fd := [PU_RULE0.V, PU_RULE0.RD, PU_RULE0.WR, PU_RULE0.AT, PU_RULE0.MS, PU_RULE0.PK, PU_RULE0.CACHE, PU_RULE0.ORDER, PU_RULE0.BASE]
/-! R225, PU_RULE1 -/
def PU_RULE1.LIMIT : Fd := ⟨12, 36, .sq, 0⟩
def rowsPU_RULE1 : List Fd := [PU_RULE1.LIMIT]
/-! R238, PU_VREC0 -/
def PU_VREC0.VALID : Fd := ⟨63, 1, .w1c, 0⟩
def PU_VREC0.KIND : Fd := ⟨60, 2, .ro, 0⟩
def PU_VREC0.SET : Fd := ⟨59, 1, .ro, 0⟩
def PU_VREC0.STRATUM : Fd := ⟨58, 1, .ro, 0⟩
def PU_VREC0.RULE : Fd := ⟨52, 6, .ro, 0⟩
def PU_VREC0.OP : Fd := ⟨48, 4, .ro, 0⟩
def PU_VREC0.ADDR : Fd := ⟨0, 48, .ro, 0⟩
def rowsPU_VREC0 : List Fd := [PU_VREC0.VALID, PU_VREC0.KIND, PU_VREC0.SET, PU_VREC0.STRATUM, PU_VREC0.RULE, PU_VREC0.OP, PU_VREC0.ADDR]
/-! R238, PU_VREC1 -/
def PU_VREC1.VCNT : Fd := ⟨48, 16, .ro, 0⟩
def PU_VREC1.QMTAG : Fd := ⟨40, 8, .ro, 0⟩
def PU_VREC1.OFFSET : Fd := ⟨32, 8, .ro, 0⟩
def PU_VREC1.TIME : Fd := ⟨0, 32, .ro, 0⟩
def rowsPU_VREC1 : List Fd := [PU_VREC1.VCNT, PU_VREC1.QMTAG, PU_VREC1.OFFSET, PU_VREC1.TIME]
/-! R244, PU_CTL -/
def PU_CTL.DOM : Fd := ⟨8, 4, .fz, 0⟩
def PU_CTL.DORDER : Fd := ⟨6, 2, .sq, 2⟩
def PU_CTL.DCACHE : Fd := ⟨4, 2, .sq, 0⟩
def PU_CTL.PRIV1 : Fd := ⟨3, 1, .sq, 0⟩
def PU_CTL.PRIV0 : Fd := ⟨2, 1, .sq, 0⟩
def PU_CTL.ACT : Fd := ⟨0, 1, .sq, 0⟩
def rowsPU_CTL : List Fd := [PU_CTL.DOM, PU_CTL.DORDER, PU_CTL.DCACHE, PU_CTL.PRIV1, PU_CTL.PRIV0, PU_CTL.ACT]
/-! R244, PU_CNT -/
def PU_CNT.CNT1 : Fd := ⟨16, 9, .ro, 0⟩
def PU_CNT.CNT0 : Fd := ⟨0, 9, .ro, 0⟩
def rowsPU_CNT : List Fd := [PU_CNT.CNT1, PU_CNT.CNT0]
/-! R244, PU_VSUM -/
def PU_VSUM.REC : Fd := ⟨0, 64, .ro, 0⟩
def rowsPU_VSUM : List Fd := [PU_VSUM.REC]
/-! R244, PU_ERR -/
def PU_ERR.OWNREJ : Fd := ⟨16, 1, .w1c, 0⟩
def PU_ERR.REJCNT : Fd := ⟨0, 16, .ro, 0⟩
def rowsPU_ERR : List Fd := [PU_ERR.OWNREJ, PU_ERR.REJCNT]
/-! R271, SEQ_LOCK -/
def SEQ_LOCK.LEFT : Fd := ⟨32, 32, .ro, 0⟩
def SEQ_LOCK.LEASED : Fd := ⟨8, 1, .ro, 0⟩
def SEQ_LOCK.OWNER : Fd := ⟨4, 4, .ro, 0⟩
def SEQ_LOCK.STATE : Fd := ⟨0, 2, .ro, 0⟩
def rowsSEQ_LOCK : List Fd := [SEQ_LOCK.LEFT, SEQ_LOCK.LEASED, SEQ_LOCK.OWNER, SEQ_LOCK.STATE]
/-! R282, SEQ_DISP -/
def SEQ_DISP.PAR : Fd := ⟨17, 1, .ro, 0⟩
def SEQ_DISP.VALID : Fd := ⟨16, 1, .ro, 0⟩
def SEQ_DISP.FORMAT : Fd := ⟨13, 3, .ro, 0⟩
def SEQ_DISP.START : Fd := ⟨0, 13, .ro, 0⟩
def rowsSEQ_DISP : List Fd := [SEQ_DISP.PAR, SEQ_DISP.VALID, SEQ_DISP.FORMAT, SEQ_DISP.START]
/-! R284, SEQ_MCHK -/
def SEQ_MCHK.COUNT : Fd := ⟨48, 16, .ro, 0⟩
def SEQ_MCHK.CTX : Fd := ⟨19, 2, .ro, 0⟩
def SEQ_MCHK.SCRUB : Fd := ⟨18, 1, .ro, 0⟩
def SEQ_MCHK.WHERE : Fd := ⟨17, 1, .ro, 0⟩
def SEQ_MCHK.ADDR : Fd := ⟨0, 13, .ro, 0⟩
def rowsSEQ_MCHK : List Fd := [SEQ_MCHK.COUNT, SEQ_MCHK.CTX, SEQ_MCHK.SCRUB, SEQ_MCHK.WHERE, SEQ_MCHK.ADDR]
/-! R291, SEQ_STATUS -/
def SEQ_STATUS.JOBS : Fd := ⟨32, 32, .ro, 0⟩
def SEQ_STATUS.CTXBUSY : Fd := ⟨8, 4, .ro, 0⟩
def SEQ_STATUS.DEAD : Fd := ⟨3, 1, .ro, 0⟩
def SEQ_STATUS.RELOADING : Fd := ⟨2, 1, .ro, 0⟩
def SEQ_STATUS.MCHK : Fd := ⟨1, 1, .ro, 0⟩
def SEQ_STATUS.READY : Fd := ⟨0, 1, .ro, 0⟩
def rowsSEQ_STATUS : List Fd := [SEQ_STATUS.JOBS, SEQ_STATUS.CTXBUSY, SEQ_STATUS.DEAD, SEQ_STATUS.RELOADING, SEQ_STATUS.MCHK, SEQ_STATUS.READY]
/-! R291, SEQ_CTXSTAT -/
def SEQ_CTXSTAT.JOBID : Fd := ⟨48, 16, .ro, 0⟩
def SEQ_CTXSTAT.TSOUT : Fd := ⟨32, 5, .ro, 0⟩
def SEQ_CTXSTAT.OP : Fd := ⟨25, 7, .ro, 0⟩
def SEQ_CTXSTAT.PC : Fd := ⟨8, 12, .ro, 0⟩
def SEQ_CTXSTAT.RING : Fd := ⟨4, 4, .ro, 0⟩
def SEQ_CTXSTAT.STATE : Fd := ⟨1, 3, .ro, 0⟩
def SEQ_CTXSTAT.BUSY : Fd := ⟨0, 1, .ro, 0⟩
def rowsSEQ_CTXSTAT : List Fd := [SEQ_CTXSTAT.JOBID, SEQ_CTXSTAT.TSOUT, SEQ_CTXSTAT.OP, SEQ_CTXSTAT.PC, SEQ_CTXSTAT.RING, SEQ_CTXSTAT.STATE, SEQ_CTXSTAT.BUSY]
/-! R291, SEQ_PTR -/
def SEQ_PTR.RERR : Fd := ⟨16, 1, .ro, 0⟩
def SEQ_PTR.PTR : Fd := ⟨0, 16, .rw, 0⟩
def rowsSEQ_PTR : List Fd := [SEQ_PTR.RERR, SEQ_PTR.PTR]
/-! R291, SEQ_RINGCFG -/
def SEQ_RINGCFG.CALLTO : Fd := ⟨32, 16, .sq, 0x32⟩
def SEQ_RINGCFG.MAXRUN : Fd := ⟨16, 16, .sq, 0⟩
def SEQ_RINGCFG.PCHAIN : Fd := ⟨7, 1, .sq, 0⟩
def SEQ_RINGCFG.PTIME : Fd := ⟨6, 1, .sq, 0⟩
def SEQ_RINGCFG.CTXMASK : Fd := ⟨2, 4, .sq, 0xf⟩
def SEQ_RINGCFG.EN : Fd := ⟨0, 1, .sq, 0⟩
def rowsSEQ_RINGCFG : List Fd := [SEQ_RINGCFG.CALLTO, SEQ_RINGCFG.MAXRUN, SEQ_RINGCFG.PCHAIN, SEQ_RINGCFG.PTIME, SEQ_RINGCFG.CTXMASK, SEQ_RINGCFG.EN]
/-! R315, TL_AGSTAT -/
def TL_AGSTAT.CTLCNT : Fd := ⟨48, 16, .ro, 0⟩
def TL_AGSTAT.AGDEC : Fd := ⟨32, 16, .sq, 0⟩
def TL_AGSTAT.ROOTY : Fd := ⟨24, 4, .ro, 0⟩
def TL_AGSTAT.ROOTX : Fd := ⟨20, 4, .ro, 0⟩
def TL_AGSTAT.EVHELD : Fd := ⟨8, 8, .ro, 0⟩
def TL_AGSTAT.PWR : Fd := ⟨2, 2, .ro, 0⟩
def TL_AGSTAT.RELFLT : Fd := ⟨1, 1, .sq, 0⟩
def rowsTL_AGSTAT : List Fd := [TL_AGSTAT.CTLCNT, TL_AGSTAT.AGDEC, TL_AGSTAT.ROOTY, TL_AGSTAT.ROOTX, TL_AGSTAT.EVHELD, TL_AGSTAT.PWR, TL_AGSTAT.RELFLT]
/-! R315, TL_AGOFF -/
def TL_AGOFF.COLOFF : Fd := ⟨12, 12, .sq, 0⟩
def TL_AGOFF.ROWOFF : Fd := ⟨0, 12, .sq, 0⟩
def rowsTL_AGOFF : List Fd := [TL_AGOFF.COLOFF, TL_AGOFF.ROWOFF]
/-! R315, TL_AGSNAP -/
def TL_AGSNAP.CTIME : Fd := ⟨32, 32, .ro, 0⟩
def TL_AGSNAP.LATE : Fd := ⟨2, 1, .ro, 0⟩
def TL_AGSNAP.VALID : Fd := ⟨1, 1, .ro, 0⟩
def TL_AGSNAP.ARMED : Fd := ⟨0, 1, .ro, 0⟩
def rowsTL_AGSNAP : List Fd := [TL_AGSNAP.CTIME, TL_AGSNAP.LATE, TL_AGSNAP.VALID, TL_AGSNAP.ARMED]
/-! R315, TL_AGSCR -/
def TL_AGSCR.DATA : Fd := ⟨0, 64, .sq, 0⟩
def rowsTL_AGSCR : List Fd := [TL_AGSCR.DATA]
/-! R315, TL_SNAP -/
def TL_SNAP.COPY : Fd := ⟨0, 64, .ro, 0⟩
def rowsTL_SNAP : List Fd := [TL_SNAP.COPY]
/-! R340, EVC_CFG -/
def EVC_CFG.PRISPLIT : Fd := ⟨0, 3, .sq, 3⟩
def rowsEVC_CFG : List Fd := [EVC_CFG.PRISPLIT]
/-! R340, EVC_INFO -/
def EVC_INFO.NTGT : Fd := ⟨32, 7, .ro, 0x40⟩
def EVC_INFO.NSRC : Fd := ⟨16, 10, .ro, 0x3fe⟩
def EVC_INFO.DBEP : Fd := ⟨0, 10, .ro, 0⟩
def rowsEVC_INFO : List Fd := [EVC_INFO.NTGT, EVC_INFO.NSRC, EVC_INFO.DBEP]
/-! R340, EVC_ERR -/
def EVC_ERR.BADSRC : Fd := ⟨48, 16, .sq, 0⟩
def EVC_ERR.KINDERR : Fd := ⟨32, 16, .sq, 0⟩
def EVC_ERR.NONDBL : Fd := ⟨16, 16, .sq, 0⟩
def EVC_ERR.CPLERR : Fd := ⟨0, 16, .sq, 0⟩
def rowsEVC_ERR : List Fd := [EVC_ERR.BADSRC, EVC_ERR.KINDERR, EVC_ERR.NONDBL, EVC_ERR.CPLERR]
/-! R340, EVC_CNT -/
def EVC_CNT.DBLS : Fd := ⟨32, 32, .ro, 0⟩
def EVC_CNT.OVERRUN : Fd := ⟨16, 16, .sq, 0⟩
def EVC_CNT.SAVES : Fd := ⟨0, 16, .ro, 0⟩
def rowsEVC_CNT : List Fd := [EVC_CNT.DBLS, EVC_CNT.OVERRUN, EVC_CNT.SAVES]
/-! R340, EVC_BITS -/
def EVC_BITS.BITS : Fd := ⟨0, 64, .ro, 0⟩
def rowsEVC_BITS : List Fd := [EVC_BITS.BITS]
/-! R340, EVC_SRC -/
def EVC_SRC.CLAIMER : Fd := ⟨26, 6, .ro, 0⟩
def EVC_SRC.LASTT : Fd := ⟨16, 6, .ro, 0x3f⟩
def EVC_SRC.LVLSRC : Fd := ⟨8, 1, .sq, 0⟩
def EVC_SRC.PRI : Fd := ⟨0, 8, .sq, 0⟩
def rowsEVC_SRC : List Fd := [EVC_SRC.CLAIMER, EVC_SRC.LASTT, EVC_SRC.LVLSRC, EVC_SRC.PRI]
/-! R340, EVC_TGTCFG -/
def EVC_TGTCFG.ICX : Fd := ⟨0, 1, .sq, 0⟩
def rowsEVC_TGTCFG : List Fd := [EVC_TGTCFG.ICX]
/-! R464, XB_FABEP -/
def XB_FABEP.CFGEP : Fd := ⟨0, 10, .ro, 0⟩
def rowsXB_FABEP : List Fd := [XB_FABEP.CFGEP]
/-! R362, XB_STAT -/
def XB_STAT.DEFCNT : Fd := ⟨48, 16, .sq, 0⟩
def XB_STAT.WDCNT : Fd := ⟨32, 16, .sq, 0⟩
def XB_STAT.WDSTK : Fd := ⟨0, 11, .w1c, 0⟩
def rowsXB_STAT : List Fd := [XB_STAT.DEFCNT, XB_STAT.WDCNT, XB_STAT.WDSTK]
/-! R362, XB_TCFG -/
def XB_TCFG.WDLIM : Fd := ⟨48, 16, .sq, 0x10⟩
def XB_TCFG.BLIM : Fd := ⟨36, 4, .sq, 4⟩
def XB_TCFG.PARK : Fd := ⟨32, 4, .sq, 8⟩
def XB_TCFG.PRIO : Fd := ⟨0, 22, .sq, 0x2e5555⟩
def rowsXB_TCFG : List Fd := [XB_TCFG.WDLIM, XB_TCFG.BLIM, XB_TCFG.PARK, XB_TCFG.PRIO]
/-! R362, XB_TSTAT -/
def XB_TSTAT.WDFIRE : Fd := ⟨48, 16, .sq, 0⟩
def XB_TSTAT.HOLDER : Fd := ⟨32, 4, .ro, 0xf⟩
def XB_TSTAT.PENDING : Fd := ⟨0, 11, .ro, 0⟩
def rowsXB_TSTAT : List Fd := [XB_TSTAT.WDFIRE, XB_TSTAT.HOLDER, XB_TSTAT.PENDING]
/-! R362, XB_HCFG -/
def XB_HCFG.CHAIN : Fd := ⟨0, 1, .sq, 0⟩
def rowsXB_HCFG : List Fd := [XB_HCFG.CHAIN]
/-! R362, XB_HSTAT -/
def XB_HSTAT.RSTCNT : Fd := ⟨48, 16, .ro, 0⟩
def XB_HSTAT.SUNK : Fd := ⟨32, 16, .ro, 0⟩
def XB_HSTAT.INRST : Fd := ⟨3, 1, .ro, 0⟩
def XB_HSTAT.OUTST : Fd := ⟨0, 3, .ro, 0⟩
def rowsXB_HSTAT : List Fd := [XB_HSTAT.RSTCNT, XB_HSTAT.SUNK, XB_HSTAT.INRST, XB_HSTAT.OUTST]
/-! R400, PM_CFG -/
def PM_CFG.SLPDLY : Fd := ⟨32, 16, .sq, 0x32⟩
def PM_CFG.IDLEDLY : Fd := ⟨16, 8, .sq, 0x20⟩
def PM_CFG.MRDLY : Fd := ⟨8, 8, .sq, 0x40⟩
def PM_CFG.MRETEN : Fd := ⟨0, 1, .sq, 0⟩
def rowsPM_CFG : List Fd := [PM_CFG.SLPDLY, PM_CFG.IDLEDLY, PM_CFG.MRDLY, PM_CFG.MRETEN]
/-! R400, PM_GOVCAP -/
def PM_GOVCAP.FCAP : Fd := ⟨32, 16, .fz, 0⟩
def PM_GOVCAP.CAP : Fd := ⟨0, 16, .sq, 0⟩
def rowsPM_GOVCAP : List Fd := [PM_GOVCAP.FCAP, PM_GOVCAP.CAP]
/-! R400, PM_GOVCOEF -/
def PM_GOVCOEF.ACTT : Fd := ⟨48, 16, .sq, 0x202⟩
def PM_GOVCOEF.TMCELL : Fd := ⟨32, 16, .sq, 0x159a⟩
def PM_GOVCOEF.NIFL : Fd := ⟨16, 16, .sq, 0x28f⟩
def PM_GOVCOEF.HOP : Fd := ⟨0, 16, .sq, 0x614⟩
def rowsPM_GOVCOEF : List Fd := [PM_GOVCOEF.ACTT, PM_GOVCOEF.TMCELL, PM_GOVCOEF.NIFL, PM_GOVCOEF.HOP]
/-! R400, PM_GOVSTAT -/
def PM_GOVSTAT.PAVG : Fd := ⟨48, 16, .ro, 0⟩
def PM_GOVSTAT.TL : Fd := ⟨32, 6, .ro, 0⟩
def PM_GOVSTAT.SATCNT : Fd := ⟨16, 16, .ro, 0⟩
def rowsPM_GOVSTAT : List Fd := [PM_GOVSTAT.PAVG, PM_GOVSTAT.TL, PM_GOVSTAT.SATCNT]
/-! R400, PM_RSTADDR -/
def PM_RSTADDR.TILE : Fd := ⟨48, 8, .sq, 0⟩
def PM_RSTADDR.OFFSET : Fd := ⟨0, 16, .sq, 0⟩
def rowsPM_RSTADDR : List Fd := [PM_RSTADDR.TILE, PM_RSTADDR.OFFSET]
/-! R400, PM_RSTDATA -/
def PM_RSTDATA.DATA : Fd := ⟨0, 64, .sq, 0⟩
def rowsPM_RSTDATA : List Fd := [PM_RSTDATA.DATA]
/-! R400, PM_TILE -/
def PM_TILE.CMD : Fd := ⟨48, 8, .wo, 0⟩
def PM_TILE.ST : Fd := ⟨36, 4, .ro, 0⟩
def PM_TILE.MINST : Fd := ⟨32, 2, .sq, 1⟩
def PM_TILE.WAKES : Fd := ⟨16, 16, .ro, 0⟩
def PM_TILE.REJ : Fd := ⟨7, 1, .w1c, 0⟩
def rowsPM_TILE : List Fd := [PM_TILE.CMD, PM_TILE.ST, PM_TILE.MINST, PM_TILE.WAKES, PM_TILE.REJ]
/-! R400, PM_DOMSTAT -/
def PM_DOMSTAT.FLUSHES : Fd := ⟨48, 16, .ro, 0⟩
def PM_DOMSTAT.OVFCNT : Fd := ⟨32, 16, .ro, 0⟩
def PM_DOMSTAT.OVF : Fd := ⟨1, 1, .w1c, 0⟩
def PM_DOMSTAT.FLUSHED : Fd := ⟨0, 1, .w1c, 0⟩
def rowsPM_DOMSTAT : List Fd := [PM_DOMSTAT.FLUSHES, PM_DOMSTAT.OVFCNT, PM_DOMSTAT.OVF, PM_DOMSTAT.FLUSHED]
/-! R400, TL_FENCE -/
def TL_FENCE.RSF : Fd := ⟨8, 8, .ro, 0⟩
def TL_FENCE.RQF : Fd := ⟨0, 8, .ro, 0⟩
def rowsTL_FENCE : List Fd := [TL_FENCE.RSF, TL_FENCE.RQF]
/-! R400, TB_TIME -/
def TB_TIME.NT : Fd := ⟨0, 64, .ro, 0⟩
def rowsTB_TIME : List Fd := [TB_TIME.NT]
/-! R400, TB_CFG -/
def TB_CFG.SLEWMAX : Fd := ⟨32, 16, .sq, 0x64⟩
def TB_CFG.HWLOAD : Fd := ⟨1, 1, .sq, 0⟩
def TB_CFG.INVAL : Fd := ⟨0, 1, .wo, 0⟩
def rowsTB_CFG : List Fd := [TB_CFG.SLEWMAX, TB_CFG.HWLOAD, TB_CFG.INVAL]
/-! R400, TB_PERIOD -/
def TB_PERIOD.PERIOD : Fd := ⟨0, 36, .sq, 0x66666666⟩
def rowsTB_PERIOD : List Fd := [TB_PERIOD.PERIOD]
/-! R400, TB_STAT -/
def TB_STAT.PPSIGN : Fd := ⟨48, 16, .ro, 0⟩
def TB_STAT.SLEWING : Fd := ⟨4, 1, .ro, 0⟩
def TB_STAT.ARMED : Fd := ⟨3, 1, .ro, 0⟩
def TB_STAT.PPSLOST : Fd := ⟨2, 1, .ro, 0⟩
def TB_STAT.VALID : Fd := ⟨0, 1, .ro, 0⟩
def rowsTB_STAT : List Fd := [TB_STAT.PPSIGN, TB_STAT.SLEWING, TB_STAT.ARMED, TB_STAT.PPSLOST, TB_STAT.VALID]
/-! R400, TB_PPSCAP -/
def TB_PPSCAP.CAP : Fd := ⟨0, 64, .ro, 0⟩
def rowsTB_PPSCAP : List Fd := [TB_PPSCAP.CAP]
/-! R400, TB_SLEWREM -/
def TB_SLEWREM.REM : Fd := ⟨0, 64, .ro, 0⟩
def rowsTB_SLEWREM : List Fd := [TB_SLEWREM.REM]
/-! R425, BOOT_STAT -/
def BOOT_STAT.SECURE : Fd := ⟨49, 1, .ro, 0⟩
def BOOT_STAT.KEYIDX : Fd := ⟨48, 1, .ro, 0⟩
def BOOT_STAT.VERSION : Fd := ⟨16, 32, .ro, 0⟩
def BOOT_STAT.RESB : Fd := ⟨12, 4, .ro, 1⟩
def BOOT_STAT.RESA : Fd := ⟨8, 4, .ro, 1⟩
def BOOT_STAT.FALLBACK : Fd := ⟨6, 1, .ro, 0⟩
def BOOT_STAT.SRC : Fd := ⟨5, 1, .ro, 0⟩
def BOOT_STAT.SLOT : Fd := ⟨4, 1, .ro, 0⟩
def BOOT_STAT.STATE : Fd := ⟨0, 4, .ro, 0⟩
def rowsBOOT_STAT : List Fd := [BOOT_STAT.SECURE, BOOT_STAT.KEYIDX, BOOT_STAT.VERSION, BOOT_STAT.RESB, BOOT_STAT.RESA, BOOT_STAT.FALLBACK, BOOT_STAT.SRC, BOOT_STAT.SLOT, BOOT_STAT.STATE]
/-! R425, BOOT_SPI -/
def BOOT_SPI.SLOTLOG2 : Fd := ⟨32, 6, .ro, 0⟩
def BOOT_SPI.DENSLOG2 : Fd := ⟨24, 6, .ro, 0⟩
def BOOT_SPI.DUMMY : Fd := ⟨16, 5, .ro, 0⟩
def BOOT_SPI.OPCODE : Fd := ⟨8, 8, .ro, 0⟩
def BOOT_SPI.SFDPOK : Fd := ⟨3, 1, .ro, 0⟩
def BOOT_SPI.ADDR4 : Fd := ⟨2, 1, .ro, 0⟩
def BOOT_SPI.MODE : Fd := ⟨0, 2, .ro, 0⟩
def rowsBOOT_SPI : List Fd := [BOOT_SPI.SLOTLOG2, BOOT_SPI.DENSLOG2, BOOT_SPI.DUMMY, BOOT_SPI.OPCODE, BOOT_SPI.SFDPOK, BOOT_SPI.ADDR4, BOOT_SPI.MODE]
/-! R425, BOOT_CFG -/
def BOOT_CFG.PREF : Fd := ⟨0, 1, .sq, 0⟩
def rowsBOOT_CFG : List Fd := [BOOT_CFG.PREF]
/-! R425, BOOT_MDIG -/
def BOOT_MDIG.DIG : Fd := ⟨0, 64, .ro, 0⟩
def rowsBOOT_MDIG : List Fd := [BOOT_MDIG.DIG]
/-! R425, BOOT_DATA -/
def BOOT_DATA.DATA : Fd := ⟨0, 64, .ro, 0⟩
def rowsBOOT_DATA : List Fd := [BOOT_DATA.DATA]
/-! R425, FUSE_W -/
def FUSE_W.WORD : Fd := ⟨0, 64, .fz, 0⟩
def rowsFUSE_W : List Fd := [FUSE_W.WORD]
/-! R425, FUSE_MASK -/
def FUSE_MASK.MASK : Fd := ⟨0, 56, .fz, 0⟩
def rowsFUSE_MASK : List Fd := [FUSE_MASK.MASK]
/-! R425, FUSE_CTL -/
def FUSE_CTL.MINVER : Fd := ⟨16, 8, .fz, 0⟩
def FUSE_CTL.KEYREV1 : Fd := ⟨8, 1, .fz, 0⟩
def FUSE_CTL.KEYREV0 : Fd := ⟨7, 1, .fz, 0⟩
def FUSE_CTL.DBGWR : Fd := ⟨6, 1, .fz, 0⟩
def FUSE_CTL.SPIMAX : Fd := ⟨4, 2, .fz, 0⟩
def FUSE_CTL.SCLKDIV : Fd := ⟨2, 2, .fz, 0⟩
def FUSE_CTL.TAPLOCK : Fd := ⟨1, 1, .fz, 0⟩
def FUSE_CTL.SECURE : Fd := ⟨0, 1, .fz, 0⟩
def rowsFUSE_CTL : List Fd := [FUSE_CTL.MINVER, FUSE_CTL.KEYREV1, FUSE_CTL.KEYREV0, FUSE_CTL.DBGWR, FUSE_CTL.SPIMAX, FUSE_CTL.SCLKDIV, FUSE_CTL.TAPLOCK, FUSE_CTL.SECURE]
/-! R436, CHN_ID -/
def CHN_ID.TILES : Fd := ⟨48, 16, .ro, 0⟩
def CHN_ID.MEMBER : Fd := ⟨32, 16, .ro, 0⟩
def CHN_ID.HEIGHT : Fd := ⟨24, 8, .ro, 0⟩
def CHN_ID.DEPTH : Fd := ⟨16, 8, .ro, 0⟩
def CHN_ID.ENUMD : Fd := ⟨10, 1, .ro, 0⟩
def CHN_ID.CHBOOT : Fd := ⟨9, 1, .ro, 0⟩
def CHN_ID.ROOT : Fd := ⟨8, 1, .ro, 0⟩
def CHN_ID.ADDR : Fd := ⟨0, 8, .ro, 0⟩
def rowsCHN_ID : List Fd := [CHN_ID.TILES, CHN_ID.MEMBER, CHN_ID.HEIGHT, CHN_ID.DEPTH, CHN_ID.ENUMD, CHN_ID.CHBOOT, CHN_ID.ROOT, CHN_ID.ADDR]
/-! R436, CHN_CTL -/
def CHN_CTL.GEN : Fd := ⟨8, 8, .ro, 0⟩
def CHN_CTL.REENUM : Fd := ⟨0, 1, .wo, 0⟩
def rowsCHN_CTL : List Fd := [CHN_CTL.GEN, CHN_CTL.REENUM]
/-! R436, CHN_PORT -/
def CHN_PORT.REPLAYS : Fd := ⟨48, 16, .ro, 0⟩
def CHN_PORT.SUBTILES : Fd := ⟨32, 16, .ro, 0⟩
def CHN_PORT.SUBH : Fd := ⟨24, 8, .ro, 0⟩
def CHN_PORT.HI : Fd := ⟨16, 8, .ro, 0⟩
def CHN_PORT.LO : Fd := ⟨8, 8, .ro, 0⟩
def CHN_PORT.LATE : Fd := ⟨3, 1, .w1c, 0⟩
def CHN_PORT.STATE : Fd := ⟨0, 3, .ro, 0⟩
def rowsCHN_PORT : List Fd := [CHN_PORT.REPLAYS, CHN_PORT.SUBTILES, CHN_PORT.SUBH, CHN_PORT.HI, CHN_PORT.LO, CHN_PORT.LATE, CHN_PORT.STATE]
/-! R436, CHN_ERR -/
def CHN_ERR.ROOTUP : Fd := ⟨41, 1, .w1c, 0⟩
def CHN_ERR.FULL : Fd := ⟨40, 1, .w1c, 0⟩
def CHN_ERR.BADFRAME : Fd := ⟨16, 16, .ro, 0⟩
def CHN_ERR.CRCERR : Fd := ⟨0, 16, .ro, 0⟩
def rowsCHN_ERR : List Fd := [CHN_ERR.ROOTUP, CHN_ERR.FULL, CHN_ERR.BADFRAME, CHN_ERR.CRCERR]
/-! R439, TL_LNKCOR -/
def TL_LNKCOR.C4 : Fd := ⟨48, 16, .sq, 0⟩
def TL_LNKCOR.C3 : Fd := ⟨32, 16, .sq, 0⟩
def TL_LNKCOR.C2 : Fd := ⟨16, 16, .sq, 0⟩
def TL_LNKCOR.C1 : Fd := ⟨0, 16, .sq, 0⟩
def rowsTL_LNKCOR : List Fd := [TL_LNKCOR.C4, TL_LNKCOR.C3, TL_LNKCOR.C2, TL_LNKCOR.C1]
/-! R439, TL_LNKUNC -/
def TL_LNKUNC.DOWNS : Fd := ⟨56, 8, .sq, 0⟩
def TL_LNKUNC.SBUNC : Fd := ⟨48, 8, .sq, 0⟩
def TL_LNKUNC.SBCOR : Fd := ⟨32, 16, .sq, 0⟩
def TL_LNKUNC.HDRDISC : Fd := ⟨16, 16, .sq, 0⟩
def TL_LNKUNC.UNC : Fd := ⟨0, 16, .sq, 0⟩
def rowsTL_LNKUNC : List Fd := [TL_LNKUNC.DOWNS, TL_LNKUNC.SBUNC, TL_LNKUNC.SBCOR, TL_LNKUNC.HDRDISC, TL_LNKUNC.UNC]
/-! R449, TL_LNKSTAT -/
def TL_LNKSTAT.REINITS : Fd := ⟨32, 16, .ro, 0⟩
def TL_LNKSTAT.MARGIN : Fd := ⟨26, 6, .ro, 0x3f⟩
def TL_LNKSTAT.LASTBAD : Fd := ⟨16, 10, .ro, 0⟩
def TL_LNKSTAT.TESTF : Fd := ⟨9, 1, .ro, 0⟩
def TL_LNKSTAT.PEND : Fd := ⟨8, 1, .ro, 0⟩
def TL_LNKSTAT.REPAIRS : Fd := ⟨4, 4, .ro, 0⟩
def TL_LNKSTAT.LANEXH : Fd := ⟨3, 1, .ro, 0⟩
def TL_LNKSTAT.STATE : Fd := ⟨0, 3, .ro, 0⟩
def rowsTL_LNKSTAT : List Fd := [TL_LNKSTAT.REINITS, TL_LNKSTAT.MARGIN, TL_LNKSTAT.LASTBAD, TL_LNKSTAT.TESTF, TL_LNKSTAT.PEND, TL_LNKSTAT.REPAIRS, TL_LNKSTAT.LANEXH, TL_LNKSTAT.STATE]
/-! R449, TL_LNKMAP -/
def TL_LNKMAP.STATE_H : Fd := ⟨44, 2, .ro, 0⟩
def TL_LNKMAP.LANE_H : Fd := ⟨32, 10, .ro, 0⟩
def TL_LNKMAP.STATE_L : Fd := ⟨12, 2, .ro, 0⟩
def TL_LNKMAP.LANE_L : Fd := ⟨0, 10, .ro, 0⟩
def rowsTL_LNKMAP : List Fd := [TL_LNKMAP.STATE_H, TL_LNKMAP.LANE_H, TL_LNKMAP.STATE_L, TL_LNKMAP.LANE_L]
/-! R450, OBS_LCFG -/
def OBS_LCFG.TCLASS : Fd := ⟨56, 2, .sq, 3⟩
def OBS_LCFG.DRTO : Fd := ⟨40, 16, .sq, 0x271⟩
def OBS_LCFG.TESTLOG2 : Fd := ⟨32, 5, .sq, 0x10⟩
def OBS_LCFG.CALMIN : Fd := ⟨24, 8, .sq, 8⟩
def OBS_LCFG.LTHR : Fd := ⟨16, 8, .sq, 0x10⟩
def OBS_LCFG.CALPLOG2 : Fd := ⟨8, 5, .sq, 0x10⟩
def OBS_LCFG.AUTOREP : Fd := ⟨1, 1, .sq, 1⟩
def OBS_LCFG.CALEN : Fd := ⟨0, 1, .sq, 1⟩
def rowsOBS_LCFG : List Fd := [OBS_LCFG.TCLASS, OBS_LCFG.DRTO, OBS_LCFG.TESTLOG2, OBS_LCFG.CALMIN, OBS_LCFG.LTHR, OBS_LCFG.CALPLOG2, OBS_LCFG.AUTOREP, OBS_LCFG.CALEN]
/-! R450, OBS_LNKSUM -/
def OBS_LNKSUM.TILE : Fd := ⟨0, 64, .ro, 0⟩
def rowsOBS_LNKSUM : List Fd := [OBS_LNKSUM.TILE]
/-! R451, TL_MBIST -/
def TL_MBIST.FADDR : Fd := ⟨32, 16, .ro, 0⟩
def TL_MBIST.FAILGRP : Fd := ⟨12, 3, .ro, 0⟩
def TL_MBIST.FAIL : Fd := ⟨11, 1, .ro, 0⟩
def TL_MBIST.DONE : Fd := ⟨10, 1, .ro, 0⟩
def TL_MBIST.BUSY : Fd := ⟨9, 1, .ro, 0⟩
def TL_MBIST.GROUP : Fd := ⟨1, 3, .sq, 0⟩
def TL_MBIST.START : Fd := ⟨0, 1, .wo, 0⟩
def rowsTL_MBIST : List Fd := [TL_MBIST.FADDR, TL_MBIST.FAILGRP, TL_MBIST.FAIL, TL_MBIST.DONE, TL_MBIST.BUSY, TL_MBIST.GROUP, TL_MBIST.START]
/-! R454, OBS_PRBCTL -/
def OBS_PRBCTL.OWNER : Fd := ⟨32, 4, .ro, 0xf⟩
def OBS_PRBCTL.SAMP : Fd := ⟨24, 4, .rw, 0⟩
def OBS_PRBCTL.TBUF : Fd := ⟨20, 3, .rw, 0⟩
def OBS_PRBCTL.PORT : Fd := ⟨14, 3, .rw, 0⟩
def OBS_PRBCTL.DIR : Fd := ⟨13, 1, .rw, 0⟩
def OBS_PRBCTL.PLANE : Fd := ⟨12, 1, .rw, 0⟩
def OBS_PRBCTL.TILE : Fd := ⟨4, 8, .rw, 0⟩
def OBS_PRBCTL.BINDERR : Fd := ⟨3, 1, .ro, 0⟩
def OBS_PRBCTL.BOUND : Fd := ⟨2, 1, .ro, 0⟩
def OBS_PRBCTL.TRACE : Fd := ⟨1, 1, .rw, 0⟩
def OBS_PRBCTL.EN : Fd := ⟨0, 1, .rw, 0⟩
def rowsOBS_PRBCTL : List Fd := [OBS_PRBCTL.OWNER, OBS_PRBCTL.SAMP, OBS_PRBCTL.TBUF, OBS_PRBCTL.PORT, OBS_PRBCTL.DIR, OBS_PRBCTL.PLANE, OBS_PRBCTL.TILE, OBS_PRBCTL.BINDERR, OBS_PRBCTL.BOUND, OBS_PRBCTL.TRACE, OBS_PRBCTL.EN]
/-! R456, OBS_TBCTL -/
def OBS_TBCTL.OWNER : Fd := ⟨52, 4, .ro, 0xf⟩
def OBS_TBCTL.POST : Fd := ⟨40, 11, .rw, 0⟩
def OBS_TBCTL.TRIGEN : Fd := ⟨37, 1, .rw, 0⟩
def OBS_TBCTL.TRIGP : Fd := ⟨32, 5, .rw, 0⟩
def OBS_TBCTL.LOST : Fd := ⟨16, 16, .ro, 0⟩
def OBS_TBCTL.WIDX : Fd := ⟨4, 11, .ro, 0⟩
def OBS_TBCTL.WRAPPED : Fd := ⟨3, 1, .ro, 0⟩
def OBS_TBCTL.FROZEN : Fd := ⟨2, 1, .ro, 0⟩
def OBS_TBCTL.STOPFULL : Fd := ⟨1, 1, .rw, 0⟩
def OBS_TBCTL.ARM : Fd := ⟨0, 1, .rw, 0⟩
def rowsOBS_TBCTL : List Fd := [OBS_TBCTL.OWNER, OBS_TBCTL.POST, OBS_TBCTL.TRIGEN, OBS_TBCTL.TRIGP, OBS_TBCTL.LOST, OBS_TBCTL.WIDX, OBS_TBCTL.WRAPPED, OBS_TBCTL.FROZEN, OBS_TBCTL.STOPFULL, OBS_TBCTL.ARM]

end Sys2Proof.Machine
end

