-- ==== Sys2Proof/Machine/Regs.lean ====
section
/-! DEFINITION. The management map: where every register lies (R33), which fields stand at an offset, and what it reads before anything writes it. -/
namespace Sys2Proof.Machine

/-- The ranges of R33, by their target ports of R343; `def` the default error target. -/
def baseXb : Nat := 0x0000000
def baseBf : Nat := 0x0010000
def baseChn : Nat := 0x0020000
def basePm : Nat := 0x0030000
def baseTb : Nat := 0x0038000
def baseEvc : Nat := 0x0040000
def baseSeq : Nat := 0x0080000
def basePu : Nat := 0x0100000
def baseObs : Nat := 0x0200000
def baseTl : Nat := 0x0400000
def baseTm : Nat := 0x1000000
def baseFt : Nat := 0x2000000

/-- The end of the last tile window. -/
def endTl : Nat := baseTl + 144 * 0x10000

/-- The target port that an offset belongs to (R33, R343): 0 XB to 8 CFG, 9 DEF. -/
def portOf (o : Nat) : Nat :=
  if o < 0x0010000 then 0
  else if o < 0x0020000 then 1
  else if o < 0x0030000 then 2
  else if o < 0x0040000 then 3
  else if o < 0x0080000 then 4
  else if o < 0x0100000 then 5
  else if o < 0x0200000 then 6
  else if o < 0x0300000 then 7
  else if o < 0x0400000 then 9
  else if o < 0x0D00000 then 8
  else if o < 0x1000000 then 9
  else if o < 0x2800000 then 8
  else 9

/-- A number for the range that an offset lies in; each tile window is a range of its own (R34). -/
def rangeOf (o : Nat) : Nat :=
  if baseTl ≤ o ∧ o < endTl then 100 + (o - baseTl) / 0x10000
  else if baseFt ≤ o ∧ o < 0x2800000 then 90 else portOf o

-- Tile windows.
def tlBase (t : Nat) : Nat := baseTl + t * 0x10000
/-- Router control word of a plane and bank (R80). -/
def aCtl (t pl b : Nat) : Nat := tlBase t + 0x10 * pl + 8 * b
/-- Router counters of a plane. -/
def aRstat (t pl : Nat) : Nat := tlBase t + 0x20 + 8 * pl
/-- Ring map word j of a plane and bank. -/
def aMap (t pl b j : Nat) : Nat := tlBase t + 0x100 + 0x100 * pl + 0x80 * b + 8 * j
def aStrat (t : Nat) : Nat := tlBase t + 0x30
def aFence (t : Nat) : Nat := tlBase t + 0x38
def aAgstat (t : Nat) : Nat := tlBase t + 0x40
def aAgoff (t : Nat) : Nat := tlBase t + 0x50
def aAgsnap (t : Nat) : Nat := tlBase t + 0x58
def aAgscr (t i : Nat) : Nat := tlBase t + 0x60 + 8 * i
def aSnap (t j : Nat) : Nat := tlBase t + 0x80 + 8 * j
/-- NI registers of port p (R131). -/
def niBase (t p : Nat) : Nat := tlBase t + 0x1000 * (p + 1)
def aNicfg (t p : Nat) : Nat := niBase t p
def aNistat (t p : Nat) : Nat := niBase t p + 0x008
def aNierr (t p : Nat) : Nat := niBase t p + 0x010
def aNilim (t p : Nat) : Nat := niBase t p + 0x018
def aNireg (t p c : Nat) : Nat := niBase t p + 0x020 + 8 * c
def aNidec (t p i : Nat) : Nat := niBase t p + 0x040 + 8 * i
def aNislot (t p b i : Nat) : Nat := niBase t p + 0x100 + 0x200 * b + 8 * i
def aNimbox (t p m : Nat) : Nat := niBase t p + 0x500 + 8 * m
def aNidomen (t p : Nat) : Nat := niBase t p + 0x580
/-- Input counters of a plane and router port (R439). -/
def aLnkcor (t pl q : Nat) : Nat := tlBase t + 0x4000 + 0x80 * pl + 0x10 * q
def aLnkunc (t pl q : Nat) : Nat := tlBase t + 0x4008 + 0x80 * pl + 0x10 * q
/-- Link end block: end 0 the sending output, end 1 the receiving input (R449). -/
def aLnkstat (t pl e d : Nat) : Nat := tlBase t + 0x4100 + (pl * 8 + e * 4 + d) * 0x30
def aLnkmap (t pl e d j : Nat) : Nat := aLnkstat t pl e d + 8 + 8 * j
def aMbist (t : Nat) : Nat := tlBase t + 0x4400
def aLaneerr (t pl d w : Nat) : Nat := tlBase t + 0x6000 + (pl * 4 + d) * 0x400 + 8 * w

-- Crossbar.
def aXbIdent : Nat := 0
def aXbRev : Nat := 8
def aXbStat : Nat := 0x10
def aXbFabep : Nat := 0x18
def aXbTcfg (j : Nat) : Nat := 0x100 + 8 * j
def aXbTstat (j : Nat) : Nat := 0x200 + 8 * j
def aXbHcfg (h : Nat) : Nat := 0x300 + 8 * h
def aXbHstat (h : Nat) : Nat := 0x380 + 8 * h

-- Boot and fuses.
def aBootStat : Nat := baseBf
def aBootSpi : Nat := baseBf + 8
def aBootCfg : Nat := baseBf + 0x10
def aBootMdig (i : Nat) : Nat := baseBf + 0x40 + 8 * i
def aBootData (i : Nat) : Nat := baseBf + 0x8000 + 8 * i
def aFuseW (w : Nat) : Nat := baseBf + 0x4000 + 8 * w
def aFuseUnc : Nat := baseBf + 0x4200
def aFuseCorr : Nat := baseBf + 0x4208
def aFuseCtl : Nat := baseBf + 0x4210

-- Chain.
def aChnId : Nat := baseChn
def aChnCtl : Nat := baseChn + 8
def aChnPort (p : Nat) : Nat := baseChn + 0x10 + 8 * p
def aChnErr : Nat := baseChn + 0x28

-- Power and timebase.
def aPmCfg : Nat := basePm
def aGovcap : Nat := basePm + 0x10
def aGovcoef : Nat := basePm + 0x18
def aGovstat : Nat := basePm + 0x20
def aRstaddr : Nat := basePm + 0x28
def aRstdata : Nat := basePm + 0x30
def aPmTile (t : Nat) : Nat := basePm + 0x800 + 8 * t
def aDomstat (d : Nat) : Nat := basePm + 0x2000 + 8 * d
def aTbTime : Nat := baseTb
def aTbCfg : Nat := baseTb + 8
def aTbPeriod : Nat := baseTb + 0x10
def aTbStat : Nat := baseTb + 0x18
def aTbPpscap : Nat := baseTb + 0x20
def aTbSlewrem : Nat := baseTb + 0x28

-- Event controller.
def aEvcCfg : Nat := baseEvc
def aEvcInfo : Nat := baseEvc + 8
def aEvcErr : Nat := baseEvc + 0x10
def aEvcCnt : Nat := baseEvc + 0x18
/-- PEND, read at EVC_SETPEND and EVC_CLRPEND alike. -/
def aPend (k : Nat) : Nat := baseEvc + 0x1000 + 8 * k
def aClrpend (k : Nat) : Nat := baseEvc + 0x1080 + 8 * k
def aActive (k : Nat) : Nat := baseEvc + 0x1100 + 8 * k
def aLevel (k : Nat) : Nat := baseEvc + 0x1180 + 8 * k
def aSrc (i : Nat) : Nat := baseEvc + 0x2000 + 8 * i
def aTgtcfg (t : Nat) : Nat := baseEvc + 0x4000 + 8 * t
/-- EN, read at EVC_ENSET and EVC_ENCLR alike. -/
def aEn (t k : Nat) : Nat := baseEvc + 0x10000 + 0x100 * t + 8 * k
def aEnclr (t k : Nat) : Nat := baseEvc + 0x10080 + 0x100 * t + 8 * k
def aClaim (t : Nat) : Nat := baseEvc + 0x20000 + 0x40 * t
def aComplete (t : Nat) : Nat := aClaim t + 8
def aThresh (t : Nat) : Nat := aClaim t + 0x10
def aCtx (t : Nat) : Nat := aClaim t + 0x18

-- Sequencer.
def aSeqStatus : Nat := baseSeq
def aSeqMchk : Nat := baseSeq + 8
def aCtxstat (c : Nat) : Nat := baseSeq + 0x10 + 8 * c
def aRingtail (r : Nat) : Nat := baseSeq + 0x100 + 0x20 * r
def aRinghead (r : Nat) : Nat := baseSeq + 0x108 + 0x20 * r
def aCplhead (r : Nat) : Nat := baseSeq + 0x110 + 0x20 * r
def aCpltail (r : Nat) : Nat := baseSeq + 0x118 + 0x20 * r
def aRingcfg (r : Nat) : Nat := baseSeq + 0x300 + 8 * r
def aStstate : Nat := baseSeq + 0x400
def aLock (i : Nat) : Nat := baseSeq + 0x500 + 8 * i
def aDisp (op : Nat) : Nat := baseSeq + 0x800 + 8 * op
/-- The 64-bit word that holds slots 2i and 2i + 1 of ring r. -/
def aRing (r i : Nat) : Nat := baseSeq + 0x10000 + r * 0x4000 + 8 * i
/-- Word k of completion record i of ring r (R289). -/
def aCpl (r i k : Nat) : Nat := baseSeq + 0x40000 + r * 0x2000 + 32 * i + 8 * k
def baseMicro : Nat := baseSeq + 0x60000

-- Protection units.
/-- Word w of rule r in set st of bank b of PU i (R226). -/
def aRule (i b st r w : Nat) : Nat := basePu + i * 0x800 + b * 0x400 + st * 0x200 + r * 0x10 + w * 8
def puBase (i : Nat) : Nat := 0x1E0000 + i * 0x40
def aPuCtl (i : Nat) : Nat := puBase i
def aPuCnt (i : Nat) : Nat := puBase i + 8
def aVrec0 (i : Nat) : Nat := puBase i + 0x10
def aVrec1 (i : Nat) : Nat := puBase i + 0x18
def aVsum (j : Nat) : Nat := 0x1F0000 + 8 * j
def aDommap : Nat := 0x1F0100
def aPuErr : Nat := 0x1F0108

-- Observation.
def aLcfg : Nat := baseObs
def aLnksum (j : Nat) : Nat := baseObs + 0x10 + 8 * j
def aPrb (p : Nat) : Nat := baseObs + 0x10000 + 0x80 * p
def aPrbMask (p k : Nat) : Nat := aPrb p + 8 + 8 * k
def aPrbVal (p k : Nat) : Nat := aPrb p + 0x18 + 8 * k
def aPrbCnt (p i : Nat) : Nat := aPrb p + 0x28 + 8 * i
def aTbctl (b : Nat) : Nat := baseObs + 0x20000 + 8 * b
def aTrec (b i k : Nat) : Nat := baseObs + 0x80000 + b * 0x10000 + 32 * i + 8 * k

-- Traffic manager.
def aQdesc (q w : Nat) : Nat := baseTm + q * 0x20 + 8 * w
def aQpart (i : Nat) : Nat := baseTm + 0x200000 + 8 * i
def aPbcfg : Nat := baseTm + 0x202000
def aBmstat : Nat := baseTm + 0x202008
def aPoolch (p : Nat) : Nat := baseTm + 0x202100 + 8 * p
def aPoolq (p : Nat) : Nat := baseTm + 0x202200 + 8 * p
def aEsout (k : Nat) : Nat := baseTm + 0x202300 + 8 * k
def aPortmap (i : Nat) : Nat := baseTm + 0x202400 + 8 * i
def aSmpcfg : Nat := baseTm + 0x203000
def aSmpidx : Nat := baseTm + 0x203008
/-- Word k of sample i (R186). -/
def aSample (i k : Nat) : Nat := baseTm + 0x210000 + 16 * i + 8 * k
def aQmap (b q : Nat) : Nat := baseTm + 0x400000 + b * 0x80000 + 8 * q
def aGrpa (b g : Nat) : Nat := baseTm + 0x500000 + b * 0x10000 + 0x10 * g
def aGrpb (b g : Nat) : Nat := aGrpa b g + 8
def aShpcfg (i : Nat) : Nat := baseTm + 0x520000 + 0x10 * i
def aShpstat (i : Nat) : Nat := aShpcfg i + 8
def aMtr (m w : Nat) : Nat := baseTm + 0x540000 + 0x20 * m + 8 * w
def aPola (i : Nat) : Nat := baseTm + 0x5C0000 + 0x10 * i
def aPolb (i : Nat) : Nat := aPola i + 8
def esBase (k : Nat) : Nat := baseTm + 0x5D0000 + 0x40 * k
def aEscfg (k : Nat) : Nat := esBase k
def aEscfg2 (k : Nat) : Nat := esBase k + 8
def aEsstat (k : Nat) : Nat := esBase k + 0x10
def aGstat (k : Nat) : Nat := esBase k + 0x18
def aGstart (k : Nat) : Nat := esBase k + 0x20
def aEstok (k : Nat) : Nat := esBase k + 0x28
def aGent (k b e : Nat) : Nat := baseTm + 0x600000 + k * 0x4000 + b * 0x2000 + 8 * e
def aGbase (k b : Nat) : Nat := baseTm + 0x680000 + k * 0x40 + b * 0x20
def aGcyc (k b : Nat) : Nat := aGbase k b + 8

-- Flow table.
def aFt (i w : Nat) : Nat := baseFt + 32 * i + 8 * w
def aFtCfg : Nat := baseFt + 0x400000
def aFtSeed (t : Nat) : Nat := baseFt + 0x400008 + 8 * t
def aFtStat : Nat := baseFt + 0x400018
def aFtCnt : Nat := baseFt + 0x400020

/-- o is one of the n offsets b, b + st, b + 2 st, … -/
def inArr (o b st n : Nat) : Bool := b ≤ o && (o - b) % st == 0 && (o - b) / st < n

/-- What stands at L position p of tile t (R16). -/
def kindOf (b : Build) (t p : Nat) : NiKind :=
  ((b.kinds.find? (fun r => r.p == p && r.lo ≤ t && t ≤ r.hi)).map (·.kind)).getD .none

/-- A whole word that the sequencer alone writes, or that nobody writes. -/
def wholeSq : Fd := ⟨0, 64, .sq, 0⟩
def wholeRo : Fd := ⟨0, 64, .ro, 0⟩
def wholeRw : Fd := ⟨0, 64, .rw, 0⟩

/-- Fields of the NI register at offset o of a port of kind k (R131). -/
def rowsNi (k : NiKind) (o : Nat) : List Fd :=
  if k = .none ∨ k = .engine then []
  else if o = 0 then rowsTL_NICFG
  else if o = 8 then rowsTL_NISTAT
  else if o = 0x10 then rowsTL_NIERR
  else if k = .initiator then
    if o = 0x18 then rowsTL_NILIM
    else if inArr o 0x20 8 4 then rowsTL_NIREG
    else if inArr o 0x40 8 16 then rowsTL_NIDEC
    else if inArr o 0x100 8 128 then rowsTL_NISLOT
    else []
  else if k = .message ∧ inArr o 0x500 8 16 then rowsTL_NIMBOX
  else if k = .memory ∧ o = 0x580 then rowsTL_NIDOMEN
  else []

/-- The lane counters of one word: eight of 8 bits; lanes 597 to 599 do not exist (R439). -/
def rowsTL_LANEERR (w : Nat) : List Fd :=
  (List.range 8).filterMap (fun k => if 8 * w + k < 597 then some ⟨8 * k, 8, .sq, 0⟩ else none)

/-- Fields at offset o of the window of tile t. -/
def rowsTl (b : Build) (t o : Nat) : List Fd :=
  if o < 0x20 then (if o % 8 = 0 then rowsTL_CTL else [])
  else if o < 0x30 then (if o % 8 = 0 then rowsTL_RSTAT else [])
  else if o = 0x30 then rowsTL_STRAT
  else if o = 0x38 then rowsTL_FENCE
  else if o = 0x40 then rowsTL_AGSTAT
  else if o = 0x50 then rowsTL_AGOFF
  else if o = 0x58 then rowsTL_AGSNAP
  else if inArr o 0x60 8 4 then rowsTL_AGSCR
  else if inArr o 0x80 8 10 then rowsTL_SNAP
  else if 0x100 ≤ o ∧ o < 0x300 then (if o % 8 = 0 ∧ o % 0x80 < 0x60 then rowsTL_MAP else [])
  else if 0x1000 ≤ o ∧ o < 0x4000 then rowsNi (kindOf b t (o / 0x1000 - 1)) (o % 0x1000)
  else if 0x4000 ≤ o ∧ o < 0x4100 then
    (if o % 0x10 = 0 then rowsTL_LNKCOR else if o % 0x10 = 8 then rowsTL_LNKUNC else [])
  else if 0x4100 ≤ o ∧ o < 0x4400 then
    (let k := (o - 0x4100) % 0x30
     if k = 0 then rowsTL_LNKSTAT else if inArr k 8 8 4 then rowsTL_LNKMAP else [])
  else if o = 0x4400 then rowsTL_MBIST
  else if 0x6000 ≤ o ∧ o < 0x8000 then
    (let k := o % 0x400; if k % 8 = 0 ∧ k < 75 * 8 then rowsTL_LANEERR (k / 8) else [])
  else []

/-- Fields of the XB range (R362). -/
def rowsXb (o : Nat) : List Fd :=
  if o = 0 then rowsXB_IDENT
  else if o = 8 then rowsXB_REV
  else if o = 0x10 then rowsXB_STAT
  else if o = 0x18 then rowsXB_FABEP
  else if inArr o 0x100 8 11 then rowsXB_TCFG
  else if inArr o 0x200 8 11 then rowsXB_TSTAT
  else if inArr o 0x300 8 8 then rowsXB_HCFG
  else if inArr o 0x380 8 8 then rowsXB_HSTAT
  else []

/-- Fields of the BOOT and FUSE range, o relative to its base (R425). -/
def rowsBf (o : Nat) : List Fd :=
  if o = 0 then rowsBOOT_STAT
  else if o = 8 then rowsBOOT_SPI
  else if o = 0x10 then rowsBOOT_CFG
  else if inArr o 0x40 8 6 then rowsBOOT_MDIG
  else if inArr o 0x4000 8 64 then rowsFUSE_W
  else if o = 0x4200 ∨ o = 0x4208 then rowsFUSE_MASK
  else if o = 0x4210 then rowsFUSE_CTL
  else if inArr o 0x8000 8 4096 then rowsBOOT_DATA
  else []

/-- Fields of the CHN range (R436). -/
def rowsChn (o : Nat) : List Fd :=
  if o = 0 then rowsCHN_ID
  else if o = 8 then rowsCHN_CTL
  else if inArr o 0x10 8 3 then rowsCHN_PORT
  else if o = 0x28 then rowsCHN_ERR
  else []

/-- Fields of the PM and TB range (R400). -/
def rowsPm (o : Nat) : List Fd :=
  if o = 0 then rowsPM_CFG
  else if o = 0x10 then rowsPM_GOVCAP
  else if o = 0x18 then rowsPM_GOVCOEF
  else if o = 0x20 then rowsPM_GOVSTAT
  else if o = 0x28 then rowsPM_RSTADDR
  else if o = 0x30 then rowsPM_RSTDATA
  else if inArr o 0x800 8 144 then rowsPM_TILE
  else if inArr o 0x2000 8 588 then rowsPM_DOMSTAT
  else if o = 0x8000 then rowsTB_TIME
  else if o = 0x8008 then rowsTB_CFG
  else if o = 0x8010 then rowsTB_PERIOD
  else if o = 0x8018 then rowsTB_STAT
  else if o = 0x8020 then rowsTB_PPSCAP
  else if o = 0x8028 then rowsTB_SLEWREM
  else []

/-- A word of the per-source arrays; sources 1,022 and 1,023 do not exist (R340). -/
def rowsWordK (c : Code) (k : Nat) : List Fd := [⟨0, if k = 15 then 62 else 64, c, 0⟩]

/-- The fields of a context page (R340): claim, complete, thresh, context status. -/
def rowsPage (o : Nat) : List Fd :=
  if o = 0 then [⟨0, 10, .ro, 1022⟩]
  else if o = 8 then [⟨0, 10, .wo, 0⟩]
  else if o = 0x10 then [⟨0, 8, .rw, 0⟩]
  else if o = 0x18 then [⟨0, 10, .ro, 1022⟩, ⟨10, 8, .ro, 0⟩, ⟨18, 4, .ro, 0⟩, ⟨22, 1, .ro, 0⟩, ⟨23, 1, .ro, 0⟩, ⟨24, 1, .ro, 0⟩]
  else []

/-- Fields of the EVC range (R340). -/
def rowsEvc (o : Nat) : List Fd :=
  if o = 0 then rowsEVC_CFG
  else if o = 8 then rowsEVC_INFO
  else if o = 0x10 then rowsEVC_ERR
  else if o = 0x18 then rowsEVC_CNT
  else if inArr o 0x1000 8 16 then rowsWordK .w1s ((o - 0x1000) / 8)
  else if inArr o 0x1080 8 16 then rowsWordK .w1c ((o - 0x1080) / 8)
  else if inArr o 0x1100 8 16 then rowsWordK .ro ((o - 0x1100) / 8)
  else if inArr o 0x1180 8 16 then rowsWordK .ro ((o - 0x1180) / 8)
  else if inArr o 0x2000 8 1022 then rowsEVC_SRC
  else if inArr o 0x4000 8 64 then rowsEVC_TGTCFG
  else if 0x10000 ≤ o ∧ o < 0x14000 then
    (if inArr (o % 0x100) 0 8 16 then rowsWordK .w1s (o % 0x100 / 8)
     else if inArr (o % 0x100) 0x80 8 16 then rowsWordK .w1c (o % 0x80 / 8) else [])
  else if 0x20000 ≤ o ∧ o < 0x21000 then rowsPage (o % 0x40)
  else []

/-- Fields of the SEQ range (R291); the control-store window is read apart. -/
def rowsSeq (o : Nat) : List Fd :=
  if o = 0 then rowsSEQ_STATUS
  else if o = 8 then rowsSEQ_MCHK
  else if inArr o 0x10 8 4 then rowsSEQ_CTXSTAT
  else if 0x100 ≤ o ∧ o < 0x220 then (if o % 8 = 0 then rowsSEQ_PTR else [])
  else if inArr o 0x300 8 9 then rowsSEQ_RINGCFG
  else if o = 0x400 then rowsSEQ_STSTATE
  else if inArr o 0x500 8 64 then rowsSEQ_LOCK
  else if inArr o 0x800 8 128 then rowsSEQ_DISP
  else if 0x10000 ≤ o ∧ o < 0x34000 then (if o % 8 = 0 then [wholeRw] else [])
  else if 0x40000 ≤ o ∧ o < 0x52000 then (if o % 8 = 0 then [wholeRo] else [])
  else []

/-- PU i stands in front of an initiator NI (R223). -/
def puExists (b : Build) (i : Nat) : Bool := decide (i < 432) && decide (kindOf b (i / 3) (i % 3) = .initiator)

/-- The fields of PU_DOMMAP (R244). -/
def rowsPU_DOMMAP : List Fd := [⟨0, 32, .fz, 0⟩]

/-- Fields of the PU range (R226, R244). -/
def rowsPu (b : Build) (o : Nat) : List Fd :=
  if o < 432 * 0x800 then
    (if puExists b (o / 0x800) then
      (if o % 0x10 = 0 then rowsPU_RULE0 else if o % 0x10 = 8 then rowsPU_RULE1 else []) else [])
  else if 0xE0000 ≤ o ∧ o < 0xE0000 + 432 * 0x40 then
    (if puExists b ((o - 0xE0000) / 0x40) then
      (let k := o % 0x40
       if k = 0 then rowsPU_CTL else if k = 8 then rowsPU_CNT else if k = 0x10 then rowsPU_VREC0
       else if k = 0x18 then rowsPU_VREC1 else []) else [])
  else if inArr o 0xF0000 8 7 then rowsPU_VSUM
  else if o = 0xF0100 then rowsPU_DOMMAP
  else if o = 0xF0108 then rowsPU_ERR
  else []

/-- Fields of the OBS range (R450, R454, R456). -/
def rowsObs (o : Nat) : List Fd :=
  if o = 0 then rowsOBS_LCFG
  else if inArr o 0x10 8 3 then rowsOBS_LNKSUM
  else if 0x10000 ≤ o ∧ o < 0x11000 then
    (let k := o % 0x80
     if k = 0 then rowsOBS_PRBCTL
     else if inArr k 8 8 4 then [wholeRw]
     else if inArr k 0x28 8 4 then [wholeRo] else [])
  else if inArr o 0x20000 8 8 then rowsOBS_TBCTL
  else if 0x80000 ≤ o ∧ o < 0x100000 then (if o % 8 = 0 then [wholeRo] else [])
  else []

/-- Fields of the TM range (R188, R220). -/
def rowsTm (o : Nat) : List Fd :=
  if o < 0x200000 then
    (let k := o % 0x20
     if k = 0 then rowsTM_QDESC0 else if k = 8 then rowsTM_QDESC1 else if k = 0x10 then rowsTM_QDESC2
     else if k = 0x18 then rowsTM_QDESC3 else [])
  else if inArr o 0x200000 8 1024 then rowsTM_QPART
  else if o = 0x202000 then rowsTM_PBCFG
  else if o = 0x202008 then rowsTM_BMSTAT
  else if inArr o 0x202100 8 32 then rowsTM_POOLCH
  else if inArr o 0x202200 8 32 then rowsTM_POOLQ
  else if inArr o 0x202300 8 32 then rowsTM_ESOUT
  else if inArr o 0x202400 8 48 then rowsTM_PORTMAP
  else if o = 0x203000 then rowsTM_SMPCFG
  else if o = 0x203008 then rowsTM_SMPIDX
  else if inArr o 0x210000 8 8192 then [wholeRo]
  else if inArr o 0x400000 8 131072 then rowsTM_QMAP
  else if 0x500000 ≤ o ∧ o < 0x520000 then
    (if o % 0x10 = 0 then rowsTM_GRPA else if o % 0x10 = 8 then rowsTM_GRPB else [])
  else if 0x520000 ≤ o ∧ o < 0x540000 then
    (if o % 0x10 = 0 then rowsTM_SHPCFG else if o % 0x10 = 8 then rowsTM_SHPSTAT else [])
  else if 0x540000 ≤ o ∧ o < 0x5C0000 then
    (let k := o % 0x20
     if k = 0 then rowsTM_MTRA else if k = 8 then rowsTM_MTRB else if k = 0x10 then rowsTM_MTRC
     else if k = 0x18 then rowsTM_MTRD else [])
  else if 0x5C0000 ≤ o ∧ o < 0x5C1000 then
    (if o % 0x10 = 0 then rowsTM_POLA else if o % 0x10 = 8 then rowsTM_POLB else [])
  else if 0x5D0000 ≤ o ∧ o < 0x5D0800 then
    (let k := o % 0x40
     if k = 0 then rowsTM_ESCFG else if k = 8 then rowsTM_ESCFG2 else if k = 0x10 then rowsTM_ESSTAT
     else if k = 0x18 then rowsTM_GSTAT else if k = 0x20 then rowsTM_GSTART
     else if k = 0x28 then rowsTM_ESTOK else [])
  else if inArr o 0x600000 8 65536 then rowsTM_GENT
  else if 0x680000 ≤ o ∧ o < 0x680800 then
    (if o % 0x20 = 0 then rowsTM_GBASE else if o % 0x20 = 8 then rowsTM_GCYC else [])
  else []

/-- Word 2 of a flow entry keeps its bits [58:32] zero (R178). -/
def rowsFtEntry (w : Nat) : List Fd :=
  if w = 2 then [⟨59, 5, .sq, 0⟩, ⟨0, 32, .sq, 0⟩] else [wholeSq]

/-- Fields of the FT range (R178, R184, R188). -/
def rowsFt (o : Nat) : List Fd :=
  if o < 0x400000 then (if o % 8 = 0 then rowsFtEntry (o % 32 / 8) else [])
  else if o = 0x400000 then rowsFT_CFG
  else if o = 0x400008 ∨ o = 0x400010 then rowsFT_SEED
  else if o = 0x400018 then rowsFT_STAT
  else if o = 0x400020 then rowsFT_CNT
  else []

/-- The fields at an offset of the map; none where no register stands there. -/
def rowsAt (b : Build) (o : Nat) : List Fd :=
  if o < baseBf then rowsXb o
  else if o < baseChn then rowsBf (o - baseBf)
  else if o < basePm then rowsChn (o - baseChn)
  else if o < baseEvc then rowsPm (o - basePm)
  else if o < baseSeq then rowsEvc (o - baseEvc)
  else if o < basePu then rowsSeq (o - baseSeq)
  else if o < baseObs then rowsPu b (o - basePu)
  else if o < 0x300000 then rowsObs (o - baseObs)
  else if o < baseTl then []
  else if o < endTl then rowsTl b ((o - baseTl) / 0x10000) ((o - baseTl) % 0x10000)
  else if o < baseTm then []
  else if o < baseFt then rowsTm (o - baseTm)
  else if o < 0x2800000 then rowsFt (o - baseFt)
  else []

/-- The word that a list of fields reads after reset. -/
def rstOf (rs : List Fd) : W := rs.foldl (fun v f => setFld v f.lo f.w f.rst) 0

/-- The mask of the fields with a code. -/
def maskOf (c : Code) (rs : List Fd) : W :=
  rs.foldl (fun v f => if f.code = c then setFld v f.lo f.w (2 ^ f.w - 1) else v) 0

/-- The NI kinds as TL_NICFG.KIND encodes them (R131). -/
def NiKind.code : NiKind → Nat
  | .initiator => 0 | .target => 1 | .message => 2 | .memory => 3 | .none => 0 | .engine => 0

/-- The built value, the pin, or the value of a single element of an array where it differs from the table's column. -/
def builtVal (b : Build) (o : Nat) (v : W) : W :=
  if o = aXbFabep then setFld v 0 10 b.cfgep.toNat
  else if inArr o 0x100 8 11 then
    (let j := (o - 0x100) / 8
     if j = 8 then setFld v 48 16 0x100 else if j = 10 then setFld v 48 16 0x400
     else if j = 1 then setFld v 32 4 9 else v)
  else if inArr o 0x200 8 11 then setFld v 32 4 0xF
  else if o = aEvcInfo then setFld v 0 10 b.dbep.toNat
  else if o = aRingcfg 8 then setFld (setFld (setFld v 7 1 1) 6 1 1) 0 1 1
  else if o = aChnId then
    setFld (setFld (setFld v 32 16 0x0144) 9 1 b.chnBoot.toNat) 8 1 b.chnRoot.toNat
  else if baseTl ≤ o ∧ o < endTl then
    (let t := (o - baseTl) / 0x10000; let k := (o - baseTl) % 0x10000
     if k = 0x40 then setFld (setFld v 24 4 (b.root.val / 12)) 20 4 (b.root.val % 12)
     else if 0x1000 ≤ k ∧ k < 0x4000 ∧ k % 0x1000 = 0 ∧ v ≠ 0 then setFld v 8 2 (kindOf b t (k / 0x1000 - 1)).code
     else if 0x4100 ≤ k ∧ k < 0x4400 ∧ (k - 0x4100) % 0x30 = 0x20 then setFld v 44 2 3
     else v)
  else if inArr o (baseTm + 0x202400) 8 48 then
    (let i := (o - (baseTm + 0x202400)) / 8
     if i < 16 then setFld v 0 10 ((b.qpEp.getD i 0).toNat)
     else setFld (setFld v 0 10 ((b.spEpA.getD (i - 16) 0).toNat)) 10 10 ((b.spEpB.getD (i - 16) 0).toNat))
  else if o = aFtSeed 1 then 0x5A5A5A5A#64
  else v

/-- What the register at an offset reads before anything has written it. -/
def resetVal (b : Build) (o : Nat) : W := builtVal b o (rstOf (rowsAt b o))

end Sys2Proof.Machine
end

