-- ==== Sys2Proof/Machine/Tab.lean ====
section
/-! DEFINITION. Sparse tables in one canonical form: keys strictly rising, and no entry that equals what an unlisted key reads as. -/
namespace Sys2Proof.Machine

/-- What key k reads as. -/
def tget {α : Type} (d : α) : Tab α → Nat → α
  | [], _ => d
  | (j, a) :: t, k => if j = k then a else tget d t k

/-- The table without key k. -/
def terase {α : Type} : Tab α → Nat → Tab α
  | [], _ => []
  | (j, a) :: t, k => if j = k then t else if k < j then (j, a) :: t else (j, a) :: terase t k

/-- The table with an entry at key k, in its place. -/
def tins {α : Type} : Tab α → Nat → α → Tab α
  | [], k, v => [(k, v)]
  | (j, a) :: t, k, v => if k < j then (k, v) :: (j, a) :: t else if k = j then (k, v) :: t else (j, a) :: tins t k v

/-- Key k reads v from now on; the value an unlisted key reads as removes the entry. -/
def tput {α : Type} [DecidableEq α] (d : α) (t : Tab α) (k : Nat) (v : α) : Tab α :=
  if v = d then terase t k else tins t k v

/-- Every key is above b, they rise, and no entry equals the default of its key. -/
def Tab.okAbove {α : Type} [DecidableEq α] (d : Nat → α) : Nat → Tab α → Bool
  | _, [] => true
  | b, (j, a) :: t => decide (b ≤ j) && decide (a ≠ d j) && Tab.okAbove d (j + 1) t

/-- The canonical form, for a table whose key k reads d k when it is not listed. -/
def Tab.wf {α : Type} [DecidableEq α] (d : Nat → α) (t : Tab α) : Bool := Tab.okAbove d 0 t

end Sys2Proof.Machine
end

