-- ==== Sys2Proof/Machine/Ops.lean ====
section
/-! DEFINITION. The named operations over the state: registers and their fields, the tables of components, time, and raising an event. -/
namespace Sys2Proof.Machine

-- Registers.

/-- The word stored at an offset of the management map. -/
def State.rd (s : State) (o : Nat) : W := tget (resetVal s.build o) s.regs o
/-- The state with another word at an offset. -/
def State.wr (s : State) (o : Nat) (v : W) : State := { s with regs := tput (resetVal s.build o) s.regs o v }
/-- A field of a register. -/
def State.g (s : State) (o : Nat) (f : Fd) : Nat := fld (s.rd o) f.lo f.w
/-- The state with another value in a field. -/
def State.p (s : State) (o : Nat) (f : Fd) (x : Nat) : State := s.wr o (setFld (s.rd o) f.lo f.w x)
/-- A field of one bit. -/
def State.gb (s : State) (o : Nat) (f : Fd) : Bool := s.g o f != 0
/-- The state with a field of one bit set or cleared. -/
def State.pb (s : State) (o : Nat) (f : Fd) (b : Bool) : State := s.p o f b.toNat
/-- A saturating counter goes up by n. -/
def State.sat (s : State) (o : Nat) (f : Fd) (n : Nat := 1) : State := s.p o f (satSum f.w (s.g o f) n)
/-- A wrapping counter goes up by n. -/
def State.bump (s : State) (o : Nat) (f : Fd) (n : Nat := 1) : State := s.p o f (s.g o f + n)
/-- Bit i of the word at an offset. -/
def State.bitAt (s : State) (o i : Nat) : Bool := bitOf (s.rd o) i
/-- The state with bit i of the word at an offset set or cleared. -/
def State.putBitAt (s : State) (o i : Nat) (b : Bool) : State := s.wr o (putBit (s.rd o) i b)
/-- The registers of a list of offsets go back to their reset values. -/
def State.resetRegs (s : State) (keep : Nat → Bool) : State := { s with regs := s.regs.filter (fun kv => keep kv.1) }

-- Components.

def rkey (t pl : Nat) : Nat := 2 * t + pl
def nkey (t p : Nat) : Nat := 3 * t + p
def lkey (t pl d : Nat) : Nat := (2 * t + pl) * 4 + d

def State.router (s : State) (t pl : Nat) : Router := tget Router.reset s.routers (rkey t pl)
def State.setRouter (s : State) (t pl : Nat) (r : Router) : State := { s with routers := tput Router.reset s.routers (rkey t pl) r }
def State.link (s : State) (t pl d : Nat) : LinkX := tget LinkX.reset s.links (lkey t pl d)
def State.setLink (s : State) (t pl d : Nat) (l : LinkX) : State := { s with links := tput LinkX.reset s.links (lkey t pl d) l }
def State.ni (s : State) (t p : Nat) : Ni := tget Ni.reset s.nis (nkey t p)
def State.setNi (s : State) (t p : Nat) (n : Ni) : State := { s with nis := tput Ni.reset s.nis (nkey t p) n }
def State.agent (s : State) (t : Nat) : Agent := tget Agent.reset s.agents t
def State.setAgent (s : State) (t : Nat) (a : Agent) : State := { s with agents := tput Agent.reset s.agents t a }
def State.xport (s : State) (j : Nat) : XPort := tget XPort.reset s.xports j
def State.setXport (s : State) (j : Nat) (x : XPort) : State := { s with xports := tput XPort.reset s.xports j x }
def State.host (s : State) (h : Nat) : XHost := tget XHost.reset s.hosts h
def State.setHost (s : State) (h : Nat) (x : XHost) : State := { s with hosts := tput XHost.reset s.hosts h x }
def State.queue (s : State) (q : Nat) : Queue := tget Queue.reset s.tm.qs q
def State.setQueue (s : State) (q : Nat) (x : Queue) : State := { s with tm := { s.tm with qs := tput Queue.reset s.tm.qs q x } }
def State.ctx (s : State) (c : CtxId) : Ctx := s.seq.ctx[c]
def State.setCtx (s : State) (c : CtxId) (x : Ctx) : State := { s with seq := { s.seq with ctx := s.seq.ctx.set c x } }

-- Parameter set.

def State.kind (s : State) (t p : Nat) : NiKind := kindOf s.build t p
/-- The endpoint address of port p of tile t (R17). -/
def epAddr (t p : Nat) : BitVec 10 := BitVec.ofNat 10 ((t / 12) * 64 + (t % 12) * 4 + p)
def epX (a : BitVec 10) : Nat := fld a 2 4
def epY (a : BitVec 10) : Nat := fld a 6 4
def epPort (a : BitVec 10) : Nat := fld a 0 2
/-- The address names a tile of the grid (R78). -/
def epInGrid (a : BitVec 10) : Bool := epX a < Config.gridX && epY a < Config.gridY
def epTile (a : BitVec 10) : Nat := epY a * 12 + epX a
/-- The node ID of a tile (R17). -/
def nodeId (t : Nat) : BitVec 8 := BitVec.ofNat 8 ((t / 12) * 16 + t % 12)
def nodeTile (n : BitVec 8) : Nat := fld n 4 4 * 12 + fld n 0 4
def nodeInGrid (n : BitVec 8) : Bool := fld n 0 4 < Config.gridX && fld n 4 4 < Config.gridY
/-- The QP that stands at an endpoint address, if one does. -/
def State.qpAt (s : State) (a : BitVec 10) : Option Nat := s.build.qpEp.findIdx? (· == a)
/-- The SP that stands at an endpoint address, if one does. -/
def State.spAt (s : State) (a : BitVec 10) : Option Nat :=
  match s.build.spEpA.findIdx? (· == a) with
  | some k => some k
  | none => s.build.spEpB.findIdx? (· == a)

-- Time.

/-- The fabric cycle counter (R392); every tile's agrees with every other's (R393). -/
def State.fcc (s : State) : Nat := s.cyc - s.rst0
/-- Basalt ticks since cold reset was released (R273). -/
def State.ticks (s : State) : Nat := (s.cyc - s.bas0) / Config.cyclesPerTick
/-- The magnitude of a slew's offset that n cycles of a period have absorbed (R398). -/
def Slew.absorbed (sl : Slew) (period n : Nat) : Nat := min sl.rem.natAbs (n * period * sl.ppm / 1000000)
/-- Time that has passed since cb, slew included, in units of 2^-32 ns. -/
def TimeBase.elapsed (b : TimeBase) (f : Nat) : Nat :=
  let n := f - b.cb
  match b.slew with
  | none => n * b.period
  | some sl =>
    if 0 ≤ sl.rem then n * b.period + sl.absorbed b.period n else n * b.period - sl.absorbed b.period n
/-- Network time in fabric cycle f, in units of 2^-32 ns (R392). -/
def TimeBase.nt (b : TimeBase) (f : Nat) : Nat := b.base + b.elapsed f
/-- The time that tokens and the age clock count: cycles × period, without steps (R399). -/
def TimeBase.runAt (b : TimeBase) (f : Nat) : Nat := b.run + b.elapsed f
/-- Network time as reported: whole nanoseconds, 64 bits. -/
def State.ntNs (s : State) : Nat := s.tb.nt s.fcc / 2 ^ 32 % 2 ^ 64
/-- The running time now. -/
def State.runNow (s : State) : Nat := s.tb.runAt s.fcc
/-- The low 32 bits of network time. -/
def State.stamp (s : State) : BitVec 32 := BitVec.ofNat 32 s.ntNs
/-- Time goes on to a cycle, and never back. -/
def State.until (s : State) (c : Nat) : State := { s with cyc := max s.cyc c }

-- Free values.

/-- The state whose next free value is another one. -/
def State.nextFree (s : State) : State := { s with free := s.free + 1 }

-- Tile power.

/-- PM_TILE.ST (R400). -/
def State.pst (s : State) (t : Nat) : Nat := s.g (aPmTile t) PM_TILE.ST
/-- ACTIVE, IDLE or SLEEP. -/
def State.powered (s : State) (t : Nat) : Bool := s.pst t < 3
/-- The tile's core runs: ACTIVE, FENCING, FENCED or RESTORE. -/
def State.coreRuns (s : State) (t : Nat) : Bool := s.pst t == 0 || s.pst t == 3 || s.pst t == 4 || s.pst t == 7
/-- A tile that takes no part in barriers, FLIPs, releases and gathers (R152, R376). -/
def State.asOff (s : State) (t : Nat) : Bool := 3 ≤ s.pst t

/-- A wake cause reaches the tile (R370, R386): an IDLE tile starts its wake; a SLEEP tile starts it only where the cause may wake it from SLEEP. -/
def State.wake (s : State) (t : Nat) (fromSleep : Bool) : State :=
  if s.pst t = 1 ∨ (s.pst t = 2 ∧ fromSleep = true) then
    let a := s.agent t
    if a.waking then s else s.setAgent t { a with waking := true }
  else s

-- Events.

/-- A tile's or NI's event source (R317). -/
def tileSrc (t p : Nat) : Nat := 256 + t * 4 + p

/-- A DBL for an event source: Control class, PDOM of its originator, and AUX of R57. -/
def State.dblPkt (s : State) (src : BitVec 10) (pdom : BitVec 4) (ev : Nat) (kind level : Bool) : Pkt :=
  { dest := s.build.dbep, src := src, cls := 1, cmd := 6, pdom := pdom, tstamp := s.stamp,
    aux := BitVec.ofNat 32 (ev % 1024 + 1024 * kind.toNat + 2048 * level.toNat) }

/-- An element joins a list of no repeats. -/
def addNew (l : List Nat) (x : Nat) : List Nat := if l.contains x then l else l ++ [x]

/-- The agent of a tile has a packet to inject: its crossing wakes the tile (R370, R386). -/
def State.agentSend (s : State) (t : Nat) (k : Pkt) : State :=
  (s.setAgent t { s.agent t with outq := (s.agent t).outq ++ [k] }).wake t true

/-- The event controller has a packet to inject at DBEP (R319, R386). -/
def State.evcSend (s : State) (k : Pkt) : State :=
  { s with evc := { s.evc with outq := s.evc.outq ++ [k] } }.wake (epTile s.build.dbep) true

/-- Plane pl is held at the tile by a paused commit (R143). -/
def State.paused (s : State) (t pl : Nat) : Bool := bitOf (s.rd (aStrat t)) (1 + pl)

/-- The tile's events are kept in its latch: fenced, in SLEEP or in OFF (R22), or while a plane is held by a paused commit, whichever it is (R143). -/
def State.latched (s : State) (t : Nat) : Bool := s.pst t != 0 && s.pst t != 1 || s.paused t 0 || s.paused t 1

/-- A part of the tile raises an event source: a DBL of the agent, or a pending bit of the latch (R22, R321, R463). -/
def State.raiseFrom (s : State) (t src : Nat) : State :=
  if s.latched t then
    (s.setAgent t { s.agent t with edge := addNew (s.agent t).edge src }).wake t true
  else s.agentSend t (s.dblPkt (epAddr t 3) 8 src false false)

/-- The tile's part p raises its event. -/
def State.raiseTile (s : State) (t p : Nat) : State := s.raiseFrom t (tileSrc t p)

/-- A block that is no fabric endpoint raises an event on the internal path (R462). -/
def State.raise (s : State) (ev : Nat) : State := { s with evc := { s.evc with evq := s.evc.evq ++ [ev] } }

/-- A cause of R380 starts the wake of the management domain. -/
def State.wakeMgmt (s : State) : State :=
  if s.pm.mstate = .retention then { s with pm := { s.pm with mstate := .waking } } else s

/-- An event raised on the chain side waits in its crossing, which wakes the management domain (R386, R462). -/
def State.raiseChain (s : State) (ev : Nat) : State := (s.raise ev).wakeMgmt

/-- The number of the management cycle now, at 1 GHz (R8). -/
def State.mgtCycle (s : State) : Nat := s.cyc * 2 / 5

/-- The management cycle, plus 1, in which a limited event was raised last. -/
def State.setOnce (s : State) (key n : Nat) : State := { s with evc := { s.evc with once := tput 0 s.evc.once key n } }

/-- An event that is raised at most once in a management cycle: the key names its source (R69, R163, R211, R241). -/
def State.oncePer (s : State) (key : Nat) (f : State → State) : State :=
  if tget 0 s.evc.once key = s.mgtCycle + 1 then s
  else f (s.setOnce key (s.mgtCycle + 1))

/-- The endpoint address of a port of the traffic manager. -/
def State.tmEp (s : State) (port : Nat) : BitVec 10 :=
  if port < 16 then s.build.qpEp.getD port 0 else s.build.spEpA.getD (port - 16) 0

/-- What waits for injection at a port of the traffic manager. -/
def State.setTmOut (s : State) (port : Nat) (l : List Pkt) : State := { s with tm := { s.tm with outq := tput [] s.tm.outq port l } }

/-- A port of the traffic manager has a packet to inject; ports 0 to 15 are the QPs, 16 to 47 the SPs (R386). -/
def State.tmSend (s : State) (port : Nat) (k : Pkt) : State :=
  (s.setTmOut port (tget [] s.tm.outq port ++ [k])).wake (epTile (s.tmEp port)) true

/-- The traffic manager raises an event by DBL from one of its ports (R22). -/
def State.raiseTm (s : State) (port ev : Nat) : State :=
  s.tmSend port (s.dblPkt (s.tmEp port) 0xF ev false false)

/-- Every meaning ends in a next state. -/
abbrev Res := Host.Outcome State Fault Refusal

end Sys2Proof.Machine
end

