-- ==== Sys2Proof/Machine/Route.lean ====
section
/-! DEFINITION. Route computation, datelines, fences and the flint (R71 to R77, R83, R88 to R90, R375). -/
namespace Sys2Proof.Machine

/-- Lowest bit of the usable bits of a direction in a map word (R80): N, E, S, W. -/
def dirLow : Nat → Nat
  | 0 => 24 | 1 => 0 | 2 => 36 | _ => 12

/-- Every link of a list is usable in a direction. -/
def allUsable (word : W) (d : Nat) (links : List Nat) : Bool := links.all (fun i => bitOf word (dirLow d + i))

/-- The direction at ring entry, from coordinate c to t ≠ c; none where no way is usable (R74). -/
def ringDir (word : W) (row : Bool) (c t : Nat) : Option Nat :=
  let n := 12
  let d := (t + n - c) % n
  let plus := if row then 1 else 0
  let minus := if row then 3 else 2
  let okPlus := allUsable word plus ((List.range d).map (fun i => (c + i) % n))
  let okMinus := allUsable word minus ((List.range (n - d)).map (fun i => (c + n - 1 - i) % n))
  let preferPlus := decide (d < n / 2) || (decide (d = n / 2) && decide (c % 2 = 0))
  if preferPlus then (if okPlus then some plus else if okMinus then some minus else none)
  else (if okMinus then some minus else if okPlus then some plus else none)

/-- The code of the fence sink on LAR (R85). -/
def sinkCode : Nat := 8

/-- The output of a packet at the router (x, y), by the maps of tile tc; arr is the direction it travels in when it came over a link (R72 to R75). -/
def State.routeAt (s : State) (tc pl b x y : Nat) (arr : Option Nat) (dest : BitVec 10) : Nat :=
  let dx := epX dest
  let dy := epY dest
  let col : Nat :=
    if dy = y then 4 + epPort dest
    else (ringDir (s.rd (aMap tc pl b x)) false y dy).getD sinkCode
  if ¬ epInGrid dest then sinkCode
  else match arr with
    | none => if dx = x then col else (ringDir (s.rd (aMap tc pl b y)) true x dx).getD sinkCode
    | some d =>
      if d = 1 ∨ d = 3 then (if dx = x then col else d)
      else (if dy = y then 4 + epPort dest else d)

/-- The tile over the link of output d. -/
def neighbour (t d : Nat) : Nat :=
  let x := t % 12
  let y := t / 12
  match d with
  | 0 => (y + 1) % 12 * 12 + x
  | 1 => y * 12 + (x + 1) % 12
  | 2 => (y + 11) % 12 * 12 + x
  | _ => y * 12 + (x + 11) % 12

/-- The input at which what leaves on output d arrives; also the direction back. -/
def opposite (d : Nat) : Nat := (d + 2) % 4

/-- The direction in which a packet travels that came in on a port; none for a local input. -/
def travel (port : Nat) : Option Nat := if port < 4 then some (opposite port) else none

/-- The route of a packet at tile t that came in on a port, by t's own maps (R87). -/
def State.routeHere (s : State) (t pl b port : Nat) (dest : BitVec 10) : Nat :=
  s.routeAt t pl b (t % 12) (t / 12) (travel port) dest

/-- The lookahead: the output at the next router, by the maps of the router that forwards (R75). -/
def State.routeNext (s : State) (t pl b d : Nat) (dest : BitVec 10) : Nat :=
  let u := neighbour t d
  s.routeAt t pl b (u % 12) (u / 12) (some d) dest

/-- The link index of output d of tile t in its ring (R71). -/
def linkIndex (t d : Nat) : Nat :=
  match d with
  | 0 => t / 12 | 1 => t % 12 | 2 => (t / 12 + 11) % 12 | _ => (t % 12 + 11) % 12

/-- The dateline index of the ring that output d of tile t lies in (R80, R82). -/
def State.dateline (s : State) (t pl b d : Nat) : Nat :=
  let v := if d = 1 ∨ d = 3 then s.g (aMap t pl b (t / 12)) TL_MAP.ROW_DL else s.g (aMap t pl b (t % 12)) TL_MAP.COL_DL
  min v 11

/-- The VC at output o of a packet that came in on a port on VC v (R83). -/
def State.outVc (s : State) (t pl b port v o : Nat) : Nat :=
  if 4 ≤ o then v
  else
    let sameDim := decide (port < 4) && decide (port % 2 = o % 2)
    let dl := if sameDim then v % 2 else 0
    let dl := if linkIndex t o = s.dateline t pl b o then 1 else dl
    v / 2 * 2 + dl

/-- Link state of the sending end of output d (R449). -/
def State.linkState (s : State) (t pl d : Nat) : Nat := s.g (aLnkstat t pl 0 d) TL_LNKSTAT.STATE

/-- PEN of output o in a bank (R80). -/
def State.pen (s : State) (t pl b o : Nat) : Bool := bitOf (s.rd (aCtl t pl b)) o

/-- The fence bit of output o: set by the power controller, or by the link test (R375, R446). -/
def State.fenced (s : State) (t pl o : Nat) : Bool :=
  bitOf (s.rd (aFence t)) (8 * pl + o) || (decide (o < 4) && s.gb (aLnkstat t pl 0 o) TL_LNKSTAT.TESTF)

/-- TL_FENCE as it reads: the bits of the power controller and those of the link test (R375). -/
def State.fenceWord (s : State) (t : Nat) : W :=
  (List.range 4).foldl (fun v o =>
    let v := if s.fenced t 0 o then putBit v o true else v
    if s.fenced t 1 o then putBit v (8 + o) true else v) (s.rd (aFence t))

/-- INJ of a tile (R149). -/
def State.inj (s : State) (t : Nat) : Bool := s.gb (aStrat t) TL_STRAT.INJ

/-- CUR, the committed stratum (R150). -/
def State.cur (s : State) : Bool := s.gb aStstate SEQ_STSTATE.CUR

/-- The output's link is down in the sense of R53 and R81: neither UP, nor held or tested by LDTEST, which never sends a packet to the fence sink (R448). -/
def State.linkDown (s : State) (t pl o : Nat) : Bool :=
  decide (o < 4) && decide (s.linkState t pl o ≠ 0) && decide (s.linkState t pl o ≠ 3) &&
    (match (s.link t pl o).test with | some x => !x.live | none => true)

/-- Whether a header whose route is o goes to the fence sink at this router (R77, R81, R375). -/
def State.sunk (s : State) (t pl : Nat) (stratum : Bool) (o : Nat) : Bool :=
  decide (8 ≤ o) || !s.pen t pl stratum.toNat o || s.fenced t pl o ||
    (s.linkDown t pl o && s.inj t != stratum && !s.pen t pl (s.inj t).toNat o)

/-- Even parity over FLV, FLDEST and FLSTR with FLV = 1 (R85). -/
def flpOf (dest : BitVec 8) (str : Bool) : Bool := Bool.xor true (Bool.xor (parity dest) str)

/-- A flint reaches the lookahead unit of tile t from a port: it wakes an IDLE tile and is forwarded one hop, unless the tile is its destination (R88, R90). -/
def State.flintAt (s : State) (t pl port : Nat) (dest : BitVec 8) (str : Bool) : State :=
  if s.pst t = 5 ∨ s.pst t = 6 then s
  else
    let s := s.wake t false
    if ¬ nodeInGrid dest ∨ nodeTile dest = t then s
    else
      let o := s.routeHere t pl str.toNat port (epAddr (nodeTile dest) 0)
      if 4 ≤ o ∨ s.linkState t pl o = 4 ∨ s.linkState t pl o = 1 then s
      else
        let r := s.router t pl
        let blocked := match tget none r.flints o with
          | some f => decide (f.cyc = s.cyc) && decide (f.inp ≤ port)
          | none => false
        if blocked then s
        else s.setRouter t pl { r with flints := tput none r.flints o (some ⟨s.cyc, port, dest, str⟩) }

end Sys2Proof.Machine
end

