-- ==== Sys2Proof/Machine/Router.lean ====
section
/-! DEFINITION. The router: input buffers, the fence sink, arbitration and traversal, credits, probes, and a link that goes down (R53, R65, R66, R81, R82, R86 to R94, R444, R453 to R455). -/
namespace Sys2Proof.Machine

/-- The key of an input VC. -/
def vkey (port vc : Nat) : Nat := port * 8 + vc

def Router.vc (r : Router) (port v : Nat) : InVc := tget InVc.reset r.inv (vkey port v)
def Router.setVc (r : Router) (port v : Nat) (x : InVc) : Router := { r with inv := tput InVc.reset r.inv (vkey port v) x }
/-- The credit counter of an output VC; it resets to 4 (R91). -/
def Router.credit (r : Router) (o v : Nat) : Nat := tget 4 r.cred (vkey o v)
def Router.setCredit (r : Router) (o v n : Nat) : Router := { r with cred := tput 4 r.cred (vkey o v) n }
/-- The input VC that holds an output VC: 1 + its key, or 0 (R94). -/
def Router.owner (r : Router) (o v : Nat) : Nat := tget 0 r.own (vkey o v)
def Router.setOwner (r : Router) (o v n : Nat) : Router := { r with own := tput 0 r.own (vkey o v) n }
/-- The credits that the originator at a local input holds for a VC; they reset to 4 (R85, R91). -/
def Router.lcredit (r : Router) (port v : Nat) : Nat := tget 4 r.lcred (vkey port v)
def Router.setLcredit (r : Router) (port v n : Nat) : Router := { r with lcred := tput 4 r.lcred (vkey port v) n }
/-- A credit leaves on the credit wires of an input, of a link or of a local port (R85, R91). -/
def Router.giveCredit (r : Router) (port v : Nat) : Router := { r with crOut := r.crOut ++ [(port, v)] }

-- Probes.

/-- The filter key of a packet at a point (R453). -/
def probeKey (k : Pkt) (stratum : Bool) (vc : Nat) : W × W :=
  (BitVec.ofNat 64 (k.dest.toNat + 2 ^ 10 * k.src.toNat + 2 ^ 20 * k.cls.toNat + 2 ^ 22 * k.cmd.toNat + 2 ^ 28 * k.pdom.toNat
      + 2 ^ 32 * k.resp.toNat + 2 ^ 36 * stratum.toNat + 2 ^ 37 * (vc % 8) + 2 ^ 40 * k.tag.toNat),
   BitVec.ofNat 64 (k.addr.toNat + 2 ^ 48 * k.qid.toNat))

/-- The host that owns an enabled domain d < 8, by PU_DOMMAP (R239, R244). -/
def State.domHost (s : State) (d : Nat) : Option Nat :=
  if d < 8 ∧ bitOf (s.rd aDommap) (4 * d + 3) = true then some (fld (s.rd aDommap) (4 * d) 3) else none

/-- A probe is bound to a point of a running tile and its packet matches (R452, R453). -/
def State.probeHits (s : State) (p t pl port : Nat) (out : Bool) (k : Pkt) (stratum : Bool) (vc : Nat) : Bool :=
  let c := s.rd (aPrb p)
  let f (x : Fd) : Nat := fld c x.lo x.w
  let key := probeKey k stratum vc
  let owner := f OBS_PRBCTL.OWNER
  f OBS_PRBCTL.EN == 1 && f OBS_PRBCTL.BOUND == 1 && f OBS_PRBCTL.TILE == t && f OBS_PRBCTL.PLANE == pl
    && f OBS_PRBCTL.PORT == port && f OBS_PRBCTL.DIR == out.toNat
    && s.pst t < 3
    && (key.1 &&& s.rd (aPrbMask p 0)) == (s.rd (aPrbVal p 0) &&& s.rd (aPrbMask p 0))
    && (key.2 &&& s.rd (aPrbMask p 1)) == (s.rd (aPrbVal p 1) &&& s.rd (aPrbMask p 1))
    && (decide (8 ≤ owner) || s.domHost k.pdom.toNat == some owner)
    && !(k.cmd == Cmd.WR && k.dest == s.build.obsTrace)

/-- The probes that match a header at a point. -/
def State.probesAt (s : State) (t pl port : Nat) (out : Bool) (k : Pkt) (stratum : Bool) (vc : Nat) : List Nat :=
  (List.range 32).filter (fun p => s.probeHits p t pl port out k stratum vc)

/-- A 64-bit counter of a probe, which wraps (R454). -/
def State.probeAdd (s : State) (p i n : Nat) : State := s.wr (aPrbCnt p i) (s.rd (aPrbCnt p i) + BitVec.ofNat 64 n)

/-- The trace record of a packet (R455). -/
def State.traceWords (s : State) (p : Nat) (lost : Bool) (k : Pkt) (stratum : Bool) (vc seq : Nat) (hdr : Line) : List W :=
  [BitVec.ofNat 64 (s.stamp.toNat + 2 ^ 32 * p + 2 ^ 37 * stratum.toNat + 2 ^ 38 * (vc % 8) + 2 ^ 41 * lost.toNat
      + 2 ^ 48 * (seq % 65536)),
   lineWord hdr 0, lineWord hdr 1,
   BitVec.ofNat 64 (k.tstamp.toNat + 2 ^ 32 * k.qid.toNat + 2 ^ 48 * (k.aux.toNat % 65536))]

/-- Matches of a probe since it sampled last, modulo its period. -/
def State.setSamp (s : State) (p n : Nat) : State := { s with obs := { s.obs with sampCnt := tput 0 s.obs.sampCnt p n } }
/-- SEQ of a probe's next trace record. -/
def State.setTrSeq (s : State) (p n : Nat) : State := { s with obs := { s.obs with seqs := tput 0 s.obs.seqs p n } }

/-- One probe counts a header and may queue a trace record; at most 16 records wait in a tile (R454, R455). -/
def State.probeHeader (s : State) (t : Nat) (k : Pkt) (stratum : Bool) (vc : Nat) (hdr : Line) (p : Nat) : State :=
  let s := (s.probeAdd p 0 1).probeAdd p 1 1
  let s := if k.dfc ≠ 0 then s.probeAdd p 2 (k.lenm1.toNat + 1) else s
  if ¬ s.gb (aPrb p) OBS_PRBCTL.TRACE then s
  else
    let n := tget 0 s.obs.sampCnt p
    let s := s.setSamp p (n + 1)
    if n % 2 ^ s.g (aPrb p) OBS_PRBCTL.SAMP ≠ 0 then s
    else
      let seq := tget 0 s.obs.seqs p
      let s := s.setTrSeq p (seq + 1)
      let a := s.agent t
      if 16 ≤ a.traceq.length then { s with obs := { s.obs with lost := addNew s.obs.lost p } }
      else
        let rec_ := s.traceWords p (s.obs.lost.contains p) k stratum vc seq hdr
        let s := s.setAgent t { a with traceq := a.traceq ++ [rec_] }
        { s with obs := { s.obs with lost := s.obs.lost.filter (· != p) } }

/-- The bindings of a probe so far (R452). -/
def State.bindNo (s : State) (p : Nat) : Nat := tget 0 s.obs.binds p
/-- Probes that match at a header, each with the number of its binding. -/
def State.probesBound (s : State) (ps : List Nat) : List (Nat × Nat) := ps.map (fun p => (p, s.bindNo p))

/-- A probe goes on counting a packet whose header matched: the binding is still the one under which it matched, in the tile, which is not fenced, OFF or in RESTORE (R452, R454). -/
def State.probeRuns (s : State) (t : Nat) (x : Nat × Nat) : Bool :=
  decide (x.1 < 32) && s.gb (aPrb x.1) OBS_PRBCTL.EN && s.g (aPrb x.1) OBS_PRBCTL.TILE == t && s.bindNo x.1 == x.2 && decide (s.pst t < 3)

/-- The probes matched at a header count one of its data flits (R453, R454). -/
def State.probeFlit (s : State) (t : Nat) (ps : List (Nat × Nat)) : State :=
  (ps.filter (s.probeRuns t)).foldl (fun s p => s.probeAdd p.1 1 1) s

-- Fence sink.

/-- A router counter goes up, and saturates. -/
def State.rcount (s : State) (t pl : Nat) (f : Fd) : State := s.sat (aRstat t pl) f

/-- The fence sink takes a header: by its command alone, the request is answered FENCED or the packet is discarded (R82). -/
def State.sinkHeader (s : State) (t pl : Nat) (k : Pkt) (unroutable : Bool) : State :=
  let s := if unroutable then s.rcount t pl TL_RSTAT.UNROUTE else s
  let ans := if pl = 0 then respTo k Resp.FENCED 0 [] else none
  match ans with
  | some r => (s.setAgent t { s.agent t with sinkq := (s.agent t).sinkq ++ [r] }).rcount t pl TL_RSTAT.FSREQ
  | none => s.rcount t pl TL_RSTAT.FSDROP

/-- The head flit of an input VC is consumed by the fence sink, with its credit returned. -/
def State.sinkStep (s : State) (t pl port v : Nat) : State :=
  let r := s.router t pl
  let x := r.vc port v
  match x.buf with
  | [] => s
  | f :: rest =>
    match x.cur with
    | none =>
      let k := { hdrOf f.pay with stratum := f.stratum }
      let one := f.ftype.toNat = ftHeadTail
      let ps := s.probesAt t pl port false k f.stratum v
      let cur := if one then none else some (⟨k, sinkCode, v, 0, s.probesBound ps⟩ : Passing)
      let s := s.setRouter t pl ((r.setVc port v { x with buf := rest, cur := cur }).giveCredit port v)
      let s := ps.foldl (fun s p => s.probeHeader t k f.stratum v f.pay p) s
      s.sinkHeader t pl k (decide (f.route = sinkCode))
    | some c =>
      let cur := if f.ftype.toNat = ftTail then none else some { c with sent := c.sent + 1 }
      (s.setRouter t pl ((r.setVc port v { x with buf := rest, cur := cur }).giveCredit port v)).probeFlit t c.probes

/-- The head flit of an input VC belongs to the fence sink now. -/
def State.sinkReady (s : State) (t pl port v : Nat) : Bool :=
  let x := (s.router t pl).vc port v
  match x.buf with
  | [] => false
  | f :: _ =>
    match x.cur with
    | some c => c.route == sinkCode
    | none => s.sunk t pl f.stratum f.route

-- Arbitration.

/-- Where the head flit of an input VC may go now: its output and output VC, when it is eligible (R93, R94). -/
def State.eligible (s : State) (t pl port v : Nat) : Option (Nat × Nat) :=
  let r := s.router t pl
  let x := r.vc port v
  match x.buf with
  | [] => none
  | f :: _ =>
    match x.cur with
    | some c =>
      if c.route = sinkCode then none
      else if (decide (c.route < 4) && (s.linkState t pl c.route != 0 && s.linkState t pl c.route != 3)) then none
      else if r.credit c.route c.vc = 0 then none else some (c.route, c.vc)
    | none =>
      let o := f.route
      if s.sunk t pl f.stratum o then none
      else
        let w := s.outVc t pl f.stratum.toNat port v o
        if (decide (o < 4) && s.linkState t pl o != 0) || r.owner o w != 0 || r.credit o w == 0 then none
        else some (o, w)

/-- Stage 1: the VC that an input presents, with its output and output VC: the highest class, round robin within it (R93). -/
def State.present (s : State) (t pl port : Nat) : Option (Nat × Nat × Nat) :=
  (List.range 4).findSome? (fun c =>
    let first := tget 0 (s.router t pl).rrVc (port * 4 + c)
    [2 * c + first, 2 * c + (1 - first)].findSome? (fun v => (s.eligible t pl port v).map (fun (o, w) => (v, o, w))))

/-- Stage 2: the input that an output accepts: the highest class, round robin within it (R93). Each stage keeps one pointer for each class; R93 does not say whether one serves them all (DESIGN CHOICE, notes/assumptions/97.md). -/
def State.accept (s : State) (t pl o : Nat) (cand : List (Nat × Nat × Nat × Nat)) : Option (Nat × Nat × Nat × Nat) :=
  let here := cand.filter (fun c => c.2.2.1 == o)
  (List.range 4).findSome? (fun c =>
    let first := tget 0 (s.router t pl).rrIn (o * 4 + c)
    (List.range 8).findSome? (fun i =>
      here.find? (fun x => x.1 == (first + i) % 8 && x.2.1 / 2 == c)))

/-- A flit crosses the switch: it leaves its buffer with a credit returned, takes its output VC, and stands on the output's wires with the lookahead of a header; behind a local output, the receiver takes a data flit to its packet at once, and its credit comes back (R75, R83, R86, R91, R92, R94). LAR of a header that leaves by a local output is 0: its receiver has no outputs, and R85 names no value there (DESIGN CHOICE, notes/assumptions/136.md). -/
def State.traverse (s : State) (t pl port v o w : Nat) : State :=
  let r := s.router t pl
  let x := r.vc port v
  match x.buf with
  | [] => s
  | f :: rest =>
    let isHdr := f.ftype.toNat = ftHead ∨ f.ftype.toNat = ftHeadTail
    let last := f.ftype.toNat = ftTail ∨ f.ftype.toNat = ftHeadTail
    let k := match x.cur with | some c => c.hdr | none => { hdrOf f.pay with stratum := f.stratum }
    let lar := if isHdr ∧ o < 4 then s.routeNext t pl f.stratum.toNat o k.dest else 0
    let raw := rawFlit f.pay f.chk (sideband w f.ftype.toNat f.stratum f.poison) lar
    let pin := if x.cur.isNone then s.probesAt t pl port false k f.stratum v else []
    let pout := if x.cur.isNone then s.probesAt t pl o true k f.stratum w else []
    let cur := if last then none else
      match x.cur with
      | some c => some { c with sent := c.sent + 1 }
      | none => some (⟨k, o, w, 0, s.probesBound (pin ++ pout)⟩ : Passing)
    let r := (r.setVc port v { x with buf := rest, cur := cur }).giveCredit port v
    let r := (r.setCredit o w (r.credit o w - 1)).setOwner o w (if last then 0 else 1 + vkey port v)
    let r := { r with outw := tput [] r.outw o (tget [] r.outw o ++ [raw]), crOut := if 4 ≤ o ∧ ¬ isHdr then r.crOut ++ [(8 + o, w)] else r.crOut }
    let r := { r with rrVc := tput 0 r.rrVc (port * 4 + v / 2) (1 - v % 2), rrIn := tput 0 r.rrIn (o * 4 + v / 2) ((port + 1) % 8) }
    let s := s.setRouter t pl r
    let s := match x.cur with
      | some c => s.probeFlit t c.probes
      | none =>
        let s := pin.foldl (fun s p => s.probeHeader t k f.stratum v f.pay p) s
        pout.foldl (fun s p => s.probeHeader t k f.stratum w f.pay p) s
    if o < 4 then { s with pm := { s.pm with hops := s.pm.hops + 1 } } else s

/-- The probes for which the head flit of one input VC stands in this cycle: at an input it waits at the head; at an output it holds the output VC without a credit (R454). -/
def State.standing (s : State) (t pl port v : Nat) : List Nat :=
  let r := s.router t pl
  let x := r.vc port v
  match x.buf with
  | [] => []
  | f :: _ =>
    match x.cur with
    | some c =>
      let stuck (p : Nat) : Bool := !s.gb (aPrb p) OBS_PRBCTL.DIR || (decide (c.route < 8) && r.credit c.route c.vc == 0)
      (c.probes.filter (fun p => s.probeRuns t p && stuck p.1)).map (·.1)
    | none => s.probesAt t pl port false { hdrOf f.pay with stratum := f.stratum } f.stratum v

/-- A fabric cycle in which no flit moves: CNT3 of each probe for which some flit stands counts it once, however many stand (R454). -/
def State.stalls (s : State) : State :=
  let ps := s.routers.flatMap (fun kr => kr.2.inv.flatMap (fun kv => s.standing (kr.1 / 2) (kr.1 % 2) (kv.1 / 8) (kv.1 % 8)))
  (ps.foldl addNew []).foldl (fun s p => s.probeAdd p 3 1) s

/-- One arbitration cycle of a router whose core runs; none when nothing can move. -/
def State.routerCycle (s : State) (t pl : Nat) : Option State :=
  let keys := (List.range 8).flatMap (fun p => (List.range 8).map (fun v => (p, v)))
  match keys.find? (fun (p, v) => s.sinkReady t pl p v) with
  | some (p, v) => some (s.sinkStep t pl p v)
  | none =>
    let cand := (List.range 8).filterMap (fun p => (s.present t pl p).map (fun (v, o, w) => (p, v, o, w)))
    let win := (List.range 8).filterMap (fun o => s.accept t pl o cand)
    if win.isEmpty then none
    else
      some (win.foldl (fun s (p, v, o, w) => s.traverse t pl p v o w) s)

/-- Cycles until nothing more can move. -/
def State.settleN : Nat → State → Nat → Nat → State
  | 0, s, _, _ => s
  | n + 1, s, t, pl =>
    match s.routerCycle t pl with
    | some s' => State.settleN n s' t pl
    | none => s

/-- The number of flits in the input buffers of a router. -/
def Router.held (r : Router) : Nat := (r.inv.map (fun kv => kv.2.buf.length)).foldl (· + ·) 0

/-- A router forwards what it can, where its core runs (R89, R369). -/
def State.settle (s : State) (t pl : Nat) : State :=
  if s.coreRuns t then s.settleN ((s.router t pl).held + 1) t pl else s

-- Link failure.

/-- The last packet of an input VC has begun and its tail has not arrived. -/
def InVc.isOpen (x : InVc) : Bool :=
  match x.buf.getLast? with
  | some f => decide (f.ftype.toNat = ftHead ∨ f.ftype.toNat = ftBody)
  | none => x.cur.isSome

/-- The data flits that a packet cut short on an input VC still needs, its tail among them; none when no packet is open. -/
def InVc.missing (x : InVc) : Option Nat :=
  let afterHdr := x.buf.reverse.takeWhile (fun f => f.ftype.toNat = ftBody)
  if ¬ x.isOpen then none
  else
    match x.buf.reverse.find? (fun f => f.ftype.toNat = ftHead), x.cur with
    | some h, _ => some (max 1 ((hdrOf h.pay).dfc.toNat - afterHdr.length))
    | none, some c => some (max 1 (c.hdr.dfc.toNat - c.sent - x.buf.length))
    | none, none => none

/-- The stratum of the last packet of an input VC. -/
def InVc.lastStratum (x : InVc) (d : Bool) : Bool :=
  match x.buf.getLast? with
  | some f => f.stratum
  | none => match x.cur with | some c => c.hdr.stratum | none => d

/-- The receiving router completes the packets cut short on an input: poisoned data flits, the last of them tail (R53). -/
def State.completeInput (s : State) (t pl port : Nat) : State :=
  (List.range 8).foldl (fun s v =>
    let r := s.router t pl
    let x := r.vc port v
    match x.missing with
    | none => if x.discard then s.setRouter t pl (r.setVc port v { x with discard := false }) else s
    | some m =>
      let made := (List.range m).map (fun i =>
        let p : Line := Config.freeLine (s.free + i)
        ({ pay := p, chk := rsEncode p, ftype := BitVec.ofNat 2 (if i + 1 = m then ftTail else ftBody),
           stratum := x.lastStratum false, poison := true, route := 0 } : Flit))
      let s := s.setRouter t pl (r.setVc port v { x with buf := x.buf ++ made })
      { s with free := s.free + m }) s

/-- The sending router discards the unsent flits of the packets whose header has left on an output, and frees its VCs (R53). What stands on the link's wires is lost with them, a header that has left and not entered the receiving router among it: R53 names that case in no row (DESIGN CHOICE, notes/assumptions/96.md). -/
def State.cutOutput (s : State) (t pl d : Nat) : State :=
  let keys := (List.range 8).flatMap (fun p => (List.range 8).map (fun v => (p, v)))
  let s := keys.foldl (fun s (p, v) =>
    let r := s.router t pl
    let x := r.vc p v
    match x.cur with
    | some c =>
      if c.route ≠ d then s
      else
        let own := x.buf.takeWhile (fun f => f.ftype.toNat = ftBody)
        let rest := x.buf.drop own.length
        let tailHere := match rest with | f :: _ => decide (f.ftype.toNat = ftTail) | [] => false
        let gone := own.length + tailHere.toNat
        let r := r.setVc p v { buf := x.buf.drop gone, cur := none, discard := !tailHere }
        let r := r.setOwner d c.vc 0
        s.setRouter t pl ((List.range gone).foldl (fun r _ => r.giveCredit p v) r)
    | none => s) s
  let r := s.router t pl
  s.setRouter t pl { r with outw := tput [] r.outw d [] }

/-- Both ends of a link direction take a state (R449). -/
def State.setLinkState (s : State) (t pl d st : Nat) : State :=
  (s.p (aLnkstat t pl 0 d) TL_LNKSTAT.STATE st).p (aLnkstat (neighbour t d) pl 1 (opposite d)) TL_LNKSTAT.STATE st

/-- The link direction that leaves tile t on output d goes down: both ends enter REINIT and packets caught on it follow R53 (R45, R444 step 1). -/
def State.linkDownNow (s : State) (t pl d : Nat) : State :=
  let u := neighbour t d
  let s := s.setLinkState t pl d 1
  let s := (s.cutOutput t pl d).completeInput u pl (opposite d)
  let s := s.setLink t pl d { s.link t pl d with passes := 0 }
  (s.settle u pl).settle t pl

/-- The router raises its tile event, at most once in a management cycle (R438). -/
def State.routerEvent (s : State) (t : Nat) : State := s.oncePer (2 ^ 13 + t) (fun s => s.raiseTile t 3)

/-- An uncorrectable sideband or a failed CRP at a port of tile t is counted with its event; over a link, the direction named by its sending tile and output goes down (R45, R92, R438). A local port has no link end (R449). -/
def State.takeDown (s : State) (t pl port : Nat) (link : Option (Nat × Nat)) : State :=
  let s := (s.sat (aLnkunc t pl port) TL_LNKUNC.SBUNC).sat (aLnkunc t pl port) TL_LNKUNC.DOWNS
  let s := s.routerEvent t
  match link with
  | some (u, d) => s.linkDownNow u pl d
  | none => s

end Sys2Proof.Machine
end

