-- ==== Sys2Proof/Machine/LinkOps.lean ====
section
/-! DEFINITION. Lanes and spares: the spare maps, repair, lane error counts, and requests for repair (R438, R440 to R442, R449). -/
namespace Sys2Proof.Machine

-- Link states (R449).
def lkUp : Nat := 0
def lkReinit : Nat := 1
def lkDown : Nat := 2
def lkHeld : Nat := 3
def lkTest : Nat := 4
def lkFailed : Nat := 5

-- Spare states (R449).
def spFree : Nat := 0
def spRepair : Nat := 1
def spFailed : Nat := 2
def spCal : Nat := 3

/-- State and lane of the eight spares at one end of a link direction. -/
def State.spares (s : State) (t pl e d : Nat) : List (Nat × Nat) :=
  (List.range 8).map (fun i =>
    let w := s.rd (aLnkmap t pl e d (i / 2))
    let lo := 32 * (i % 2)
    (fld w (12 + lo) 2, fld w lo 10))

/-- The state with another map at one end. -/
def State.setSpares (s : State) (t pl e d : Nat) (m : List (Nat × Nat)) : State :=
  (List.range 8).foldl (fun s i =>
    let o := aLnkmap t pl e d (i / 2)
    let lo := 32 * (i % 2)
    let x := m.getD i (0, 0)
    s.wr o (setFld (setFld (s.rd o) (12 + lo) 2 x.1) lo 10 x.2)) s

/-- The highest-numbered spare in a state. -/
def highest (m : List (Nat × Nat)) (st : Nat) : Option Nat := (List.range 8).reverse.find? (fun i => (m.getD i (9, 0)).1 == st)
/-- The lowest-numbered spare in a state. -/
def lowest (m : List (Nat × Nat)) (st : Nat) : Option Nat := (List.range 8).find? (fun i => (m.getD i (9, 0)).1 == st)

/-- The lowest FREE spare takes over lane p; true when there is none (R440). -/
def takeSpare (m : List (Nat × Nat)) (p : Nat) : List (Nat × Nat) × Bool :=
  match lowest m spFree with
  | some i => (m.set i (spRepair, p), false)
  | none => (m, true)

/-- A repair of physical lane p (R440); a lane that a spare carries already needs none. -/
def repairMap (m : List (Nat × Nat)) (p : Nat) : List (Nat × Nat) × Bool :=
  if p < 589 then (if m.contains (spRepair, p) then (m, false) else takeSpare m p)
  else
    let i := p - 589
    let x := m.getD i (spFailed, 0)
    if x.1 = spRepair then takeSpare (m.set i (spFailed, 0)) x.2
    else if x.1 = spCal then
      let m := m.set i (spFailed, 0)
      match highest m spFree with
      | some j => (m.set j (spCal, 0), false)
      | none => (m, false)
    else if x.1 = spFree then (m.set i (spFailed, 0), false)
    else (m, false)

/-- The physical lane that carries a logical lane. -/
def physLane (m : List (Nat × Nat)) (lane : Nat) : Nat :=
  match (List.range 8).find? (fun i => m.getD i (0, 0) == (spRepair, lane)) with
  | some i => 589 + i
  | none => lane

/-- One end of a link direction takes a repaired map, and its status shows it: LASTBAD names a lane repaired or a spare marked FAILED (R440, R449). -/
def State.repairEnd (s : State) (t pl e d p : Nat) : State :=
  let r := repairMap (s.spares t pl e d) p
  let o := aLnkstat t pl e d
  let s := s.setSpares t pl e d r.1
  let s := s.p o TL_LNKSTAT.REPAIRS ((r.1.filter (fun x => x.1 == spRepair)).length)
  let s := if r.2 then s.pb o TL_LNKSTAT.LANEXH true else s
  if r.2 = true ∧ p < 589 then s else s.p o TL_LNKSTAT.LASTBAD p

/-- Both ends of the direction that leaves tile t on output d repair lane p; the tile event when no spare is FREE (R440). -/
def State.repairLink (s : State) (t pl d p : Nat) : State :=
  let u := neighbour t d
  let exh := (repairMap (s.spares t pl 0 d) p).2
  let s := (s.repairEnd t pl 0 d p).repairEnd u pl 1 (opposite d) p
  if exh then s.raiseTile u 3 else s

/-- CALPLOG2 in force: values outside 12 to 24 act as the nearer limit (R450). -/
def State.calLog2 (s : State) : Nat := max 12 (min 24 s.obs.calLog2)
/-- The calibration step now (R441). -/
def State.calStep (s : State) : Nat := s.fcc / 2 ^ s.calLog2

/-- The function code of LPEER (R446). -/
def funcLpeer : Nat := 0x5F

/-- The argument word of a test function (R446). -/
def linkArgs (pl d : Nat) (repair : Bool) (lane : Nat) : W := BitVec.ofNat 64 (pl + 2 * d + 8 * repair.toNat + 65536 * lane)

/-- A CTL that one agent originates for another, with a data flit of argument bytes. Its TSTAMP is 0: R52 names no time for an agent's own packet (DESIGN CHOICE, notes/assumptions/105.md). -/
def agentCtl (src dst : Nat) (tag : BitVec 12) (aux : Nat) (bytes : Nat) (arg : W) : Pkt :=
  { dest := epAddr dst 3, src := epAddr src 3, cls := 1, cmd := Cmd.CTL, dfc := 1, tag := tag, pdom := 8,
    aux := BitVec.ofNat 32 aux, lenm1 := BitVec.ofNat 8 (bytes - 1), data := [lineOf [arg]] }

/-- The TAG of an LPEER: receiving input, plane, and a number below 32 (DESIGN CHOICE, notes/assumptions/103.md). -/
def lpeerTag (pl port n : Nat) : BitVec 12 := BitVec.ofNat 12 ((pl * 4 + port) * 32 + n % 32)

/-- A TAG for the next LPEER of a direction, which no unanswered one bears (R59). -/
def State.freeLpeer (s : State) (t pl d : Nat) : Option (BitVec 12) :=
  ((List.range 32).map (lpeerTag pl (opposite d))).find? (fun g => !(s.link t pl d).peers.contains g)

/-- The receiving agent sends LPEER for lane p and apply step ka, which stands in the argument bits of AUX (R57, R442; DESIGN CHOICE, notes/assumptions/103.md). -/
def State.lpeerOut (s : State) (t pl d p ka : Nat) (tag : BitVec 12) : State :=
  let l := s.link t pl d
  let s := s.setLink t pl d { l with peers := l.peers ++ [tag] }
  s.agentSend (neighbour t d) (agentCtl (neighbour t d) t tag (funcLpeer + 2 ^ 8 * (ka % 2 ^ 24)) 8 (linkArgs pl d true p))

/-- The receiving agent asks for the repair of lane p at the step after next; without a free TAG the lane waits. -/
def State.sendLpeer (s : State) (t pl d p : Nat) : State :=
  let l := s.link t pl d
  let ka := s.calStep + 2
  match s.freeLpeer t pl d with
  | none => s.setLink t pl d { l with waiting := addNew l.waiting p }
  | some tag =>
    let s := s.setLink t pl d { l with pend := some (p, ka, false), peer := tag }
    (s.pb (aLnkstat (neighbour t d) pl 1 (opposite d)) TL_LNKSTAT.PEND true).lpeerOut t pl d p ka tag

/-- A repair of physical lane p of a link direction is requested: one is pending at a time, another lane waits, the same lane is merged (R442). -/
def State.requestRepair (s : State) (t pl d p : Nat) : State :=
  let l := s.link t pl d
  match l.pend with
  | some (q, _, _) => if q = p then s else s.setLink t pl d { l with waiting := addNew l.waiting p }
  | none => s.sendLpeer t pl d p

/-- LTHR, in which 0 acts as 1 (R450). -/
def State.lthr (s : State) : Nat := max 1 (s.g aLcfg OBS_LCFG.LTHR)

/-- A physical lane out of service: a home lane that a spare carries, or a FAILED spare. -/
def laneFailed (m : List (Nat × Nat)) (p : Nat) : Bool :=
  if p < 589 then m.contains (spRepair, p) else (m.getD (p - 589) (0, 0)).1 == spFailed

/-- The next lane that waits is asked for, where the direction is UP and neither a repair nor a test of it goes on (R442). -/
def State.nextRepair (s : State) (t pl d : Nat) : State :=
  let l := s.link t pl d
  let m := s.spares (neighbour t d) pl 1 (opposite d)
  match l.waiting.filter (fun p => !laneFailed m p), l.pend, l.test with
  | q :: rest, none, none => if s.linkState t pl d = lkUp then (s.setLink t pl d { l with waiting := rest }).sendLpeer t pl d q else s
  | _, _, _ => s

/-- The answer of an LPEER reaches the agent that sent it (R442): where the repair is still not taken, the answer was LATE, and the request is repeated with a later step. -/
def State.peerAnswer (s : State) (u : Nat) (k : Pkt) : State :=
  let pl := fld k.tag 7 1
  let d := opposite (fld k.tag 5 2)
  let t := epTile k.src
  let l := s.link t pl d
  if k.src = epAddr t 3 ∧ neighbour t d = u ∧ l.peers.contains k.tag = true then
    let s := s.setLink t pl d { l with peers := l.peers.filter (· != k.tag) }
    match l.pend with
    | some (p, _, false) => if l.peer = k.tag ∧ respRead k.resp = Resp.OK then s.sendLpeer t pl d p else s
    | _ => s.nextRepair t pl d
  else s

/-- The present step is the apply step of a repair of the direction, pending or made (R442). -/
def State.stepApplies (s : State) (t pl d : Nat) : Bool :=
  let l := s.link t pl d
  l.lastKa == some s.calStep || l.pend.any (fun x => x.2.1 == s.calStep)

/-- Calibration steers in this cycle: the lane visited by the present step, whose logical lane the receiver takes from CAL (R441). -/
def State.steered (s : State) (t pl d : Nat) : Option Nat :=
  let m := s.spares (neighbour t d) pl 1 (opposite d)
  let per := 2 ^ s.calLog2
  let off := s.fcc % per
  let p := s.calStep % 597
  if s.obs.calEn = true ∧ s.linkState t pl d = lkUp ∧ s.stepApplies t pl d = false ∧ laneFailed m p = false ∧ 16 ≤ off ∧ off + 17 ≤ per
  then some p else none

/-- The physical lane on which a logical lane arrives now: the one that carries it, or CAL while that one is calibrated (R440, R441). -/
def State.arrivalLane (s : State) (t pl port lane : Nat) : Nat :=
  let m := s.spares t pl 1 port
  let p := physLane m lane
  match highest m spCal with
  | some c => if s.steered (neighbour t port) pl (opposite port) = some p then 589 + c else p
  | none => p

/-- A corrected bit is counted at the physical lane on which it arrived, and in its window; LTHR of them call for repair (R438, R442). -/
def State.laneError (s : State) (t pl port lane : Nat) : State :=
  let p := s.arrivalLane t pl port lane
  let s := s.sat (aLaneerr t pl port (p / 8)) ⟨8 * (p % 8), 8, .sq, 0⟩
  let u := neighbour t port
  let d := opposite port
  let l := s.link u pl d
  let win := s.fcc / 2 ^ 32
  let old := if l.window = win then l.winErr else []
  let n := tget 0 old p + 1
  let s := s.setLink u pl d { l with winErr := tput 0 old p n, window := win }
  if n = s.lthr ∧ s.gb aLcfg OBS_LCFG.AUTOREP = true then s.requestRepair u pl d p else s

/-- The lanes of a direction that call for repair: those marked MARGINAL, and those with LTHR errors in the present window (R442). -/
def State.callLanes (s : State) (l : LinkX) : List Nat :=
  if s.gb aLcfg OBS_LCFG.AUTOREP = false then []
  else l.marginal ++ (if l.window = s.fcc / 2 ^ 32 then (l.winErr.filter (fun kv => decide (s.lthr ≤ kv.2))).map (·.1) else [])

/-- After a change of the link settings, repairs are requested for the lanes that did not call for one under the settings before (R442). -/
def State.newCalls (s old : State) : State :=
  s.links.foldl (fun s kv =>
    let t := kv.1 / 8
    let pl := kv.1 / 4 % 2
    let d := kv.1 % 4
    let m := s.spares (neighbour t d) pl 1 (opposite d)
    let fresh := (s.callLanes kv.2).filter (fun p => !(old.callLanes kv.2).contains p && !laneFailed m p)
    fresh.foldl (fun s p => s.requestRepair t pl d p) s) s

/-- Corrected bits at an input: the lanes of a link are counted; a local port has no lane counters. -/
def State.laneErrors (s : State) (t pl port : Nat) (lanes : List Nat) : State :=
  if port < 4 then lanes.foldl (fun s l => s.laneError t pl port l) s else s

/-- Training begins: both ends in REINIT, first pass (R444 step 3). -/
def State.startTraining (s : State) (t pl d : Nat) : State :=
  (s.setLinkState t pl d lkReinit).setLink t pl d { s.link t pl d with passes := 1 }

end Sys2Proof.Machine
end

