-- ==== Sys2Proof/Machine/Pu.lean ====
section
/-! DEFINITION. Protection units: the check of a request, the in-flight counters, the violation record (R223 to R243). -/
namespace Sys2Proof.Machine

-- Operations of the Q channel (R104).
namespace Qop
def READ : BitVec 4 := 0
def WRITE : BitVec 4 := 1
def WRITE_NP : BitVec 4 := 2
def ATOMIC : BitVec 4 := 3
def MESSAGE : BitVec 4 := 4
def DOORBELL : BitVec 4 := 5
def CELL : BitVec 4 := 6
def ENQUEUE : BitVec 4 := 7
end Qop

/-- The packet that an operation becomes (R104). -/
def qopCmd (op : BitVec 4) : BitVec 6 := BitVec.ofNat 6 ((op.toNat + 1) % 64)
/-- WRITE and DOORBELL are posted (R108). -/
def qopPosted (op : BitVec 4) : Bool := op == Qop.WRITE || op == Qop.DOORBELL

/-- The index of the PU of a port (R223). -/
def puIndex (t p : Nat) : Nat := 3 * t + p

/-- Words 0 and 1 of a rule. -/
def State.puRule (s : State) (i b st r : Nat) : W × W := (s.rd (aRule i b st r 0), s.rd (aRule i b st r 1))

/-- A rule covers a page (R225). -/
def ruleCovers (r : W × W) (page : Nat) : Bool :=
  bitOf r.1 63 && decide (fld r.1 12 36 ≤ page) && decide (page ≤ fld r.2 12 36)

/-- The lowest-numbered rule of a set that covers a page. -/
def State.ruleFor (s : State) (i b st page : Nat) : Option Nat :=
  (List.range 32).find? (fun r => ruleCovers (s.puRule i b st r) page)

/-- The permission bit that an operation needs: READ, WRITE and WRITE_NP, ATOMIC, MESSAGE, CELL and ENQUEUE (R225). -/
def permBit (op : BitVec 4) : Fd :=
  if op = Qop.READ then PU_RULE0.RD
  else if op = Qop.WRITE ∨ op = Qop.WRITE_NP then PU_RULE0.WR
  else if op = Qop.ATOMIC then PU_RULE0.AT
  else if op = Qop.MESSAGE then PU_RULE0.MS
  else PU_RULE0.PK

-- Violation kinds (R238).
def vPerm : Nat := 0
def vNoMatch : Nat := 1
def vUnowned : Nat := 2

/-- What a PU answers: the attributes of an allowed request, or the kind, rule and offset of a refusal. -/
inductive PuAns where
  | allow (cache order : Nat)
  | refuse (kind rule offset : Nat)
  deriving DecidableEq, Repr

/-- One page of the check (R231). -/
def State.puPage (s : State) (i b st : Nat) (op : BitVec 4) (page off : Nat) : PuAns :=
  match s.ruleFor i b st page with
  | some r =>
    let w := (s.puRule i b st r).1
    if fld w (permBit op).lo 1 = 0 then .refuse vPerm r off
    else .allow (fld w PU_RULE0.CACHE.lo 2) (fld w PU_RULE0.ORDER.lo 2)
  | none =>
    if s.g (aPuCtl i) (if st = 0 then PU_CTL.PRIV0 else PU_CTL.PRIV1) = 0 then .refuse vNoMatch 0x3F off
    else .allow (s.g (aPuCtl i) PU_CTL.DCACHE) (s.g (aPuCtl i) PU_CTL.DORDER)

/-- The domain of a PU (R224). -/
def State.puDom (s : State) (i : Nat) : Nat := s.g (aPuCtl i) PU_CTL.DOM

/-- The check of a request's bytes, one or two pages, the stricter attributes of both (R227 to R229). -/
def State.puCheck (s : State) (i b st : Nat) (op : BitVec 4) (addr : BitVec 48) (len : BitVec 8) : PuAns :=
  if 7 < s.puDom i then .refuse vUnowned 0x3F 0
  else
    let a := addr.toNat
    let p1 := a / 4096
    let p2 := (a + len.toNat) / 4096
    match s.puPage i b st op p1 0 with
    | .refuse k r o => .refuse k r o
    | .allow c1 o1 =>
      if p1 = p2 then .allow (min 3 c1) (max 0 o1)
      else
        match s.puPage i b st op p2 (4096 - a % 4096) with
        | .refuse k r o => .refuse k r o
        | .allow c2 o2 => .allow (min c1 c2) (max o1 o2)

/-- The event of a PU's domain (R237, R241). -/
def State.puEvent (s : State) (i : Nat) : Nat := if s.puDom i < 8 then 896 + s.puDom i else 905

/-- A refusal fills an empty record and raises its event, at most once per management cycle and domain, or adds to VCNT (R237, R241). -/
def State.violation (s : State) (i b st : Nat) (op : BitVec 4) (addr : BitVec 48) (mtag : BitVec 8) (kind rule off : Nat) : State :=
  if s.gb (aVrec0 i) PU_VREC0.VALID then s.sat (aVrec1 i) PU_VREC1.VCNT
  else
    let w0 : Nat := 2 ^ 63 + 2 ^ 60 * kind + 2 ^ 59 * st + 2 ^ 58 * b + 2 ^ 52 * rule + 2 ^ 48 * op.toNat + addr.toNat
    let w1 : Nat := 2 ^ 40 * mtag.toNat + 2 ^ 32 * (off % 256) + s.stamp.toNat
    let ev := s.puEvent i
    ((s.wr (aVrec0 i) (BitVec.ofNat 64 w0)).wr (aVrec1 i) (BitVec.ofNat 64 w1)).oncePer ev (fun s => s.raiseFrom (i / 3) ev)

/-- The in-flight counter of an epoch (R235). -/
def cntFd (b : Bool) : Fd := if b then PU_CNT.CNT1 else PU_CNT.CNT0
def State.puUp (s : State) (i : Nat) (b : Bool) : State := s.p (aPuCnt i) (cntFd b) (s.g (aPuCnt i) (cntFd b) + 1)
def State.puDown (s : State) (i : Nat) (b : Bool) : State := s.p (aPuCnt i) (cntFd b) (s.g (aPuCnt i) (cntFd b) - 1)
def State.puLeave (s : State) (i : Nat) (b : Option Bool) : State :=
  match b with
  | some x => s.puDown i x
  | none => s

/-- VALID is cleared together with VCNT (R237). The other fields of the record stay readable: whether "clears the record" zeroes them the rule does not say (DESIGN CHOICE, notes/assumptions/135.md). -/
def State.clearViolation (s : State) (i : Nat) : State :=
  (s.pb (aVrec0 i) PU_VREC0.VALID false).p (aVrec1 i) PU_VREC1.VCNT 0

end Sys2Proof.Machine
end

