-- ==== Sys2Proof/Machine/NiPort.lean ====
section
/-! DEFINITION. The endpoint side of an initiator NI: acceptance of Q transfers, local refusals, the D beats of a write (R104 to R110, R132, R227). -/
namespace Sys2Proof.Machine

-- TL_NICFG.STATE (R131).
def niDisabled : Nat := 0
def niEnabled : Nat := 1
def niDisabling : Nat := 2

/-- STATE: a DISABLED port whose ENABLE is set is ENABLED from the cycle after it became so (R129, R131). -/
def State.niState (s : State) (t p : Nat) : Nat :=
  let st := s.g (aNicfg t p) TL_NICFG.STATE
  if st = niDisabled ∧ s.gb (aNicfg t p) TL_NICFG.ENABLE = true ∧ (s.ni t p).disAt < s.cyc then niEnabled else st

/-- The cycle of R129 in which a port with ENABLE set is still DISABLED passes before a transfer at the port (DESIGN CHOICE, notes/assumptions/98.md). -/
def State.niOpen (s : State) (t p : Nat) : State :=
  if s.g (aNicfg t p) TL_NICFG.STATE = niDisabled ∧ s.gb (aNicfg t p) TL_NICFG.ENABLE = true then s.until ((s.ni t p).disAt + 1) else s

/-- OUTSTD: the count of R116 for an initiator NI, of R128 for the other kinds. -/
def State.outstd (s : State) (t p : Nat) : Nat :=
  let n := s.ni t p
  if s.kind t p = .initiator then
    n.outs.length + (n.sresp.filter (·.np)).length + n.injq.length + n.dwait.toList.length + (n.going.filter (·.posted)).length
  else n.rx.length + (n.pres.filter (fun x => !x.dead)).length + n.rspq.length

/-- Items that the crossing of an NI port still takes while the tile's core does not run: it holds 16 (R382, R386). -/
def State.niRoom (s : State) (t p : Nat) (k : Nat) : Bool := s.coreRuns t || decide ((s.ni t p).xin + k ≤ 16)

/-- Items enter the crossing of an NI port; a running core takes them at once. -/
def State.niEnter (s : State) (t p : Nat) (k : Nat) : State :=
  if s.coreRuns t then s else s.setNi t p { s.ni t p with xin := (s.ni t p).xin + k }

/-- The endpoint's channels can transfer: out of reset, its crossing UP, its clock running, and not isolated as those of an OFF tile are (R127, R369, R385, R387). -/
def State.epOpen (s : State) (t p : Nat) : Bool :=
  s.pst t != 5 && s.pst t != 6 && !(s.ni t p).epLow && (s.ni t p).epUp && !(s.ni t p).clkStop

/-- QREADY: the port is enabled, its channels can transfer, no write's beats are awaited, the injection queue and the crossing have room, and nothing from before a reset or an abort remains (R116, R127 to R129, R132, R382). -/
def State.qReady (s : State) (t p : Nat) : Bool :=
  let n := s.ni t p
  s.kind t p == .initiator && s.niState t p == niEnabled && s.epOpen t p && n.dwait.isNone
    && decide (n.injq.length < 8) && s.niRoom t p 1 && (!n.waitZero || s.outstd t p == 0) && n.abandoned.isEmpty

/-- Least and greatest QBEATS of an operation (R104). -/
def beatRange (op : BitVec 4) : Nat × Nat :=
  if op = Qop.WRITE ∨ op = Qop.WRITE_NP ∨ op = Qop.CELL then (1, 4)
  else if op = Qop.ATOMIC then (1, 1)
  else if op = Qop.MESSAGE then (0, 4)
  else if op = Qop.ENQUEUE then (0, 1)
  else (0, 0)

/-- QOP is not reserved, and QBEATS is in the range of its operation and is the count that R106 requires. -/
def beatsOk (op : BitVec 4) (q : QReq) : Bool :=
  let n := q.beats.toNat
  decide (op.toNat < 8) && decide ((beatRange op).1 ≤ n) && decide (n ≤ (beatRange op).2) &&
    (if n = 0 then op != Qop.MESSAGE || q.len == 0 else n == flitsFor (q.len.toNat + 1))

/-- The slot bank in use at a port gives a connection a slot (R121). -/
def State.connOwns (s : State) (t p : Nat) (conn : BitVec 4) : Bool :=
  (List.range 64).any (fun i =>
    let w := s.rd (aNislot t p (s.ni t p).slotBank.toNat i)
    bitOf w 4 && fld w 0 4 == conn.toNat)

/-- Step 2 of R107. -/
def State.guaranteeOk (s : State) (t p : Nat) (q : QReq) : Bool := !q.gs || (q.cls == 0 && s.connOwns t p q.conn)

/-- The base, size and destination of a decode window that is valid. -/
def State.window (s : State) (t p i : Nat) : Option (Nat × Nat × BitVec 10) :=
  let w := s.rd (aNidec t p i)
  let size := 2 ^ (12 + min 36 (fld w 58 6))
  if bitOf w 0 then some (fld w 12 36 * 4096 / size * size, size, BitVec.ofNat 10 (fld w 48 10)) else none

/-- The destination of an access: the lowest-numbered window that holds QADDR, which must hold all its bytes and name a tile of the grid (R107, R110). -/
def State.decodeAddr (s : State) (t p : Nat) (addr : BitVec 48) (len : BitVec 8) : Option (BitVec 10) :=
  let a := addr.toNat
  match (List.range 16).findSome? (fun i =>
      match s.window t p i with
      | some (b, n, d) => if b ≤ a ∧ a < b + n then some (b, n, d) else none
      | none => none) with
  | some (b, n, d) => if a + len.toNat < b + n ∧ epInGrid d = true then some d else none
  | none => none

/-- What an initiator NI decides of a request at its acceptance. -/
inductive QAns where
  | refuse (code : BitVec 4)
  | prot (kind rule off : Nat)
  | send (dest : BitVec 10) (cache order : Nat)
  deriving DecidableEq, Repr

/-- Steps 1 to 4 of R107; a DOORBELL follows R110. -/
def State.qDecide (s : State) (t p : Nat) (op : BitVec 4) (q : QReq) : QAns :=
  let i := puIndex t p
  let act := s.g (aPuCtl i) PU_CTL.ACT
  if ¬ beatsOk op q then .refuse Resp.DECERR
  else if ¬ s.guaranteeOk t p q then .refuse Resp.DECERR
  else if op = Qop.DOORBELL then
    if 255 < fld q.addr 0 10 then .refuse Resp.DECERR
    else if 7 < s.puDom i then .prot vUnowned 0x3F 0
    else .send s.build.dbep 0 0
  else match s.decodeAddr t p q.addr q.len with
    | none => .refuse Resp.DECERR
    | some d => match s.puCheck i (s.inj t).toNat act op q.addr q.len with
      | .refuse k r o => .prot k r o
      | .allow c o => .send d c o

/-- The request carries D beats, refused or not (R107); a reserved QOP names no write-type request (DEDUCED, notes/assumptions/90.md). -/
def writeType (op : BitVec 4) (q : QReq) : Bool := (beatRange op).2 != 0 && q.beats != 0

/-- An answer formed by the NI itself. -/
def localAns (r : NiReq) (code : BitVec 4) : SResp := ⟨r.q.mtag, code, [], false, !qopPosted r.op, false, none⟩

/-- A request is queued, awaits its D beats, or is answered at once (R107, R108). -/
def Ni.queue (n : Ni) (r : NiReq) : Ni :=
  let n := { n with waitZero := false, nextSeq := n.nextSeq + 1 }
  if writeType r.op r.q then { n with dwait := some r }
  else match r.refuse with
    | some c => { n with sresp := n.sresp ++ [localAns r c] }
    | none => { n with injq := n.injq ++ [r] }

-- Ordering (R112).

/-- An access as the ordering rules see it. -/
structure Access where
  np : Bool
  mem : Bool
  dest : BitVec 10
  cls : BitVec 2
  stratum : Bool
  lo : Nat
  hi : Nat
  deriving DecidableEq, Repr

/-- The class of the packet: DOORBELL is sent in the Control class (R55, R111). -/
def NiReq.cls (r : NiReq) : BitVec 2 := if r.op = Qop.DOORBELL then 1 else r.q.cls
def NiReq.access (r : NiReq) : Access :=
  ⟨!qopPosted r.op, r.op != Qop.DOORBELL, r.dest, r.cls, r.stratum, r.q.addr.toNat / 64, (r.q.addr.toNat + r.q.len.toNat) / 64⟩
def NiOut.access (o : NiOut) : Access :=
  ⟨true, true, o.dest, o.cls, o.stratum, o.addr.toNat / 64, (o.addr.toNat + o.len.toNat) / 64⟩

/-- An earlier access that a request is ordered after (R112). -/
def follows (r : NiReq) (dest : BitVec 10) (mem : Bool) (lo hi : Nat) : Bool :=
  let a := r.access
  match r.order.toNat with
  | 0 => false
  | 1 => mem && a.mem && decide (lo ≤ a.hi) && decide (a.lo ≤ hi)
  | 2 => dest == r.dest
  | _ => true

/-- An earlier access of the port that a request is ordered after has another class, stratum or DEST: the request is held until each earlier non-posted one has completed (R112). -/
def Ni.mustHold (n : Ni) (r : NiReq) : Bool :=
  (n.outs.map NiOut.access ++ n.injq.map NiReq.access).any (fun a =>
    follows r a.dest a.mem a.lo a.hi && !(a.cls == r.cls && a.stratum == r.stratum && a.dest == r.dest))

/-- A Q transfer is accepted: its stratum, attributes and time are fixed, a PU refusal is recorded, an access that the PU allowed is counted (R52, R107, R135, R235, R237). TSTAMP is the time of the Q transfer also where beat 0 follows in a later cycle: R52 does not say which of the two is the first beat (DESIGN CHOICE, notes/assumptions/99.md). -/
def State.qAccept (s : State) (t p : Nat) (op : BitVec 4) (q : QReq) : State :=
  if ¬ s.qReady t p then s
  else
    let s := s.niEnter t p 1
    let i := puIndex t p
    let b := s.inj t
    let ans := s.qDecide t p op q
    let req (refuse : Option (BitVec 4)) (dest : BitVec 10) (cache order : Nat) : NiReq :=
      { seq := (s.ni t p).nextSeq, op := op, q := q, stratum := b, dest := dest, pdom := BitVec.ofNat 4 (s.puDom i), cache := BitVec.ofNat 2 cache,
        order := BitVec.ofNat 2 order, data := [], dbe := 0, tstamp := s.stamp, refuse := refuse, hold := false }
    let s1 := s.wake t true
    match ans with
    | .refuse c => s1.setNi t p ((s1.ni t p).queue (req (some c) 0 0 0))
    | .prot k r o =>
      let s2 := s1.violation i b.toNat (s.g (aPuCtl i) PU_CTL.ACT) op q.addr q.mtag k r o
      s2.setNi t p ((s2.ni t p).queue (req (some Resp.PROT) 0 0 0))
    | .send d c o =>
      let s2 := if op = Qop.DOORBELL then s1 else s1.puUp i b
      let r := req none d c o
      s2.setNi t p ((s2.ni t p).queue { r with hold := (s2.ni t p).mustHold r })

/-- A Q transfer offered by an endpoint, with the QOP of the command or a reserved one (R104, R107). -/
def State.qTransfer (s : State) (t p : Nat) (op : BitVec 4) (q : QReq) : State :=
  (s.niOpen t p).qAccept t p (match q.rsv with | some c => 8 + c.zeroExtend 4 | none => op) q

/-- READ (R107). -/
def execRead (t : Tile) (p : LPort) (q : QReq) (s : State) : Res := .next (s.qTransfer t.val p.val Qop.READ q)
/-- WRITE (R107). -/
def execWrite (t : Tile) (p : LPort) (q : QReq) (s : State) : Res := .next (s.qTransfer t.val p.val Qop.WRITE q)
/-- WRITE_NP (R107). -/
def execWriteNp (t : Tile) (p : LPort) (q : QReq) (s : State) : Res := .next (s.qTransfer t.val p.val Qop.WRITE_NP q)
/-- ATOMIC (R107). -/
def execAtomic (t : Tile) (p : LPort) (q : QReq) (s : State) : Res := .next (s.qTransfer t.val p.val Qop.ATOMIC q)
/-- MESSAGE (R107). -/
def execMessage (t : Tile) (p : LPort) (q : QReq) (s : State) : Res := .next (s.qTransfer t.val p.val Qop.MESSAGE q)
/-- DOORBELL (R110). -/
def execDoorbell (t : Tile) (p : LPort) (q : QReq) (s : State) : Res := .next (s.qTransfer t.val p.val Qop.DOORBELL q)
/-- CELL (R107). -/
def execCell (t : Tile) (p : LPort) (q : QReq) (s : State) : Res := .next (s.qTransfer t.val p.val Qop.CELL q)
/-- ENQUEUE (R107). -/
def execEnqueue (t : Tile) (p : LPort) (q : QReq) (s : State) : Res := .next (s.qTransfer t.val p.val Qop.ENQUEUE q)

/-- The first n bytes of a flit; the rest zero (R48). -/
def keepBytes (n : Nat) (l : Line) : Line := if 64 ≤ n then l else l &&& BitVec.ofNat 512 (2 ^ (8 * n) - 1)

/-- The bytes of a flit whose enable is 1; the rest zero (R49). -/
def keepEnabled (be : BitVec 64) (l : Line) : Line :=
  (List.range 64).foldl (fun m j => if bitOf be j then m ||| (l &&& (0xFF#512 <<< (8 * j))) else m) 0

/-- The data flits of a request from its D beats: bytes beyond the length and disabled bytes are zero; a CAS keeps both operands of R56, an ENQ all of its flit. -/
def dataFlits (op : BitVec 4) (atop : BitVec 2) (len : Nat) (dbe : BitVec 64) (beats : List Line) : List Line :=
  if op = Qop.ENQUEUE then beats
  else if op = Qop.ATOMIC ∧ atop = 2 then
    beats.map (fun l => keepBytes (len + 1) l ||| (keepBytes (len + 1) (l >>> 64) <<< 64))
  else
    let cut := beats.mapIdx (fun k l => keepBytes (len + 1 - 64 * k) l)
    if op = Qop.WRITE ∨ op = Qop.WRITE_NP then cut.modifyHead (keepEnabled dbe) else cut

/-- The DLAST beat of the request whose beats are awaited: the request joins the injection queue, or its refusal is answered, whatever the count of its beats (R100, R107). -/
def Ni.dlast (n : Ni) (beats : List Line) (dbe : BitVec 64) : Ni :=
  match n.dwait with
  | none => n
  | some r =>
    match r.refuse with
    | some c => { n with dwait := none, sresp := n.sresp ++ [localAns r c] }
    | none =>
      if beats.length ≠ r.q.beats.toNat then n
      else { n with dwait := none, injq := n.injq ++ [{ r with data := dataFlits r.op r.q.atop r.q.len.toNat dbe beats, dbe := dbe }] }

/-- DREADY: the channels can transfer, and the crossing takes the beats (R127, R382). -/
def State.dReady (s : State) (t p : Nat) (k : Nat) : Bool :=
  let n := s.ni t p
  n.dwait.isSome && s.epOpen t p && s.niRoom t p k

/-- DLAST_BEAT (R100). -/
def execDlastBeat (t : Tile) (p : LPort) (beats : List Line) (dbe : BitVec 64) (s : State) : Res :=
  .next (
    if s.dReady t.val p.val beats.length then
      let s := s.niEnter t.val p.val beats.length
      s.setNi t.val p.val ((s.ni t.val p.val).dlast beats dbe)
    else s)

/-- An answer leaves on S: its entry is free, and its access leaves the in-flight counter (R108, R116, R235). -/
def State.leaveS (s : State) (t p : Nat) : State :=
  let n := s.ni t p
  if s.epOpen t p = false then s
  else match n.sresp with
    | [] => s
    | a :: rest => (s.setNi t p { n with sresp := rest }).puLeave (puIndex t p) a.pu

end Sys2Proof.Machine
end

