-- ==== Sys2Proof/Machine/Evc.lean ====
section
/-! DEFINITION. The event controller: doorbells, offering, claims and completes, enables, retention, wake pulses (R317 to R339, R384, R462, R463). -/
namespace Sys2Proof.Machine

-- Rights of a master.

/-- The debug-write enable fuse (R9). -/
def State.dbgwr (s : State) : Bool := s.gb aFuseCtl FUSE_CTL.DBGWR
/-- The master is active (R36): a host once its port has left reset, the sequencer once the boot program is loaded, the loader until the hand-over, the chain once enumeration has given this instance an address; none while the management clock stands (R380). -/
def State.masterActs (s : State) (m : Master) : Bool :=
  s.pm.mstate == .running && (match m with
    | .host h => !(s.host h.val).low && !(s.host h.val).waitClear
    | .sq _ => s.boot.ready || s.boot.bootDone
    | .bl => !s.boot.bootDone
    | .chHost _ => s.g aChnId CHN_ID.ADDR != 0
    | .chSq => s.g aChnId CHN_ID.ADDR != 0)
/-- A write to a sequencer field acts (R9, R36). -/
def State.sqRight (s : State) (m : Master) : Bool :=
  s.masterActs m && (match m with
    | .sq _ => true
    | .chSq => true
    | .host _ => s.dbgwr
    | .chHost _ => s.dbgwr
    | .bl => false)
/-- The sequencer, here or across the chain. -/
def masterIsSeq : Master → Bool
  | .sq _ => true
  | .chSq => true
  | _ => false
/-- The host port whose rights a master has. -/
def masterHost : Master → Option Nat
  | .host h => some h.val
  | .chHost h => some h.val
  | _ => none

-- Wake pulses.

/-- The state of a toggle crossing is replaced. -/
def State.setCt (s : State) (key : Nat) (c : Ct) : State := { s with pm := { s.pm with cts := tput ⟨false, 0, 0⟩ s.pm.cts key c } }

/-- A pulse enters a toggle crossing into domain d: launched, counted, or lost (R384). -/
def State.ctPulse (s : State) (key d : Nat) : State :=
  let c := tget ⟨false, 0, 0⟩ s.pm.cts key
  if c.busy = false ∧ c.cnt = 0 then s.setCt key { c with busy := true, delivered := c.delivered + 1 }
  else if c.cnt < 15 then s.setCt key { c with cnt := c.cnt + 1 }
  else ((s.pb (aDomstat d) PM_DOMSTAT.OVF true).sat (aDomstat d) PM_DOMSTAT.OVFCNT).oncePer 995 (·.raise 995)

/-- An event raised on the basalt side crosses by its toggle crossing, which may lose it, and wakes the management domain (R384, R462). -/
def State.raiseBasalt (s : State) (ev : Nat) : State :=
  let c := tget ⟨false, 0, 0⟩ s.pm.cts 65
  let s1 := s.ctPulse 65 577
  if c.busy = true ∧ 15 ≤ c.cnt then s1 else (s1.raise ev).wakeMgmt

/-- EVC_WAKE pulses that a target has had. -/
def State.setWakes (s : State) (t n : Nat) : State := { s with evc := { s.evc with wakes := tput 0 s.evc.wakes t n } }

/-- A crossing in FLUSH gives its sender no acknowledge: a pulse is counted, and launched once the crossing is UP (R384, R385; DEDUCED, notes/assumptions/147.md). -/
def State.ctHold (s : State) (key : Nat) : State := s.setCt key { tget ⟨false, 0, 0⟩ s.pm.cts key with busy := true }

/-- A round trip of a toggle crossing has ended: the next pulse is launched, or the crossing is idle (R384). -/
def State.ctTripEnd (s : State) (key : Nat) : State :=
  let c := tget ⟨false, 0, 0⟩ s.pm.cts key
  if c.busy = false then s
  else s.setCt key (if c.cnt = 0 then { c with busy := false } else { c with cnt := c.cnt - 1, delivered := c.delivered + 1 })

/-- A pulse on EVC_WAKE of a target (R325): none while its port is in reset (R339); while its crossing reconnects, it waits in the counter (R384, R385). -/
def State.wakePulse (s : State) (t : Nat) : State :=
  if (s.host (t / 8)).low then s
  else
    let s := (if (s.host (t / 8)).waitClear then s.ctHold t else s).ctPulse t (580 + t / 8)
    s.setWakes t (tget 0 s.evc.wakes t + 1)

-- Bits of sources and targets.

def State.pendBit (s : State) (i : Nat) : Bool := s.bitAt (aPend (i / 64)) (i % 64)
def State.setPend (s : State) (i : Nat) (b : Bool) : State := s.putBitAt (aPend (i / 64)) (i % 64) b
def State.activeBit (s : State) (i : Nat) : Bool := s.bitAt (aActive (i / 64)) (i % 64)
def State.setActive (s : State) (i : Nat) (b : Bool) : State := s.putBitAt (aActive (i / 64)) (i % 64) b
def State.levelBit (s : State) (i : Nat) : Bool := s.bitAt (aLevel (i / 64)) (i % 64)
def State.setLevel (s : State) (i : Nat) (b : Bool) : State := s.putBitAt (aLevel (i / 64)) (i % 64) b
def State.enBit (s : State) (t i : Nat) : Bool := s.bitAt (aEn t (i / 64)) (i % 64)
def State.pri (s : State) (i : Nat) : Nat := s.g (aSrc i) EVC_SRC.PRI
def State.lvlSrc (s : State) (i : Nat) : Bool := s.gb (aSrc i) EVC_SRC.LVLSRC
def State.stack (s : State) (t : Nat) : List (Nat × Nat) := tget [] s.evc.stks t
def State.setStack (s : State) (t : Nat) (l : List (Nat × Nat)) : State :=
  { s with evc := { s.evc with stks := tput [] s.evc.stks t l } }

/-- The group of a priority (R322); a split of 0 acts as 1. -/
def State.grp (s : State) (x : Nat) : Nat := x / 2 ^ (8 - max 1 (s.g aEvcCfg EVC_CFG.PRISPLIT))

/-- Target t admits source i (R324). -/
def State.admits (s : State) (t i : Nat) : Bool :=
  let g := s.grp (s.pri i)
  s.enBit t i && decide (s.grp (fld (s.rd (aThresh t)) 0 8) < g)
    && (match s.stack t with | [] => true | x :: _ => decide (s.grp x.2 < g))
    && decide ((s.stack t).length < 8)

/-- The current target of a source: the next after LASTT that admits it (R324). -/
def State.target (s : State) (i : Nat) : Option Nat :=
  if s.pendBit i && !s.activeBit i && s.pri i != 0 then
    ((List.range 64).map (fun k => (s.g (aSrc i) EVC_SRC.LASTT + 1 + k) % 64)).find? (fun t => s.admits t i)
  else none

/-- The sources that await a claim. -/
def State.pendList (s : State) : List Nat :=
  (List.range 16).flatMap (fun k => (bitsOf (s.rd (aPend k) &&& ~~~(s.rd (aActive k)))).map (64 * k + ·))

/-- The best source presented to target t: the highest PRI, then the lowest number (R325). -/
def State.best (s : State) (t : Nat) : Option Nat :=
  (s.pendList.filter (fun i => s.target i == some t)).foldl (fun b i =>
    match b with
    | none => some i
    | some j => if s.pri j < s.pri i then some i else b) none

/-- Level sources that are asserted and not claimed are pending (R320). -/
def State.levelPend (s : State) : State :=
  (List.range 16).foldl (fun s k =>
    (bitsOf (s.rd (aLevel k) &&& ~~~(s.rd (aActive k)))).foldl (fun s b =>
      if s.lvlSrc (64 * k + b) then s.setPend (64 * k + b) true else s) s) s

/-- EVC_IRQ of every target, from the state now (R325); 0 for the targets of a host port in reset (R339). -/
def State.irqNow (s : State) : BitVec 64 :=
  s.pendList.foldl (fun v i => match s.target i with | some t => if (s.host (t / 8)).low then v else putBit v t true | none => v) 0

/-- The levels of EVC_IRQ at host h: those that its side holds while its clock stands, none while its port is in reset or its crossing not UP (R382, R385). -/
def State.hostIrq (s : State) (h : Nat) : BitVec 8 :=
  let x := s.host h
  if x.low || x.waitClear then 0 else x.irqKept.getD (s.evc.irq.extractLsb' (8 * h) 8)

/-- A management cycle of the EVC: level sources, EVC_IRQ, SPUR and the wake pulse of each rise (R320, R325). -/
def State.evcCycle (s : State) : State :=
  if s.pm.mstate ≠ .running then s
  else
    let s := s.levelPend
    let irq := s.irqNow
    let rise := irq &&& ~~~s.evc.irq
    let s := { s with evc := { s.evc with irq := irq, spur := s.evc.spur ||| rise } }
    (bitsOf rise).foldl (fun s t => s.wakePulse t) s

-- Doorbells.

/-- Wake pulses of ICX targets for an edge source 0 to 255 (R338). -/
def State.icxWake (s : State) (i : Nat) : State :=
  if 255 < i ∨ s.lvlSrc i = true ∨ s.pri i = 0 then s
  else (List.range 64).foldl (fun s t =>
    if s.gb (aTgtcfg t) EVC_TGTCFG.ICX && s.enBit t i then s.wakePulse t else s) s

/-- An edge occurrence takes effect (R320). -/
def State.edgeIn (s : State) (i : Nat) : State :=
  let s := s.bump aEvcCnt EVC_CNT.DBLS
  if s.pendBit i then s.sat aEvcCnt EVC_CNT.OVERRUN else s.setPend i true

/-- A level report takes effect (R320). -/
def State.levelIn (s : State) (i : Nat) (b : Bool) : State :=
  let s := (s.bump aEvcCnt EVC_CNT.DBLS).setLevel i b
  if b then s else if s.activeBit i then s else s.setPend i false

/-- Why a doorbell is discarded (R319). -/
inductive DblAns where
  | badsrc | kinderr | nondbl | edge (i : Nat) | level (i : Nat) (b : Bool)
  deriving DecidableEq, Repr

/-- What a packet at DBEP is (R319). -/
def State.dblAns (s : State) (k : Pkt) : DblAns :=
  let i := fld k.aux 0 10
  let kind := bitOf k.aux 10
  if k.cmd ≠ Cmd.DBL ∨ k.dfc ≠ 0 then .nondbl
  else if 1021 < i then .badsrc
  else if kind ≠ s.lvlSrc i then .kinderr
  else if kind then .level i (bitOf k.aux 11) else .edge i

/-- A packet of another command at DBEP is answered DECERR where it has an answer (R319). -/
def State.evcDecerr (s : State) (k : Pkt) : State :=
  match respTo k Resp.DECERR 0 [] with
  | some a => s.evcSend a
  | none => s

/-- The first packet at DBEP leaves the queue. -/
def State.popDbl (s : State) : State := { s with evc := { s.evc with rx := s.evc.rx.tail } }

/-- A packet at DBEP takes effect while the management domain runs (R319, R320, R338). -/
def State.dblIn (s : State) (k : Pkt) : State :=
  match s.dblAns k with
  | .nondbl => (s.sat aEvcErr EVC_ERR.NONDBL).evcDecerr k
  | .badsrc => s.sat aEvcErr EVC_ERR.BADSRC
  | .kinderr => s.sat aEvcErr EVC_ERR.KINDERR
  | .edge i => ((s.edgeIn i).icxWake i).evcCycle
  | .level i b => (s.levelIn i b).evcCycle

/-- DBL (R319). -/
def execDbl (s : State) : Res :=
  .next (match s.evc.rx with
    | [] => s
    | k :: _ => if s.pm.mstate ≠ .running then s else s.popDbl.dblIn k)

/-- INTERNAL_EVENT (R462): an event that a block raised on the internal path takes effect as an edge DBL; in retention it waits. Blocks of several domains raise events, so no order holds between two of different sources (DESIGN CHOICE, notes/assumptions/40.md). -/
def execInternalEvent (src : BitVec 10) (s : State) : Res :=
  .next (
    if s.pm.mstate ≠ .running then s
    else match extract (fun (i : Nat) => i == src.toNat) s.evc.evq with
      | none => s
      | some (i, rest) =>
        let s := { s with evc := { s.evc with evq := rest } }
        if s.lvlSrc i then s.sat aEvcErr EVC_ERR.KINDERR else (s.edgeIn i).evcCycle)

-- Claim and complete.

/-- A claim of target t: the source returned, and the state after it (R327, R328). -/
def State.claim (s : State) (t : Nat) : State × Nat :=
  match s.best t with
  | some i =>
    let p := s.pri i
    let s := ((s.setActive i true).setPend i false).p (aSrc i) EVC_SRC.CLAIMER t
    let s := (s.p (aSrc i) EVC_SRC.LASTT t).setStack t ((i, p) :: s.stack t)
    ({ s with evc := { s.evc with spur := putBit s.evc.spur t false } }.evcCycle, i)
  | none =>
    let r := if bitOf s.evc.spur t then 1023 else 1022
    ({ s with evc := { s.evc with spur := putBit s.evc.spur t false } }, r)

/-- A complete at target t (R329). -/
def State.complete (s : State) (t i : Nat) : State :=
  if 1021 < i then s
  else if (s.stack t).any (fun x => x.1 == i) then
    ((s.setStack t ((s.stack t).filter (fun x => x.1 != i))).setActive i false).evcCycle
  else s.sat aEvcErr EVC_ERR.CPLERR

/-- A master may write a target's enables, threshold and completes (R334). -/
def State.ownsTarget (s : State) (m : Master) (t : Nat) : Bool := s.masterActs m && (masterIsSeq m || masterHost m == some (t / 8))

/-- An answer is delivered to a host. -/
def State.answerHost (s : State) (h : Nat) (a : HAns) : State :=
  s.setHost h { s.host h with out := (s.host h).out ++ [a] }

/-- EVC_CLAIM (R327): a read by a host that does not own the target returns 1,022. -/
def execEvcClaim (h : HostId) (t : TgtId) (s : State) : Res :=
  .next (
    if s.masterActs (.host h) = false then s
    else if t.val / 8 ≠ h.val then s.answerHost h.val ⟨[(0, 1022)]⟩
    else
      let r := s.claim t.val
      r.1.answerHost h.val ⟨[(0, BitVec.ofNat 64 r.2)]⟩)

/-- EVC_COMPLETE (R329). -/
def execEvcComplete (m : Master) (t : TgtId) (id : BitVec 10) (s : State) : Res :=
  .next (if s.ownsTarget m t.val = true then s.complete t.val id.toNat else s)

-- Set and clear addresses.

/-- The bits of word k that a master's write to pending bits may change (R334); sources 1,022 and 1,023 do not exist. -/
def State.pendMask (s : State) (m : Master) (k : Nat) : W :=
  if s.masterActs m = false then 0
  else if masterIsSeq m then (if k = 15 then 0x3FFFFFFFFFFFFFFF#64 else BitVec.allOnes 64)
  else if (masterHost m).isSome && decide (k < 4) then BitVec.allOnes 64 else 0

/-- A write at EVC_SETPEND (R333, R338). -/
def State.setPendWord (s : State) (m : Master) (k : Nat) (v : W) : State :=
  let v := v &&& s.pendMask m k
  let s := s.wr (aPend k) (s.rd (aPend k) ||| v)
  ((bitsOf v).foldl (fun s b => s.icxWake (64 * k + b)) s).evcCycle

/-- A write at EVC_CLRPEND (R333). -/
def State.clrPendWord (s : State) (m : Master) (k : Nat) (v : W) : State :=
  (s.wr (aPend k) (s.rd (aPend k) &&& ~~~(v &&& s.pendMask m k))).evcCycle

/-- A write at EVC_ENSET (R334, R335). -/
def State.enSetWord (s : State) (m : Master) (t k : Nat) (v : W) : State :=
  let v := if k = 15 then v &&& 0x3FFFFFFFFFFFFFFF#64 else v
  if s.ownsTarget m t then (s.wr (aEn t k) (s.rd (aEn t k) ||| v)).evcCycle else s

/-- A write at EVC_ENCLR (R335). -/
def State.enClrWord (s : State) (m : Master) (t k : Nat) (v : W) : State :=
  if s.ownsTarget m t then (s.wr (aEn t k) (s.rd (aEn t k) &&& ~~~v)).evcCycle else s

/-- THRLOST in EVC_CTXSTAT (R336). -/
def ctxThrlost : Fd := ⟨24, 1, .ro, 0⟩

/-- A write to THRESH (R334, R336). -/
def State.threshWrite (s : State) (m : Master) (t : Nat) (v : BitVec 8) : State :=
  if s.ownsTarget m t then ((s.wr (aThresh t) (v.setWidth 64)).pb (aCtx t) ctxThrlost false).evcCycle else s

/-- A write to PRISPLIT (R323). -/
def State.prisplitWrite (s : State) (m : Master) (v : Nat) : State :=
  if s.sqRight m then (s.p aEvcCfg EVC_CFG.PRISPLIT v).evcCycle else s

/-- EVC_SETPEND (R333). -/
def execEvcSetpend (m : Master) (k : Fin 16) (v : W) (s : State) : Res := .next (s.setPendWord m k.val v)
/-- EVC_CLRPEND (R333). -/
def execEvcClrpend (m : Master) (k : Fin 16) (v : W) (s : State) : Res := .next (s.clrPendWord m k.val v)
/-- EVC_ENSET (R333). -/
def execEvcEnset (m : Master) (t : TgtId) (k : Fin 16) (v : W) (s : State) : Res := .next (s.enSetWord m t.val k.val v)
/-- EVC_ENCLR (R335). -/
def execEvcEnclr (m : Master) (t : TgtId) (k : Fin 16) (v : W) (s : State) : Res := .next (s.enClrWord m t.val k.val v)
/-- EVC_THRESH (R336). -/
def execEvcThresh (m : Master) (t : TgtId) (v : BitVec 8) (s : State) : Res := .next (s.threshWrite m t.val v)
/-- PRISPLIT_WRITE (R323). -/
def execPrisplitWrite (m : Master) (v : BitVec 3) (s : State) : Res := .next (s.prisplitWrite m v.toNat)

-- Retention.

/-- The doorbell latch takes a packet (R337). -/
def State.latchIn (s : State) (k : Pkt) : State :=
  let e := s.evc
  match s.dblAns k with
  | .nondbl => { s with evc := { e with lNondbl := e.lNondbl + 1 } }.evcDecerr k
  | .badsrc => { s with evc := { e with lBadsrc := e.lBadsrc + 1 } }
  | .kinderr => { s with evc := { e with lKinderr := e.lKinderr + 1 } }
  | .edge i =>
    let s := if e.lEdge.contains i then { s with evc := { e with lMerge := min 0xFFFF (e.lMerge + 1) } }
      else { s with evc := { e with lEdge := e.lEdge ++ [i] } }
    s.icxWake i
  | .level i b =>
    { s with evc := { e with lLevel := e.lLevel.filter (fun x => x.1 != i) ++ [(i, b)] } }

/-- The latch holds a packet: it is a DBL that R319 does not discard (R337). -/
def DblAns.isHeld : DblAns → Bool
  | .edge _ => true
  | .level _ _ => true
  | _ => false

/-- LATCH_DOORBELL (R337): during retention; the first DBL held starts the wake. -/
def execLatchDoorbell (s : State) : Res :=
  .next (match s.evc.rx with
    | [] => s
    | k :: _ =>
      if s.pm.mstate = .running then s
      else
        let held := (s.dblAns k).isHeld
        let s := s.popDbl.latchIn k
        if held then s.wakeMgmt else s)

/-- MGMT_WAKE (R380): the domain's clock runs. -/
def execMgmtWake (s : State) : Res :=
  .next (if s.pm.mstate = .retention ∨ s.pm.mstate = .waking then { s with pm := { s.pm with mstate := .clocked } } else s)

/-- THRESH of ICX targets is lost across retention (R336). -/
def State.loseThresh (s : State) : State :=
  (List.range 64).foldl (fun s t =>
    if s.gb (aTgtcfg t) EVC_TGTCFG.ICX then (s.wr (aThresh t) 0xFF).pb (aCtx t) ctxThrlost true else s) s

/-- The latch is merged into the EVC and cleared (R337). -/
def State.mergeLatch (s : State) : State :=
  let e := s.evc
  let s := e.lEdge.foldl (fun s i => s.edgeIn i) s
  let s := e.lLevel.foldl (fun s x => s.levelIn x.1 x.2) s
  let s := (s.sat aEvcCnt EVC_CNT.OVERRUN e.lMerge).sat aEvcErr EVC_ERR.BADSRC e.lBadsrc
  let s := (s.sat aEvcErr EVC_ERR.KINDERR e.lKinderr).sat aEvcErr EVC_ERR.NONDBL e.lNondbl
  { s with evc := { s.evc with lEdge := [], lLevel := [], lMerge := 0, lBadsrc := 0, lKinderr := 0, lNondbl := 0 } }

/-- The management domain runs again: THRESH of ICX targets is lost, the latch is merged, the crossings from the hosts drain (R336, R337, R382). -/
def State.mgmtRuns (s : State) : State :=
  let hosts : Tab XHost := s.hosts.map (fun kv => (kv.1, { kv.2 with xin := 0 }))
  let u := s.loseThresh.mergeLatch
  { u with pm := { u.pm with mstate := .running }, hosts := hosts.filter (fun kv => kv.2 != XHost.reset) }.evcCycle

-- Reset of a host port.

/-- The EVC's part of a host port's reset (R339). -/
def State.evcHostReset (s : State) (h : Nat) : State :=
  (List.range 8).foldl (fun s c =>
    let t := 8 * h + c
    let s := (s.stack t).foldl (fun s x => s.setActive x.1 false) s
    let s := (s.setStack t []).wr (aThresh t) 0
    let s := (List.range 16).foldl (fun s k => s.wr (aEn t k) 0) s
    { s with evc := { s.evc with spur := putBit s.evc.spur t false, irq := putBit s.evc.irq t false } }) s

end Sys2Proof.Machine
end

