-- ==== Sys2Proof/Machine/TmBuf.lean ====
section
/-! DEFINITION. The packet buffer: cells, free lists, INIT, allocation and freeing (R157 to R164), the scheduler tree's maps (R192 to R195), and the token buckets (R205 to R210). -/
namespace Sys2Proof.Machine

-- Cells (R157).

/-- NCHLOG2 as INIT took it over. -/
def State.nch (s : State) : Nat := min 6 (fld s.tm.cfg 43 3)
/-- CLOG2 as INIT took it over. -/
def State.clog (s : State) : Nat := min 24 (fld s.tm.cfg 38 5)
/-- RECBASE as INIT took it over. -/
def State.recBase (s : State) : Nat := fld s.tm.cfg 0 30
/-- The channel of a cell. -/
def State.chOf (s : State) (cp : Nat) : Nat := cp % 2 ^ s.nch
/-- A cell pointer that is valid and names a data cell. -/
def State.cpData (s : State) (cp : Nat) : Bool := decide (cp / 2 ^ s.nch < 2 ^ s.clog) && decide (cp < s.recBase)
/-- The packet-buffer address of byte j of a cell. -/
def State.cellAddr (s : State) (cp j : Nat) : BitVec 48 :=
  BitVec.ofNat 48 (fld s.tm.cfg 46 10 * 2 ^ 38 + s.chOf cp * 2 ^ 32 + cp / 2 ^ s.nch * 256 + j)
/-- The ports of a kind in ascending order of tile and position. -/
def State.portsOf (s : State) (k : NiKind) : List (Nat × Nat) :=
  ((List.range 432).map (fun i => (i / 3, i % 3))).filter (fun x => s.kind x.1 x.2 == k)
/-- The endpoint of the memory NI that serves a channel (R157). -/
def State.memEp (s : State) (ch : Nat) : BitVec 10 :=
  match (s.portsOf .memory)[ch]? with
  | some x => epAddr x.1 x.2
  | none => 0

-- Free lists (R161 to R164).

/-- CFGREJ is set (R164, R187). -/
def State.cfgRej (s : State) : State := (s.pb aBmstat TM_BMSTAT.CFGREJ true).raiseTm 0 837

/-- Valid data cells of a channel. -/
def State.chCells (s : State) (ch : Nat) : Nat :=
  if ch < 2 ^ s.nch then min (2 ^ s.clog) ((s.recBase + 2 ^ s.nch - 1 - ch) / 2 ^ s.nch) else 0

/-- A cell still stands where INIT put it. -/
def State.inBuilt (s : State) (cp : Nat) : Bool := s.cpData cp && s.tm.built && !s.tm.alloc.contains cp
/-- The free list of a channel. -/
def State.freeList (s : State) (ch : Nat) : FreeList := tget FreeList.reset s.tm.lists ch
/-- Cells on a free list. -/
def FreeList.count (l : FreeList) : Nat := l.base + l.back.length + (l.blocks.map (fun b => b.ptrs.length + 1)).foldl (· + ·) 0

/-- A free list may hand out a cell next: a pointer of the top block, whose own cell goes last. Which cells make up a block that INIT built, and the order within a block, are open (R161; DESIGN CHOICE, notes/assumptions/116.md). -/
def FreeList.offers (l : FreeList) (inBuilt : Nat → Bool) (cp : Nat) : Bool :=
  match l.blocks with
  | b :: _ => if b.ptrs.isEmpty then b.cell == cp else b.ptrs.contains cp
  | [] => l.back.contains cp || (decide (0 < l.base) && inBuilt cp && (decide (0 < l.left) || l.back.isEmpty))

/-- Pointers in the top block of n cells that INIT built: 63, fewer in the last block. -/
def topLeft (n : Nat) : Nat := min 63 (n - 1)

/-- A cell leaves its free list; the second answer says that it stood where INIT put it (R161). -/
def FreeList.take (l : FreeList) (cp : Nat) : FreeList × Bool :=
  match l.blocks with
  | b :: bs => ({ l with blocks := if b.ptrs.isEmpty then bs else { b with ptrs := b.ptrs.erase cp } :: bs }, false)
  | [] =>
    if l.back.contains cp then ({ l with back := l.back.erase cp }, false)
    else ({ l with base := l.base - 1, left := if 0 < l.left then l.left - 1 else topLeft (l.base - 1) }, true)

/-- A freed cell goes into the top block, or becomes the new top block where that one is full or there is none (R161, R163). -/
def FreeList.push (l : FreeList) (cp : Nat) : FreeList :=
  match l.blocks with
  | b :: bs => { l with blocks := if b.ptrs.length < 63 then { b with ptrs := b.ptrs ++ [cp] } :: bs else ⟨cp, []⟩ :: b :: bs }
  | [] => if 0 < l.base ∧ l.left + l.back.length < 63 then { l with back := l.back ++ [cp] } else { l with blocks := [⟨cp, []⟩] }

/-- A cell stands on its channel's free list. -/
def State.onList (s : State) (cp : Nat) : Bool := s.cpData cp && (s.freeList (s.chOf cp)).offers s.inBuilt cp

/-- Cells on all free lists (TM_BMSTAT.FREE). -/
def State.freeCells (s : State) : Nat := (s.tm.lists.map (·.2.count)).foldl (· + ·) 0

/-- A channel's free list is replaced. -/
def State.setFreeList (s : State) (ch : Nat) (l : FreeList) : State := { s with tm := { s.tm with lists := tput FreeList.reset s.tm.lists ch l } }

/-- A cell is pushed on its channel's list, and taken from the pool's HELD (R163, R164). -/
def State.freeCell (s : State) (pool cp : Nat) : State :=
  if s.cpData cp = false then s.sat aBmstat TM_BMSTAT.BADFREE
  else
    let s := s.setFreeList (s.chOf cp) ((s.freeList (s.chOf cp)).push cp)
    s.p (aPoolq pool) TM_POOLQ.HELD (s.g (aPoolq pool) TM_POOLQ.HELD - 1)

/-- Cells are freed one after the other. -/
def State.freeAll (s : State) (pool : Nat) (cps : List Nat) : State := cps.foldl (fun s c => s.freeCell pool c) s

/-- The channel that a pool used last. -/
def State.setLastCh (s : State) (pool ch : Nat) : State := { s with tm := { s.tm with lastCh := tput 63 s.tm.lastCh pool ch } }

/-- A cell leaves its channel's list for a pool (R163). -/
def State.takeCell (s : State) (pool cp : Nat) : State :=
  let ch := s.chOf cp
  let (l, built) := (s.freeList ch).take cp
  let s := s.setFreeList ch l
  let s := (if built then { s with tm := { s.tm with alloc := s.tm.alloc ++ [cp] } } else s).setLastCh pool ch
  s.p (aPoolq pool) TM_POOLQ.HELD (s.g (aPoolq pool) TM_POOLQ.HELD + 1)

/-- The channel of the pool's next cell: round robin over the channels of CHMASK that have free cells (R163). The first turn after fabric reset or INIT starts at channel 0: the rule names no channel used before it (DESIGN CHOICE, notes/assumptions/111.md). -/
def State.nextCh (s : State) (pool : Nat) : Option Nat :=
  let last := tget 63 s.tm.lastCh pool
  ((List.range 64).map (fun i => (last + 1 + i) % 64)).find? (fun c =>
    decide (c < 2 ^ s.nch) && bitOf (s.rd (aPoolch pool)) c && decide (0 < (s.freeList c).count))

/-- Up to n cells are taken for a pool; `picks` are the cells that the lists yield. None where the list whose turn it is does not offer a pick next; while INIT builds the lists, fewer picks may come (R161, R163). -/
def State.allocCells (s : State) (pool : Nat) : Nat → List Nat → Option (State × List Nat)
  | 0, _ => some (s, [])
  | n + 1, picks =>
    let held := s.g (aPoolq pool) TM_POOLQ.HELD
    match s.nextCh pool with
    | none => some (s, [])
    | some ch =>
      if s.g (aPoolq pool) TM_POOLQ.MAXHELD < held + 1 then some (s, [])
      else match picks with
        | [] => if s.tm.initBusy then some (s, []) else none
        | c :: cs =>
          if s.onList c && (decide (s.chOf c = ch) || (s.tm.initBusy && bitOf (s.rd (aPoolch pool)) (s.chOf c))) then
            ((s.takeCell pool c).allocCells pool n cs).map (fun (s, l) => (s, c :: l))
          else none

/-- 32-bit words packed into lines of 16 (R162). -/
def linesOf (ws : List Nat) : List Line :=
  (List.range ((ws.length + 15) / 16)).map (fun i =>
    BitVec.ofNat 512 (((ws.drop (16 * i)).take 16).foldr (fun w acc => w + 2 ^ 32 * acc) 0))

/-- Slot k of 32 bits of a list of lines. -/
def slotOf (ls : List Line) (k : Nat) : Nat := fld (ls.getD (k / 16) 0) (32 * (k % 16)) 32

/-- The requests that a port holds. -/
def State.tmRx (s : State) (port : Nat) : List Pkt := tget [] s.tm.rx port
def State.setTmRx (s : State) (port : Nat) (l : List Pkt) : State := { s with tm := { s.tm with rx := tput [] s.tm.rx port l } }

/-- A port answers a request. -/
def State.tmAnswer (s : State) (port : Nat) (q : Pkt) (code : BitVec 4) (lenm1 : BitVec 8) (data : List Line) : State :=
  match respTo q code lenm1 data with
  | some r => s.tmSend port r
  | none => s

/-- An allocation read is answered with the cells taken (R162, R163). -/
def State.allocate (s : State) (q : Nat) (picks : List Nat) : State :=
  match extract (fun (k : Pkt) => k.cmd == Cmd.RD) (s.tmRx q) with
  | none => s
  | some (k, rest) =>
    let pool := fld k.addr 8 5
    let n := (k.lenm1.toNat + 1) / 4
    match (s.setTmRx q rest).allocCells pool n picks with
    | none => s
    | some (s, cps) =>
      let s := s.tmAnswer q k Resp.OK k.lenm1 (linesOf (cps ++ List.replicate (n - cps.length) 0xFFFFFFFF))
      if cps.length < n then s.oncePer 833 (·.raiseTm q 833) else s

/-- ALLOCATE (R163). -/
def execAllocate (q : QpId) (picks : List Nat) (s : State) : Res := .next (s.allocate q.val picks)

/-- The pointers that a free names: those with bit 31 set are ignored (R162). A free names all n pointers whatever BE says: no rule lets BE limit them (R49; DESIGN CHOICE, notes/assumptions/113.md). -/
def freePtrs (k : Pkt) : List Nat :=
  (((List.range ((k.lenm1.toNat + 1) / 4)).map (slotOf k.data)).filter (fun w => decide (w < 2 ^ 31))).map (· % 2 ^ 30)

/-- FREE_CELLS (R162): a WRN is answered once the frees have been applied. -/
def execFreeCells (q : QpId) (s : State) : Res :=
  .next (
    match extract (fun (k : Pkt) => k.cmd == Cmd.WR || k.cmd == Cmd.WRN) (s.tmRx q.val) with
    | none => s
    | some (k, rest) => ((s.setTmRx q.val rest).freeAll (fld k.addr 8 5) (freePtrs k)).tmAnswer q.val k Resp.OK 0 [])

/-- Every queue is empty, and no scheduler port holds a packet whose cells are not freed; the cells of a failed packet are (R161, R177). -/
def State.tmEmpty (s : State) : Bool :=
  s.tm.qs.all (fun kv => kv.2.recs.isEmpty) && s.tm.disp.all (fun kv => kv.2.all (·.failed))

/-- The free lists of the channels as INIT builds them. -/
def State.builtLists (s : State) : Tab FreeList :=
  (List.range 64).foldl (fun t c => tput FreeList.reset t c ⟨[], topLeft (s.chCells c), [], s.chCells c⟩) []

/-- INIT (R161): HELD of every pool is 0, the fields of TM_PBCFG take effect, and the lists are built. The read of an extension cell for a packet dropped at its ENQ goes on (DESIGN CHOICE, notes/assumptions/149.md). -/
def State.startInit (s : State) : State :=
  let s := (List.range 32).foldl (fun s p => s.p (aPoolq p) TM_POOLQ.HELD 0) s
  let s := { s with tm := { s.tm with cfg := s.rd aPbcfg, alloc := [], built := true, initBusy := true, lastCh := [] } }
  { s with tm := { s.tm with lists := s.builtLists } }

/-- A write to TM_PBCFG (R161); an INIT that is refused leaves the other fields to be written (R10). -/
def State.pbcfgWrite (s : State) (v : W) : State :=
  let u := s.wr aPbcfg (v &&& maskOf .sq rowsTM_PBCFG)
  if bitOf v 63 = false then u else if s.tmEmpty then u.startInit else u.cfgRej

/-- PBCFG_INIT (R161). -/
def execPbcfgInit (m : Master) (v : W) (s : State) : Res := .next (if s.sqRight m then s.pbcfgWrite v else s)

/-- INIT_COMPLETE (R161). -/
def execInitComplete (s : State) : Res :=
  .next (
    if s.tm.initBusy then
      ({ s with tm := { s.tm with initBusy := false } }.pb aBmstat TM_BMSTAT.READY true).raiseTm 0 832
    else s)

-- Queues and the tree (R171 to R173, R192 to R195).

/-- The scheduler that owns a queue's block (R171). -/
def State.ownerOf (s : State) (q : Nat) : Option Nat :=
  if s.gb (aQpart (q / 64)) TM_QPART.V then some (s.g (aQpart (q / 64)) TM_QPART.ES) else none
/-- RSZ as it acts. -/
def State.rsz (s : State) (q : Nat) : Nat :=
  let r := s.g (aQdesc q 0) TM_QDESC0.RSZ
  if r = 0 then 0 else min 24 (max 4 r)
/-- PF as it acts. -/
def State.pf (s : State) (q : Nat) : Nat := max 1 (s.g (aQdesc q 0) TM_QDESC0.PF)
/-- A queue's map word in a bank. -/
def State.qmap (s : State) (b : Bool) (q : Nat) (f : Fd) : Nat := s.g (aQmap b.toNat q) f
/-- A group's first word in a bank. -/
def State.grpF (s : State) (b : Bool) (g : Nat) (f : Fd) : Nat := s.g (aGrpa b.toNat g) f
/-- The tree bank in use at a scheduler. -/
def State.treeBank (s : State) (k : Nat) : Bool := bitOf s.tm.tree k
/-- The queue's map is valid in a bank (R194). -/
def State.mapValid (s : State) (b : Bool) (q : Nat) : Bool :=
  match s.ownerOf q with
  | none => false
  | some k =>
    let g := s.qmap b q TM_QMAP.GROUP
    s.grpF b g TM_GRPA.V == 1 && s.grpF b g TM_GRPA.ES == k
/-- R194 applied at a scheduler. -/
def State.treeErr (s : State) (k : Nat) : State := (s.pb (aEsstat k) TM_ESSTAT.TREEERR true).raiseTm (16 + k) 850
/-- The counted length of a packet at a scheduler (R195). -/
def State.lenAt (s : State) (k len : Nat) : Nat := (max 1 ((len : Int) + sgn 8 (s.g (aEscfg k) TM_ESCFG.OVH))).toNat

-- Token buckets.

/-- One byte of a shaper, at Mb/s and 2^-32 ns. -/
def shUnit : Nat := 8000 * 2 ^ 32
/-- One byte of a meter or policer, at kb/s and 2^-32 ns. -/
def mtUnit : Nat := 8000000 * 2 ^ 32

/-- RATE of a shaper as it acts. -/
def rateCap (r : Nat) : Nat := min 1600000 r
/-- Tokens of a bucket refilled up to now and cut to a ceiling (R205). -/
def refill (tok : Int × Nat) (now rate ceil : Nat) : Int := min (tok.1 + (rate * (now - tok.2) : Nat)) ((ceil * shUnit : Nat) : Int)
/-- The tokens of a shaper now. -/
def State.shTok (s : State) (i : Nat) : Int :=
  refill (tget (0, 0) s.tm.sh i) s.runNow (rateCap (s.g (aShpcfg i) TM_SHPCFG.RATE)) (s.g (aShpcfg i) TM_SHPCFG.CEIL)
/-- The tokens of a port shaper now. -/
def State.pTok (s : State) (k : Nat) : Int :=
  refill (tget (0, 0) s.tm.ptok k) s.runNow (rateCap (s.g (aEscfg k) TM_ESCFG.LRATE)) (s.g (aEscfg2 k) TM_ESCFG2.PCEIL)
/-- A shaper holds so many tokens as of now. -/
def State.setSh (s : State) (i : Nat) (t : Int) : State := { s with tm := { s.tm with sh := tput (0, 0) s.tm.sh i (t, s.runNow) } }
def State.setPtok (s : State) (k : Nat) (t : Int) : State := { s with tm := { s.tm with ptok := tput (0, 0) s.tm.ptok k (t, s.runNow) } }
/-- Bytes charged to a shaper in the cycle of the decisions now made. -/
def State.setOwed (s : State) (i n : Nat) : State := { s with tm := { s.tm with owed := tput 0 s.tm.owed i n } }
/-- A shaper is charged l bytes; what is charged in the cycle of the decisions now made is noted (R198). -/
def State.chargeSh (s : State) (i l : Nat) : State :=
  (s.setSh i (s.shTok i - (l * shUnit : Nat))).setOwed i (tget 0 s.tm.owed i + l)
/-- The tokens that a decision tests: those at the start of its cycle (R196, R198). -/
def State.shStart (s : State) (i : Nat) : Int := s.shTok i + (tget 0 s.tm.owed i * shUnit : Nat)
/-- Scheduler k decides: another cycle of decisions begins where the clock has moved on or k has decided in this one (R196, R198). -/
def State.decides (s : State) (k : Nat) : State :=
  if s.tm.dcyc = s.cyc ∧ s.tm.dset.contains k = false then { s with tm := { s.tm with dset := s.tm.dset ++ [k] } }
  else { s with tm := { s.tm with dcyc := s.cyc, dset := [k], owed := [] } }
def State.chargePort (s : State) (k l : Nat) : State := s.setPtok k (s.pTok k - (l * shUnit : Nat))

/-- A write to TM_SHPCFG (R206). -/
def State.shaperWrite (s : State) (i : Nat) (v : W) : State :=
  let s := s.setSh i (s.shTok i)
  let s := s.wr (aShpcfg i) (v &&& maskOf .sq rowsTM_SHPCFG)
  let t := s.shTok i
  (s.setOwed i 0).setSh i (if bitOf v 63 && decide (t < 0) then 0 else t)

/-- SHAPER_CONFIG_WRITE (R206). -/
def execShaperConfigWrite (m : Master) (i : Fin 8192) (v : W) (s : State) : Res :=
  .next (if s.sqRight m then s.shaperWrite i.val v else s)

/-- CBS and XBS of a meter in bucket units. -/
def State.cbs (s : State) (i : Nat) : Nat := s.g (aMtr i 1) TM_MTRB.CBS * mtUnit
def State.xbs (s : State) (i : Nat) : Nat := s.g (aMtr i 1) TM_MTRB.XBS * mtUnit

/-- The buckets tc and te or tp of a meter, refilled up to now (R208). -/
def State.mtrTok (s : State) (i : Nat) : Nat × Nat :=
  let z := tget (0, 0, 0) s.tm.mtr i
  let dt := s.runNow - z.2.2
  let tc := z.1 + s.g (aMtr i 0) TM_MTRA.CIR * dt
  if s.g (aMtr i 3) TM_MTRD.MODE = 1 then (min (s.cbs i) tc, min (s.xbs i) (z.2.1 + s.g (aMtr i 0) TM_MTRA.PIR * dt))
  else if s.cbs i < tc then (s.cbs i, min (s.xbs i) (z.2.1 + (tc - s.cbs i)))
  else (tc, z.2.1)

/-- The buckets of a meter, with the time they were refilled at. -/
def State.putMtr (s : State) (i : Nat) (z : Nat × Nat × Nat) : State := { s with tm := { s.tm with mtr := tput (0, 0, 0) s.tm.mtr i z } }
def State.setMtr (s : State) (i tc te : Nat) : State := s.putMtr i (tc, te, s.runNow)

/-- RESET of a meter fills both buckets (R209). -/
def State.meterReset (s : State) (i : Nat) : State := s.setMtr i (s.cbs i) (s.xbs i)

/-- A write to word w of a meter: tokens above a new size are cut to it (R209). -/
def State.meterWrite (s : State) (i w : Nat) (v : W) : State :=
  match w with
  | 0 => s.wr (aMtr i 0) v
  | 1 =>
    let s := s.wr (aMtr i 1) v
    let z := tget (0, 0, 0) s.tm.mtr i
    s.putMtr i (min (s.cbs i) z.1, min (s.xbs i) z.2.1, z.2.2)
  | 3 =>
    let s := (s.p (aMtr i 3) TM_MTRD.AWARE (fld v 1 1)).p (aMtr i 3) TM_MTRD.MODE (fld v 0 1)
    if bitOf v 2 then s.meterReset i else s
  | _ => s

/-- METER_CONFIG_WRITE (R209). -/
def execMeterConfigWrite (m : Master) (i : Fin 16384) (word : Fin 4) (v : W) (s : State) : Res :=
  .next (if s.sqRight m then s.meterWrite i.val word.val v else s)
/-- METER_RESET (R209). -/
def execMeterReset (m : Master) (i : Fin 16384) (s : State) : Res := .next (if s.sqRight m then s.meterReset i.val else s)

/-- A colour: 0 green, 1 yellow, 2 red (R207). -/
def meterColor (trtcm aware : Bool) (tc te l pre : Nat) : Nat × Nat × Nat :=
  if trtcm then
    if (aware && pre == 2) || decide (te < l) then (2, tc, te)
    else if (aware && pre == 1) || decide (tc < l) then (1, tc, te - l)
    else (0, tc - l, te - l)
  else if aware && pre == 2 then (2, tc, te)
  else if (!aware || pre == 0) && decide (l ≤ tc) then (0, tc - l, te)
  else if l ≤ te then (1, tc, te - l)
  else (2, tc, te)

/-- A packet of counted length l is metered (R207, R208). -/
def State.meter (s : State) (i l pre : Nat) : State × Nat :=
  let tok := s.mtrTok i
  let w := s.rd (aMtr i 3)
  let (col, tc, te) := meterColor (bitOf w 0) (bitOf w 1) tok.1 tok.2 (l * mtUnit) pre
  let s := s.setMtr i tc te
  (s.bump (aMtr i 3) (if col = 0 then TM_MTRD.GREEN else if col = 1 then TM_MTRD.YELLOW else TM_MTRD.RED), col)

/-- The tokens of a hard policer now (R210). -/
def State.polTok (s : State) (i : Nat) : Nat :=
  let z := tget (0, 0) s.tm.pol i
  min (s.g (aPola i) TM_POLA.BURST * mtUnit) (z.1 + s.g (aPola i) TM_POLA.RATE * (s.runNow - z.2))
def State.setPol (s : State) (i t : Nat) : State := { s with tm := { s.tm with pol := tput (0, 0) s.tm.pol i (t, s.runNow) } }
/-- A write to TM_POLA: what has accrued is credited at the old rate. -/
def State.polWrite (s : State) (i : Nat) (v : W) : State :=
  let s := (s.setPol i (s.polTok i)).wr (aPola i) v
  s.setPol i (s.polTok i)
/-- RESET of a policer fills its bucket. -/
def State.polReset (s : State) (i : Nat) : State := s.setPol i (s.g (aPola i) TM_POLA.BURST * mtUnit)
/-- POLICER_RESET (R210). -/
def execPolicerReset (m : Master) (i : Fin 256) (s : State) : Res := .next (if s.sqRight m then s.polReset i.val else s)

-- Configuration writes (R171, R172).

/-- A queue of a block is enabled or not empty. -/
def State.blockBusy (s : State) (i : Nat) : Bool :=
  (List.range 64).any (fun j => s.gb (aQdesc (64 * i + j) 0) TM_QDESC0.EN || !(s.queue (64 * i + j)).recs.isEmpty)

/-- A write to TM_QPART (R171). -/
def State.qpartWrite (s : State) (i : Nat) (v : W) : State :=
  let new := v &&& maskOf .sq rowsTM_QPART
  let es := fld v 0 5
  let others := ((List.range 1024).filter (fun j => j != i && s.gb (aQpart j) TM_QPART.V && s.g (aQpart j) TM_QPART.ES == es)).length
  if (bitOf v 5 && decide (32 ≤ others)) || (decide (new ≠ s.rd (aQpart i)) && s.blockBusy i) then s.cfgRej
  else s.wr (aQpart i) new

/-- QPART_WRITE (R171). -/
def execQpartWrite (m : Master) (i : Fin 1024) (v : W) (s : State) : Res := .next (if s.sqRight m then s.qpartWrite i.val v else s)

/-- A write to word w of a queue descriptor (R172, R173). RBASE keeps the value written; it is aligned down where a record index is formed (DESIGN CHOICE, notes/assumptions/146.md). -/
def State.qdescWrite (s : State) (q w : Nat) (v : W) : State :=
  match w with
  | 0 =>
    let old := s.rd (aQdesc q 0)
    let new := v &&& maskOf .sq rowsTM_QDESC0
    let ring (x : W) : Nat × Nat := (fld x 56 5, fld x 0 31)
    if ring old = ring new then s.wr (aQdesc q 0) new
    else if bitOf old 63 || !(s.queue q).recs.isEmpty then
      (s.wr (aQdesc q 0) (setFld (setFld new 56 5 (ring old).1) 0 31 (ring old).2)).cfgRej
    else s.wr (aQdesc q 0) new
  | 1 => s.wr (aQdesc q 1) (v &&& maskOf .sq rowsTM_QDESC1)
  | 2 => s.p (aQdesc q 2) TM_QDESC2.DROPS (fld v 48 16)
  | _ => s

/-- QDESC_WRITE (R172). -/
def execQdescWrite (m : Master) (qid : BitVec 16) (word : Fin 4) (v : W) (s : State) : Res :=
  .next (if s.sqRight m then s.qdescWrite qid.toNat word.val v else s)

end Sys2Proof.Machine
end

