-- ==== Sys2Proof/Machine/FlowTab.lean ====
section
/-! DEFINITION. The flow table: lookup, learning, moves, aging and sequencer writes (R178 to R183). -/
namespace Sys2Proof.Machine

/-- The key of an entry: its 16 bytes, KEYLO first (R178). -/
def State.ftKey (s : State) (i : Nat) : BitVec 128 := BitVec.ofNat 128 ((s.rd (aFt i 0)).toNat + 2 ^ 64 * (s.rd (aFt i 1)).toNat)
def State.ftV (s : State) (i : Nat) : Bool := bitOf (s.rd (aFt i 2)) 63
/-- The candidate bucket of a key in a table (R178). -/
def State.ftBucket (s : State) (t : Nat) (key : BitVec 128) : Nat :=
  fld (crc32cFrom (BitVec.ofNat 32 (s.g (aFtSeed t) FT_SEED.SEED)) (bytesOf key)) 0 13
/-- The eight entry indices of a bucket. -/
def bucketSlots (t bucket : Nat) : List Nat := (List.range 8).map (fun j => t * 65536 + bucket * 8 + j)
/-- The sixteen slots of a key in the order of R180: T0 ascending, then T1. -/
def State.candidates (s : State) (key : BitVec 128) : List Nat := bucketSlots 0 (s.ftBucket 0 key) ++ bucketSlots 1 (s.ftBucket 1 key)
/-- A move wrote this copy in the present cycle, and no lookup sees it before the cycle's end (R181). -/
def State.ftUnseen (s : State) (i : Nat) : Bool :=
  match s.ft.cur with
  | some l => l.half == some s.cyc && l.path.getLast? == some i
  | none => false
/-- The entry that holds a key, the copy with MV first (R179, R181). -/
def State.ftFind (s : State) (key : BitVec 128) : Option Nat :=
  let hits := (s.candidates key).filter (fun i => s.ftV i && s.ftKey i == key && !s.ftUnseen i)
  match hits.find? (fun i => bitOf (s.rd (aFt i 2)) 59) with
  | some i => some i
  | none => hits.head?

/-- FT_STAT.COUNT moves by one (R184). -/
def State.ftCount (s : State) (up : Bool) : State :=
  let n := s.g aFtStat FT_STAT.COUNT
  s.p aFtStat FT_STAT.COUNT (if up then n + 1 else n - 1)

/-- A hit updates AGE, PKTS and BYTES (R179). -/
def State.ftHit (s : State) (i len : Nat) : State :=
  let w3 := s.rd (aFt i 3)
  (s.wr (aFt i 2) (setFld (s.rd (aFt i 2)) 16 16 s.ft.age.toNat)).wr (aFt i 3)
    (setFld (setFld w3 40 24 (fld w3 40 24 + 1)) 0 40 (fld w3 0 40 + len))

/-- The lookup of an ENQ: the entry hit, or the key placed in the learn queue or lost (R179). -/
def State.ftLookup (s : State) (port : Nat) (key : BitVec 128) (len : Nat) (learn : Bool) : State × Option Nat :=
  match s.ftFind key with
  | some i => (s.ftHit i len, some i)
  | none =>
    if learn && s.gb aFtCfg FT_CFG.LEARN then
      if s.ft.learnq.length < 64 then ({ s with ft := { s.ft with learnq := s.ft.learnq ++ [(key, len)] } }, none)
      else ((s.sat aFtCnt FT_CNT.LOVF).raiseTm port 835, none)
    else (s, none)

/-- A learned entry is written into a slot (R180). -/
def State.ftInsert (s : State) (i : Nat) (key : BitVec 128) (len : Nat) : State :=
  let w2 : W := setFld (setFld (0 : W) 63 1 1 ||| setFld (0 : W) 60 1 1) 16 16 s.ft.age.toNat
  ((((s.wr (aFt i 0) (key.extractLsb' 0 64)).wr (aFt i 1) (key.extractLsb' 64 64)).wr (aFt i 2) w2).wr (aFt i 3)
    (setFld (BitVec.ofNat 64 len) 40 24 1)).ftCount true

/-- The first write of a move: the entry of slot a is copied to slot b with MV set, where both are valid entries for a cycle, and COUNT counts both (R181, R184; DEDUCED, notes/assumptions/123.md). -/
def State.ftCopy (s : State) (a b : Nat) : State :=
  let v := s.ftV a
  let s := ((List.range 4).foldl (fun s w => s.wr (aFt b w) (s.rd (aFt a w))) s).putBitAt (aFt b 2) 59 true
  if v then s.ftCount true else s

/-- An entry is no longer valid (R181, R182). -/
def State.ftDrop (s : State) (i : Nat) : State := if s.ftV i then (s.putBitAt (aFt i 2) 63 false).ftCount false else s

/-- The second write of a move: slot a is invalid, and MV of the copy is cleared (R181). -/
def State.ftSettle (s : State) (a b : Nat) : State := (s.ftDrop a).putBitAt (aFt b 2) 59 false

/-- MAXMOV as it acts (R184). -/
def State.maxMov (s : State) : Nat := max 1 (min 4 (s.g aFtCfg FT_CFG.MAXMOV))

/-- The slots of the bucket in the other table that the key of slot i may move to. -/
def State.altSlots (s : State) (i : Nat) : List Nat :=
  let t := 1 - i / 65536
  bucketSlots t (s.ftBucket t (s.ftKey i))

/-- Breadth-first search: the list holds paths, last slot first; every expansion examines eight slots (R180). -/
def State.ftSearch (s : State) : Nat → List (List Nat) → List Nat → Option (List Nat)
  | 0, _, _ => none
  | _, [], _ => none
  | fuel + 1, path :: queue, seen =>
    match path with
    | [] => none
    | i :: _ =>
      let next := (s.altSlots i).filter (fun j => !seen.contains j)
      match next.find? (fun j => !s.ftV j) with
      | some j => some ((j :: path).reverse)
      | none =>
        let more := if path.length < s.maxMov then next.map (fun j => j :: path) else []
        s.ftSearch fuel (queue ++ more) (seen ++ next)

/-- A path of moves for a key whose buckets are full: 16 slots examined at the start, 8 by each of 30 expansions, 256 in all. -/
def State.ftPath (s : State) (key : BitVec 128) : Option (List Nat) :=
  let c := s.candidates key
  s.ftSearch 30 (c.map (fun i => [i])) c

/-- The learn engine's work on a path, one cycle: the first or the second write of the move at its end, and the key's insertion once every move is made (R180, R181). -/
def State.learnStep (s : State) (l : Learn) : State :=
  match l.path.reverse with
  | b :: a :: rest =>
    if l.half.isNone then { s with ft := { s.ft with cur := some { l with half := some s.cyc } } }.ftCopy a b
    else
      let s := s.ftSettle a b
      if rest = [] then { s with ft := { s.ft with cur := none } }.ftInsert a l.key l.len
      else { s with ft := { s.ft with cur := some { l with path := (a :: rest).reverse, half := none } } }
  | _ => { s with ft := { s.ft with cur := none } }

/-- The learn engine takes a key (R180). -/
def State.learnKey (s : State) (key : BitVec 128) (len : Nat) : State :=
  match s.ftFind key with
  | some _ => s
  | none => match (s.candidates key).find? (fun i => !s.ftV i) with
    | some i => s.ftInsert i key len
    | none => match s.ftPath key with
      | some p => s.learnStep ⟨key, len, p, p, none⟩
      | none => (s.sat aFtCnt FT_CNT.FULL).raiseTm 0 834

/-- LEARN_INSERT (R180): a cycle of the insertion in progress, or the next key. -/
def execLearnInsert (s : State) : Res :=
  .next (
    match s.ft.cur with
    | some l => s.learnStep l
    | none => match s.ft.learnq with
      | [] => s
      | (key, len) :: rest => { s with ft := { s.ft with learnq := rest } }.learnKey key len)

/-- AGE_CLOCK_TICK (R182). -/
def execAgeClockTick (s : State) : Res := .next { s with ft := { s.ft with age := s.ft.age + 1 } }

/-- LIMIT as it acts (R184). -/
def State.ageLimit (s : State) : Nat := min 0x7FFF (s.g aFtCfg FT_CFG.LIMIT)

/-- An entry is idle: valid, not pinned, and its age is LIMIT or more (R182). -/
def State.ftIdle (s : State) (i : Nat) : Bool :=
  let w := s.rd (aFt i 2)
  bitOf w 63 && !bitOf w 62 && decide (s.ageLimit ≤ (s.ft.age - w.extractLsb' 16 16).toNat)

/-- AGE_SCAN (R182): the scanner visits its next bucket. -/
def execAgeScan (s : State) : Res :=
  .next (
    if s.gb aFtCfg FT_CFG.AGEEN then
      let b := s.ft.scan
      let s := (bucketSlots (b / 8192) (b % 8192)).foldl (fun s i =>
        if s.ftIdle i then (s.ftDrop i).bump aFtCnt FT_CNT.AGED else s) s
      { s with ft := { s.ft with scan := (b + 1) % 16384 } }
    else s)

/-- A move under way is brought to its end. -/
def State.endMove (s : State) : State :=
  match s.ft.cur with
  | some l => if l.half.isSome then s.learnStep l else s
  | none => s

/-- The learn under way stops after the moves made: a move whose first write is done is brought to its end, the key is not inserted, and ABORT counts it (R183). -/
def State.stopLearn (s : State) (l : Learn) : State :=
  let s := { s with ft := { s.ft with cur := none } }
  (match l.half, l.path.reverse with
    | some _, b :: a :: _ => s.ftSettle a b
    | _, _ => s).sat aFtCnt FT_CNT.ABORT

/-- A sequencer write to word w of entry i, applied between two moves; one to a slot of the path chosen stops the learn (R183). -/
def State.ftWrite (s : State) (i w : Nat) (v : W) : State :=
  let s := match s.ft.cur with
    | some l => if l.slots.contains i then s.stopLearn l else s.endMove
    | none => s
  let was := s.ftV i
  let s := s.wr (aFt i w) (v &&& maskOf .sq (rowsFtEntry w))
  if was = s.ftV i then s else s.ftCount (s.ftV i)

/-- FT_ENTRY_WRITE (R183). -/
def execFtEntryWrite (m : Master) (word : Fin 524288) (v : W) (s : State) : Res :=
  .next (if s.sqRight m then s.ftWrite (word.val / 4) (word.val % 4) v else s)

end Sys2Proof.Machine
end

