-- ==== Sys2Proof/Machine/TmQueue.lean ====
section
/-! DEFINITION. The queue engine: the decisions of an ENQ, packet records, samples, and the DRR lists that a queue joins (R165 to R170, R185, R186, R200, R201, R207, R210, R211). -/
namespace Sys2Proof.Machine

-- The fields of an ENQ (R165).

def enqLen (k : Pkt) : Nat := fld k.aux 0 16
def enqCells (k : Pkt) : Nat := fld k.aux 16 8
def enqColor (k : Pkt) : Nat := min 2 (fld k.aux 24 2)
def enqLearn (k : Pkt) : Bool := bitOf k.aux 26
def enqPool (k : Pkt) : Nat := fld k.aux 27 5
def enqCp0 (k : Pkt) : Nat := fld k.addr 8 30
/-- Cells that a packet of n data cells occupies. -/
def cellsOf (n : Nat) : Nat := if 17 < n then n + 1 else n
/-- The pointers of the data flit: CP1 and up, and X in slot 16 where there are more than 17 cells (R165). -/
def enqSlots (k : Pkt) : List Nat := (List.range (min 16 (enqCells k - 1))).map (fun i => slotOf k.data (i + 1) % 2 ^ 30)

/-- Row 1 of R167 does not apply. -/
def State.enqWellFormed (s : State) (k : Pkt) : Bool :=
  let len := enqLen k
  let n := enqCells k
  fld k.addr 0 8 == 0 && decide (1 ≤ len) && decide (len ≤ 20480) && n == (len + 255) / 256
    && (!k.data.isEmpty || n == 1)
    && (enqCp0 k :: enqSlots k).all (fun c => s.cpData c && bitOf (s.rd (aPoolch (enqPool k))) (s.chOf c))

-- Samples (R186).

/-- A sample record, or its loss: the buffer takes one record in a management cycle. -/
def State.sample (s : State) (port q kind delay : Nat) : State :=
  if s.gb aSmpcfg TM_SMPCFG.EN && s.gb (aQdesc q 0) TM_QDESC0.SAMP then
    if s.tm.smpAt = some s.mgtCycle then (s.sat aSmpidx TM_SMPIDX.LOST).raiseTm port 836
    else
      let n := s.tm.smpN
      let i := n % 4096
      let w0 := q + 2 ^ 16 * s.g (aQpart (q / 64)) TM_QPART.ES + 2 ^ 21 * kind
        + 2 ^ 24 * s.g (aQdesc q 3) TM_QDESC3.CELLS + 2 ^ 54 * (n / 4096 % 1024)
      let s := (s.wr (aSample i 0) (BitVec.ofNat 64 w0)).wr (aSample i 1) (BitVec.ofNat 64 (delay + 2 ^ 32 * s.stamp.toNat))
      let s := s.p aSmpidx TM_SMPIDX.WIDX (n + 1)
      let s := { s with tm := { s.tm with smpN := n + 1, smpAt := some s.mgtCycle } }
      s.setQueue q { s.queue q with lastSmp := some s.ntNs }
  else s

/-- A packet of the queue is dropped: DROPS and the drop sample (R167, R177). -/
def State.dropAt (s : State) (port q : Nat) : State := (s.sat (aQdesc q 2) TM_QDESC2.DROPS).sample port q 1 0

-- Lists and tags (R199 to R202).

def gkey (k g : Nat) : Nat := k * 4096 + g
def ckey (k c : Nat) : Nat := k * 8 + c
def State.drrList (s : State) (k g : Nat) : List Nat := tget [] s.tm.drr (gkey k g)
def State.setDrr (s : State) (k g : Nat) (l : List Nat) : State := { s with tm := { s.tm with drr := tput [] s.tm.drr (gkey k g) l } }
/-- The class of a group in a bank. -/
def State.tcOf (s : State) (b : Bool) (g : Nat) : Nat := s.grpF b g TM_GRPA.TC
/-- A group wakes: its tag is the virtual time of its class (R201). -/
def State.wakeGroup (s : State) (k g : Nat) (b : Bool) : State :=
  { s with tm := { s.tm with stag := tput 0 s.tm.stag (gkey k g) (tget 0 s.tm.vt (ckey k (s.tcOf b g))) } }
/-- A queue stands at the tail of its group's list with no deficit (R200). -/
def State.toTail (s : State) (k q : Nat) (b : Bool) : State :=
  let g := s.qmap b q TM_QMAP.GROUP
  (s.setDrr k g (s.drrList k g ++ [q])).setQueue q { s.queue q with dc := 0, turn := false }
/-- A queue wakes: it joins the tail of its group's list, and a group whose list was empty wakes (R200, R201). -/
def State.joinGroup (s : State) (k q : Nat) (b : Bool) : State :=
  let g := s.qmap b q TM_QMAP.GROUP
  (if (s.drrList k g).isEmpty then s.wakeGroup k g b else s).toTail k q b
/-- A queue leaves its group's list. -/
def State.leaveGroup (s : State) (k q : Nat) (b : Bool) : State :=
  let g := s.qmap b q TM_QMAP.GROUP
  let s := s.setDrr k g ((s.drrList k g).filter (fun x => x != q))
  s.setQueue q { s.queue q with dc := 0, turn := false }
/-- A queue becomes non-empty (R194, R200). -/
def State.queueWakes (s : State) (k q : Nat) : State :=
  if s.mapValid (s.treeBank k) q then s.joinGroup k q (s.treeBank k) else s.treeErr k

-- Records (R168, R169).

/-- The 128 bytes of a record. -/
def Rec.lines (r : Rec) : List Line :=
  let mark := r.color + 4 * r.hit.toNat + 8 * r.pool
  let fidx := match r.fidx with | some i => i + 2 ^ 31 | none => 0
  [BitVec.ofNat 512 (r.cp0 + 2 ^ 32 * r.len + 2 ^ 48 * r.ncells + 2 ^ 56 * mark + 2 ^ 64 * r.tstamp.toNat + 2 ^ 96 * fidx
    + 2 ^ 128 * r.qid), r.ptrs]
/-- The record that 128 bytes spell. -/
def recOf (ls : List Line) : Rec :=
  let l := ls.getD 0 0
  { cp0 := fld l 0 30, len := fld l 32 16, ncells := fld l 48 8, color := fld l 56 2, hit := bitOf l 58, pool := fld l 59 5,
    tstamp := l.extractLsb' 64 32, fidx := if bitOf l 127 then some (fld l 96 17) else none, qid := fld l 128 16,
    ptrs := ls.getD 1 0 }

/-- Records that the store holds, or has room reserved for, of a queue (R169). -/
def Queue.inStore (x : Queue) : Nat := (x.recs.filter (fun r => r.at_ != .memory)).length
/-- Records beyond the first of every queue in a scheduler's store: the shared pool of 2,048 (R169). -/
def State.storeUsed (s : State) (k : Nat) : Nat :=
  (s.tm.qs.map (fun kv => if s.ownerOf kv.1 = some k then kv.2.inStore - 1 else 0)).foldl (· + ·) 0
/-- The store has room for another record of the queue. -/
def State.storeRoom (s : State) (k q : Nat) : Bool :=
  let n := (s.queue q).inStore
  decide (n < s.pf q) && (n == 0 || decide (s.storeUsed k < 2048))

/-- The record index of a ring index (R160, R172). -/
def State.recIndex (s : State) (q idx : Nat) : Nat :=
  let size := 2 ^ s.rsz q
  s.g (aQdesc q 0) TM_QDESC0.RBASE / size * size + idx % size
/-- The memory NI and the address of a record. -/
def State.recPlace (s : State) (q idx : Nat) : BitVec 10 × BitVec 48 :=
  let ri := s.recIndex q idx
  let cp := s.recBase + ri / 2
  (s.memEp (s.chOf cp), s.cellAddr cp (ri % 2 * 128))
/-- The service class of a queue's traffic (R156, R193). -/
def State.fclass (s : State) (k q : Nat) : BitVec 2 :=
  BitVec.ofNat 2 (s.grpF (s.treeBank k) (s.qmap (s.treeBank k) q TM_QMAP.GROUP) TM_GRPA.FCLASS)

/-- The first tag from n on that none of a list bears; tags have 12 bits. -/
def unusedTag (used : List Nat) (n : Nat) : Nat :=
  (((List.range 4096).map (fun i => (n + i) % 4096)).find? (fun x => !used.contains x)).getD (n % 4096)

/-- Tags of the record writes and extension reads that a QP awaits. -/
def State.qpTags (s : State) (port : Nat) : List Nat :=
  (s.tm.wrns.filter (fun x => x.port == port)).map (·.tag) ++ (s.tm.xdrops.filter (fun x => x.port == port)).map (·.tag)

/-- A record is written to its slot with a WRN (R169). -/
def State.writeRecord (s : State) (port k q idx : Nat) (r : Rec) : State :=
  let tag := unusedTag (s.qpTags port) s.tm.nextRid
  let pl := s.recPlace q idx
  let s := { s with tm := { s.tm with nextRid := tag + 1, wrns := s.tm.wrns ++ [(⟨port, tag, q, idx⟩ : RecWrite)] } }
  s.tmSend port { dest := pl.1, src := s.tmEp port, cls := s.fclass k q, cmd := Cmd.WRN, tag := BitVec.ofNat 12 tag, pdom := 0xF,
                  addr := pl.2, lenm1 := 127, be := BitVec.allOnes 64, data := r.lines }

/-- Step 4 of R167: the record joins its queue. -/
def State.enqueueRec (s : State) (port k q : Nat) (r : Rec) : State :=
  let x := s.queue q
  let idx := s.g (aQdesc q 2) TM_QDESC2.TAIL
  let direct := x.recs.all (fun e => e.at_ != .memory) && s.storeRoom k q
  let s := (s.bump (aQdesc q 2) TM_QDESC2.TAIL).bump (aQdesc q 3) TM_QDESC3.CELLS (cellsOf r.ncells)
  let s := s.setQueue q { x with recs := x.recs ++ [⟨r, if direct then .store else .memory, idx⟩] }
  let s := if x.recs.isEmpty then s.queueWakes k q else s
  if direct then s else s.writeRecord port k q idx r

/-- The record that an ENQ makes. FIDX of a key that missed is not valid: a key is learned only after its record is made (R168, R180; DESIGN CHOICE, notes/assumptions/114.md). -/
def enqRec (k : Pkt) (q color : Nat) (hit : Option Nat) : Rec :=
  { cp0 := enqCp0 k, len := enqLen k, ncells := enqCells k, color := color, hit := hit.isSome, pool := enqPool k,
    tstamp := k.tstamp, fidx := hit, qid := q, ptrs := k.data.getD 0 0 }

/-- R211 applied at a scheduler: its POLMIS, and event 851, of whichever schedulers, at most once in a management cycle (R211, R221). -/
def State.polMis (s : State) (es : Nat) : State :=
  (s.pb (aEsstat es) TM_ESSTAT.POLMIS true).oncePer (2 ^ 14) (·.raiseTm (16 + es) 851)

/-- Metering between rows 2 and 3: the colour (R207, R211). -/
def State.enqMeter (s : State) (es q l pre : Nat) : State × Nat :=
  let b := s.treeBank es
  match s.qmap b q TM_QMAP.POLICE with
  | 1 => s.meter (s.qmap b q TM_QMAP.MTR) l pre
  | 2 => if s.gb (aQdesc q 0) TM_QDESC0.PRIV then (s, pre) else (s.polMis es, pre)
  | _ => (s, pre)

/-- The hard policer of a queue, if one polices it (R210). -/
def State.policerOf (s : State) (es q : Nat) : Option Nat :=
  let b := s.treeBank es
  if s.qmap b q TM_QMAP.POLICE = 2 ∧ s.gb (aQdesc q 0) TM_QDESC0.PRIV = true then some (s.qmap b q TM_QMAP.MTR % 256) else none

/-- The hard policer drops a packet of counted length l. -/
def State.policerDrops (s : State) (i : Option Nat) (l : Nat) : Bool :=
  match i with
  | some i => decide (s.polTok i < l * mtUnit)
  | none => false

/-- Step 3 of R167 drops the packet, the policer apart. -/
def State.admissionDrops (s : State) (q cells : Nat) : Bool :=
  let x := s.queue q
  let size := if s.rsz q = 0 then 0 else 2 ^ s.rsz q
  let maxCells := s.g (aQdesc q 1) TM_QDESC1.MAXCELLS
  let maxDly := s.g (aQdesc q 1) TM_QDESC1.MAXDLY
  decide (size ≤ x.recs.length) || (maxCells != 0 && decide (maxCells < s.g (aQdesc q 3) TM_QDESC3.CELLS + cells))
    || (maxDly != 0 && decide (maxDly < s.g (aQdesc q 3) TM_QDESC3.DLYAVG))

/-- The cells of a dropped packet go to its pool; an extension cell is read first, with an RD in the class of the queue's group, and the cells are freed when it is answered (R167; the fields of the RD are DEDUCED, notes/assumptions/124.md). -/
def State.dropCells (s : State) (port es q : Nat) (k : Pkt) : State :=
  let cells := enqCp0 k :: enqSlots k
  if enqCells k ≤ 17 then s.freeAll (enqPool k) cells
  else
    let x := slotOf k.data 16 % 2 ^ 30
    let tag := unusedTag (s.qpTags port) s.tm.nextRid
    let s := { s with tm := { s.tm with
      nextRid := tag + 1, xdrops := s.tm.xdrops ++ [(⟨port, tag, enqPool k, cells, enqCells k - 16⟩ : XDrop)] } }
    s.tmSend port { dest := s.memEp (s.chOf x), src := s.tmEp port, cls := s.fclass es q, cmd := Cmd.RD, tag := BitVec.ofNat 12 tag,
                    pdom := 0xF, addr := s.cellAddr x 0, lenm1 := BitVec.ofNat 8 (4 * (enqCells k - 16) - 1) }

/-- The pointers CP16 and up, n of them, that an extension cell holds (R165). -/
def extPtrs (n : Nat) (data : List Line) : List Nat := (List.range n).map (fun j => slotOf data j % 2 ^ 30)

/-- A QP's read of an extension cell is answered: the cells known go to their pool. A failed read leaves the cells that it would have named held by the pool (R167, R177; DESIGN CHOICE, notes/assumptions/115.md). -/
def State.extAnswer (s : State) (port : Nat) (a : Pkt) : State :=
  match extract (fun (x : XDrop) => x.port == port && x.tag == a.tag.toNat) s.tm.xdrops with
  | none => s
  | some (x, rest) =>
    { s with tm := { s.tm with xdrops := rest } }.freeAll x.pool
      (if a.resp = Resp.OK then x.cells.dropLast ++ extPtrs x.more a.data ++ x.cells.getLast?.toList else x.cells)

/-- Rows 2 to 4 of R167 for a queue of scheduler es. -/
def State.enqAdmit (s : State) (port es q : Nat) (k : Pkt) (hit : Option Nat) : State :=
  let l := s.lenAt es (enqLen k)
  let s := { s with pm := { s.pm with cells := s.pm.cells + enqCells k } }
  let (s, color) := s.enqMeter es q l (enqColor k)
  let pol := s.policerOf es q
  if s.policerDrops pol l || s.admissionDrops q (cellsOf (enqCells k)) then
    let s := match pol with
      | some i => if s.policerDrops pol l then s.sat (aPolb i) TM_POLB.DROPPED else s
      | none => s
    ((s.dropCells port es q k).dropAt port q).tmAnswer port k Resp.OK 0 []
  else
    let s := match pol with
      | some i => s.setPol i (s.polTok i - l * mtUnit)
      | none => s
    (s.enqueueRec port es q (enqRec k q color hit)).tmAnswer port k Resp.OK 0 []

/-- A QP has a tag for one more request: no two of those that it awaits bear one tag (R59). -/
def State.qpTagFree (s : State) (port : Nat) : Bool := decide ((s.qpTags port).length < 4096)

/-- ENQ (R167): the oldest ENQ of a class at a QP; the classes have no order between them (R170). While the QP awaits an answer under each of its 4,096 tags, its ENQs wait (R59; DEDUCED, notes/assumptions/139.md). -/
def State.enq (s : State) (port : Nat) (cls : BitVec 2) : State :=
  if s.qpTagFree port = false then s
  else match extract (fun (k : Pkt) => k.cmd == Cmd.ENQ && k.cls == cls) (s.tmRx port) with
  | none => s
  | some (k, rest) =>
    let s := s.setTmRx port rest
    if s.enqWellFormed k = false then s.tmAnswer port k Resp.DECERR 0 []
    else
      let (s, hit) := s.ftLookup port k.fkey (enqLen k) (enqLearn k)
      let q := match hit with
        | some i => if s.bitAt (aFt i 2) 61 then fld (s.rd (aFt i 2)) 0 16 else k.qid.toNat
        | none => k.qid.toNat
      match s.ownerOf q with
      | none => s.tmAnswer port k Resp.DECERR 0 []
      | some es =>
        if s.gb (aQdesc q 0) TM_QDESC0.EN then s.enqAdmit port es q k hit else s.tmAnswer port k Resp.DECERR 0 []

/-- ENQ (R167). -/
def execEnq (q : QpId) (cls : BitVec 2) (s : State) : Res := .next (s.enq q.val cls)

end Sys2Proof.Machine
end

