-- ==== Sys2Proof/Machine/Eject.lean ====
section
/-! DEFINITION. Ejection: the last decode of a packet, the decisions of R69, and the receivers (R16, R44, R58, R64, R68 to R70, R103, R118, R156, R295, R319, R464). -/
namespace Sys2Proof.Machine

/-- A packet after the ejecting decode: header line, whether it can be trusted, poison, data flits. -/
structure Ejected where
  hdr : Line
  hdrBad : Bool
  poison : Bool
  data : List Line
  stratum : Bool
  vc : Nat
  deriving DecidableEq, Repr

/-- One flit after the ejecting decode: payload, uncorrectable, POISON, sideband; none where its sideband is uncorrectable (R44, R64). -/
def ejectFlit (f : Sys2Proof.RawFlit) : Option (Line × Bool × Bool × BitVec 8) :=
  match sbDecode f.sb f.sbc with
  | .bad => none
  | .ok sb _ =>
    if bitOf sb 6 then some (f.pay, false, true, sb)
    else match rsDecode (rsWord f.pay f.chk) with
      | .clean => some (f.pay, false, false, sb)
      | .fixed errs => some (rsFixPay f.pay errs, false, false, sb)
      | .bad => some (f.pay, true, false, sb)

/-- The packet that flits spell. A data flit without a sideband is lost, so the data flit count fails (R68). -/
def ejectPkt (fs : List Sys2Proof.RawFlit) : Ejected :=
  match fs with
  | [] => ⟨0, true, false, [], false, 0⟩
  | h :: ds =>
    let data := ds.filterMap ejectFlit
    let bad := data.any (fun d => d.2.1 || d.2.2.1)
    match ejectFlit h with
    | none => ⟨0, true, bad, data.map (·.1), false, fld h.sb 0 3⟩
    | some (l, b, _, sb) => ⟨l, b, bad, data.map (·.1), bitOf sb 5, fld sb 0 3⟩

/-- CRC and data flit count are right (R68). -/
def Ejected.intact (e : Ejected) : Bool :=
  decide ((hdrOf e.hdr).dfc.toNat = e.data.length) && pktCrc e.hdr e.data == e.hdr.extractLsb' 480 32

/-- The packet as its receiver takes it. -/
def Ejected.pkt (e : Ejected) : Pkt := { hdrOf e.hdr with data := e.data, stratum := e.stratum }

/-- What R69 decides of a packet at a port. -/
inductive Verdict where
  | headerLost | poisoned | crcFailed | misrouted | good
  deriving DecidableEq, Repr

/-- The rows of R69 in their order. -/
def verdict (e : Ejected) (here : BitVec 10) : Verdict :=
  if e.hdrBad then .headerLost
  else if e.poison then .poisoned
  else if ¬ e.intact then .crcFailed
  else if (hdrOf e.hdr).dest ≠ here then .misrouted
  else .good

-- Response queues of the receivers.

/-- A tile's NI queues a response. -/
def State.niAnswer (s : State) (t p : Nat) (q : Pkt) (code : BitVec 4) (lenm1 : BitVec 8) (data : List Line) : State :=
  match respTo q code lenm1 data with
  | some r => (s.setNi t p { s.ni t p with rspq := (s.ni t p).rspq ++ [r] }).wake t true
  | none => s

/-- A tile agent queues a response. -/
def State.agentAnswer (s : State) (t : Nat) (q : Pkt) (code : BitVec 4) (lenm1 : BitVec 8) (data : List Line) (aux : BitVec 32 := 0) : State :=
  match respTo q code lenm1 data aux with
  | some r => s.agentSend t r
  | none => s

/-- The agent notes the tick in which it receives a HOLD, and a new CTL of the same SRC and TAG ends an older note (R372). -/
def State.noteHold (s : State) (t : Nat) (k : Pkt) : State :=
  let a := s.agent t
  let l := a.holdAt.filter (fun x => !(x.1 == k.src && x.2.1 == k.tag))
  s.setAgent t { a with holdAt := if fld k.aux 0 8 = 0x40 then l ++ [(k.src, k.tag, s.ticks)] else l }

/-- The tick in which a HOLD was received. -/
def State.holdFrom (s : State) (t : Nat) (k : Pkt) : Nat :=
  (((s.agent t).holdAt.find? (fun x => x.1 == k.src && x.2.1 == k.tag)).map (·.2.2)).getD s.ticks

/-- The function code of a CTL (R57). -/
def ctlFunc (k : Pkt) : Nat := fld k.aux 0 8

/-- The power state that a CTL met (R299). -/
def State.ctlPower (s : State) (t : Nat) (k : Pkt) : Nat :=
  (((s.agent t).pwrAt.find? (fun x => x.1 == k.src && x.2.1 == k.tag)).map (·.2.2)).getD 0

/-- The notes of the power state and of the receipt leave with the answer. -/
def State.forgetPower (s : State) (t : Nat) (k : Pkt) : State :=
  let keep (x : BitVec 10 × BitVec 12 × Nat) : Bool := !(x.1 == k.src && x.2.1 == k.tag)
  s.setAgent t { s.agent t with pwrAt := (s.agent t).pwrAt.filter keep, holdAt := (s.agent t).holdAt.filter keep }

/-- FUNC and PWR of the status word, which every CRSP of an agent carries (R299). -/
def State.statusBase (s : State) (t : Nat) (k : Pkt) : Nat := ctlFunc k + 2 ^ 9 * s.ctlPower t k

/-- A request that the agent does not execute is answered with a code; a CTL with its status word (R58, R69, R299). -/
def State.agentRefuse (s : State) (t : Nat) (k : Pkt) (code : BitVec 4) : State :=
  if k.cmd = Cmd.CTL then (s.agentAnswer t k code 0 [] (BitVec.ofNat 32 (s.statusBase t k))).forgetPower t k
  else s.agentAnswer t k code 0 []

/-- Entries of the response-plane queue that are taken or promised (R118). -/
def Ni.promised (n : Ni) : Nat :=
  n.rspq.length + (n.pres.filter (fun x => x.np && !x.dead)).length + (n.rx.filter (fun k => (answerOf k.cmd).isSome)).length

/-- CTLs that the agent holds, from the taking of each until its CRSP is injected (R295). -/
def Agent.held (a : Agent) : Nat :=
  a.rx.length + a.busy.length + a.spreads.length + (a.outq.filter (fun k => k.cmd == Cmd.CRSP)).length

/-- A request is one that is answered (R54). -/
def nonPosted (pl : Nat) (k : Pkt) : Bool := pl == 0 && (answerOf k.cmd).isSome

/-- What stands at an output of a tile. -/
inductive Recv where
  | agent | ni (k : NiKind) | cfg | evc | qp (q : Nat) | sp (k : Nat) | trace
  deriving DecidableEq, Repr

/-- The receiver at output o of a tile; an unpopulated L position belongs to the agent (R16), and so do requests to CFGEP, which carries no NI (R464). -/
def State.recvAt (s : State) (t o pl : Nat) : Recv :=
  if o = 7 then .agent
  else
    let here := epAddr t (o - 4)
    match s.kind t (o - 4) with
    | .none => .agent
    | .engine =>
      if here = s.build.dbep then .evc
      else if here = s.build.cfgep then (if pl = 1 then .cfg else .agent)
      else if here = s.build.obsTrace then .trace
      else match s.qpAt here with
        | some q => .qp q
        | none => match s.spAt here with
          | some k => .sp k
          | none => .agent
    | k => .ni k

/-- Items of the requests that stand between the router and the endpoint of a target or memory NI: one for Q and one for each beat of D (R382). -/
def Ni.crossing (n : Ni) : Nat :=
  ((n.rx ++ (n.pres.filter (fun x => !x.taken)).map (·.pkt)).map (fun k => 1 + k.data.length)).foldl (· + ·) 0

/-- The receiver cannot take the packet yet: no response entry, 16 items in the crossing to the endpoint, or 16 CTLs held (R118, R295, R382). -/
def State.recvFull (s : State) (t o pl : Nat) (r : Recv) (k : Pkt) : Bool :=
  match r with
  | .ni .initiator => false
  | .ni .message => nonPosted pl k && decide (256 ≤ (s.ni t (o - 4)).promised)
  | .ni _ => nonPosted pl k && decide (256 ≤ (s.ni t (o - 4)).promised) || pl == 0 && decide (16 ≤ (s.ni t (o - 4)).crossing)
  | .agent => pl == 0 && k.cmd == Cmd.CTL && decide (16 ≤ (s.agent t).held)
  | _ => false

/-- A discard at ejection is counted by an NI, and raises the output's event (R69). -/
def State.ejectCount (s : State) (t o : Nat) (r : Recv) (f : Fd) : State :=
  match r with
  | .ni _ => s.sat (aNierr t (o - 4)) f
  | _ => s

/-- A request is refused with a code by its receiver; an initiator NI has no path to answer on (R69, R103). -/
def State.refuse (s : State) (t o : Nat) (r : Recv) (k : Pkt) (code : BitVec 4) : State :=
  match r with
  | .agent => s.agentRefuse t k code
  | .cfg => s
  | .trace => s.agentRefuse t k code
  | .ni .initiator => s
  | .ni _ => s.niAnswer t (o - 4) k code 0 []
  | .evc => match respTo k code 0 [] with | some a => s.evcSend a | none => s
  | .qp q => match respTo k code 0 [] with | some a => s.tmSend q a | none => s
  | .sp q => match respTo k code 0 [] with | some a => s.tmSend (16 + q) a | none => s

/-- The WACK of a record write reaches its queue-engine port (R169). Whatever its RESP, the write is answered, and the slot is read later: of a record write answered other than OK no rule speaks (DESIGN CHOICE, notes/assumptions/128.md). -/
def State.recordWritten (s : State) (port tag : Nat) : State :=
  { s with tm := { s.tm with wrns := s.tm.wrns.filter (fun x => !(x.port == port && x.tag == tag)) } }

/-- A response is taken by its receiver: an NI, the sequencer or the CFG port, an agent's relay, or a port of the traffic manager. -/
def State.takeResp (s : State) (t o : Nat) (r : Recv) (k : Pkt) : State :=
  match r with
  | .ni .initiator => s.setNi t (o - 4) { s.ni t (o - 4) with rx := (s.ni t (o - 4)).rx ++ [k] }
  | .ni _ => s.sat (aNistat t (o - 4)) TL_NISTAT.LATE
  | .cfg => { s with seq := { s.seq with rx := s.seq.rx ++ [k] } }.wakeMgmt
  | .agent =>
    -- a CRSP that neither a relay nor an LPEER awaits is discarded
    if (s.agent t).spreads.any (fun x => x.ctl.tag == k.tag && x.waits.any (fun w => epAddr w.1 3 == k.src)) then
      s.setAgent t { s.agent t with crsps := (s.agent t).crsps ++ [k] }
    else s.peerAnswer t k
  | .evc => s.sat aEvcErr EVC_ERR.NONDBL
  | .qp q => (s.recordWritten q k.tag.toNat).extAnswer q k
  | .sp q => s.setTmRx (16 + q) (s.tmRx (16 + q) ++ [k])
  | .trace => s

/-- Commands that an NI kind accepts from the fabric (R103). -/
def kindAccepts (k : NiKind) (c : BitVec 6) : Bool :=
  match k with
  | .target => c == Cmd.RD || c == Cmd.WR || c == Cmd.WRN || c == Cmd.ATM
  | .message => c == Cmd.MSG
  | .memory => c == Cmd.RD || c == Cmd.WR || c == Cmd.WRN || c == Cmd.PKT
  | _ => false

/-- A request to buffer-manager space is one of R162: RD or WR or WRN of 4n bytes, n from 1 to 64, at OFF[7:0] = 0; an ENQ lies in enqueue space. OFF[37:13] has no meaning there: no rule speaks of it (DESIGN CHOICE, notes/assumptions/112.md). -/
def qpAccepts (k : Pkt) : Bool :=
  if bitOf k.addr 38 then
    (k.cmd == Cmd.RD || k.cmd == Cmd.WR || k.cmd == Cmd.WRN) && fld k.addr 0 8 == 0 && (k.lenm1.toNat + 1) % 4 == 0
  else k.cmd == Cmd.ENQ

-- Requests that an NI does not present to its endpoint.

/-- Posted requests dropped by a port. -/
def State.drop (s : State) (t p : Nat) (n : Nat := 1) : State := s.sat (aNistat t p) TL_NISTAT.DROP n

/-- A memory NI admits a domain (R25, R125). -/
def State.domainOk (s : State) (t p : Nat) (pdom : BitVec 4) : Bool :=
  pdom == 0xF || (decide (pdom.toNat ≤ 8) && bitOf (s.rd (aNidomen t p)) pdom.toNat)

/-- Why a request is not presented: not enabled, a PKT that leaves its cell, an ATM of no operation, a domain not admitted, or the endpoint's reset (R56, R62, R125, R127, R128, R158). -/
def State.turnAway (s : State) (t p : Nat) (k : Pkt) : Option (BitVec 4) :=
  let n := k.lenm1.toNat + 1
  if s.niState t p ≠ niEnabled then some Resp.DECERR
  else if k.cmd = Cmd.PKT ∧ 255 < fld k.addr 0 8 + k.lenm1.toNat then some Resp.DECERR
  else if k.cmd = Cmd.ATM ∧ ((n ≠ 4 ∧ n ≠ 8) ∨ k.addr.toNat % n ≠ 0 ∨ k.atop = 3) then some Resp.DECERR
  else if s.kind t p = .memory ∧ s.domainOk t p k.pdom = false then some Resp.PROT
  else if (s.ni t p).epLow then some Resp.TIMEOUT
  else none

/-- A request that is not presented: answered with a code, or a posted one dropped and counted (R127 to R129). -/
def State.turnedAway (s : State) (t p : Nat) (k : Pkt) (code : BitVec 4) : State :=
  if (answerOf k.cmd).isSome then s.niAnswer t p k code 0 [] else s.drop t p

/-- The requests that stand between the router and the endpoint leave, each turned away. -/
def State.rxAway (s : State) (t p : Nat) (code : Pkt → BitVec 4) : State :=
  (s.ni t p).rx.foldl (fun s k => s.turnedAway t p k (code k)) (s.setNi t p { s.ni t p with rx := [] })

/-- A request that arrives while its port is not enabled, or during the reset of a target's or memory's endpoint, is turned away on arrival (R127, R128; DEDUCED, notes/assumptions/153.md). -/
def State.arriveRx (s0 : State) (t p : Nat) (k : Pkt) : State :=
  let s := s0.niOpen t p
  let away := s.niState t p != niEnabled || s.kind t p != .message && (s.ni t p).epLow
  match away, s.turnAway t p k with
  | true, some code => s.turnedAway t p k code
  | _, _ => s.setNi t p { s.ni t p with rx := (s.ni t p).rx ++ [k] }

/-- A request that passed R69 is taken, or turned away as undecodable (R16, R58, R103, R156, R295, R319). A posted command that the kind does not accept counts in DECERR_CNT whatever STATE is: R103 and R128 both count it (DESIGN CHOICE, notes/assumptions/104.md). -/
def State.takeReq (s : State) (t o : Nat) (r : Recv) (k : Pkt) : State :=
  let valid := cmdValid 0 k.cmd k.dfc.toNat
  let np := nonPosted 0 k
  match r with
  | .ni .initiator => s.sat (aNistat t (o - 4)) TL_NISTAT.DECERR_CNT
  | .ni kd =>
    if valid && kindAccepts kd k.cmd then s.arriveRx t (o - 4) k
    else if np then s.niAnswer t (o - 4) k Resp.DECERR 0 []
    else s.sat (aNistat t (o - 4)) TL_NISTAT.DECERR_CNT
  | .agent =>
    if valid && k.cmd == Cmd.CTL && o == 7 then
      (s.setAgent t { s.agent t with rx := (s.agent t).rx ++ [k] }).noteHold t k
    else if np then s.agentRefuse t k Resp.DECERR
    else s.sat (aAgstat t) TL_AGSTAT.AGDEC
  | .evc => { s with evc := { s.evc with rx := s.evc.rx ++ [k] } }
  | .qp q =>
    if valid && qpAccepts k then s.setTmRx q (s.tmRx q ++ [k])
    else s.refuse t o r k Resp.DECERR
  | .sp _ => s.refuse t o r k Resp.DECERR
  | .trace =>
    if valid && k.cmd == Cmd.WR then
      { s with obs := { s.obs with rx := s.obs.rx ++ [(List.range 4).map (lineWord (k.data.getD 0 0))] } }.wakeMgmt
    else if np then s.agentRefuse t k Resp.DECERR else s.sat (aAgstat t) TL_AGSTAT.AGDEC
  | .cfg => s

/-- The event of a discard at an output, one for each management cycle (R69). -/
def State.discardEvent (s : State) (t pl o : Nat) : State := s.oncePer (2 ^ 12 + (t * 16 + pl * 8 + o)) (fun s => s.raiseTile t (o - 4))

/-- The decision of R69 and what follows from it. -/
def State.ejected (s : State) (t pl o : Nat) (r : Recv) (e : Ejected) : State :=
  let k := e.pkt
  let np := nonPosted pl k
  let bad (f : Fd) : State :=
    let s := s.ejectCount t o r f
    if pl = 1 then s.takeResp t o r { k with resp := Resp.POISON, data := [] }
    else if np then s.refuse t o r k Resp.POISON
    else s.discardEvent t pl o
  match verdict e (epAddr t (o - 4)) with
  | .headerLost => (s.ejectCount t o r TL_NIERR.CRCERR).discardEvent t pl o
  | .poisoned => bad TL_NIERR.POISONED
  | .crcFailed => bad TL_NIERR.CRCERR
  | .misrouted => (s.ejectCount t o r TL_NIERR.MISROUTE).discardEvent t pl o
  | .good =>
    if pl = 0 then s.takeReq t o r k
    else if cmdValid 1 k.cmd k.dfc.toNat then s.takeResp t o r k
    else match r with
      | .evc => s.sat aEvcErr EVC_ERR.NONDBL
      | _ => s.ejectCount t o r TL_NIERR.MALFORMED

/-- The flits of one VC up to a tail leave a list of flits. -/
def dropPacket (vc : Nat) : List Sys2Proof.RawFlit → List Sys2Proof.RawFlit
  | [] => []
  | f :: fs =>
    if fld f.sb 0 3 ≠ vc then f :: dropPacket vc fs
    else if fld f.sb 3 2 = ftTail ∨ fld f.sb 3 2 = ftHeadTail then fs
    else dropPacket vc fs

/-- The packet leaves the wires of a local output, and its header's credit goes back. -/
def State.leaveOutput (s : State) (t pl o vc : Nat) : State :=
  let r := s.router t pl
  s.setRouter t pl { r with outw := tput [] r.outw o (dropPacket vc (tget [] r.outw o)), crOut := r.crOut ++ [(8 + o, vc)] }

/-- The header that stands first on a VC at a local output. -/
def State.frontHdr (s : State) (t pl o vc : Nat) : Option Pkt :=
  ((tget [] (s.router t pl).outw o).find? (fun f => fld f.sb 0 3 == vc)).map (fun f => hdrOf f.pay)

/-- PACKET_EJECTION (R69): outputs 4 to 7 eject. A packet waits behind the one that stands first on its VC, where the receiver does not take that one (R118, R295). -/
def State.ejection (s : State) (t pl o : Nat) (flits : List Sys2Proof.RawFlit) : State :=
  if o < 4 ∨ flits = [] ∨ s.coreRuns t = false then s
  else
    let e := ejectPkt flits
    let r := s.recvAt t o pl
    if e.hdrBad = false ∧ (s.recvFull t o pl r (hdrOf e.hdr) || (s.frontHdr t pl o e.vc).any (s.recvFull t o pl r)) = true then s
    else (s.leaveOutput t pl o e.vc).ejected t pl o r e

/-- PACKET_EJECTION (R58). -/
def execPacketEjection (t : Tile) (pl : Plane) (out : RPort) (flits : List Sys2Proof.RawFlit) (s : State) : Res :=
  .next (s.ejection t.val pl.val out.val flits)

end Sys2Proof.Machine
end

