-- ==== Sys2Proof/Machine/Fabric.lean ====
section
/-! DEFINITION. The fabric's commands at router inputs and outputs: FLIT_ARRIVAL, CREDIT_RETURN, FLINT. -/
namespace Sys2Proof.Machine

/-- The tail flit of a request leaves the wires of its initiator NI: a posted one is injected then, answered OK, and leaves its in-flight counter (R108, R235; notes/assumptions/100.md). -/
def State.tailSent (s : State) (t p vc : Nat) : State :=
  let n := s.ni t p
  match extract (fun (g : NiGo) => 2 * g.cls.toNat == vc) n.going with
  | none => s
  | some (g, rest) =>
    let n := { n with going := rest }
    let n := if g.owed then { n with sresp := n.sresp ++ [⟨g.mtag, Resp.OK, [], false, false, true, none⟩] } else n
    let s := s.setNi t p n
    if g.posted && !g.dbl then s.puDown (puIndex t p) g.stratum else s

/-- A flit that leaves the wires of a local input is some request's tail. -/
def State.noteTail (s : State) (t pl port : Nat) (f : Sys2Proof.RawFlit) : State :=
  if pl = 0 ∧ port < 7 ∧ (fld f.sb 3 2 = ftTail ∨ fld f.sb 3 2 = ftHeadTail) then s.tailSent t (port - 4) (fld f.sb 0 3) else s

/-- The flit that arrives leaves the wires: the first of a link, the first of its VC at a local port (the first of all where the VC cannot be read), where it has spent a credit of its originator. -/
def State.popWire (s : State) (t pl port : Nat) (vc : Option Nat) : State :=
  if port < 4 then
    let u := neighbour t port
    let r := s.router u pl
    s.setRouter u pl { r with outw := tput [] r.outw (opposite port) ((tget [] r.outw (opposite port)).drop 1) }
  else
    let r := s.router t pl
    let w := tget [] r.inw port
    match extract (fun (f : Sys2Proof.RawFlit) => vc.all (fun v => fld f.sb 0 3 == v)) w with
    | some (f, rest) =>
      let v := fld f.sb 0 3
      (s.setRouter t pl ({ r with inw := tput [] r.inw port rest }.setLcredit port v (r.lcredit port v - 1))).noteTail t pl port f
    | none => s

/-- The next flit on the wires of a local input has a credit; a link's sender has spent it before (R85, R91). -/
def State.mayArrive (s : State) (t pl port : Nat) (vc : Option Nat) : Bool :=
  decide (port < 4) ||
    (match (tget [] (s.router t pl).inw port).find? (fun f => vc.all (fun v => fld f.sb 0 3 == v)) with
      | some f => decide (0 < (s.router t pl).lcredit port (fld f.sb 0 3))
      | none => true)

/-- The router input takes flits: the rim is powered, and a link's receiving end is UP or held for a drain (R369, R449). -/
def State.inputOpen (s : State) (t pl port : Nat) : Bool :=
  s.pst t != 5 && s.pst t != 6 &&
    (decide (4 ≤ port) || (let st := s.g (aLnkstat t pl 1 port) TL_LNKSTAT.STATE; st == 0 || st == 3))

/-- LAP holds and LAR is no reserved code (R85, R87). -/
def RawFlit.lookaheadOk (f : Sys2Proof.RawFlit) : Bool := f.lap == Bool.xor true (parity f.lar) && decide (f.lar.toNat ≤ 8)

/-- The flit code at an input: the flit as the router keeps it, the counters, and whether a header was lost (R64 to R66, R438). -/
def State.flitCode (s : State) (t pl port : Nat) (f : Sys2Proof.RawFlit) (isHdr poison : Bool) : State × Line × BitVec 64 × Bool × Bool :=
  if poison then (s, f.pay, f.chk, true, false)
  else
    match rsDecode (rsWord f.pay f.chk) with
    | .clean => (s, f.pay, f.chk, false, false)
    | .fixed errs =>
      let c : Fd := match errs.length with
        | 1 => TL_LNKCOR.C1 | 2 => TL_LNKCOR.C2 | 3 => TL_LNKCOR.C3 | _ => TL_LNKCOR.C4
      let s := (s.sat (aLnkcor t pl port) c).laneErrors t pl port (rsLanes errs)
      (s, rsFixPay f.pay errs, rsFixChk f.chk errs, false, false)
    | .bad =>
      if isHdr then (((s.sat (aLnkunc t pl port) TL_LNKUNC.HDRDISC).routerEvent t), f.pay, f.chk, false, true)
      else (((s.sat (aLnkunc t pl port) TL_LNKUNC.UNC).routerEvent t), f.pay, f.chk, true, false)

/-- The flit code of a flit that is discarded with its packet: it is decoded like every flit, and its corrections are counted (R64, R438). -/
def State.codeOnly (s : State) (t pl port : Nat) (f : Sys2Proof.RawFlit) (poison : Bool) : State :=
  if poison then s
  else match rsDecode (rsWord f.pay f.chk) with
    | .fixed _ => (s.flitCode t pl port f false false).1
    | _ => s

/-- A packet's DEST is answered by the agent of tile t: its own port, an unpopulated L position, or CFGEP (R16, R464). -/
def State.agentDest (s : State) (t : Nat) (dest : BitVec 10) : Bool :=
  dest == epAddr t 3 || (List.range 3).any (fun p => dest == epAddr t p && (s.kind t p == .none || dest == s.build.cfgep))

/-- The power state that a CTL for the tile's agent meets in the rim, when that is IDLE or SLEEP; an older note of the same SRC and TAG is of a CTL that was lost (R299). -/
def State.notePower (s : State) (t : Nat) (k : Pkt) : State :=
  if k.cmd = Cmd.CTL ∧ s.agentDest t k.dest = true then
    let s := s.forgetPower t k
    if s.pst t = 1 ∨ s.pst t = 2 then s.setAgent t { s.agent t with pwrAt := (s.agent t).pwrAt ++ [(k.src, k.tag, s.pst t)] } else s
  else s

/-- A flit with a good sideband reaches its VC buffer (R66, R86, R87). A header never carries POISON (R42): on one that arrives with POISON = 1 the bit is cleared, and the packet goes on; no rule names another end for it (DESIGN CHOICE, notes/assumptions/137.md). -/
def State.storeFlit (s : State) (t pl port : Nat) (f : Sys2Proof.RawFlit) (sb : BitVec 8) : State :=
  let v := fld sb 0 3
  let ft := fld sb 3 2
  let stratum := bitOf sb 5
  let isHdr := decide (ft = ftHead ∨ ft = ftHeadTail)
  let x := (s.router t pl).vc port v
  if x.discard ∧ isHdr = false then
    -- the rest of a discarded packet, up to its tail
    let s := s.codeOnly t pl port f (bitOf sb 6)
    let r := (s.router t pl).setVc port v { x with discard := decide (ft ≠ ftTail) }
    s.setRouter t pl (r.giveCredit port v)
  else if isHdr = false ∧ x.isOpen = false then
    let s := s.codeOnly t pl port f (bitOf sb 6)
    s.setRouter t pl ((s.router t pl).giveCredit port v)
  else
    let (s, pay, chk, poison, lost) := s.flitCode t pl port f isHdr (bitOf sb 6 && !isHdr)
    let r := s.router t pl
    let x := { r.vc port v with discard := false }
    if lost then
      s.setRouter t pl ((r.setVc port v { x with discard := decide (ft = ftHead) }).giveCredit port v)
    else
      let dest := (hdrOf pay).dest
      let here := s.routeHere t pl stratum.toNat port dest
      let route := if ¬ isHdr then 0 else if RawFlit.lookaheadOk f then f.lar.toNat else here
      let s := if isHdr ∧ ¬ RawFlit.lookaheadOk f then s.rcount t pl TL_RSTAT.LAREPAIR else s
      let s := if isHdr ∧ pl = 0 then s.notePower t (hdrOf pay) else s
      let flit : Flit := { pay := pay, chk := chk, ftype := BitVec.ofNat 2 ft, stratum := stratum, poison := poison, route := route }
      let r := s.router t pl
      let s := s.setRouter t pl (r.setVc port v { x with buf := x.buf ++ [flit] })
      s.settle t pl

/-- A flit reaches a router input: it is decoded, stored, allocated and traversed; its arrival wakes a sleeping or idle tile (R86, R89, R370). -/
def State.flitArrival (s : State) (t pl port : Nat) (f : Sys2Proof.RawFlit) : State :=
  if ¬ s.inputOpen t pl port then s.popWire t pl port none
  else
    match sbDecode f.sb f.sbc with
    | .bad =>
      if s.mayArrive t pl port none = false then s
      else
      let s := (s.popWire t pl port none).wake t true
      s.takeDown t pl port (if port < 4 then some (neighbour t port, opposite port) else none)
    | .ok sb lane =>
      if 4 ≤ ((s.router t pl).vc port (fld sb 0 3)).buf.length ∨ s.mayArrive t pl port (some (fld sb 0 3)) = false then s
      else
        let s := (s.popWire t pl port (some (fld sb 0 3))).wake t true
        let s := match lane with
          | some l => (s.sat (aLnkunc t pl port) TL_LNKUNC.SBCOR).laneErrors t pl port [l]
          | none => s
        s.storeFlit t pl port f sb

/-- The credit on the wires that return to an output leaves them. -/
def State.popCredit (s : State) (t pl o v : Nat) : State :=
  let (u, port) := if o < 4 then (neighbour t o, opposite o) else (t, 8 + o)
  let r := s.router u pl
  match extract (fun x => x == (port, v)) r.crOut with
  | some (_, rest) => s.setRouter u pl { r with crOut := rest }
  | none => s

/-- A credit reaches a sender: it counts up to the depth of the buffer, or its failed parity takes the link down (R91, R92). -/
def State.creditReturn (s : State) (t pl o : Nat) (crv : Bool) (crvc : BitVec 3) (crp : Bool) : State :=
  let v := crvc.toNat
  let s := if crv then s.popCredit t pl o v else s
  if s.pst t = 5 ∨ s.pst t = 6 ∨ (o < 4 ∧ s.linkState t pl o ≠ 0 ∧ s.linkState t pl o ≠ 3) then s
  else if Bool.xor crp (Bool.xor crv (parity crvc)) then s.takeDown t pl o (if o < 4 then some (t, o) else none)
  else if ¬ crv then s
  else
    let r := s.router t pl
    (s.setRouter t pl (r.setCredit o v (min 4 (r.credit o v + 1)))).settle t pl

/-- A credit reaches the originator at a local input (R85, R91, R92). -/
def State.localCredit (s : State) (t pl port : Nat) (crv : Bool) (crvc : BitVec 3) (crp : Bool) : State :=
  let v := crvc.toNat
  let r := s.router t pl
  let s := match extract (fun x => x == (port, v)) r.crOut with
    | some (_, rest) => if crv then s.setRouter t pl { r with crOut := rest } else s
    | none => s
  if s.pst t = 5 ∨ s.pst t = 6 then s
  else if Bool.xor crp (Bool.xor crv (parity crvc)) then s.takeDown t pl port none
  else if ¬ crv then s
  else
    let r := s.router t pl
    s.setRouter t pl (r.setLcredit port v (min 4 (r.lcredit port v + 1)))

/-- CREDIT_RETURN (R91): to the sender at an output, or to the originator at a local input; the credits of a link's input return to its sender's output. -/
def execCreditReturn (t : Tile) (pl : Plane) (side : CreditSide) (crv : Bool) (crvc : BitVec 3) (crp : Bool) (s : State) : Res :=
  .next (match side with
    | .out p => s.creditReturn t.val pl.val p.val crv crvc crp
    | .input p => if p.val < 4 then s else s.localCredit t.val pl.val p.val crv crvc crp)

/-- FLINT (R88): a flint with a good FLP reaches the lookahead unit; with a bad one it is dropped (R90). -/
def execFlint (t : Tile) (pl : Plane) (port : RPort) (dest : BitVec 8) (str flp : Bool) (s : State) : Res :=
  .next (if flp = flpOf dest str then s.flintAt t.val pl.val port.val dest str else s)

end Sys2Proof.Machine
end

