-- ==== Sys2Proof/Machine/AgentBase.lean ====
section
/-! DEFINITION. The tile agent: taking a CTL, its answer and status word, spreading an operation over the tiles, and combining the answers (R295 to R301). -/
namespace Sys2Proof.Machine

/-- What a local action answers: RESP, value, REFUSED, LATE and DETAIL of the status word (R297, R299). -/
structure AgAns where
  resp : BitVec 4 := Resp.OK
  value : W := 0
  refused : Bool := false
  late : Bool := false
  detail : Nat := 0
  deriving DecidableEq, Repr

/-- The answer of a CTL that the agent does not execute. -/
def agDecerr : AgAns := { resp := Resp.DECERR }

-- Fields of a CTL (R296, R258).
def ctlEng (k : Pkt) : Bool := bitOf k.tag 11
def ctlSpread (k : Pkt) : Nat := fld k.tag 8 3
def ctlOp (k : Pkt) : Nat := fld k.tag 6 2
/-- Argument word i of a CTL. -/
def ctlArg (k : Pkt) (i : Nat) : W := lineWord (k.data.headD 0) i
/-- The spread is a gather (R296). -/
def ctlGather (k : Pkt) : Bool := decide (4 ≤ ctlSpread k) && decide (ctlSpread k ≤ 6)

-- Engine functions (R298), by the number the model gives them.
def engCfgRead : Nat := 0
def engCfgWrite : Nat := 1
def engBarrier : Nat := 2
def engCopy : Nat := 3
def engFlip : Nat := 4
def engRelease : Nat := 5
def engGather : Nat := 6
def engFlush : Nat := 7
/-- The FUNC of an engine function, in 0x80 to 0xFF. -/
def engFunc (n : Nat) : Nat := 128 + (Config.engineFunc n).toNat
/-- The data flit of an engine function with an argument. -/
def engArgs (n arg : Nat) : Line := Config.engineArgs (n + 8 * arg)
/-- The argument of a configuration write: its offset of 26 bits, its strobes and its data. -/
def cfgArg (off : Nat) (strb : BitVec 8) (v : W) : Nat := off + 2 ^ 26 * strb.toNat + 2 ^ 34 * v.toNat
/-- A CTL carries an engine function with an argument. -/
def isEngine (k : Pkt) (n arg : Nat) : Bool :=
  ctlEng k && ctlFunc k == engFunc n && k.data == [engArgs n arg]

-- Program functions (R297, R372, R446).
def progFuncs : List Nat := [0x00, 0x01, 0x02, 0x03, 0x10, 0x11, 0x20, 0x30, 0x40, 0x50, 0x51, 0x52, 0x53, 0x54, 0x55, 0x56, 0x5F]
/-- The least LENM1 of a function: WRREG is named with L = 1. -/
def funcLen (f : Nat) : Nat := if f = 0x02 then 31 else 7
/-- The tile tu is a neighbour of t. -/
def isNeighbour (t u : Nat) : Bool := (List.range 4).any (fun d => neighbour t d == u)
/-- The bits that a link function's argument may set (R446). -/
def linkArgMask : W := 0x3FF000F#64

/-- An argument keeps to the column of R297. -/
def argOk (k : Pkt) (t : Nat) : Bool :=
  let a := ctlArg k 0
  let f := ctlFunc k
  if f = 0x01 then decide (a.toNat < 65536) && decide (a.toNat % 8 = 0)
  else if f = 0x02 then decide (a.toNat < 65536) && decide (a.toNat % 8 = 0) && ctlArg k 3 == 0
  else if f = 0x03 then decide (a.toNat < 2 ^ 28) && decide (a.toNat % 8 = 0)
  else if f = 0x30 then a == 0x0A5A#64
  else if f = 0x5F then decide (epPort k.src = 3) && isNeighbour t (epTile k.src)
  else if 0x50 ≤ f then a &&& ~~~linkArgMask == 0
  else true

/-- A CTL that is answered DECERR: a reserved SPREAD, an unlisted FUNC, a wrong length or argument, an engine function of a program (R297, R298). -/
def badCtl (k : Pkt) (t : Nat) : Bool :=
  let f := ctlFunc k
  decide (ctlSpread k = 7) ||
    (if ctlEng k then decide (f < 128)
     else !progFuncs.contains f || k.lenm1.toNat != funcLen f || k.data.length != 1 || !argOk k t)

/-- A CTL of a program for one function. -/
def isProg (f : Nat) (k : Pkt) : Bool := !ctlEng k && ctlFunc k == f

-- Answers.

/-- The agent status word (R299). -/
def State.statusWord (s : State) (t : Nat) (k : Pkt) (a : AgAns) : BitVec 32 :=
  BitVec.ofNat 32 (s.statusBase t k + 2 ^ 8 * a.refused.toNat + 2 ^ 11 * a.late.toNat + 2 ^ 16 * a.detail)

/-- The CRSP of a CTL for a single tile. -/
def State.agentCrsp (s : State) (t : Nat) (k : Pkt) (a : AgAns) : State :=
  (s.agentAnswer t k a.resp 7 (if a.resp = Resp.OK then [lineOf [a.value]] else []) (s.statusWord t k a)).forgetPower t k

-- Spreading.

/-- Tiles that a relay reaches from t in direction d over r tiles, those marked OFF left out (R301). -/
def State.relayTiles (s : State) (t d r : Nat) : List Nat :=
  let w := s.rd (aAgoff t)
  ((List.range r).map (fun i => (List.range (i + 1)).foldl (fun u _ => neighbour u d) t)).filter (fun u =>
    if d % 2 = 1 then !bitOf w (u % 12) else !bitOf w (12 + u / 12))

/-- Tiles ahead of t in direction d of a relay that started at the root's column or row (R300). -/
def State.ahead (s : State) (t d : Nat) : Nat :=
  let r := s.build.root.val
  let off := if d % 2 = 1 then (t % 12 + 12 - r % 12) % 12 else (t / 12 + 12 - r / 12) % 12
  match d with
  | 0 => 6 - off
  | 1 => 6 - off
  | _ => 5 - (12 - off) % 12

/-- A spread over the whole instance. -/
def wide (k : Pkt) : Bool := ctlSpread k % 3 == 1

/-- The directions in which an agent relays a spread (R300): from the sequencer, along row or column or both; a row relay on along the row and into its columns; a column relay on along the column. -/
def State.relayDirs (s : State) (t : Nat) (k : Pkt) : List Nat :=
  let n := ctlSpread k
  if k.src = s.build.cfgep then
    (if n % 3 = 1 ∨ n % 3 = 2 then [1, 3] else []) ++ (if n % 3 = 1 ∨ n % 3 = 0 then [0, 2] else [])
  else
    let u := epTile k.src
    if u / 12 = t / 12 then
      let off := (t % 12 + 12 - s.build.root.val % 12) % 12
      (if off ≤ 6 then 1 else 3) :: (if wide k then [0, 2] else [])
    else
      let off := (t / 12 + 12 - s.build.root.val / 12) % 12
      [if off ≤ 6 then 0 else 2]

/-- The tiles of a column. -/
def columnOf (u : Nat) : List Nat := (List.range 12).map (fun y => y * 12 + u % 12)

/-- The tiles that do not answer when a relay to some tiles fails: of the rest of its range and, for a row relay of a spread over the instance, of their columns; a tile that counts as OFF is counted nowhere (R147, R152, R301, R376). -/
def State.relayCovers (s : State) (us : List Nat) (cols : Bool) : Nat :=
  ((if cols then us.flatMap columnOf else us).filter (fun u => !s.asOff u)).length

/-- The relays of a spread: the next tile in each direction, with the tiles that do not answer when it fails (R301). -/
def State.relays (s : State) (t : Nat) (k : Pkt) : List (Nat × Nat) :=
  (s.relayDirs t k).filterMap (fun d =>
    match s.relayTiles t d (s.ahead t d) with
    | [] => none
    | u :: us => some (u, s.relayCovers (u :: us) (decide (d % 2 = 1) && wide k)))

/-- Values combine under the gather's operation, where both sides have an answer (R300). -/
def combineVal (op ok1 : Nat) (v1 : W) (ok2 : Nat) (v2 : W) : W :=
  if ok2 = 0 then v1
  else if ok1 = 0 then v2
  else match op with
    | 0 => v1 + v2
    | 1 => v1 ||| v2
    | 2 => if v1.toNat < v2.toNat then v2 else v1
    | _ => v1 &&& v2

/-- The higher of two RESP codes. -/
def maxResp (a b : BitVec 4) : BitVec 4 := if a.toNat < b.toNat then b else a

/-- The counts word of R262. -/
def countsWord (ok bad silent : Nat) : W :=
  BitVec.ofNat 64 (min ok 0xFFFF + 2 ^ 16 * min bad 0xFFFF + 2 ^ 32 * min silent 0xFFFF)

/-- One more answer is combined into a spread. -/
def Spread.add (x : Spread) (v : W) (ok bad silent : Nat) (resp : BitVec 4) (bits : BitVec 32) : Spread :=
  { x with
    value := combineVal (ctlOp x.ctl) x.ok x.value ok v, ok := x.ok + ok, bad := x.bad + bad, silent := x.silent + silent,
    resp := maxResp (maxResp x.resp resp) (if silent = 0 then 0 else Resp.TIMEOUT), bits := x.bits ||| (bits &&& 0x1F00#32) }

/-- The combined CRSP: LENM1 15, the value of a gather, the counts (R300). -/
def State.sendCombined (s : State) (t : Nat) (x : Spread) : State :=
  (s.agentAnswer t x.ctl x.resp 15
    [lineOf [if ctlGather x.ctl ∧ x.ok ≠ 0 then x.value else 0, countsWord x.ok x.bad x.silent]] x.bits).forgetPower t x.ctl

/-- Spreads with nothing left to await are answered. -/
def State.endSpreads (s : State) (t : Nat) : State :=
  let a := s.agent t
  let isDone (x : Spread) : Bool := !x.own && x.waits.isEmpty
  (a.spreads.filter isDone).foldl (fun s x => s.sendCombined t x) (s.setAgent t { a with spreads := a.spreads.filter (fun x => !isDone x) })

/-- A CTL for this tile alone whose local action goes on, or has ended (R295). -/
def Agent.begin (a : Agent) (k : Pkt) : Agent := if ctlSpread k = 0 ∨ ctlSpread k = 7 then { a with busy := a.busy ++ [k] } else a
def Agent.finish (a : Agent) (k : Pkt) : Agent := { a with busy := a.busy.erase k }

/-- A local action of the agent goes on (R295). -/
def Agent.acting (a : Agent) : Bool := !a.busy.isEmpty || a.spreads.any (·.own)

/-- An agent's own answer to a CTL that it has taken: at once for a single tile, else into its spread. -/
def State.agentOwn (s0 : State) (t : Nat) (k : Pkt) (a : AgAns) : State :=
  let s := s0.setAgent t ((s0.agent t).finish k)
  if ctlSpread k = 0 ∨ ctlSpread k = 7 then s.agentCrsp t k a
  else
    let w := s.statusWord t k a
    let ag := s.agent t
    let f (x : Spread) : Spread :=
      let y := { x with own := false, bits := x.bits ||| w }
      if a.resp = Resp.OK then y.add a.value 1 0 0 Resp.OK 0 else y.add 0 0 1 0 a.resp 0
    (s.setAgent t { ag with spreads := replaceFirst (fun x => x.own && x.ctl == k) f ag.spreads }).endSpreads t

/-- The agent has begun a CTL's local action: it relays a spread, and answers when the action has ended (R295, R300). A relayed CTL keeps the TSTAMP of the CTL it relays, of which R52 and R296 say nothing (DESIGN CHOICE, notes/assumptions/105.md). -/
def State.agentStart (s : State) (t : Nat) (k : Pkt) (a : Option AgAns) : State :=
  let s := s.bump (aAgstat t) TL_AGSTAT.CTLCNT
  let s :=
    if ctlSpread k = 0 ∨ ctlSpread k = 7 then s
    else
      let rs := s.relays t k
      let ag := s.agent t
      let s := s.setAgent t { ag with spreads := ag.spreads ++ [(⟨k, true, rs, 0, 0, 0, 0, Resp.OK, 0⟩ : Spread)] }
      rs.foldl (fun s r => s.agentSend t { k with dest := epAddr r.1 3, src := epAddr t 3 }) s
  match a with
  | some a => s.agentOwn t k a
  | none => s.setAgent t ((s.agent t).begin k)

/-- The function code of LPEER, beside the program functions (R446). -/
def isPeer (k : Pkt) : Bool := !ctlEng k && ctlFunc k == 0x5F

/-- The CTL that the agent executes next: the first that arrived; while a local action goes on, the first LPEER, for which a test or a repair of the same agent may wait (R295, R442; DEDUCED, notes/assumptions/75.md). -/
def Agent.next (a : Agent) : Option (Pkt × List Pkt) :=
  if a.acting then extract isPeer a.rx
  else match a.rx with
    | [] => none
    | k :: rest => some (k, rest)

/-- The agent takes its next CTL; one that it cannot execute is answered DECERR, whichever function the command names; one of another function waits for its own command. -/
def State.agentRun (s : State) (t : Nat) (mine : Pkt → Bool) (act : State → Pkt → State × Option AgAns) : State :=
  match (s.agent t).next with
  | none => s
  | some (k, rest) =>
    if ¬ s.coreRuns t then s
    else
      let s1 := s.setAgent t { s.agent t with rx := rest }
      if badCtl k t then s1.agentStart t k (some agDecerr)
      else if mine k then
        let r := act s1 k
        r.1.agentStart t k r.2
      else s

-- Answers of relays.

/-- A relay of a spread fails: its tiles do not answer, and RELFLT is set (R301). -/
def Spread.relayFails (x : Spread) (src : Nat) : Spread :=
  let n := ((x.waits.find? (fun w => w.1 == src)).map (·.2)).getD 0
  { x with waits := x.waits.filter (fun w => w.1 != src) }.add 0 0 0 n 0 0x1000#32

/-- The spread that awaits a relay's answer from a tile. -/
def awaits (tag : BitVec 12) (src : Nat) (x : Spread) : Bool := x.ctl.tag == tag && x.waits.any (fun w => w.1 == src)

/-- A CRSP carries counts: LENM1 15, and the data flit with them, which one delivered as POISON has lost (R69, R262, R301). -/
def hasCounts (r : CrspBody) : Bool := r.lenm1 == 15 && !r.data.isEmpty

/-- A relay's CRSP reaches the agent: combined when it carries counts, a failed relay when it does not; discarded when nothing awaits it. -/
def State.relayAnswer (s : State) (t : Nat) (tag : BitVec 12) (src : Nat) (r : CrspBody) : State :=
  let a := s.agent t
  let same (k : Pkt) : Bool :=
    k.tag == tag && k.src == epAddr src 3 && k.resp == r.resp && k.aux == r.aux && k.lenm1 == r.lenm1
      && (r.data == [] && k.data == [] || k.data == [lineOf r.data])
  match extract same a.crsps with
  | none => s
  | some (_, rest) =>
    let s := s.setAgent t { a with crsps := rest }
    let a := s.agent t
    if a.spreads.any (awaits tag src) then
      if hasCounts r then
        let c := r.data.getD 1 0
        let f (x : Spread) : Spread :=
          { x with waits := x.waits.filter (fun w => w.1 != src) }.add (r.data.getD 0 0) (fld c 0 16) (fld c 16 16) (fld c 32 16)
            (respRead r.resp) r.aux
        (s.setAgent t { a with spreads := replaceFirst (awaits tag src) f a.spreads }).endSpreads t
      else
        let s := s.pb (aAgstat t) TL_AGSTAT.RELFLT true
        (s.setAgent t { a with spreads := replaceFirst (awaits tag src) (fun x => x.relayFails src) a.spreads }).endSpreads t
    else s

/-- RELAY_ANSWER (R300). -/
def execRelayAnswer (t : Tile) (tag : BitVec 12) (src : Tile) (r : CrspBody) (s : State) : Res :=
  .next (s.relayAnswer t.val tag src.val r)

/-- RELAY_TIMEOUT (R301): the wait of a relay ends without an answer. -/
def execRelayTimeout (t : Tile) (tag : BitVec 12) (src : Tile) (s : State) : Res :=
  .next (
    let a := s.agent t.val
    if a.spreads.any (awaits tag src.val) then
      let s := s.pb (aAgstat t.val) TL_AGSTAT.RELFLT true
      (s.setAgent t.val { a with spreads := replaceFirst (awaits tag src.val) (fun x => x.relayFails src.val) a.spreads }).endSpreads t.val
    else s)

end Sys2Proof.Machine
end

