-- ==== Sys2Proof/Machine/Inject.lean ====
section
/-! DEFINITION. Injection: ordering, regulators, slots, the governor's allowance, and the header with its data flits on the wires of a local input (R88, R100, R111 to R121, R135, R143, R390). -/
namespace Sys2Proof.Machine

-- Injection at a local input.

/-- The originator holds a credit for a header on a VC of a local input, beyond what it has still to send there (R85, R111). -/
def State.roomAt (s : State) (t pl port vc : Nat) : Bool :=
  let r := s.router t pl
  let wire := (tget [] r.inw port).filter (fun f => fld f.sb 0 3 == vc)
  decide (wire.length < r.lcredit port vc)

/-- A header with its data flits stands before a local input, and its flint is raised, unless it is unroutable (R40, R75, R78, R88, R100). Each flit spends its credit when it is sent, which is when it arrives (DESIGN CHOICE, notes/assumptions/100.md). -/
def State.place (s : State) (t pl port : Nat) (k : Pkt) : State :=
  let k := pktNorm k
  let lar := s.routeHere t pl k.stratum.toNat port k.dest
  let r := s.router t pl
  let s := s.setRouter t pl { r with inw := tput [] r.inw port (tget [] r.inw port ++ pktFlits k lar) }
  if lar = sinkCode then s else s.flintAt t pl port (nodeId (epTile k.dest)) k.stratum

/-- The stratum of a tile agent's and a fence sink's packet: the old one on a held plane (R135, R143). -/
def State.agentStratum (s : State) (t pl : Nat) : Bool := Bool.xor (s.inj t) (s.paused t pl)

/-- The stratum of the sequencer's packets (R135, R144). -/
def State.seqStratum (s : State) (pl : Nat) : Bool := Bool.xor s.cur (s.seq.planeStr.any (fun x => x.val == pl))

/-- The plane of a packet's command; none is ever sent without one. -/
def pktPlane (k : Pkt) : Nat := (planeOf k.cmd).getD 0

-- Regulators and the governor.

/-- Whole and fractional tokens of a class, in units of 1/65,536 flit (R119). -/
def State.niTok (s : State) (t p c : Nat) : Nat :=
  let n := s.ni t p
  let w := s.rd (aNireg t p c)
  let cap := max 5 (fld w 24 8) * 65536
  let grow := if bitOf w 63 then (s.fcc - n.tokAt) * fld w 0 16 else 0
  min (tget 0 n.tok c + grow) cap

/-- The tokens of every class brought up to now. -/
def State.settleTok (s : State) (t p : Nat) : State :=
  let toks := (List.range 4).foldl (fun tb c => tput 0 tb c (s.niTok t p c)) []
  s.setNi t p { s.ni t p with tok := toks, tokAt := s.fcc }

/-- The throttle level (R389). -/
def State.throttle (s : State) : Nat := s.g aGovstat PM_GOVSTAT.TL

/-- Flits of Lookup and Bulk injected in the present frame of 64 cycles (R390). -/
def State.frameUsed (s : State) (f lk bk c : Nat) : Nat :=
  if f ≠ s.fcc / 64 then 0 else if c = 2 then lk else if c = 3 then bk else 0

/-- The governor's allowance of a class (R390). -/
def State.allowed (s : State) (c used flits : Nat) : Bool := decide (c < 2) || decide (used + flits ≤ 64 - s.throttle)

-- Ordering at the initiator NI.

/-- The ordering rules let request number idx of the injection queue go: only accesses accepted before it count (R112 to R114). One that the NI may inject at once still follows those before it of its own class, stratum and DEST that wait in the queue, since R79 keeps their order from injection on. -/
def State.orderOk (s : State) (t p idx : Nat) (r : NiReq) : Bool :=
  let n := s.ni t p
  let f (a : Access) : Bool := follows r a.dest a.mem a.lo a.hi
  let outs := ((n.outs.filter (fun o => decide (o.seq < r.seq))).map NiOut.access).filter f
  let early := ((n.injq.take idx).map NiReq.access).filter f
  let isNew := r.stratum == s.inj t
  let oldHist := n.hist.any (fun h => h.stratum != r.stratum && follows r h.dest true h.lo h.hi)
  let oldOut := outs.any (fun a => a.stratum != r.stratum)
  if isNew && (oldHist || oldOut) then false
  else if r.order.toNat = 3 then outs.isEmpty && early.isEmpty && n.going.all (fun g => !g.posted || decide (r.seq ≤ g.seq))
  else early.all (fun a => !(a.cls == r.cls && a.stratum == r.stratum && a.dest == r.dest)) && (!r.hold || (outs ++ early).all (fun a => !a.np))

/-- MAXNP as it acts (R131). -/
def State.maxnp (s : State) (t p : Nat) : Nat := min 256 (max 1 (s.g (aNilim t p) TL_NILIM.MAXNP))

/-- A response entry is free and fewer than MAXNP requests are outstanding (R116). -/
def State.npRoom (s : State) (t p : Nat) : Bool :=
  let n := s.ni t p
  decide (n.outs.length + (n.sresp.filter (·.entry)).length < 256)
    && decide (n.outs.length + (n.sresp.filter (fun a => a.np && a.sent)).length < s.maxnp t p)

/-- Request number idx is ready to be injected now; a guaranteed one in its slot bypasses regulator and governor (R111, R119, R121, R143, R390). -/
def State.reqReady (s : State) (t p idx : Nat) (r : NiReq) : Bool :=
  let n := s.ni t p
  let c := r.cls.toNat
  let flits := 1 + r.data.length
  !(s.paused t 0 && r.stratum == s.inj t)
    && s.orderOk t p idx r
    && (qopPosted r.op || s.npRoom t p)
    && (r.q.gs || !bitOf (s.rd (aNireg t p c)) 63 || decide (flits * 65536 ≤ s.niTok t p c))
    && (r.q.gs || s.allowed c (s.frameUsed n.frame n.frameLk n.frameBk c) flits)
    && s.roomAt t 0 (4 + p) (2 * c)

/-- The connection that owns the slot beginning in this cycle, by the bank in use, where no packet was injected in it yet (R121). -/
def State.slotConn (s : State) (t p : Nat) : Option Nat :=
  if s.fcc % 5 ≠ 0 ∨ (s.ni t p).slotUsed = some s.fcc then none
  else
    let w := s.rd (aNislot t p (s.ni t p).slotBank.toNat (s.fcc % 320 / 5))
    if bitOf w 4 then some (fld w 0 4) else none

/-- The index of the first request with a property that is ready. -/
def State.readyAt (s : State) (t p : Nat) (f : NiReq → Bool) : Option Nat :=
  match (s.ni t p).injq.findIdx? f with
  | none => none
  | some i => match (s.ni t p).injq[i]? with
    | some r => if s.reqReady t p i r then some i else none
    | none => none

/-- The request that the NI injects next: the guaranteed one of the slot, else the first of the highest class whose first is ready. A request waits behind an earlier guaranteed one of its class; only the slot of R121 takes a guaranteed one past those before it (R111, R121; DEDUCED, notes/assumptions/101.md). -/
def State.nextReq (s : State) (t p : Nat) : Option Nat :=
  let gs := (s.slotConn t p).bind (fun c => s.readyAt t p (fun r => r.q.gs && r.q.conn.toNat == c))
  match gs with
  | some i => some i
  | none => (List.range 4).findSome? (fun c =>
      (s.readyAt t p (fun r => r.cls.toNat == c)).filter (fun i => (s.ni t p).injq[i]?.any (fun r => !r.q.gs)))

/-- The packet of a request (R46, R57, R106, R111). -/
def reqPkt (t p : Nat) (r : NiReq) (tag : BitVec 12) : Pkt :=
  { dest := r.dest, src := epAddr t p, cls := r.cls, cmd := qopCmd r.op, tag := tag, pdom := r.pdom, cache := r.cache,
    order := r.order, atop := r.q.atop, addr := r.q.addr, lenm1 := r.q.len, be := r.dbe, qid := r.q.qid, tstamp := r.tstamp,
    fkey := r.q.fkey, aux := if r.op = Qop.DOORBELL then BitVec.ofNat 32 (fld r.q.addr 0 12) else r.q.aux,
    data := r.data, stratum := r.stratum }

/-- A TAG that no outstanding request bears and that is not held out of use (R59, R117). -/
def Ni.tagFree (n : Ni) (tag : BitVec 12) : Bool :=
  n.outs.all (fun o => o.tag != tag) && n.held.all (fun h => h.1 != tag) && n.abandoned.all (fun a => a.1 != tag)

/-- What the port keeps of an injected request: its regulator's and frame's account, its history, its response entry, and, until its tail flit has left the wires, the packet itself (R108, R114, R116, R119). A DOORBELL is no access of the history that a later request is ordered after across a commit (DESIGN CHOICE, notes/assumptions/142.md). -/
def State.account (s : State) (t p idx : Nat) (r : NiReq) (tag : BitVec 12) : State :=
  let s := s.settleTok t p
  let n := s.ni t p
  let c := r.cls.toNat
  let flits := 1 + r.data.length
  let a := r.access
  let tok := if r.q.gs ∨ bitOf (s.rd (aNireg t p c)) 63 = false then n.tok else tput 0 n.tok c (tget 0 n.tok c - flits * 65536)
  let use (c : Nat) : Nat := s.frameUsed n.frame n.frameLk n.frameBk c
  let add (k : Nat) : Nat := if r.q.gs ∨ c ≠ k then 0 else flits
  let h : NiAcc := ⟨r.stratum, r.dest, a.lo, a.hi⟩
  let n := { n with
    injq := n.injq.eraseIdx idx, tok := tok, slotUsed := if r.q.gs then some s.fcc else n.slotUsed, frame := s.fcc / 64, frameLk := use 2 + add 2, frameBk := use 3 + add 3,
    going := n.going ++ [⟨r.seq, r.cls, r.q.mtag, r.stratum, qopPosted r.op, r.op == Qop.DOORBELL, qopPosted r.op⟩],
    hist := if n.hist.contains h ∨ r.op = Qop.DOORBELL then n.hist else n.hist ++ [h] }
  if qopPosted r.op then s.setNi t p n
  else s.setNi t p { n with outs := n.outs ++ [⟨r.seq, tag, r.q.mtag, r.op, r.dest, r.cls, r.stratum, r.q.addr, r.q.len, false, s.cyc⟩] }

/-- An initiator NI injects its next request, if that is of the class named and the TAG is free. -/
def State.injectReq (s : State) (t p : Nat) (cls : BitVec 2) (tag : BitVec 12) : State :=
  match s.nextReq t p with
  | none => s
  | some i => match (s.ni t p).injq[i]? with
    | none => s
    | some r =>
      if r.cls ≠ cls ∨ (qopPosted r.op = false ∧ (s.ni t p).tagFree tag = false) then s
      else
        let s := s.account t p i r tag
        let s := s.place t 0 (4 + p) (reqPkt t p r tag)
        { s with pm := { s.pm with niflits := s.pm.niflits + 1 + r.data.length } }

-- The other originators.

/-- The first packet of a class in a queue, where its VC has room and its plane is not held for it. -/
def State.firstOf (s : State) (q : List Pkt) (t port : Nat) (cls : BitVec 2) (holds : Bool) : Option (Pkt × List Pkt) :=
  match extract (fun (k : Pkt) => k.cls == cls) q with
  | some (k, rest) =>
    if s.roomAt t (pktPlane k) port (2 * cls.toNat) && !(holds && s.paused t (pktPlane k)) then some (k, rest) else none
  | none => none

/-- A target, message or memory NI injects a response, under the tile's injection stratum (R118, R135). -/
def State.injectResp (s : State) (t p : Nat) (cls : BitVec 2) : State :=
  match s.firstOf (s.ni t p).rspq t (4 + p) cls true with
  | none => s
  | some (k, rest) =>
    let s := (s.setNi t p { s.ni t p with rspq := rest }).place t 1 (4 + p) { k with stratum := s.inj t }
    { s with pm := { s.pm with niflits := s.pm.niflits + 1 + k.data.length } }

/-- A tile agent injects a packet. -/
def State.injectAgent (s : State) (t : Nat) (cls : BitVec 2) : State :=
  match s.firstOf (s.agent t).outq t 7 cls false with
  | none => s
  | some (k, rest) =>
    (s.setAgent t { s.agent t with outq := rest }).place t (pktPlane k) 7 { k with stratum := s.agentStratum t (pktPlane k) }

/-- A fence sink's answer is injected (R82). -/
def State.injectSink (s : State) (t : Nat) (cls : BitVec 2) : State :=
  match s.firstOf (s.agent t).sinkq t 7 cls false with
  | none => s
  | some (k, rest) => (s.setAgent t { s.agent t with sinkq := rest }).place t 1 7 { k with stratum := s.agentStratum t 1 }

/-- The WR that carries a trace record to the OBS trace endpoint (R455): 32 bytes with every byte enabled; its TSTAMP is the network time of its injection (DEDUCED, notes/assumptions/93.md). -/
def State.tracePkt (s : State) (t : Nat) (cls : BitVec 2) (tag : BitVec 12) (rec_ : List W) : Pkt :=
  { dest := s.build.obsTrace, src := epAddr t 3, cls := cls, cmd := Cmd.WR, tag := tag, pdom := 8, tstamp := s.stamp,
    addr := Config.traceAddr s.free, lenm1 := 31, be := 0xFFFFFFFF, data := [lineOf rec_] }

/-- A tile agent injects the oldest trace record of its probe slots, in class TCLASS (R455). -/
def State.injectTrace (s : State) (t : Nat) (cls : BitVec 2) (tag : BitVec 12) : State :=
  match (s.agent t).traceq with
  | [] => s
  | r :: rest =>
    if cls.toNat = s.g aLcfg OBS_LCFG.TCLASS ∧ s.roomAt t 0 7 (2 * cls.toNat) = true then
      ((s.setAgent t { s.agent t with traceq := rest }).place t 0 7
        { s.tracePkt t cls tag r with stratum := s.agentStratum t 0 }).nextFree
    else s

/-- The sequencer's or the CFG port's packet is injected at CFGEP (R464). -/
def State.injectCfg (s : State) (cls : BitVec 2) : State :=
  let e := s.build.cfgep
  match s.firstOf s.seq.outq (epTile e) (4 + epPort e) cls false with
  | none => s
  | some (k, rest) =>
    { s with seq := { s.seq with outq := rest } }.place (epTile e) (pktPlane k) (4 + epPort e)
      { k with stratum := s.seqStratum (pktPlane k) }

/-- An answer of the event controller is injected at DBEP (R319). -/
def State.injectEvc (s : State) (cls : BitVec 2) : State :=
  let e := s.build.dbep
  match s.firstOf s.evc.outq (epTile e) (4 + epPort e) cls false with
  | none => s
  | some (k, rest) =>
    { s with evc := { s.evc with outq := rest } }.place (epTile e) 1 (4 + epPort e) { k with stratum := s.agentStratum (epTile e) 1 }

/-- A scheduler port's count of the slots used in a frame. -/
def State.setSpFrame (s : State) (port : Nat) (x : Nat × Nat × Nat) : State := { s with tm := { s.tm with spFrame := tput (0, 0, 0) s.tm.spFrame port x } }

/-- A port of the traffic manager injects a packet; a scheduler port within the governor's allowance; its reads and record writes carry the time of injection (R135, R143, R176, R390). -/
def State.injectTm (s : State) (port : Nat) (cls : BitVec 2) : State :=
  match extract (fun (k : Pkt) => k.cls == cls) (tget [] s.tm.outq port) with
  | none => s
  | some (k, rest) =>
    let t := epTile k.src
    let q := 4 + epPort k.src
    let pl := pktPlane k
    let c := cls.toNat
    let flits := 1 + k.data.length
    let fr := tget (0, 0, 0) s.tm.spFrame port
    let use (c : Nat) : Nat := s.frameUsed fr.1 fr.2.1 fr.2.2 c
    if s.roomAt t pl q (2 * c) && !s.paused t pl && (decide (port < 16) || s.allowed c (use c) flits) then
      let fr' := (s.fcc / 64, use 2 + (if c = 2 then flits else 0), use 3 + (if c = 3 then flits else 0))
      let s' := if port < 16 then s else s.setSpFrame port fr'
      let own := k.cmd == Cmd.RD || k.cmd == Cmd.WRN
      let s := (s'.setTmOut port rest).place t pl q { k with stratum := s.inj t, tstamp := if own then s.stamp else k.tstamp }
      { s with pm := { s.pm with niflits := s.pm.niflits + flits } }
    else s

/-- The tile whose fabric input a source uses. -/
def State.srcTile (s : State) : InjSrc → Nat
  | .ni t _ => t.val
  | .agent t => t.val
  | .sink t => t.val
  | .cfgep => epTile s.build.cfgep
  | .evc => epTile s.build.dbep
  | .qp q => epTile (s.tmEp q.val)
  | .sp k => epTile (s.tmEp (16 + k.val))
  | .trace t => t.val

/-- INJECT_HEADER (R111): the source's core must run. -/
def State.injectHeader (s : State) (src : InjSrc) (cls : BitVec 2) (tag : BitVec 12) : State :=
  if ¬ s.coreRuns (s.srcTile src) then s
  else match src with
    | .ni t p => if s.kind t.val p.val = .initiator then s.injectReq t.val p.val cls tag else s.injectResp t.val p.val cls
    | .agent t => s.injectAgent t.val cls
    | .sink t => s.injectSink t.val cls
    | .cfgep => s.injectCfg cls
    | .evc => s.injectEvc cls
    | .qp q => s.injectTm q.val cls
    | .sp k => s.injectTm (16 + k.val) cls
    | .trace t => s.injectTrace t.val cls tag

end Sys2Proof.Machine
end

