-- ==== Sys2Proof/Machine/NiRecv.lean ====
section
/-! DEFINITION. Responses at an initiator NI, requests and answers at a target, message or memory NI, and mailboxes (R56, R108, R115 to R118, R124, R125, R127, R128, R158). -/
namespace Sys2Proof.Machine

-- Responses at an initiator NI.

/-- One 16-tick unit of the timers RTO and ABTO in fabric cycles (R131). -/
def unit16 : Nat := 16 * Config.cyclesPerTick

def State.rto (s : State) (t p : Nat) : Nat := s.g (aNicfg t p) TL_NICFG.RTO
def State.late (s : State) (t p : Nat) : State := s.sat (aNistat t p) TL_NISTAT.LATE

/-- A response reaches an initiator NI: its access has completed for R112 with the arrival, not with the leaving on S, of which the rule says nothing (DESIGN CHOICE, notes/assumptions/102.md). It is passed to the master, or discarded and counted in LATE when its request was lost to a reset, abandoned, timed out or never made (R108, R117, R127, R129). -/
def State.niResponse (s : State) (t p : Nat) (k : Pkt) : State :=
  let n := s.ni t p
  match extract (fun (o : NiOut) => o.tag == k.tag) n.outs with
  | some (o, rest) =>
    if o.lost then ((s.setNi t p { n with outs := rest }).puDown (puIndex t p) o.stratum).late t p
    else
      let code := respRead k.resp
      let data := if code = Resp.OK then k.data else []
      s.setNi t p { n with outs := rest, sresp := n.sresp ++ [⟨o.mtag, code, data, true, true, true, some o.stratum⟩] }
  | none =>
    (s.setNi t p { n with
      held := n.held.filter (fun h => h.1 != k.tag), abandoned := n.abandoned.filter (fun a => a.1 != k.tag) }).late t p

/-- The head of the received responses, when it is of the kind asked for. -/
def State.takeRx (s : State) (t p : Nat) (ok : Pkt → Bool) : Option (Pkt × State) :=
  match (s.ni t p).rx with
  | k :: rest => if ok k then some (k, s.setNi t p { s.ni t p with rx := rest }) else none
  | [] => none

/-- An initiator NI takes the first response of those wanted (R108). -/
def State.respIn (s : State) (t p : Nat) (want : Pkt → Bool) : State :=
  if s.kind t p ≠ .initiator then s
  else match s.takeRx t p want with
    | some (k, s) => s.niResponse t p k
    | none => s
/-- Any response but a WACK (R108). -/
def State.rdataIn (s : State) (t p : Nat) : State := s.respIn t p (fun k => k.cmd != Cmd.WACK)
/-- A WACK (R108). -/
def State.wackIn (s : State) (t p : Nat) : State := s.respIn t p (fun k => k.cmd == Cmd.WACK)

/-- The response timer of a request expires: TIMEOUT on S, the entry is free, the TAG is held out of use for 16 × RTO, also that of a request which a forced disable abandoned (R117, R129). -/
def State.responseTimeout (s : State) (t p : Nat) (tag : BitVec 12) : State :=
  let n := s.ni t p
  let r := s.rto t p
  if r = 0 ∨ s.kind t p ≠ .initiator then s
  else match extract (fun (o : NiOut) => o.tag == tag) n.outs with
    | some (o, rest) =>
      let s := s.until (o.at_ + r * unit16)
      let n := { n with outs := rest, held := n.held ++ [(tag, s.cyc + 16 * r * unit16)] }
      if o.lost then (s.setNi t p n).puDown (puIndex t p) o.stratum
      else s.setNi t p { n with sresp := n.sresp ++ [⟨o.mtag, Resp.TIMEOUT, [], false, true, true, some o.stratum⟩] }
    | none => match extract (fun (a : BitVec 12 × Nat) => a.1 == tag) n.abandoned with
      | some (a, rest) =>
        let s := s.until (a.2 + r * unit16)
        s.setNi t p { n with abandoned := rest, held := n.held ++ [(tag, s.cyc + 16 * r * unit16)] }
      | none => s

/-- TAG_HOLD_EXPIRY (R117): the TAG returns to use. -/
def execTagHoldExpiry (t : Tile) (p : LPort) (tag : BitVec 12) (s : State) : Res :=
  .next (match extract (fun (h : BitVec 12 × Nat) => h.1 == tag) (s.ni t.val p.val).held with
    | some (h, rest) => (s.until h.2).setNi t.val p.val { s.ni t.val p.val with held := rest }
    | none => s)

-- Requests at a target, message or memory NI.

/-- The operand of an ATM of n bytes at byte offset b of its data flit. -/
def atmOperand (k : Pkt) (b : Nat) : Nat := fld ((k.data.headD 0) >>> (8 * b)) 0 (8 * (k.lenm1.toNat + 1))

/-- What an ATM stores over an old value of n bytes; none where CAS finds another value (R56). -/
def atmStore (k : Pkt) (old : W) : Option W :=
  let bits := 8 * (k.lenm1.toNat + 1)
  let o := old.toNat % 2 ^ bits
  match k.atop.toNat with
  | 0 => some (BitVec.ofNat 64 (atmOperand k 0))
  | 1 => some (BitVec.ofNat 64 ((o + atmOperand k 0) % 2 ^ bits))
  | 2 => if o = atmOperand k 0 then some (BitVec.ofNat 64 (atmOperand k 8)) else none
  | _ => none

/-- QADDR of a presented request: ADDR, of which a memory NI presents bits 31:0 (R110, R125). -/
def State.presentAddr (s : State) (t p : Nat) (k : Pkt) : BitVec 48 :=
  if s.kind t p = .memory then (k.addr.extractLsb' 0 32).zeroExtend 48 else k.addr

/-- QVALID rises for the request that stands first of those not taken (R105, R118). -/
def qRaise (c : Nat) : List Pres → List Pres
  | [] => []
  | x :: xs => if x.taken then x :: qRaise c xs else { x with at_ := some (x.at_.getD c) } :: xs

/-- A request that stands first is presented to the endpoint under a tag, or answered or dropped (R115, R125, R127, R128). -/
def State.present1 (s0 : State) (t p : Nat) (cmd : BitVec 6) (mtag : BitVec 8) (old : Option W) : State :=
  let s := s0.niOpen t p
  let n := s.ni t p
  match n.rx with
  | [] => s
  | k :: rest =>
    if k.cmd ≠ cmd then s
    else
      match s.turnAway t p k with
      | some code => (s.setNi t p { n with rx := rest }).turnedAway t p k code
      | none =>
        if s.epOpen t p = false ∨ n.pres.any (fun x => x.mtag == mtag) = true then s
        else
          let st := if k.cmd = Cmd.ATM then old.bind (atmStore k) else none
          s.setNi t p { n with rx := rest, pres := qRaise s.cyc (n.pres ++ [⟨mtag, k, s.presentAddr t p k, (answerOf k.cmd).isSome, false, false, old, st, none⟩]) }

/-- The port is a target or a memory NI. -/
def State.slaveKind (s : State) (t p : Nat) : Bool := s.kind t p == .target || s.kind t p == .memory

/-- RD (R115). -/
def execRd (t : Tile) (p : LPort) (mtag : BitVec 8) (s : State) : Res :=
  .next (if s.slaveKind t.val p.val then s.present1 t.val p.val Cmd.RD mtag none else s)
/-- WR (R115). -/
def execWr (t : Tile) (p : LPort) (mtag : BitVec 8) (s : State) : Res :=
  .next (if s.slaveKind t.val p.val then s.present1 t.val p.val Cmd.WR mtag none else s)
/-- WRN (R115). -/
def execWrn (t : Tile) (p : LPort) (mtag : BitVec 8) (s : State) : Res :=
  .next (if s.slaveKind t.val p.val then s.present1 t.val p.val Cmd.WRN mtag none else s)
/-- ATM (R56): the endpoint's value before it is the environment's. -/
def execAtm (t : Tile) (p : LPort) (mtag : BitVec 8) (old : W) (s : State) : Res :=
  .next (if s.slaveKind t.val p.val then s.present1 t.val p.val Cmd.ATM mtag (some old) else s)
/-- PKT (R158). -/
def execPkt (t : Tile) (p : LPort) (mtag : BitVec 8) (s : State) : Res :=
  .next (if s.slaveKind t.val p.val then s.present1 t.val p.val Cmd.PKT mtag none else s)

/-- The endpoint takes the presented requests by Q transfers, in order; a posted one is then the endpoint's own (R118, R127). -/
def State.qTaken (s : State) (t p : Nat) (mtag : BitVec 8) : State :=
  let n := s.ni t p
  if s.slaveKind t p = false ∨ s.epOpen t p = false then s
  else match n.pres.find? (fun x => !x.taken) with
    | none => s
    | some x =>
      if x.mtag ≠ mtag then s
      else if x.np then
        s.setNi t p { n with pres := qRaise s.cyc (replaceFirst (fun y => y.mtag == mtag && !y.taken) (fun y => { y with taken := true }) n.pres) }
      else s.setNi t p { n with pres := qRaise s.cyc (n.pres.filter (fun y => y.mtag != mtag)) }

/-- TARGET_Q_TRANSFER (R118). -/
def execTargetQTransfer (t : Tile) (p : LPort) (mtag : BitVec 8) (s : State) : Res := .next (s.qTaken t.val p.val mtag)

/-- The data of an answer: what an ATM read, or the endpoint's beats cut to the length. -/
def answerData (x : Pres) (data : List Line) : List Line :=
  let n := x.pkt.lenm1.toNat + 1
  if x.pkt.cmd = Cmd.ATM then [keepBytes n (lineOf [x.old.getD 0])]
  else if x.pkt.cmd = Cmd.RD then data.mapIdx (fun k l => keepBytes (n - 64 * k) l)
  else []

/-- The endpoint answers on S: the response is formed and queued; an answer to a request already answered is discarded and counted (R59, R60, R115, R118). While the tile's core does not run, the crossing from the endpoint takes 16 beats, wakes the tile, and stalls then (R382, R386). -/
def State.targetAnswer (s : State) (t p : Nat) (mtag : BitVec 8) (code : BitVec 4) (data : List Line) : State :=
  let beats := max 1 data.length
  if s.slaveKind t p = false ∨ s.epOpen t p = false ∨ s.niRoom t p beats = false then s
  else
    let u := (s.niEnter t p beats).wake t true
    let n := u.ni t p
    match extract (fun (x : Pres) => x.mtag == mtag && x.taken) n.pres with
    | none => u.late t p
    | some (x, rest) =>
      let c := respRead code
      if x.dead then (u.setNi t p { n with pres := rest }).late t p
      else if c = Resp.OK ∧ x.pkt.cmd = Cmd.RD ∧ data.length ≠ flitsFor (x.pkt.lenm1.toNat + 1) then s
      else
        let d := if c = Resp.OK then answerData x data else []
        (u.setNi t p { n with pres := rest }).niAnswer t p x.pkt c x.pkt.lenm1 d

/-- TARGET_RESPONSE (R115). -/
def execTargetResponse (t : Tile) (p : LPort) (mtag : BitVec 8) (code : BitVec 4) (data : List Line) (s : State) : Res :=
  .next (s.targetAnswer t.val p.val mtag code data)

/-- TARGET_TIMEOUT (R118): the timer runs from the cycle in which QVALID was raised for the request; TIMEOUT goes out; the request stays presented until taken, and its later answer is discarded. -/
def execTargetTimeout (t : Tile) (p : LPort) (mtag : BitVec 8) (s : State) : Res :=
  .next (
    let n := s.ni t.val p.val
    let r := s.rto t.val p.val
    if s.slaveKind t.val p.val = false ∨ r = 0 then s
    else match n.pres.find? (fun x => x.mtag == mtag && x.np && !x.dead && x.at_.isSome) with
      | none => s
      | some x =>
        let s := s.until (x.at_.getD 0 + r * unit16)
        let pres := replaceFirst (fun y => y.mtag == mtag && y.np && !y.dead) (fun y => { y with dead := true }) n.pres
        (s.setNi t.val p.val { n with pres := pres }).niAnswer t.val p.val x.pkt Resp.TIMEOUT 0 [])

-- Mailboxes.

/-- DEPTH as it acts (R131). -/
def State.mboxDepth (s : State) (t p m : Nat) : Nat :=
  let d := s.g (aNimbox t p m) TL_NIMBOX.DEPTH
  if d = 0 ∨ 64 < d then 64 else d

/-- Entries that a mailbox holds. -/
def Ni.mboxCount (n : Ni) (m : Nat) : Nat := (n.mbox.filter (fun e => e.box == m)).length

/-- The mailbox delivered next: round robin among those that are not empty (R124). -/
def Ni.nextBox (n : Ni) : Option Nat :=
  ((List.range 16).map (fun i => (n.mboxLast + 1 + i) % 16)).find? (fun m => n.mboxCount m != 0)

/-- The entry that stands on Q stays; where none does, the next mailbox's first takes its place (R105, R124). -/
def Ni.mboxShow (n : Ni) : Ni := { n with mboxQ := n.mboxQ.orElse (fun _ => n.nextBox) }

/-- An MSG is stored, or answered DECERR or RETRY (R124, R128). -/
def State.msgIn (s0 : State) (t p : Nat) : State :=
  let s := s0.niOpen t p
  let n := s.ni t p
  match n.rx with
  | [] => s
  | k :: rest =>
    let m := fld k.addr 0 4
    let s1 := s.setNi t p { n with rx := rest }
    if s.niState t p ≠ niEnabled ∨ fld k.addr 4 44 ≠ 0 ∨ s.gb (aNimbox t p m) TL_NIMBOX.EN = false then
      s1.niAnswer t p k Resp.DECERR 0 []
    else if s.mboxDepth t p m ≤ n.mboxCount m ∨ 256 ≤ n.mbox.length then s1.niAnswer t p k Resp.RETRY 0 []
    else
      let s2 := (s.setNi t p ({ n with rx := rest, mbox := n.mbox ++ [⟨m, k⟩] } : Ni).mboxShow).niAnswer t p k Resp.OK 0 []
      if n.mboxCount m = 0 ∧ s.gb (aNimbox t p m) TL_NIMBOX.EVT = true then s2.raiseTile t p else s2

/-- MSG (R124). -/
def execMsg (t : Tile) (p : LPort) (s : State) : Res :=
  .next (if s.kind t.val p.val = .message then s.msgIn t.val p.val else s)

/-- MAILBOX_DELIVERY (R105, R124): the endpoint takes the entry that stands on Q, the entry is free, and the next one stands there. -/
def execMailboxDelivery (t : Tile) (p : LPort) (s : State) : Res :=
  .next (
    let n := s.ni t.val p.val
    if s.kind t.val p.val ≠ .message ∨ s.epOpen t.val p.val = false then s
    else match n.mboxShow.mboxQ with
      | none => s
      | some m => match extract (fun (e : MboxEntry) => e.box == m) n.mbox with
        | none => s
        | some (_, rest) => s.setNi t.val p.val ({ n with mbox := rest, mboxLast := m, mboxQ := none } : Ni).mboxShow)

end Sys2Proof.Machine
end

