-- ==== Sys2Proof/Machine/NiCtl.lean ====
section
/-! DEFINITION. Resetting an endpoint, enabling and disabling a port, and the slot-bank switch (R123, R127 to R129, R385). -/
namespace Sys2Proof.Machine

/-- A port after a reset of its tile: the endpoint's reset and clock are its own (R365, R387); its crossing is UP unless that reset is asserted (DESIGN CHOICE, notes/assumptions/154.md). -/
def Ni.pins (n : Ni) : Ni := { Ni.reset with epLow := n.epLow, epUp := !n.epLow, clkStop := n.clkStop }

/-- A crossing into a domain enters FLUSH, unless the fabric reset holds that side in reset as well (R385). -/
def State.flushDomain (s : State) (d : Nat) : State :=
  if s.rstLow || s.porstLow then s else ((s.pb (aDomstat d) PM_DOMSTAT.FLUSHED true).bump (aDomstat d) PM_DOMSTAT.FLUSHES).oncePer 995 (·.raise 995)

/-- The data flits of an initiator NI that stand on its wires are replaced by poisoned ones (R42, R127, R129). -/
def State.poisonWires (s : State) (t p : Nat) : State :=
  let r := s.router t 0
  let w := tget [] r.inw (4 + p)
  let f (i : Nat) (x : Sys2Proof.RawFlit) : Sys2Proof.RawFlit :=
    if fld x.sb 3 2 = ftBody ∨ fld x.sb 3 2 = ftTail then
      let l := Config.freeLine (s.free + i)
      rawFlit l (rsEncode l) (putBit x.sb 6 true) 0
    else x
  { s.setRouter t 0 { r with inw := tput [] r.inw (4 + p) (w.mapIdx f) } with free := s.free + w.length }

/-- The accesses of requests not yet injected leave the in-flight counters (R235). -/
def State.puLeaveAll (s : State) (i : Nat) (rs : List NiReq) : State :=
  rs.foldl (fun s r => if r.refuse.isSome || r.op == Qop.DOORBELL then s else s.puDown i r.stratum) s

/-- Answers that wait on S are dropped, with their accesses. -/
def State.puLeaveS (s : State) (i : Nat) (as : List SResp) : State := as.foldl (fun s a => s.puLeave i a.pu) s

/-- Presented requests lost to the endpoint's reset: TIMEOUT for the non-posted, DROP for the posted not taken (R127). -/
def State.losePres (s : State) (t p : Nat) (xs : List Pres) : State :=
  xs.foldl (fun s x => if x.np then (if x.dead then s else s.niAnswer t p x.pkt Resp.TIMEOUT 0 []) else s.drop t p) s

/-- EP_RST_N falls (R127). -/
def State.epReset (s : State) (t p : Nat) : State :=
  let n := s.ni t p
  let i := puIndex t p
  if s.kind t p = .none ∨ s.kind t p = .engine ∨ n.epLow = true then s
  else
    let s := s.flushDomain t
    match s.kind t p with
    | .initiator =>
      let s := ((s.poisonWires t p).puLeaveAll i (n.injq ++ n.dwait.toList)).puLeaveS i n.sresp
      s.setNi t p { n with
        epLow := true, epUp := false, waitZero := true, injq := [], dwait := none, sresp := [], xin := 0,
        going := n.going.map (fun g => { g with owed := false }),
        outs := n.outs.map (fun o => { o with lost := true }) }
    | .message =>
      (s.setNi t p { n with epLow := true, epUp := false, mbox := [], mboxQ := none }).drop t p n.mbox.length
    | _ =>
      let s := (s.setNi t p { n with epLow := true, epUp := false, pres := [] }).losePres t p n.pres
      s.rxAway t p (fun k => (s.turnAway t p k).getD Resp.TIMEOUT)

/-- ENDPOINT_RESET_RELEASE (R127): the endpoint half asks to reconnect. -/
def execEndpointResetRelease (t : Tile) (p : LPort) (s : State) : Res :=
  .next (s.setNi t.val p.val { s.ni t.val p.val with epLow := false })

/-- The two halves of an endpoint's crossing reconnect after the release (R385). -/
def State.reconnectEp (s : State) (t p : Nat) : State :=
  if (s.ni t p).epLow then s else s.setNi t p { s.ni t p with epUp := true }

-- Enabling and disabling.

/-- The port reaches DISABLED and raises its event; with ENABLE set it is ENABLED from the next cycle (R129). -/
def State.nowDisabled (s : State) (t p : Nat) : State :=
  let s := (s.raiseTile t p).p (aNicfg t p) TL_NICFG.STATE niDisabled
  s.setNi t p { s.ni t p with disAt := s.cyc }

/-- ENABLE is cleared, with FORCE (R128, R129). -/
def State.niDisable (s : State) (t p : Nat) (force : Bool) : State :=
  if s.kind t p = .none ∨ s.kind t p = .engine then s
  else
    let was := s.niState t p
    let s := (s.pb (aNicfg t p) TL_NICFG.ENABLE false).pb (aNicfg t p) TL_NICFG.FORCE force
    if was = niEnabled then
      (s.p (aNicfg t p) TL_NICFG.STATE niDisabling).setNi t p { s.ni t p with disAt := s.cyc }
    else s

/-- ENABLE is set: a DISABLED port is ENABLED from the next cycle, one that is being disabled after that (R129, R131). -/
def State.niEnable (s : State) (t p : Nat) : State :=
  if s.kind t p = .none ∨ s.kind t p = .engine then s
  else
    let fresh := decide (s.niState t p = niDisabled) && !s.gb (aNicfg t p) TL_NICFG.ENABLE
    let s := s.pb (aNicfg t p) TL_NICFG.ENABLE true
    if fresh then s.setNi t p { s.ni t p with disAt := s.cyc } else s

/-- PORT_DISABLE (R128). -/
def execPortDisable (t : Tile) (p : LPort) (force : Bool) (s : State) : Res := .next (s.niDisable t.val p.val force)
/-- PORT_ENABLE (R129). -/
def execPortEnable (t : Tile) (p : LPort) (s : State) : Res := .next (s.niEnable t.val p.val)

/-- DISABLE_COMPLETE (R128): OUTSTD is 0 and no mailbox entry remains. -/
def execDisableComplete (t : Tile) (p : LPort) (s : State) : Res :=
  .next (if s.niState t.val p.val = niDisabling ∧ s.outstd t.val p.val = 0 ∧ (s.ni t.val p.val).mbox = []
    then s.nowDisabled t.val p.val else s)

/-- What an abort leaves of the presented requests: those taken, and the one that stands on Q; those behind it in the crossing go, the posted ones counted in DROP (R105, R129). -/
def abortKeeps (xs : List Pres) : List Pres := xs.filter (fun x => x.taken) ++ (xs.filter (fun x => !x.taken)).take 1
/-- The posted requests behind the one that stands on Q. -/
def abortDrops (xs : List Pres) : List Pres := ((xs.filter (fun x => !x.taken)).drop 1).filter (fun x => !x.np)

/-- Presented requests are abandoned: ABORTED for the non-posted (R129). -/
def State.abortPres (s : State) (t p : Nat) (xs : List Pres) : State :=
  xs.foldl (fun s x => if x.np && !x.dead then s.niAnswer t p x.pkt Resp.ABORTED 0 [] else s) s

/-- The forced disable aborts (R129). A message NI's entry that stands on Q goes with the others (DEDUCED, notes/assumptions/122.md). -/
def State.niAbort (s : State) (t p : Nat) : State :=
  let n := s.ni t p
  let i := puIndex t p
  match s.kind t p with
  | .initiator =>
    let s := (s.poisonWires t p).puLeaveAll i (n.injq ++ n.dwait.toList)
    let s := (n.outs.filter (·.lost)).foldl (fun s o => s.puDown i o.stratum) s
    let live := n.outs.filter (fun o => !o.lost)
    let gone := live.map (fun o => (⟨o.mtag, Resp.ABORTED, [], false, true, true, some o.stratum⟩ : SResp))
    let cut := (n.going.filter (·.owed)).map (fun g => (⟨g.mtag, Resp.ABORTED, [], false, false, true, none⟩ : SResp))
    s.setNi t p { n with
      injq := [], dwait := none, outs := [], abandoned := n.abandoned ++ n.outs.map (fun o => (o.tag, o.at_)),
      going := n.going.map (fun g => { g with owed := false }),
      sresp := n.sresp ++ gone ++ cut ++ (n.injq ++ n.dwait.toList).map (fun r => localAns r Resp.ABORTED) }
  | .message => (s.setNi t p { n with mbox := [], mboxQ := none }).drop t p n.mbox.length
  | _ =>
    let s := s.setNi t p { n with pres := (abortKeeps n.pres).map (fun x => { x with dead := true }) }
    ((s.abortPres t p n.pres).drop t p (abortDrops n.pres).length).rxAway t p (fun _ => Resp.ABORTED)

/-- ABTO expires during a forced disable (R129). -/
def State.abortTimeout (s : State) (t p : Nat) : State :=
  if s.niState t p = niDisabling ∧ s.gb (aNicfg t p) TL_NICFG.FORCE = true then
    let s := s.until ((s.ni t p).disAt + s.g (aNicfg t p) TL_NICFG.ABTO * unit16)
    (s.niAbort t p).nowDisabled t p
  else s

-- Slot tables.

/-- The first table wrap that begins at least 128 cycles after the FLIP left the sequencer (R123). -/
def State.switchWrap (s : State) : Nat := s.rst0 + (s.seq.flipAt - s.rst0 + 128 + 319) / 320 * 320

/-- SLOT_BANK_SWITCH (R123): every NI marked by a FLIP moves to the bank of its tile's stratum. -/
def execSlotBankSwitch (s : State) : Res :=
  .next (
    if s.nis.any (fun kv => kv.2.slotOld) then
      (s.nis.filter (fun kv => kv.2.slotOld)).foldl (fun s kv =>
        s.setNi (kv.1 / 3) (kv.1 % 3) { kv.2 with slotBank := s.inj (kv.1 / 3), slotOld := false }) (s.until s.switchWrap)
    else s)

end Sys2Proof.Machine
end

