-- ==== Sys2Proof/Machine/Time.lean ====
section
/-! DEFINITION. Network time: pending changes, slews, the TOD interface and PPS (R392 to R399). -/
namespace Sys2Proof.Machine

/-- The fraction of network time and of the period (R392). -/
def nsUnit : Nat := 2 ^ 32

/-- Cycles from the receipt of a change to its apply cycle (R394). -/
def applyDelay : Nat := 256

/-- A change reaches the timebase now (R394). -/
def State.timeChange (s : State) (c : TimeChange) : State :=
  { s with tb := { s.tb with pend := s.tb.pend ++ [(s.fcc + applyDelay, c)] } }

/-- SLEWMAX as it acts (R400). -/
def State.slewMax (s : State) : Nat := max 1 (min 1000 (s.g aTbCfg TB_CFG.SLEWMAX))

/-- The timebase counted from cycle f on: the same times, what the slew has absorbed taken out. -/
def TimeBase.rebase (b : TimeBase) (f : Nat) : TimeBase :=
  let done (sl : Slew) : Nat := sl.absorbed b.period (f - b.cb)
  { b with
    base := b.nt f, cb := f, run := b.runAt f,
    slew := b.slew.map (fun sl => { sl with rem := if 0 ≤ sl.rem then sl.rem - done sl else sl.rem + done sl }) }

/-- The cycle in which a slew has absorbed its offset (R398). -/
def TimeBase.slewEnd (b : TimeBase) : Option Nat :=
  b.slew.map (fun sl =>
    let rate := b.period * sl.ppm
    b.cb + (if rate = 0 then 0 else (sl.rem.natAbs * 1000000 + rate - 1) / rate))

/-- Network time v ns at running time r, taken over at cycle f, where the timebase has been rebased (R394, R397). -/
def TimeBase.load (b : TimeBase) (v r : Nat) : TimeBase := { b with base := v * nsUnit + (b.run - r), slew := none }

/-- The change that the PPS edge brought is made: ARMED clears, unless a hardware load has armed anew since that edge (R396, R397; DESIGN CHOICE, notes/assumptions/148.md). -/
def TimeBase.disarm (b : TimeBase) : TimeBase := if b.edged then { b with armed := none, edged := false } else b

/-- A change is made at its apply cycle f; a step is added to base modulo 2^64 ns (R392, R394, R398). -/
def State.applyChange (s : State) (f : Nat) (c : TimeChange) : State :=
  let b := s.tb.rebase f
  match c with
  | .load v r => { s with tb := b.load v r }.pb aTbStat TB_STAT.VALID true
  | .pps v r => ({ s with tb := (b.load v r).disarm }.pb aTbStat TB_STAT.VALID true).raise 997
  | .step d => { s with tb := { b with base := ((Int.ofNat b.base + d * nsUnit) % (2 ^ 96 : Int)).toNat, slew := none } }
  | .period p => { s with tb := { b with period := p } }.p aTbPeriod TB_PERIOD.PERIOD p
  | .slew d => { s with tb := { b with slew := some ⟨d * nsUnit, s.slewMax⟩ } }

/-- The slew in progress ends at cycle f (R398). -/
def State.endSlew (s : State) (f : Nat) : State := { s with tb := { s.tb.rebase f with slew := none } }.raise 998

/-- The next apply cycle passes: the earliest pending change is made, or the slew that ends before it (R394, R398). -/
def State.timeApply (s : State) : State :=
  match s.tb.pend, s.tb.slewEnd with
  | [], none => s
  | [], some e => (s.until (s.rst0 + e)).endSlew e
  | (f, c) :: rest, none => ({ s with tb := { s.tb with pend := rest } }.until (s.rst0 + f)).applyChange f c
  | (f, c) :: rest, some e =>
    if e < f then (s.until (s.rst0 + e)).endSlew e
    else ({ s with tb := { s.tb with pend := rest } }.until (s.rst0 + f)).applyChange f c

/-- TB_PERIOD_WRITE (R394). -/
def State.periodWrite (s : State) (m : Master) (v : W) : State :=
  if s.sqRight m then s.timeChange (.period (fld v 0 36)) else s
def execTbPeriodWrite (m : Master) (v : W) (s : State) : Res := .next (s.periodWrite m v)

/-- A write of 1 to INVAL (R395). -/
def State.timeInvalidate (s : State) (m : Master) : State := if s.sqRight m then s.pb aTbStat TB_STAT.VALID false else s
/-- TIME_INVALIDATE (R395). -/
def execTimeInvalidate (m : Master) (s : State) : Res := .next (s.timeInvalidate m)

/-- A load arms for the next PPS edge. -/
def State.armPps (s : State) (v : Nat) : State := { s with tb := { s.tb with armed := some v, edged := false } }

/-- TOD_TRANSFER (R396): TOD_READY is 1 only while HWLOAD is. -/
def execTodTransfer (time : W) (atpps : Bool) (s : State) : Res :=
  .next (
    if ¬ s.gb aTbCfg TB_CFG.HWLOAD then s
    else if atpps then s.armPps time.toNat
    else s.timeChange (.load time.toNat s.runNow))

/-- 0.9 s and 1.1 s of network time (R397). -/
def ppsMin : Nat := 900000000 * nsUnit
def ppsMax : Nat := 1100000000 * nsUnit

/-- PPS_EDGE (R397): the armed load that the edge meets stays armed until its apply cycle. -/
def execPpsEdge (s : State) : Res :=
  .next (
    let now := s.tb.nt s.fcc
    let early := match s.tb.lastPps with | some l => decide (l ≤ now ∧ now - l < ppsMin) | none => false
    if early then s.sat aTbStat TB_STAT.PPSIGN
    else
      let s := (s.wr aTbPpscap (BitVec.ofNat 64 s.ntNs)).pb aTbStat TB_STAT.PPSLOST false
      let s := { s with tb := { s.tb with lastPps := some now } }
      match s.tb.armed, s.tb.edged with
      | some v, false => { s with tb := { s.tb with edged := true } }.timeChange (.pps v s.runNow)
      | _, _ => s)

/-- PPS_TIMEOUT (R397): 1.1 s have passed since the last accepted edge, or since the fabric reset. -/
def execPpsTimeout (s : State) : Res :=
  .next (
    if s.gb aTbStat TB_STAT.PPSLOST then s
    else
      let due := s.tb.lastPps.getD 0 + ppsMax
      let left := due - s.tb.nt s.fcc
      let s := s.until (s.cyc + (if s.tb.period = 0 then 0 else (left + s.tb.period - 1) / s.tb.period))
      (s.pb aTbStat TB_STAT.PPSLOST true).raise 996)

end Sys2Proof.Machine
end

