-- ==== Sys2Proof/Machine/Power.lean ====
section
/-! DEFINITION. Tile power, fences, the governor, and toggle crossings (R369 to R379, R384, R388 to R391). -/
namespace Sys2Proof.Machine

-- PM_TILE.ST (R400).
def stActive : Nat := 0
def stIdle : Nat := 1
def stSleep : Nat := 2
def stFencing : Nat := 3
def stFenced : Nat := 4
def stOff : Nat := 5
def stPowering : Nat := 6
def stRestore : Nat := 7

def State.setSt (s : State) (t st : Nat) : State := s.p (aPmTile t) PM_TILE.ST st
/-- MINST as it acts. -/
def State.minst (s : State) (t : Nat) : Nat := min 2 (s.g (aPmTile t) PM_TILE.MINST)

/-- No flit stands in an input buffer or on a wire into the tile, and no packet holds an output (R371). -/
def State.routerQuiet (s : State) (t pl : Nat) : Bool :=
  let r := s.router t pl
  r.inv.all (fun kv => kv.2.buf.isEmpty && kv.2.cur.isNone) && r.inw.all (fun kv => kv.2.isEmpty) && r.own.isEmpty
    && (List.range 4).all (fun d => (tget [] (s.router (neighbour t d) pl).outw (opposite d)).isEmpty)

/-- No NI has a packet still to inject, and no crossing into the tile has an item. -/
def State.niQuiet (s : State) (t p : Nat) : Bool :=
  let n := s.ni t p
  n.injq.isEmpty && n.dwait.isNone && n.rspq.isEmpty

/-- A block behind an endpoint of the tile has a packet in its crossing: the sequencer, the event controller, the traffic manager (R371, R386). -/
def State.blockWaits (s : State) (t : Nat) : Bool :=
  !s.seq.outq.isEmpty && epTile s.build.cfgep == t || !s.evc.outq.isEmpty && epTile s.build.dbep == t
    || s.tm.outq.any (fun kv => !kv.2.isEmpty && epTile (s.tmEp kv.1) == t)

/-- The tile is quiet (R371): among the rest, the agent has no CTL to execute, none whose local action goes on, and no HOLD running. -/
def State.quiet (s : State) (t : Nat) : Bool :=
  let a := s.agent t
  s.routerQuiet t 0 && s.routerQuiet t 1 && (List.range 3).all (fun p => s.niQuiet t p)
    && a.rx.isEmpty && a.busy.isEmpty && a.spreads.all (fun x => !x.own) && a.outq.isEmpty && a.sinkq.isEmpty && a.traceq.isEmpty && a.holdEnd.isNone && !s.blockWaits t

/-- The agent sends the events that its latch holds as doorbells, at once (R321). -/
def State.flushHeld (s : State) (t : Nat) : State :=
  let a := s.agent t
  let s := s.setAgent t { a with edge := [], level := [] }
  let s := a.edge.foldl (fun s i => s.agentSend t (s.dblPkt (epAddr t 3) 8 i false false)) s
  a.level.foldl (fun s x => s.agentSend t (s.dblPkt (epAddr t 3) 8 x.1 true x.2)) s

/-- The held events leave once nothing keeps them in the latch (R22, R143). -/
def State.sendHeld (s : State) (t : Nat) : State := if s.latched t then s else s.flushHeld t

/-- Both routers of a tile forward what waits in them. -/
def State.settleTile (s : State) (t : Nat) : State := (s.settle t 0).settle t 1

/-- TILE_IDLE_ENTRY (R370, R371): MINST allows IDLE and the tile is quiet. -/
def execTileIdleEntry (t : Tile) (s : State) : Res :=
  .next (
    if s.pst t.val = stActive ∧ 1 ≤ s.minst t.val ∧ s.quiet t.val = true then
      (s.setSt t.val stIdle).setAgent t.val { s.agent t.val with idleAt := s.cyc, waking := false }
    else s)

/-- TILE_SLEEP_ENTRY (R370): IDLE for SLPDLY with MINST = SLEEP, no wake under way and no snapshot ARMED; an event held in the island wakes the tile again. -/
def execTileSleepEntry (t : Tile) (s : State) : Res :=
  .next (
    let a := s.agent t.val
    if s.pst t.val = stIdle ∧ s.minst t.val = 2 ∧ a.waking = false ∧ s.gb (aAgsnap t.val) TL_AGSNAP.ARMED = false then
      let s := s.until (a.idleAt + s.g aPmCfg PM_CFG.SLPDLY * Config.cyclesPerTick)
      let s := s.setSt t.val stSleep
      if a.edge.isEmpty && a.level.isEmpty then s else s.wake t.val true
    else s)

/-- The running core takes what stood in the crossings of its ports (R382, R386). -/
def State.drainXin (s : State) (t : Nat) : State := (List.range 3).foldl (fun s p => s.setNi t p { s.ni t p with xin := 0 }) s

/-- The ports of a tile take the slot bank of a stratum (R121, R134). -/
def State.setSlotBanks (s : State) (t : Nat) (b : Bool) : State :=
  (List.range 3).foldl (fun s p => s.setNi t p { s.ni t p with slotBank := b, slotOld := false }) s

/-- TILE_WAKE_DONE (R370): the tile is ACTIVE, its held events leave, and its routers run. -/
def execTileWakeDone (t : Tile) (s : State) : Res :=
  .next (
    let a := s.agent t.val
    if a.waking = true ∧ (s.pst t.val = stIdle ∨ s.pst t.val = stSleep) then
      let s := if s.pst t.val = stSleep then s.bump (aPmTile t.val) PM_TILE.WAKES else s
      let s := ((s.setSt t.val stActive).setAgent t.val { a with waking := false }).drainXin t.val
      (s.sendHeld t.val).settleTile t.val
    else s)

/-- A write to MINST (R372). -/
def State.minstWrite (s : State) (t v : Nat) : State :=
  let was := s.minst t
  let s := s.p (aPmTile t) PM_TILE.MINST v
  let s := if was ≠ 2 ∧ s.minst t = 2 then s.setAgent t { s.agent t with idleAt := s.cyc } else s
  if (s.pst t = stIdle ∨ s.pst t = stSleep) ∧ s.minst t < s.pst t then s.wake t true else s

/-- MINST_WRITE (R372). -/
def execMinstWrite (m : Master) (t : Tile) (v : BitVec 2) (s : State) : Res :=
  .next (if s.sqRight m then s.minstWrite t.val v.toNat else s)

-- Links of a tile whose power changes (R445).

/-- The directions between a tile and its neighbour over output d, both ways and on both planes. -/
def State.eachLink (s : State) (t d : Nat) (f : State → Nat → Nat → Nat → State) : State :=
  [0, 1].foldl (fun s pl => f (f s t pl d) (neighbour t d) pl (opposite d)) s

/-- The tile was switched off: its links go DOWN without counting and without an event (R445). -/
def State.linksOff (s : State) (t : Nat) : State :=
  (List.range 4).foldl (fun s d => s.eachLink t d (fun s u pl e => s.setLinkState u pl e lkDown)) s

/-- The tile can be reached by its neighbours: each link whose far tile is not OFF, FENCED or POWERING trains; the others stay DOWN (R445). -/
def State.linksOn (s : State) (t : Nat) : State :=
  (List.range 4).foldl (fun s d =>
    let st := s.pst (neighbour t d)
    if st = stOff ∨ st = stFenced ∨ st = stPowering then s
    else s.eachLink t d (fun s u pl e => if s.linkState u pl e = lkDown then s.startTraining u pl e else s)) s

-- Power commands.

/-- A power command completes: event 992, and a retained management domain wakes (R376, R380). -/
def State.pmDone (s : State) : State := (s.raise 992).wakeMgmt

/-- A refused power command or restore access (R376, R377). -/
def State.pmReject (s : State) (t : Nat) : State := (s.pb (aPmTile t) PM_TILE.REJ true).raise 993

/-- The eight fence bits of the outputs that lead into a tile (R375). -/
def State.setFences (s : State) (t : Nat) (b : Bool) : State :=
  (List.range 4).foldl (fun s d =>
    let u := neighbour t d
    (s.putBitAt (aFence u) (opposite d) b).putBitAt (aFence u) (8 + opposite d) b) s

/-- The neighbours' routers forward what waits for a fence. -/
def State.settleAround (s : State) (t : Nat) : State := (List.range 4).foldl (fun s d => s.settleTile (neighbour t d)) s

/-- Every NI of the tile is DISABLED. -/
def State.portsDisabled (s : State) (t : Nat) : Bool := (List.range 3).all (fun p => s.niState t p == niDisabled)

/-- CMD FENCE (R376). -/
def State.cmdFence (s : State) (t : Nat) : State :=
  if s.powered t = true ∧ s.portsDisabled t = true ∧ t ≠ s.build.root.val then
    let s := if s.pst t = stSleep then s.bump (aPmTile t) PM_TILE.WAKES else s
    let s := (s.setFences t true).setSt t stFencing
    (((s.setAgent t { s.agent t with waking := false }).drainXin t).settleTile t).settleAround t
  else s.pmReject t

/-- CMD OFF (R376). -/
def State.cmdOff (s : State) (t : Nat) : State :=
  if s.pst t = stFenced ∧ s.pm.offing.contains t = false then { s with pm := { s.pm with offing := s.pm.offing ++ [t] } }
  else s.pmReject t

/-- CMD ON (R376). -/
def State.cmdOn (s : State) (t : Nat) : State := if s.pst t = stOff then s.setSt t stPowering else s.pmReject t

/-- The tile's injection stratum becomes the committed one (R149). -/
def State.setInj (s : State) (t : Nat) (b : Bool) : State := s.pb (aStrat t) TL_STRAT.INJ b

/-- CMD UNFENCE (R376). -/
def State.cmdUnfence (s : State) (t : Nat) : State :=
  if (s.pst t = stFencing ∨ s.pst t = stFenced ∨ s.pst t = stRestore) ∧ s.pm.offing.contains t = false
      ∧ s.g aStstate SEQ_STSTATE.PHASE = 0 then
    let s := ((((s.setFences t false).setInj t s.cur).setSlotBanks t s.cur).setSt t stActive).linksOn t
    ((s.sendHeld t).settleTile t).pmDone
  else s.pmReject t

/-- CMD WAKE (R376). -/
def State.cmdWake (s : State) (t : Nat) : State := if s.powered t then s.wake t true else s.pmReject t

/-- A write to PM_TILE.CMD (R400). -/
def State.pmCmd (s : State) (t c : Nat) : State :=
  match c with
  | 1 => s.cmdFence t
  | 2 => s.cmdOff t
  | 3 => s.cmdOn t
  | 4 => s.cmdUnfence t
  | 5 => s.cmdWake t
  | _ => s

/-- PM_FENCE (R376). -/
def execPmFence (m : Master) (t : Tile) (s : State) : Res := .next (if s.sqRight m then s.cmdFence t.val else s)
/-- PM_OFF (R376). -/
def execPmOff (m : Master) (t : Tile) (s : State) : Res := .next (if s.sqRight m then s.cmdOff t.val else s)
/-- PM_ON (R376). -/
def execPmOn (m : Master) (t : Tile) (s : State) : Res := .next (if s.sqRight m then s.cmdOn t.val else s)
/-- PM_UNFENCE (R376). -/
def execPmUnfence (m : Master) (t : Tile) (s : State) : Res := .next (if s.sqRight m then s.cmdUnfence t.val else s)
/-- PM_WAKE (R376). -/
def execPmWake (m : Master) (t : Tile) (s : State) : Res := .next (if s.sqRight m then s.cmdWake t.val else s)

/-- FENCING_COMPLETE (R376): the fencing tile is quiet, with every CTL answered, those of link tests and those that await relays among them. -/
def execFencingComplete (t : Tile) (s : State) : Res :=
  .next (
    if s.pst t.val = stFencing ∧ s.quiet t.val = true ∧ (s.agent t.val).spreads = [] then (s.setSt t.val stFenced).pmDone
    else s)

/-- Core and rim of a tile take their fabric-reset values; the island's held events, the fence bits, which the power controller sets, and what the endpoints' own pins say stay (R365, R369, R375, R376, R387). Its PUs' rules, control, counters and records stay as well: no rule names their part (DESIGN CHOICE, notes/assumptions/134.md). -/
def State.resetTile (s : State) (t : Nat) : State :=
  let lo := tlBase t
  let a := s.agent t
  { s with
    regs := s.regs.filter (fun kv => kv.1 < lo || lo + 0x10000 ≤ kv.1 || kv.1 == aFence t)
    routers := s.routers.filter (fun kv => kv.1 / 2 != t)
    nis := (s.nis.map (fun kv => (kv.1, if kv.1 / 3 = t then kv.2.pins else kv.2))).filter (fun kv => kv.2 != Ni.reset)
    links := s.links.filter (fun kv => kv.1 / 8 != t)
    agents := tput Agent.reset s.agents t { Agent.reset with edge := a.edge, level := a.level } }

/-- POWER_OFF_COMPLETE (R369, R376): the state of core and rim is lost. -/
def execPowerOffComplete (t : Tile) (s : State) : Res :=
  .next (
    if s.pm.offing.contains t.val then
      ((({ s with pm := { s.pm with offing := s.pm.offing.filter (· != t.val) } }.resetTile t.val).setSt t.val stOff).linksOff t.val).pmDone
    else s)

/-- POWER_ON_COMPLETE (R376, R393): the tile is reset, its counters agree with every other tile's, and INJ is CUR. -/
def execPowerOnComplete (t : Tile) (s : State) : Res :=
  .next (
    if s.pst t.val = stPowering then
      (((((s.resetTile t.val).setInj t.val s.cur).setSlotBanks t.val s.cur).setSt t.val stRestore).linksOff t.val |>.linksOn t.val).pmDone
    else s)

-- Governor.

/-- Fields of PM_GOVCAP and of PM_GOVCOEF as they stood when the window began (R391). -/
def State.govCap (s : State) (f : Fd) : Nat := fld s.pm.cap f.lo f.w
def State.govCoef (s : State) (f : Fd) : Nat := fld s.pm.coef f.lo f.w

/-- The cap in force, in mW; 0 is none (R391). -/
def State.capMw (s : State) : Nat :=
  let c := s.govCap PM_GOVCAP.CAP
  let f := s.govCap PM_GOVCAP.FCAP
  10 * (if f ≠ 0 ∧ f < c then f else c)

/-- The power of a tile by its state, in units of 0.1 mW (R374, R388). -/
def State.tilePower (s : State) (t : Nat) : Nat :=
  let st := s.pst t
  if st = stIdle then 105
  else if st = stSleep then 30
  else if st = stOff ∨ st = stPowering then 2
  else 105 + s.govCoef PM_GOVCOEF.ACTT

/-- The static term, in mW (R388). -/
def State.staticMw (s : State) : Rat :=
  ((((List.range 144).map s.tilePower).foldl (· + ·) 0 : Nat) : Rat) / 10 + 300 + 88

/-- The estimate of a window, in mW (R389). -/
def State.windowMw (s : State) : Rat :=
  let e := s.govCoef PM_GOVCOEF.HOP * s.pm.hops + s.govCoef PM_GOVCOEF.NIFL * s.pm.niflits
    + s.govCoef PM_GOVCOEF.TMCELL * s.pm.cells
  (e : Rat) / 16 / 1280 + s.staticMw

/-- The throttle level after a window (R389). -/
def nextTl (tl : Nat) (pavg : Rat) (cap : Nat) : Nat :=
  if cap = 0 then 0
  else if (cap : Rat) < pavg then min 63 (tl + max 1 ((16 * (pavg - cap) / cap).ceil.toNat))
  else if pavg < (cap : Rat) * 96 / 100 then tl - 1
  else tl

/-- GOVERNOR_WINDOW (R389, R391): a window of 64 basalt ticks ends, and the next one takes the cap and the coefficients as they stand. -/
def execGovernorWindow (s : State) : Res :=
  .next (
    let s := s.until (s.bas0 + (s.ticks / 64 + 1) * 64 * Config.cyclesPerTick)
    let pavg := s.pm.pavg + (s.windowMw - s.pm.pavg) / 8
    let cap := s.capMw
    let tl := nextTl s.throttle pavg cap
    let top := decide (tl = 63) && decide (cap ≠ 0) && decide ((cap : Rat) < pavg)
    let seen := s.pm.satSeen && decide (tl = 63)
    let s := s.p aGovstat PM_GOVSTAT.TL tl
    let s := if top then s.sat aGovstat PM_GOVSTAT.SATCNT else s
    let s := if top && !seen then s.raise 994 else s
    { s with pm := { s.pm with
        pavg := pavg, hops := 0, niflits := 0, cells := 0, cap := s.rd aGovcap, coef := s.rd aGovcoef, satSeen := seen || top } })

-- Toggle crossings.

/-- The key of a toggle crossing. -/
def ctKey : CtId → Nat
  | .wake t => t.val
  | .leaseExpiry => 64
  | .islandEvents => 65

/-- A toggle crossing toward a host is in FLUSH: its sender sees no acknowledge (R385). -/
def State.ctFlushed (s : State) : CtId → Bool
  | .wake t => (s.host (t.val / 8)).low || (s.host (t.val / 8)).waitClear
  | _ => false

/-- CT_ROUND_TRIP_END (R384). -/
def execCtRoundTripEnd (x : CtId) (s : State) : Res := .next (if s.ctFlushed x then s else s.ctTripEnd (ctKey x))

end Sys2Proof.Machine
end

