-- ==== Sys2Proof/Machine/LinkJobs.lean ====
section
/-! DEFINITION. Calibration, repairs, reinitialisation and tests of links, and the agents' test functions (R441 to R448). -/
namespace Sys2Proof.Machine

-- Result codes (R446).
def rcOk : Nat := 0
def rcBusy : Nat := 1
def rcRepaired : Nat := 2
def rcFail : Nat := 3
def rcTimeout : Nat := 4
def rcNoPeer : Nat := 5
def rcExhausted : Nat := 6

/-- The result word of a test function (R446): code, lanes that failed, the lowest of them, spares in REPAIR. -/
def State.resultWord (s : State) (t pl d code : Nat) (failed : List Nat) : W :=
  let first := failed.foldl min (failed.headD 0)
  BitVec.ofNat 64 (code % 256 + 2 ^ 8 * failed.length + 2 ^ 18 * first + 2 ^ 28 * s.g (aLnkstat t pl 0 d) TL_LNKSTAT.REPAIRS)

/-- The answer of a test function with a code. -/
def State.linkAns (s : State) (t pl d code : Nat) (failed : List Nat := []) : AgAns := { value := s.resultWord t pl d code failed }

/-- The link direction that an argument names: plane and direction (R446). -/
def argLink (k : Pkt) : Nat × Nat := (fld (ctlArg k 0) 0 1, fld (ctlArg k 0) 1 2)
def argRepair (k : Pkt) : Bool := bitOf (ctlArg k 0) 3
def argLane (k : Pkt) : Nat := fld (ctlArg k 0) 16 10

-- Repairs.

/-- The receiving end's map of a direction, by which repairs are made (R440, R444). -/
def State.rxSpares (s : State) (t pl d : Nat) : List (Nat × Nat) := s.spares (neighbour t d) pl 1 (opposite d)

/-- A failing lane that is in service is repaired at once at both ends (R440, R444). -/
def State.repairNow (s : State) (t pl d p : Nat) : State :=
  if laneFailed (s.rxSpares t pl d) p then s else s.repairLink t pl d p

/-- A repair of lane p of this direction finds no FREE spare. -/
def State.wouldExhaust (s : State) (t pl d p : Nat) : Bool :=
  !laneFailed (s.rxSpares t pl d) p && (repairMap (s.rxSpares t pl d) p).2

/-- The receiving end's map reaches the sending end (R444 step 4). -/
def State.giveMap (s : State) (t pl d : Nat) : State :=
  let m := s.rxSpares t pl d
  (s.setSpares t pl 0 d m).p (aLnkstat t pl 0 d) TL_LNKSTAT.REPAIRS ((m.filter (fun x => x.1 == spRepair)).length)

/-- PEND at both ends (R442). -/
def State.setLinkPend (s : State) (t pl d : Nat) (b : Bool) : State :=
  (s.pb (aLnkstat t pl 0 d) TL_LNKSTAT.PEND b).pb (aLnkstat (neighbour t d) pl 1 (opposite d)) TL_LNKSTAT.PEND b

-- Reinitialisation.

/-- The credits of an output are 4 on every VC, and none is on its way back (R444 step 5). -/
def State.fullCredits (s : State) (t pl d : Nat) : State :=
  let r := s.router t pl
  let s := s.setRouter t pl ((List.range 8).foldl (fun r v => r.setCredit d v 4) r)
  let u := neighbour t d
  let q := s.router u pl
  s.setRouter u pl { q with crOut := q.crOut.filter (fun x => x.1 != opposite d) }

/-- LREINITs that wait for the reinitialisation are answered (R446). -/
def State.answerReinits (s : State) (t pl d code : Nat) : State :=
  let l := s.link t pl d
  l.ctls.foldl (fun s k => s.agentOwn t k (s.linkAns t pl d code)) (s.setLink t pl d { l with ctls := [] })

/-- The code of a finished test (R447). A direction that FAILED lacked a spare: that is EXHAUSTED where the test repairs, and FAIL where it does not. -/
def testCode (x : LinkTest) (failed : Bool) : Nat :=
  if failed then (if x.repair then rcExhausted else rcFail)
  else if x.failed = [] then rcOk
  else if ¬ x.repair then rcFail
  else if x.exh then rcExhausted else rcRepaired

/-- The test of a link direction ends with a code. -/
def State.endTest (s : State) (t pl d code : Nat) : State :=
  let l := s.link t pl d
  match l.test with
  | some x => (s.setLink t pl d { l with test := none }).agentOwn t x.ctl (s.linkAns t pl d code x.failed)
  | none => s

-- The test functions.

/-- The receiving tile cannot exchange LPEER (R446). -/
def State.noPeer (s : State) (t d : Nat) : Bool := decide (4 ≤ s.pst (neighbour t d))

/-- LREINIT (R446). -/
def State.linkReinit (s : State) (t : Nat) (k : Pkt) : State × Option AgAns :=
  let (pl, d) := argLink k
  let st := s.linkState t pl d
  if st = lkUp then (s, some (s.linkAns t pl d rcOk))
  else if st = lkHeld ∨ st = lkTest then (s, some (s.linkAns t pl d rcBusy))
  else
    let s := s.wake (neighbour t d) true
    let s := if st = lkReinit then s else s.linkDownNow t pl d
    let l := s.link t pl d
    (s.setLink t pl d { l with ctls := l.ctls ++ [k] }, none)

/-- LTEST and LDTEST (R447, R448): a test waits for a repair that reached the sending agent before it; another test, a reinitialisation, or a live link under LTEST answers BUSY. LDTEST on a direction in DOWN or FAILED changes nothing: R444 leaves those to LREINIT, and the spec names no CODE for it, which is a free value (DESIGN CHOICE, notes/assumptions/107.md). -/
def State.linkTest (s : State) (t : Nat) (k : Pkt) (live : Bool) : State × Option AgAns :=
  let (pl, d) := argLink k
  let st := s.linkState t pl d
  let l := s.link t pl d
  if (¬ live ∧ s.fenced t pl d = false) ∨ st = lkReinit ∨ st = lkHeld ∨ st = lkTest ∨ l.test.isSome = true then
    (s, some (s.linkAns t pl d rcBusy))
  else if live ∧ st ≠ lkUp then (s.nextFree, some (s.linkAns t pl d (Config.freeCode s.free).toNat))
  else if l.repCtl.isSome || l.pend.any (·.2.2) then (s.setLink t pl d { l with later := l.later ++ [k] }, none)
  else
    let s := s.wake (neighbour t d) true
    let s := if live then s.setLinkState t pl d lkHeld else s
    (s.setLink t pl d { s.link t pl d with test := some ⟨k, argRepair k, live, true, [], false⟩ }, none)

/-- LREPAIR (R442, R446): BUSY while a repair is pending, EXHAUSTED without a FREE spare; a repair waits for a test. -/
def State.linkRepair (s : State) (t : Nat) (k : Pkt) : State × Option AgAns :=
  let (pl, d) := argLink k
  let l := s.link t pl d
  let p := argLane k
  if 597 ≤ p then (s, some agDecerr)
  else if l.pend.isSome then (s, some (s.linkAns t pl d rcBusy))
  else if l.test.isSome then (s.setLink t pl d { l with later := l.later ++ [k] }, none)
  else if s.linkState t pl d ≠ lkUp then (s, some (s.linkAns t pl d rcBusy))
  else if (lowest (s.spares t pl 0 d) spFree).isNone then (s, some (s.linkAns t pl d rcExhausted))
  else (((s.wake (neighbour t d) true).setLink t pl d { l with repCtl := some k }).sendLpeer t pl d p, none)

/-- LPEER at the sending agent (R442): taken, or answered LATE once the apply step has begun; it waits for a test. One that names no repair pending is answered OK. -/
def State.linkPeer (s : State) (t pl d p : Nat) (k : Pkt) : State × Option AgAns :=
  let l := s.link t pl d
  match l.pend with
  | none => (s, some (s.linkAns t pl d rcOk))
  | some (q, ka, _) =>
    if q ≠ p ∨ fld k.aux 8 24 ≠ ka % 2 ^ 24 then (s, some (s.linkAns t pl d rcOk))
    else if l.test.isSome then (s.setLink t pl d { l with later := l.later ++ [k] }, none)
    else if ka ≤ s.calStep then (s.nextFree, some (s.linkAns t pl d (Config.freeCode s.free).toNat))
    else ((s.setLink t pl d { l with pend := some (q, ka, true) }).setLinkPend t pl d true, some (s.linkAns t pl d rcOk))

/-- A function of the test group by its code, where the receiving tile can be reached (R446). A test, a repair or a reinitialisation that begins wakes a sleeping one; an answer given at once changes nothing. -/
def State.linkFunc (s : State) (t : Nat) (k : Pkt) : State × Option AgAns :=
  let (pl, d) := argLink k
  if ctlFunc k = funcLpeer then s.linkPeer t pl d (argLane k) k
  else if s.noPeer t d then (s, some (s.linkAns t pl d rcNoPeer))
  else
    match ctlFunc k with
    | 0x50 => (s, some { value := s.rd (aLnkstat t pl 0 d) })
    | 0x51 =>
      let s := (s.pb (aLnkstat t pl 0 d) TL_LNKSTAT.TESTF true).settle t pl
      (s, some (s.linkAns t pl d rcOk))
    | 0x52 =>
      let s := (s.pb (aLnkstat t pl 0 d) TL_LNKSTAT.TESTF false).settle t pl
      (s, some (s.linkAns t pl d rcOk))
    | 0x53 => s.linkTest t k false
    | 0x54 => s.linkTest t k true
    | 0x55 => s.linkRepair t k
    | _ => s.linkReinit t k

/-- CTLs that waited for a test or a repair to finish are taken again, in their order (R446); the next lane that waits for its repair is asked for (R442). -/
def State.linkLater (s : State) (t pl d : Nat) : State :=
  let l := s.link t pl d
  l.later.foldl (fun s k =>
    let r := s.linkFunc t k
    match r.2 with
    | some a => r.1.agentOwn t k a
    | none => r.1) (s.setLink t pl d { l with later := [] }) |>.nextRepair t pl d

/-- LSTAT (R446). -/
def execLstat (t : Tile) (s : State) : Res := .next (s.agentRun t.val (isProg 0x50) (fun s k => s.linkFunc t.val k))
/-- LFENCE (R446). -/
def execLfence (t : Tile) (s : State) : Res := .next (s.agentRun t.val (isProg 0x51) (fun s k => s.linkFunc t.val k))
/-- LUNFENCE (R446). -/
def execLunfence (t : Tile) (s : State) : Res := .next (s.agentRun t.val (isProg 0x52) (fun s k => s.linkFunc t.val k))
/-- LTEST (R447). -/
def execLtest (t : Tile) (s : State) : Res := .next (s.agentRun t.val (isProg 0x53) (fun s k => s.linkFunc t.val k))
/-- LDTEST (R448). -/
def execLdtest (t : Tile) (s : State) : Res := .next (s.agentRun t.val (isProg 0x54) (fun s k => s.linkFunc t.val k))
/-- LREPAIR (R442). -/
def execLrepair (t : Tile) (s : State) : Res := .next (s.agentRun t.val (isProg 0x55) (fun s k => s.linkFunc t.val k))
/-- LREINIT (R446). -/
def execLreinit (t : Tile) (s : State) : Res := .next (s.agentRun t.val (isProg 0x56) (fun s k => s.linkFunc t.val k))

/-- An LPEER CTL names a link direction, a lane and an apply step (R442). -/
def isLpeer (l : LinkId) (lane ka : Nat) (k : Pkt) : Bool :=
  isProg funcLpeer k && argLink k == (l.plane.val, l.dir.val) && argLane k == lane && fld k.aux 8 24 == ka % 2 ^ 24

/-- LPEER (R442). -/
def execLpeer (t : Tile) (l : LinkId) (lane : Fin 597) (ka : Nat) (s : State) : Res :=
  .next (if l.tile = t then s.agentRun t.val (isLpeer l lane.val ka) (fun s k => s.linkFunc t.val k) else s)

-- Calibration and repair.

/-- The receiving end shows the lowest margin of a rotation (R449). -/
def State.showMargin (s : State) (t pl d m : Nat) : State := s.p (aLnkstat (neighbour t d) pl 1 (opposite d)) TL_LNKSTAT.MARGIN m

/-- The rotation that the calibration step now belongs to. -/
def State.calRot (s : State) : Nat := s.calStep / 597

/-- The lowest margin of the rotation; the last rotation's is shown from its last lane on, or, where the direction was not UP then, from the next lane that is measured (R449; DEDUCED, notes/assumptions/155.md). -/
def State.noteMargin (s : State) (t pl d lane margin : Nat) : State :=
  let l := s.link t pl d
  let s := if l.rot = s.calRot then s else s.showMargin t pl d l.rotMin
  let m := min margin (if l.rot = s.calRot then l.rotMin else 63)
  let s := s.setLink t pl d { l with rotMin := m, rot := s.calRot }
  if lane = 596 then s.showMargin t pl d m else s

/-- A paused direction measures nothing in a step; at the last lane, what the rotation has measured so far is shown (R441, R449). -/
def State.skipMargin (s : State) (t pl d lane : Nat) : State :=
  if lane = 596 ∧ (s.link t pl d).rot = s.calRot then s.showMargin t pl d (s.link t pl d).rotMin else s

/-- A measured margin below CALMIN marks the lane and calls for its repair (R441, R442). -/
def State.measure (s : State) (t pl d p margin : Nat) : State :=
  if margin < s.g aLcfg OBS_LCFG.CALMIN then
    let l := s.link t pl d
    let s := s.setLink t pl d { l with marginal := addNew l.marginal p }
    if s.gb aLcfg OBS_LCFG.AUTOREP then s.requestRepair t pl d p else s
  else s

/-- CALIBRATION_STEP (R441): the lane of the present step, with the margin that the receiver measures. A direction that is not UP or has no CAL spare pauses; the apply step of a repair calibrates nothing; a failed lane is not calibrated. -/
def execCalibrationStep (l : LinkId) (lane : Fin 597) (margin : BitVec 6) (s : State) : Res :=
  .next (
    let t := l.tile.val
    let pl := l.plane.val
    let d := l.dir.val
    let m1 := s.spares (neighbour t d) pl 1 (opposite d)
    if s.obs.calEn = false ∨ s.calStep % 597 ≠ lane.val then s
    else if s.linkState t pl d ≠ lkUp ∨ (highest m1 spCal).isNone = true then s.skipMargin t pl d lane.val
    else if s.stepApplies t pl d = true ∨ laneFailed m1 lane.val = true then s.noteMargin t pl d lane.val 63
    else (s.noteMargin t pl d lane.val margin.toNat).measure t pl d lane.val margin.toNat)

/-- The repair pending is made, and the next one that waits is asked for (R442). -/
def State.applyRepair (s : State) (t pl d p : Nat) : State :=
  let ka := ((s.link t pl d).pend.map (·.2.1)).getD 0
  let s := s.until (s.rst0 + ka * 2 ^ s.calLog2)
  let exh := s.wouldExhaust t pl d p
  let s := (s.repairLink t pl d p).setLinkPend t pl d false
  let l := s.link t pl d
  let s := s.setLink t pl d { l with pend := none, repCtl := none, lastKa := some ka, marginal := l.marginal.filter (· != p), waiting := l.waiting.filter (· != p) }
  let code := if exh then rcExhausted else (Config.freeCode s.free).toNat
  let s := match l.repCtl with
    | some k => s.nextFree.agentOwn t k (s.linkAns t pl d code)
    | none => s
  s.linkLater t pl d

/-- REPAIR_APPLY (R442): the apply step of a repair that the sender took begins. -/
def execRepairApply (l : LinkId) (s : State) : Res :=
  .next (match (s.link l.tile.val l.plane.val l.dir.val).pend with
    | some (p, _, true) => s.applyRepair l.tile.val l.plane.val l.dir.val p
    | _ => s)

-- Reinitialisation.

/-- Every VC buffer of an input is empty. -/
def State.inputEmpty (s : State) (t pl port : Nat) : Bool := (List.range 8).all (fun v => ((s.router t pl).vc port v).buf.isEmpty)

/-- REINIT_BUFFERS_EMPTY (R444 step 2). -/
def execReinitBuffersEmpty (l : LinkId) (s : State) : Res :=
  .next (
    let t := l.tile.val
    let pl := l.plane.val
    let d := l.dir.val
    if s.linkState t pl d = lkReinit ∧ (s.link t pl d).passes = 0 ∧ s.inputEmpty (neighbour t d) pl (opposite d) = true then
      s.startTraining t pl d
    else s)

/-- The direction is UP again: credits, counters, answers, and the packets that waited (R444 step 5, R448 step 4). A test that went down while it drained, with no pattern sent, goes on draining, its headers held where it is LDTEST. -/
def State.linkUp (s : State) (t pl d : Nat) : State :=
  let u := neighbour t d
  let drains := (s.link t pl d).test.any (·.draining)
  let holds := (s.link t pl d).test.any (fun x => x.draining && x.live)
  let s := (s.fullCredits t pl d).setLinkState t pl d (if holds then lkHeld else lkUp)
  let s := (s.sat (aLnkstat t pl 0 d) TL_LNKSTAT.REINITS).sat (aLnkstat u pl 1 (opposite d)) TL_LNKSTAT.REINITS
  let s := s.setLink t pl d { s.link t pl d with passes := 0 }
  let code := match (s.link t pl d).test with | some x => testCode x false | none => rcOk
  let s := if drains then s else s.endTest t pl d code
  ((s.answerReinits t pl d rcOk).linkLater t pl d).settle t pl

/-- The direction fails: event, answers (R444). -/
def State.linkFails (s : State) (t pl d : Nat) : State :=
  let u := neighbour t d
  let s := ((s.setLinkState t pl d lkFailed).setLink t pl d { s.link t pl d with passes := 0 }).raiseTile u 3
  let code := match (s.link t pl d).test with | some x => testCode x true | none => rcFail
  ((s.endTest t pl d code).answerReinits t pl d rcFail).linkLater t pl d

/-- The receiving agent sends LPEER for a lane that training has repaired; its apply step has begun. -/
def State.mapPeer (s : State) (t pl d p : Nat) : State :=
  match s.freeLpeer t pl d with
  | some tag => s.lpeerOut t pl d p s.calStep tag
  | none => s

/-- A training pass ends with the lanes that failed it (R444 steps 3 to 5). The sending end has the new map at once; the LPEERs that bear it reach the sending agent later and find it made (DESIGN CHOICE, notes/assumptions/133.md). -/
def State.trainingPass (s : State) (t pl d : Nat) (failing : List Nat) : State :=
  let bad := failing.filter (fun p => !laneFailed (s.rxSpares t pl d) p)
  let r := bad.foldl (fun (x : State × Bool) p => (x.1.repairNow t pl d p, x.2 || x.1.wouldExhaust t pl d p)) (s, false)
  let s := r.1.giveMap t pl d
  let s := (bad.filter (laneFailed (s.rxSpares t pl d))).foldl (fun s p => s.mapPeer t pl d p) s
  if bad = [] then s.linkUp t pl d
  else if (s.link t pl d).passes = 1 then s.setLink t pl d { s.link t pl d with passes := 2 }
  else if r.2 ∨ 16 < bad.length then s.linkFails t pl d
  else s.linkUp t pl d

/-- TRAINING_END (R444). -/
def execTrainingEnd (l : LinkId) (failing : List Nat) (s : State) : Res :=
  .next (
    let t := l.tile.val
    let pl := l.plane.val
    let d := l.dir.val
    if s.linkState t pl d = lkReinit ∧ (s.link t pl d).passes ≠ 0 ∧ failing.all (· < 597) = true then
      s.trainingPass t pl d failing.eraseDups
    else s)

-- Tests.

/-- No packet holds the output and its credit counters are all 4 (R447 step 1). -/
def State.drained (s : State) (t pl d : Nat) : Bool :=
  (List.range 8).all (fun v => (s.router t pl).owner d v == 0 && (s.router t pl).credit d v == 4)

/-- LINK_TEST_DRAINED (R447 step 2). -/
def execLinkTestDrained (l : LinkId) (s : State) : Res :=
  .next (
    let t := l.tile.val
    let pl := l.plane.val
    let d := l.dir.val
    let x := s.link t pl d
    match x.test with
    | some j =>
      if j.draining = true ∧ s.linkState t pl d ≠ lkReinit ∧ s.drained t pl d = true then
        (s.setLinkState t pl d lkTest).setLink t pl d { x with test := some { j with draining := false } }
      else s
    | none => s)

/-- DRAIN_TIMEOUT (R447, R448): the drain's bound expires; headers that LDTEST held are released. -/
def execDrainTimeout (l : LinkId) (s : State) : Res :=
  .next (
    let t := l.tile.val
    let pl := l.plane.val
    let d := l.dir.val
    match (s.link t pl d).test with
    | some j =>
      if j.draining = true ∧ s.drained t pl d = false then
        let s := if j.live = true ∧ s.linkState t pl d = lkHeld then s.setLinkState t pl d lkUp else s
        ((s.endTest t pl d rcTimeout).linkLater t pl d).settle t pl
      else s
    | none => s)

/-- TEST_PATTERN_END (R447 steps 3 to 5): the lanes that failed the pattern, repaired where REPAIR asks for it; the direction trains again. -/
def execTestPatternEnd (l : LinkId) (failing : List Nat) (s : State) : Res :=
  .next (
    let t := l.tile.val
    let pl := l.plane.val
    let d := l.dir.val
    let x := s.link t pl d
    match x.test with
    | some j =>
      if s.linkState t pl d = lkTest ∧ j.draining = false ∧ failing.all (· < 597) = true then
        let fs := failing.eraseDups
        let r := if j.repair then
            fs.foldl (fun (y : State × Bool) p => (y.1.repairNow t pl d p, y.2 || y.1.wouldExhaust t pl d p)) (s, false)
          else (s, false)
        let s := r.1
        (s.setLink t pl d { s.link t pl d with test := some { j with failed := fs, exh := r.2 } }).startTraining t pl d
      else s
    | none => s)

end Sys2Proof.Machine
end

