-- ==== Sys2Proof/Machine/ChainBase.lean ====
section
/-! DEFINITION. The lodestone chain: ports and their training, frames kept for replay, routing, enumeration (R426 to R432, R435, R436). -/
namespace Sys2Proof.Machine

-- Port states (R436).
def cpDown : Nat := 0
def cpTraining : Nat := 1
def cpUp : Nat := 2
def cpFault : Nat := 3

def State.cport (s : State) (p : Nat) : CPort := s.chn.ports.getD p CPort.reset
def State.setCport (s : State) (p : Nat) (x : CPort) : State := { s with chn := { s.chn with ports := s.chn.ports.setIfInBounds p x } }
def State.cpState (s : State) (p : Nat) : Nat := s.g (aChnPort p) CHN_PORT.STATE
def State.setCpState (s : State) (p st : Nat) : State := s.p (aChnPort p) CHN_PORT.STATE st
def State.cpIsUp (s : State) (p : Nat) : Bool := s.cpState p == cpUp
def State.isRoot (s : State) : Bool := s.gb aChnId CHN_ID.ROOT
/-- This instance's chain address, 0 while it has none (R436). -/
def State.chnAddr (s : State) : Nat := s.g aChnId CHN_ID.ADDR
/-- The address holds and no enumeration runs: chain accesses and operations can be made (R431). -/
def State.chnReady (s : State) : Bool := s.chnAddr != 0 && s.chn.enum.isNone

-- Frames as bytes (R428).

/-- A flag as a byte. -/
def flagByte (b : Bool) : Byte := if b then 1 else 0

/-- TYPE and payload of a frame. -/
def framePayload : FrameBody → Nat × List Byte
  | .train roleD rxok member => (0x01, [flagByte roleD, flagByte rxok] ++ bytesOf member)
  | .ack seq => (0x02, [seq])
  | .nak seq => (0x03, [seq])
  | .enum gen next depth => (0x10, [gen, next, depth])
  | .enumRet gen next status height member tiles => (0x11, [gen, next, status, height] ++ bytesOf member ++ bytesOf tiles)
  | .req tag orig offset data strb => (0x20, [tag, orig] ++ bytesOf offset ++ data.flatMap bytesOf ++ strb)
  | .rsp tag code data => (0x21, [tag, code] ++ data.flatMap bytesOf)
  | .opdn opid kind func args => (0x30, bytesOf opid ++ [kind, func] ++ args.flatMap bytesOf)
  | .opup opid resp value counts => (0x31, bytesOf opid ++ [resp] ++ bytesOf value ++ bytesOf counts)
  | .qreq => (0x40, [])
  | .qdata offset bytes => (0x41, bytesOf offset ++ bytes)
  | .qend slot imglen => (0x42, [slot] ++ bytesOf imglen)

/-- The CRC of a frame: CRC-16/CCITT. -/
def frameCrc (bs : List Byte) : BitVec 16 := crcForward 16 0x1021#16 0xFFFF#16 bs

/-- The bytes before the CRC, and all bytes of a frame. -/
def frameHead (f : Frame) : List Byte :=
  [BitVec.ofNat 8 (framePayload f.body).1, f.hdr.dst, f.hdr.src, f.hdr.seq] ++ (framePayload f.body).2
def frameBytes (f : Frame) : List Byte := frameHead f ++ bytesOf (frameCrc (frameHead f))

/-- TYPE is known, and the payload has its length. -/
def payloadOk (ty : Nat) (p : List Byte) : Bool :=
  match ty with
  | 0x01 => p.length == 4
  | 0x02 => p.length == 1
  | 0x03 => p.length == 1
  | 0x10 => p.length == 3
  | 0x11 => p.length == 8
  | 0x20 => p.length == 6 + (if bitOf (p.getD 1 0) 4 then 9 * (fld (p.getD 1 0) 5 3 + 1) else 0)
  | 0x21 => decide (2 ≤ p.length) && decide (p.length ≤ 66) && p.length % 8 == 2
  | 0x30 => p.length == 12 || p.length == 36
  | 0x31 => p.length == 19
  | 0x40 => p.length == 0
  | 0x41 => p.length == 68
  | 0x42 => p.length == 5
  | _ => false

/-- The CRC at the end of some bytes is right. -/
def crcOk (bs : List Byte) : Bool :=
  decide (2 ≤ bs.length) && bytesOf (frameCrc (bs.take (bs.length - 2))) == bs.drop (bs.length - 2)

/-- Some bytes whose CRC is right have a known TYPE and its length. -/
def formOk (bs : List Byte) : Bool := decide (6 ≤ bs.length) && payloadOk (bs.getD 0 0).toNat ((bs.take (bs.length - 2)).drop 4)

-- Sending.

/-- TRAIN, ACK and NAK are not kept for replay (R429). -/
def bareFrame : FrameBody → Bool
  | .train .. => true
  | .ack .. => true
  | .nak .. => true
  | _ => false

/-- A frame that is not kept is launched; it bears no sequence of its own. -/
def CPort.bare (x : CPort) (b : FrameBody) : CPort := { x with out := x.out ++ [(⟨{}, b⟩ : Frame)] }

/-- Waiting frames are launched while fewer than 4 are kept (R429). -/
def CPort.launch : Nat → CPort → CPort
  | 0, x => x
  | n + 1, x =>
    match x.wait with
    | [] => x
    | f :: rest =>
      if 4 ≤ x.replay.length then x
      else
        let f : Frame := { f with hdr := { f.hdr with seq := x.txSeq } }
        CPort.launch n { x with txSeq := x.txSeq + 1, replay := x.replay ++ [(f, 0)], wait := rest, out := x.out ++ [f] }

/-- A frame is queued at a port; a port that is not UP loses it. -/
def State.sendFrame (s : State) (p dst src : Nat) (b : FrameBody) : State :=
  if ¬ s.cpIsUp p then s
  else
    let x := s.cport p
    s.setCport p (({ x with wait := x.wait ++ [(⟨{ dst := BitVec.ofNat 8 dst, src := BitVec.ofNat 8 src }, b⟩ : Frame)] } : CPort).launch 4)

/-- The downstream port whose range holds an address (R432). -/
def State.portFor (s : State) (a : Nat) : Option Nat :=
  [1, 2].find? (fun p =>
    let w := s.rd (aChnPort p)
    decide (fld w 8 8 ≠ 0) && decide (fld w 8 8 ≤ a) && decide (a ≤ fld w 16 8))

/-- The way to an address: this instance, a port that is UP, or none (R432, R435). -/
inductive Way where
  | here
  | port (p : Nat)
  | none
  deriving DecidableEq, Repr

def State.way (s : State) (a : Nat) : Way :=
  if a = s.chnAddr then .here
  else
    let p := match s.portFor a with
      | some p => some p
      | Option.none => if s.isRoot then Option.none else some 0
    match p with
    | some p => if s.cpIsUp p then .port p else .none
    | Option.none => .none

/-- A frame is sent on its way; one that has none is lost. -/
def State.routeFrame (s : State) (dst src : Nat) (b : FrameBody) : State :=
  match s.way dst with
  | .port p => s.sendFrame p dst src b
  | _ => s

-- Ports.

/-- A kept frame is one of a broadcast (R434). -/
def isQ (f : Frame) : Bool :=
  match f.body with
  | .qdata .. => true
  | .qend .. => true
  | _ => false

/-- A port leaves UP: what it kept and what waited is lost, and event 1,004 is raised (R429, R435). -/
def State.portDown (s : State) (p : Nat) : State :=
  (s.setCport p { s.cport p with replay := [], wait := [], goodTrain := 0, peerOk := false }).setCpState p cpDown |>.raiseChain 1004

/-- The kept frames are launched again, and each counts its replays; after 8 replays of one frame the port goes DOWN (R429). -/
def State.replay (s : State) (p : Nat) : State :=
  let x := s.cport p
  if x.replay = [] then s
  else if x.replay.any (fun k => decide (8 ≤ k.2)) then s.portDown p
  else (s.setCport p { x with replay := x.replay.map (fun k => (k.1, k.2 + 1)), out := x.out ++ x.replay.map (·.1) }).sat (aChnPort p) CHN_PORT.REPLAYS x.replay.length

/-- An ACK or a NAK of the last good frame. -/
def CPort.sendAck (x : CPort) : CPort := x.bare (.ack (x.rxSeq - 1))
def CPort.sendNak (x : CPort) : CPort := x.bare (.nak x.rxSeq)

/-- A TRAIN frame of port p: its role, whether 16 good ones have come, the member (R428, R429). -/
def State.sendTrain (s : State) (p : Nat) : State :=
  let x := s.cport p
  s.setCport p (x.bare (.train (decide (p ≠ 0)) (decide (16 ≤ x.goodTrain)) (BitVec.ofNat 16 (s.g aChnId CHN_ID.MEMBER))))

/-- A port trains: it sends TRAIN frames from now on, one now, one in answer to each, and one at each IDLE_ACK_TIMER (R429; DESIGN CHOICE, notes/assumptions/120.md). -/
def State.trainPort (s : State) (p : Nat) : State := (s.setCpState p cpTraining).sendTrain p

/-- IDLE_ACK_TIMER (R429): an idle link sends ACK, a port in TRAINING the next TRAIN. -/
def execIdleAckTimer (p : ChPort) (s : State) : Res :=
  .next (
    if s.cpIsUp p.val then s.setCport p.val (s.cport p.val).sendAck
    else if s.cpState p.val = cpTraining then s.sendTrain p.val
    else s)

/-- The root never uses U: a frame there is discarded (R435). -/
def State.onRootU (s : State) (p : Nat) : Bool := s.isRoot && p == 0

def State.rootUp (s : State) : State := s.pb aChnErr CHN_ERR.ROOTUP true

/-- BAD_FRAME: bytes whose CRC fails are counted and answered NAK; with an unknown TYPE or a wrong length they are counted, and the frame is discarded (R428, R429, R435). In TRAINING the run of good TRAIN frames ends. Bytes of a good frame are no bad frame. -/
def execBadFrame (p : ChPort) (bytes : List Byte) (s : State) : Res :=
  .next (
    if s.onRootU p.val then s.rootUp
    else if crcOk bytes && formOk bytes then s
    else
      let s := s.sat aChnErr (if crcOk bytes then CHN_ERR.BADFRAME else CHN_ERR.CRCERR)
      let x := s.cport p.val
      if ¬ s.cpIsUp p.val then s.setCport p.val { x with goodTrain := 0 }
      else if crcOk bytes then s.setCport p.val { x with rxSeq := x.rxSeq + 1 }
      else s.setCport p.val x.sendNak)

/-- A kept frame reaches an UP port: in sequence it is taken; out of sequence it is answered NAK (R429). While the clock of the management domain stands, a frame in sequence wakes the domain and waits in the crossing of 8 entries; with that full it stalls (R380, R382, R386; notes/assumptions/127.md). -/
def State.takeFrame (s : State) (p : Nat) (k : Frame) (f : State → State) : State :=
  let x := s.cport p
  if s.onRootU p then s.rootUp
  else if ¬ s.cpIsUp p then s
  else if k.hdr.seq ≠ x.rxSeq then s.setCport p x.sendNak
  else
    let t := s.setCport p { x with rxSeq := x.rxSeq + 1 }
    if s.pm.mstate = .running then f t
    else if 8 ≤ s.chn.xin.length then s.wakeMgmt
    else { t with chn := { t.chn with xin := t.chn.xin ++ [(p, k)] } }.wakeMgmt

/-- A port comes UP; after enumeration it is late (R429, R431). -/
def State.portUp (s : State) (p : Nat) : State :=
  let s := (s.setCport p { s.cport p with txSeq := 0, rxSeq := 0, replay := [], wait := [] }).setCpState p cpUp
  if s.gb aChnId CHN_ID.ENUMD then (s.pb (aChnPort p) CHN_PORT.LATE true).raiseChain 1005 else s

/-- A port enters FAULT, with event 1,006 (R435). -/
def State.portFault (s : State) (p : Nat) : State :=
  ((s.setCport p { s.cport p with goodTrain := 0 }).setCpState p cpFault).raiseChain 1006

/-- A good TRAIN frame (R429, R435): a matching ROLE is a fault; a port in FAULT trains again when its peer, reset, trains anew (DEDUCED, notes/assumptions/119.md); 16 in a row, with the peer's RXOK, bring the port UP. A port that is UP and whose peer trains anew goes DOWN and trains again. -/
def State.trainIn (s : State) (p : Nat) (roleD rxok : Bool) : State :=
  if s.onRootU p then s.rootUp
  else if roleD = decide (p ≠ 0) then (if s.cpState p = cpFault then s else s.portFault p)
  else if (s.cpIsUp p = true ∨ s.cpState p = cpFault) ∧ rxok = true then s
  else
    let s := (if s.cpIsUp p then s.portDown p else s).setCpState p cpTraining
    let x := s.cport p
    let s := (s.setCport p { x with goodTrain := min 16 (x.goodTrain + 1), peerOk := rxok }).sendTrain p
    if 16 ≤ (s.cport p).goodTrain ∧ rxok = true then s.portUp p else s

/-- Every frame of a broadcast has been acknowledged or launched. -/
def State.bcastBusy (s : State) : Bool := [1, 2].any (fun p => (s.cport p).wait.any isQ || (s.cport p).replay.any (fun k => isQ k.1))

/-- Frames up to and with a SEQ are acknowledged; waiting ones take their room (R429). -/
def CPort.acked (x : CPort) (seq : BitVec 8) : CPort :=
  match x.replay.findIdx? (fun k => k.1.hdr.seq == seq) with
  | some i => ({ x with replay := x.replay.drop (i + 1) } : CPort).launch 4
  | none => x

-- Enumeration.

/-- The answer of an enumeration to the instance above (R430). -/
def State.enumAnswer (s : State) (gen : BitVec 8) (next status height tiles : Nat) : State :=
  s.sendFrame 0 0 s.chnAddr
    (.enumRet gen (BitVec.ofNat 8 next) (BitVec.ofNat 8 status) (BitVec.ofNat 8 height) (BitVec.ofNat 16 (s.g aChnId CHN_ID.MEMBER)) (BitVec.ofNat 16 tiles))

/-- The records of a downstream port (R430). -/
def State.setRange (s : State) (p lo hi h tiles : Nat) : State :=
  let o := aChnPort p
  (((s.p o CHN_PORT.LO lo).p o CHN_PORT.HI hi).p o CHN_PORT.SUBH h).p o CHN_PORT.SUBTILES tiles

/-- The enumeration of this instance ends: height, tiles, and the answer up, or ENUMD and event 1,003 at the root (R430). A FULL below is answered on up, so that it raises its event at the root (R14; notes/assumptions/138.md). -/
def State.enumEnd (s : State) (gen : BitVec 8) (next : Nat) (full : Bool) : State :=
  let kids := [1, 2].filter (fun p => s.g (aChnPort p) CHN_PORT.LO != 0)
  let h := if kids = [] then 0 else 1 + (kids.map (fun p => s.g (aChnPort p) CHN_PORT.SUBH)).foldl max 0
  let tiles := 144 + (kids.map (fun p => s.g (aChnPort p) CHN_PORT.SUBTILES)).foldl (· + ·) 0
  let s := (s.p aChnId CHN_ID.HEIGHT h).p aChnId CHN_ID.TILES tiles
  let s := { s with chn := { s.chn with enum := none } }
  if s.isRoot then (s.pb aChnId CHN_ID.ENUMD true).raiseChain 1003 else s.enumAnswer gen next (if full then 2 else 0) h tiles

/-- The enumeration goes on at port p, or the next that is UP (R430). -/
def State.enumPort (s : State) (gen : BitVec 8) (next p : Nat) (full : Bool) : State :=
  let ask (s : State) (p : Nat) : State :=
    let s := { s with chn := { s.chn with enum := some ⟨gen, next, p, full⟩ } }
    s.sendFrame p 0 s.chnAddr (.enum gen (BitVec.ofNat 8 next) (BitVec.ofNat 8 (s.g aChnId CHN_ID.DEPTH + 1)))
  if p ≤ 1 ∧ s.cpIsUp 1 = true then ask s 1
  else if p ≤ 2 ∧ s.cpIsUp 2 = true then ask s 2
  else s.enumEnd gen next full

/-- The enumeration of this instance begins with its own address and depth (R430). -/
def State.enumHere (s : State) (gen : BitVec 8) (next depth : Nat) : State :=
  let s := (s.setRange 1 0 0 0 0).setRange 2 0 0 0 0
  let s := ((s.p aChnCtl CHN_CTL.GEN gen.toNat).p aChnId CHN_ID.DEPTH depth)
  let s := s.p aChnId CHN_ID.ADDR next
  let s := if s.isRoot then s else s.pb aChnId CHN_ID.ENUMD true
  s.enumPort gen (next + 1) 1 false

/-- The root enumerates (R430). -/
def State.enumRoot (s : State) : State :=
  if s.isRoot then s.enumHere (BitVec.ofNat 8 (s.g aChnCtl CHN_CTL.GEN + 1)) 1 0 else s

/-- ENUM_START (R430): every connected port is UP, or 100 µs have passed since cold reset. -/
def execEnumStart (s : State) : Res := .next (if s.chn.enum.isNone then s.enumRoot else s)

/-- CHN_REENUM (R430): it has an effect only at the root. -/
def execChnReenum (m : Master) (s : State) : Res := .next (if s.sqRight m then s.enumRoot else s)

/-- An ENUM at U (R430). -/
def State.enumIn (s : State) (gen : BitVec 8) (next depth : Nat) : State :=
  if s.chnAddr ≠ 0 ∧ s.g aChnCtl CHN_CTL.GEN = gen.toNat then s.enumAnswer gen next 1 0 0
  else if 250 < next then
    let s := ((s.p aChnId CHN_ID.ADDR 0).pb aChnId CHN_ID.ENUMD false).p aChnCtl CHN_CTL.GEN gen.toNat
    let s := (((s.setRange 1 0 0 0 0).setRange 2 0 0 0 0).pb aChnErr CHN_ERR.FULL true).raiseChain 1007
    s.enumAnswer gen next 2 0 0
  else s.enumHere gen next depth

/-- An ENUMRET at the port that awaits one (R430): the addresses that the subtree took are its range; LOOP puts the port into FAULT; each FULL raises event 1,007 at the root (R14; notes/assumptions/138.md). -/
def State.enumRetIn (s : State) (p : Nat) (gen : BitVec 8) (next status height tiles : Nat) : State :=
  match s.chn.enum with
  | some e =>
    if e.port ≠ p ∨ e.gen ≠ gen then s
    else
      let s := if status = 1 then s.portFault p else if e.next < next then s.setRange p e.next (next - 1) height tiles else s
      let full : Bool := decide (2 ≤ status)
      let s := if full = false then s
        else if s.isRoot then (s.pb aChnErr CHN_ERR.FULL true).raiseChain 1007 else s.pb aChnErr CHN_ERR.FULL true
      s.enumPort gen next (p + 1) (e.full || full)
  | none => s

/-- ENUMRET (R430). -/
def execEnumret (p : ChPort) (hdr : FrameHdr) (gen next status height : BitVec 8) (member tiles : BitVec 16) (s : State) : Res :=
  .next (s.takeFrame p.val ⟨hdr, .enumRet gen next status height member tiles⟩ (fun s => s.enumRetIn p.val gen next.toNat status.toNat height.toNat tiles.toNat))

/-- ENUMRET_TIMEOUT (R430): a child does not answer within 20 ms. -/
def execEnumretTimeout (p : ChPort) (s : State) : Res :=
  .next (match s.chn.enum with
    | some e => if e.port = p.val then s.enumPort e.gen e.next (p.val + 1) e.full else s
    | none => s)

end Sys2Proof.Machine
end

