-- ==== Sys2Proof/Machine/SeqBase.lean ====
section
/-! DEFINITION. The sequencer: rings and jobs, contexts, completion records, traps, locks, the CTLs it originates, and the answers that its contexts await (R246 to R248, R256, R260 to R262, R269 to R271, R277 to R281, R285 to R290, R296). -/
namespace Sys2Proof.Machine

-- Fields of an instruction word (R249).
def iOp (w : BitVec 32) : Nat := fld w 25 7
def iRd (w : BitVec 32) : Nat := fld w 21 4
def iRa (w : BitVec 32) : Nat := fld w 17 4
def iRb (w : BitVec 32) : Nat := fld w 13 4
def iSub (w : BitVec 32) : Nat := fld w 12 5
def iImm (w : BitVec 32) : BitVec 12 := w.extractLsb' 0 12
def lSub (w : BitVec 32) : Nat := fld w 18 3
def lImm (w : BitVec 32) : BitVec 18 := w.extractLsb' 0 18
def mEp (w : BitVec 32) : BitVec 10 := w.extractLsb' 11 10
def mL (w : BitVec 32) : Bool := bitOf w 10
def mInd (w : BitVec 32) : Bool := bitOf w 9
def mCh (w : BitVec 32) : Bool := bitOf w 8
def mFunc (w : BitVec 32) : BitVec 8 := w.extractLsb' 0 8
def wCond (w : BitVec 32) : BitVec 9 := w.extractLsb' 12 9
def wT (w : BitVec 32) : Nat := fld w 0 12

-- Result codes (R276).
def rOk : Nat := 0
def rBusy : Nat := 1
def rNotPrep : Nat := 2
def rDl2 : Nat := 3
def rTimeout : Nat := 4
def rPartial : Nat := 5
def rBroken : Nat := 6
def rHeld : Nat := 7
def rOwned : Nat := 8
def rNotOwner : Nat := 9
def rDecerr : Nat := 10
def rRefused : Nat := 11
def rNoTime : Nat := 12
def rChainErr : Nat := 13

-- Trap causes (R277).
def tBound : Nat := 1
def tMcheck : Nat := 2
def tIllegal : Nat := 3
def tPerm : Nat := 4
def tAlign : Nat := 5
def tCserr : Nat := 6
def tRunlim : Nat := 7
def tSwtrap : Nat := 8

-- Rings.

def State.ptr (s : State) (o : Nat) : Nat := s.g o SEQ_PTR.PTR
def State.setPtr (s : State) (o v : Nat) : State := s.p o SEQ_PTR.PTR v
def State.head (s : State) (r : Nat) : Nat := s.ptr (aRinghead r)
def State.tail (s : State) (r : Nat) : Nat := s.ptr (aRingtail r)
/-- Words submitted and not consumed (R286). -/
def State.ringCount (s : State) (r : Nat) : Nat := (s.tail r + 65536 - s.head r) % 65536
/-- The word at a counter value (R286). -/
def State.ringWord (s : State) (r i : Nat) : BitVec 32 :=
  let k := i % 4096
  (s.rd (aRing r (k / 2))).extractLsb' (32 * (k % 2)) 32

/-- The master that writes ring r, while it is active (R36, R285, R291). -/
def State.ownsRing (s : State) (m : Master) (r : Nat) : Bool :=
  s.masterActs m && (if r < 8 then masterHost m == some r else m == .bl)

/-- A write that a ring's rules refuse (R286, R289). -/
def State.ringError (s : State) (r : Nat) : State := (s.pb (aRinghead r) SEQ_PTR.RERR true).raise 939

/-- A write to a slot of a ring; in [HEAD, TAIL) it has no effect (R285). -/
def State.slotWrite (s : State) (m : Master) (r slot : Nat) (w : BitVec 32) : State :=
  if s.ownsRing m r = false ∨ (slot + 4096 - s.head r % 4096) % 4096 < s.ringCount r then s
  else
    let o := aRing r (slot / 2)
    s.wr o (setFld (s.rd o) (32 * (slot % 2)) 32 w.toNat)

/-- RING_SLOT_WRITE (R285). -/
def execRingSlotWrite (m : Master) (r : RingId) (slot : BitVec 12) (w : BitVec 32) (s : State) : Res :=
  .next (s.slotWrite m r.val slot.toNat w)

/-- A write of SEQ_RINGTAIL (R286). -/
def State.ringtailWrite (s : State) (m : Master) (r v : Nat) : State :=
  if ¬ s.ownsRing m r then s
  else
    let n := (v + 65536 - s.head r) % 65536
    if 4096 < n ∨ n < s.ringCount r then s.ringError r else s.setPtr (aRingtail r) v

/-- RINGTAIL_WRITE (R286). -/
def execRingtailWrite (m : Master) (r : RingId) (v : BitVec 16) (s : State) : Res := .next (s.ringtailWrite m r.val v.toNat)

/-- A write of SEQ_CPLHEAD (R289). -/
def State.cplheadWrite (s : State) (m : Master) (r v : Nat) : State :=
  if ¬ s.ownsRing m r then s
  else
    let h := s.ptr (aCplhead r)
    let t := s.ptr (aCpltail r)
    if (v + 65536 - h) % 65536 ≤ (t + 65536 - h) % 65536 then s.setPtr (aCplhead r) v else s.ringError r

/-- CPLHEAD_WRITE (R289). -/
def execCplheadWrite (m : Master) (r : RingId) (v : BitVec 16) (s : State) : Res := .next (s.cplheadWrite m r.val v.toNat)

-- Jobs.

/-- A register of a job; w0 reads as zero (R247). -/
def Job.get (j : Job) (n : Nat) : W := if n = 0 then 0 else j.w.getD n 0
/-- A register of a job written; w0 discards (R247). -/
def Job.set (j : Job) (n : Nat) (v : W) : Job := if n = 0 then j else { j with w := j.w.setIfInBounds n v }

def State.ring (s : State) (j : Job) (f : Fd) : Nat := s.g (aRingcfg j.ring.val) f
/-- CALLTO in basalt ticks; 0 acts as 1 (R291). -/
def State.callTicks (s : State) (r : Nat) : Nat := 16 * max 1 (s.g (aRingcfg r) SEQ_RINGCFG.CALLTO)

/-- The contexts in order. -/
def ctxIds : List CtxId := [0, 1, 2, 3]

/-- A job of ring r runs in a context. -/
def State.ringRuns (s : State) (r : Nat) : Bool := ctxIds.any (fun c => (s.ctx c).job.any (fun j => j.ring.val == r))
/-- The job of ring r that YIELD has suspended (R275). -/
def State.savedJob (s : State) (r : Nat) : Option Job := tget none s.seq.saved r
def State.setSaved (s : State) (r : Nat) (j : Option Job) : State := { s with seq := { s.seq with saved := tput none s.seq.saved r j } }

/-- Dispatch runs: the microcode is loaded, and no machine check is in progress (R284, R291). -/
def State.dispatching (s : State) : Bool :=
  s.gb aSeqStatus SEQ_STATUS.READY && !s.gb aSeqStatus SEQ_STATUS.MCHK && !s.gb aSeqStatus SEQ_STATUS.DEAD
    && !s.gb aSeqStatus SEQ_STATUS.RELOADING

/-- Words 0 to 3 of a job descriptor at HEAD are well formed (R287, R288). -/
def State.descOk (s : State) (r : Nat) : Bool :=
  let h := s.head r
  let w0 := s.ringWord r h
  decide (fld w0 28 4 = 0xA) && decide (1 ≤ fld w0 16 12) && decide (fld w0 16 12 ≤ 4092) && decide (fld (s.ringWord r (h + 3)) 1 31 = 0)

/-- Word 0 gives a length that the ring must hold: KIND and LEN are right (R288). -/
def State.descLen (s : State) (r : Nat) : Nat :=
  let w0 := s.ringWord r (s.head r)
  if fld w0 28 4 = 0xA ∧ 1 ≤ fld w0 16 12 ∧ fld w0 16 12 ≤ 4092 then fld w0 16 12 else 0

/-- The job's words stand in the ring (R288). -/
def State.wordsReady (s : State) (r : Nat) : Bool := decide (4 ≤ s.ringCount r) && decide (4 + s.descLen r ≤ s.ringCount r)
/-- A completion slot is free; no other job of the ring has reserved one (R288). -/
def State.slotFree (s : State) (r : Nat) : Bool := decide ((s.ptr (aCpltail r) + 65536 - s.ptr (aCplhead r)) % 65536 < 256)
/-- A job is startable (R288); ring 8 frees a slot itself (R289). -/
def State.startable (s : State) (r : Nat) : Bool := s.wordsReady r && (s.slotFree r || r == 8)

/-- Ring r is eligible for context c (R248). -/
def State.ringEligible (s : State) (c : CtxId) (r : Nat) : Bool :=
  s.gb (aRingcfg r) SEQ_RINGCFG.EN && (s.g (aRingcfg r) SEQ_RINGCFG.CTXMASK).testBit c.val && !s.ringRuns r
    && ((s.savedJob r).isSome || s.startable r)

/-- The ring from which a context takes a job (R248). -/
def State.pickRing (s : State) (c : CtxId) : Option Nat :=
  if s.ringEligible c 8 then some 8
  else ((List.range 8).map (fun i => (s.seq.lastRing + 1 + i) % 8)).find? (fun r => s.ringEligible c r)

-- Completion records.

/-- A completion record is written, CPLTAIL advances, and the ring's event is raised (R289, R290). -/
def State.record (s : State) (r : Nat) (c : CtxId) (jobid status cause pc : Nat) (result : W) (evt : Bool) (insns tserr sref : Nat) : State :=
  let t := s.ptr (aCpltail r)
  let i := t % 256
  let w0 := jobid + 2 ^ 16 * r + 2 ^ 20 * status + 2 ^ 24 * cause + 2 ^ 32 * pc + 2 ^ 44 * c.val + 2 ^ 48 * t
  let w3 := insns % 2 ^ 32 + 2 ^ 32 * min tserr 0xFFFF + 2 ^ 48 * min sref 0xFFFF
  let s := (s.wr (aCpl r i 0) (BitVec.ofNat 64 w0)).wr (aCpl r i 1) result
  let s := (s.wr (aCpl r i 2) (BitVec.ofNat 64 s.ntNs)).wr (aCpl r i 3) (BitVec.ofNat 64 w3)
  let s := (s.setPtr (aCpltail r) (t + 1)).bump aSeqStatus SEQ_STATUS.JOBS
  if evt ∨ status ≠ 0 then s.raise (928 + r) else s

-- Statuses (R289).
def stDone : Nat := 0
def stTrapped : Nat := 1
def stBadjob : Nat := 2
def stAborted : Nat := 3
def stMcheck : Nat := 4

/-- A job's record, with HEAD past its words (R286). -/
def State.endRecord (s : State) (c : CtxId) (j : Job) (status cause : Nat) (result : W) : State :=
  let r := j.ring.val
  let s := s.record r c j.jobid.toNat status cause j.lastPc.toNat result j.evt j.insns j.tserr j.sref
  s.setPtr (aRinghead r) (s.head r + 4 + j.len)

/-- The chain operations that some CTLs belong to end. -/
def State.endOps (s : State) (of : OutCtl → Bool) : State :=
  let mine (x : ChainOp) : Bool := s.seq.ctls.any (fun o => of o && o.op == some x.opid)
  { s with chn := { s.chn with ops := s.chn.ops.filter (fun x => !mine x) } }

/-- A CTL is no longer outstanding; the chain operation that it belongs to ends with it. -/
def State.dropCtl (s : State) (id : Nat) : State :=
  let s := s.endOps (fun o => o.id == id)
  { s with seq := { s.seq with ctls := s.seq.ctls.filter (fun o => o.id != id) } }

/-- No instruction and no port awaits a CTL any more: it bears its TAG until its CRSP comes or CALLTO passes, since it is still outstanding on the fabric (R59); one not sent yet is forgotten (DEDUCED, notes/assumptions/152.md). -/
def State.leaveCtl (s : State) (id : Nat) : State :=
  let s := s.endOps (fun o => o.id == id)
  let left (o : OutCtl) : Option OutCtl :=
    if o.id ≠ id then some o else if o.held.isSome then none else some { o with kind := .step, op := none }
  { s with seq := { s.seq with ctls := s.seq.ctls.filterMap left } }

/-- The context awaits the CTL with a number as the step of its instruction, which has its own bound. -/
def State.stepAwaits (s : State) (c : CtxId) (id : Nat) : Bool :=
  match (s.ctx c).wait with
  | .step _ i => i == id
  | _ => false

/-- The context has no job. A CTL whose answer it awaited stays outstanding until its CRSP or CALLTO, since a barrier awaits every message (R267) and its TAG stays in use (R59). -/
def State.freeCtx (s : State) (c : CtxId) : State :=
  let s := { s with seq := { s.seq with lockq := s.seq.lockq.filter (fun x => x.2 != c) } }
  s.setCtx c Ctx.reset

-- Locks.

-- Lock states (R271).
def lkFree : Nat := 0
def lkIsHeld : Nat := 1
def lkBroken : Nat := 2

def State.lockState (s : State) (l : Nat) : Nat := s.g (aLock l) SEQ_LOCK.STATE
def State.lockOwner (s : State) (l : Nat) : Nat := s.g (aLock l) SEQ_LOCK.OWNER

/-- The table entry of a lease's end. -/
def State.setLeaseEnd (s : State) (l e : Nat) : State := { s with seq := { s.seq with leaseEnd := tput 0 s.seq.leaseEnd l e } }

/-- The end of a lease is kept in basalt ticks; 0 is none. -/
def State.setLease (s : State) (l e : Nat) : State :=
  (s.setLeaseEnd l e).pb (aLock l) SEQ_LOCK.LEASED (e != 0)

/-- The slot is HELD by a ring, with a lease from this tick (R269). -/
def State.takeLock (s : State) (l ring lease : Nat) : State :=
  ((s.p (aLock l) SEQ_LOCK.STATE lkIsHeld).p (aLock l) SEQ_LOCK.OWNER ring).setLease l (if lease = 0 then 0 else s.ticks + lease)

-- Ends of instructions.

/-- The locks of a ring that are held. -/
def State.locksOf (s : State) (r : Nat) : List Nat :=
  (List.range 64).filter (fun l => s.lockState l == lkIsHeld && s.lockOwner l == r)

/-- A slot becomes BROKEN, with its event (R271). -/
def State.breakSlot (s : State) (l ev : Nat) : State := ((s.p (aLock l) SEQ_LOCK.STATE lkBroken).setLease l 0).raise ev

/-- The result of a trap or an error: the word met, and DETAIL (R289). -/
def trapResult (word : BitVec 32) (detail : Nat) : W := BitVec.ofNat 64 (word.toNat + 2 ^ 32 * (detail % 2 ^ 32))

/-- An instruction of context c ends: registers and PC as given, one instruction more (R247). -/
def State.putJob (s : State) (c : CtxId) (j : Job) : State := s.setCtx c { s.ctx c with job := some j, wait := .none, acc := none }

/-- A slot that a release or a break left goes to the LOCK that has waited longest; the lock's context goes on with the code of the state it took (R269). Two jobs cannot end by this. -/
def State.grantLock (s : State) (l : Nat) : State :=
  if s.lockState l = lkIsHeld then s
  else match s.seq.lockq.find? (fun x => x.1 == l) with
    | none => s
    | some (_, c) =>
      match (s.ctx c).job, (s.ctx c).wait with
      | some j, .lock _ lease =>
        let code := if s.lockState l = lkFree then rOk else rBroken
        let s := s.takeLock l j.ring.val lease
        let s := { s with seq := { s.seq with lockq := s.seq.lockq.filter (fun x => x.2 != c) } }
        let j := j.set (iRd (s.ctx c).word) (BitVec.ofNat 64 code)
        s.putJob c { j with pc := j.pc + 1, insns := j.insns + 1 }
      | _, _ => s

/-- The locks of a ring break (R271). -/
def State.breakLocks (s : State) (r : Nat) : State := (s.locksOf r).foldl (fun s l => (s.breakSlot l 942).grantLock l) s

/-- The job of a context ends TRAPPED (R280). -/
def State.trapWith (s : State) (c : CtxId) (cause : Nat) (word : BitVec 32) (detail : Nat) : State :=
  match (s.ctx c).job with
  | none => s
  | some j => ((s.endRecord c j stTrapped cause (trapResult word detail)).freeCtx c).breakLocks j.ring.val

/-- The current instruction of a context traps. -/
def State.trap (s : State) (c : CtxId) (cause detail : Nat) : State := s.trapWith c cause (s.ctx c).word detail

/-- The job of a context ends ABORTED, and no later job starts from the words that its ring held at the reset (R281). -/
def State.abortJob (s : State) (c : CtxId) (tail : Nat) : State :=
  match (s.ctx c).job with
  | none => s
  | some j => (((s.endRecord c j stAborted 0 0).setPtr (aRinghead j.ring.val) tail).freeCtx c).breakLocks j.ring.val

/-- The job of a context ends with STATUS MCHECK (R284); the job that met the error records it. -/
def State.mcheckJob (s : State) (c : CtxId) (cause : Nat) (result : W) : State :=
  match (s.ctx c).job with
  | none => s
  | some j => ((s.endRecord c j stMcheck cause result).freeCtx c).breakLocks j.ring.val

/-- At an instruction boundary, a job that is due ends (R279, R281, R284). -/
def State.boundary (s : State) (c : CtxId) : State :=
  match (s.ctx c).due with
  | none => s
  | some .runlim => s.trap c tRunlim 0
  | some (.abort tail) => s.abortJob c tail
  | some .mcheck => s.mcheckJob c 0 0

/-- The current instruction of context c completes: what it does to the job, then the next PC. -/
def State.doneAt (s : State) (c : CtxId) (pc : BitVec 12) (f : Job → Job) : State :=
  match (s.ctx c).job with
  | none => s
  | some j =>
    let j := f j
    (s.putJob c { j with pc := pc, insns := j.insns + 1 }).boundary c

/-- The current instruction completes, and the next one follows. -/
def State.done (s : State) (c : CtxId) (f : Job → Job) : State :=
  s.doneAt c (((s.ctx c).job.map (·.pc)).getD 0 + 1) f

/-- The current instruction completes with a value in w(RD). -/
def State.doneRd (s : State) (c : CtxId) (v : W) : State := s.done c (fun j => j.set (iRd (s.ctx c).word) v)
/-- The current instruction completes with a result code in w(RD) (R276). -/
def State.doneCode (s : State) (c : CtxId) (code : Nat) : State := s.doneRd c (BitVec.ofNat 64 code)

/-- The current instruction waits, until a basalt tick. -/
def State.await (s : State) (c : CtxId) (w : Wait) (deadline : Nat) : State := s.setCtx c { s.ctx c with wait := w, deadline := deadline }

/-- The end of a wait of T units (R264). -/
def State.bound (s : State) (t : Nat) : Nat := s.ticks + 16 * (if t = 0 then 4096 else t)

/-- Time goes on to a basalt tick. -/
def State.untilTick (s : State) (n : Nat) : State := s.until (s.bas0 + n * Config.cyclesPerTick)

-- Starting jobs.

/-- A new job's state (R247, R291). -/
def State.newJob (s : State) (r : RingId) : Job :=
  let h := s.head r.val
  let w0 := s.ringWord r.val h
  let arg : W := (s.ringWord r.val (h + 2)) ++ (s.ringWord r.val (h + 1))
  { ring := r, jobid := w0.extractLsb' 0 16, len := fld w0 16 12, evt := bitOf (s.ringWord r.val (h + 3)) 0,
    pchain := s.gb (aRingcfg r.val) SEQ_RINGCFG.PCHAIN, ptime := s.gb (aRingcfg r.val) SEQ_RINGCFG.PTIME,
    w := (Vector.replicate 16 0).set 1 arg, pc := 0, lastPc := 0, insns := 0, tserr := 0, sref := 0, key := s.seq.nextKey, lastCtx := 0 }

/-- A context holds a job from now on. -/
def State.loadJob (s : State) (c : CtxId) (j : Job) : State := s.setCtx c { Ctx.reset with job := some { j with lastCtx := c }, started := s.ticks }

/-- A context takes the job of a ring: the suspended one, a new one, or a descriptor that is no job (R248, R288, R289). The round robin of rings 0 to 7 starts after the last of them that gave a job: a job of ring 8, which is no ring of that search, does not move it (DESIGN CHOICE, notes/assumptions/130.md). -/
def State.takeJob (s : State) (c : CtxId) (r : RingId) : State :=
  let s := if r.val < 8 then { s with seq := { s.seq with lastRing := r.val } } else s
  match s.savedJob r.val with
  | some j =>
    (s.setSaved r.val none).loadJob c { j with
      pchain := s.gb (aRingcfg r.val) SEQ_RINGCFG.PCHAIN, ptime := s.gb (aRingcfg r.val) SEQ_RINGCFG.PTIME }
  | none =>
    let s := if s.slotFree r.val then s else s.setPtr (aCplhead r.val) (s.ptr (aCplhead r.val) + 1)
    if s.descOk r.val then { s with seq := { s.seq with nextKey := s.seq.nextKey + 1 } }.loadJob c (s.newJob r)
    else
      let id := fld (s.ringWord r.val (s.head r.val)) 0 16
      let s := s.record r.val c id stBadjob 0 0 0 false 0 0 0
      (s.setPtr (aRinghead r.val) (s.head r.val + 4)).raise 939

/-- JOB_START (R248). -/
def execJobStart (c : CtxId) (s : State) : Res :=
  .next (
    if s.dispatching = false ∨ (s.ctx c).job.isSome = true then s
    else match s.pickRing c with
      | some r => if h : r < 9 then s.takeJob c ⟨r, h⟩ else s
      | none => s)

-- CTLs.

/-- A TAG with an unused SERIAL, of 8 bits, or of 6 bits for a gather: the first from a free place on that no outstanding CTL bears (R59, R296). -/
def State.freshTag (s : State) (head bits : Nat) : Option (BitVec 12) :=
  let n := 2 ^ bits
  let tags := (List.range n).map (fun i => BitVec.ofNat 12 (head + (Config.freeSerial s.free + i) % n))
  tags.find? (fun t => s.seq.ctls.all (fun o => o.held.isSome || o.tag != t))

/-- The bits of TAG above SERIAL, and the width of SERIAL: ENG, SPREAD, and a gather's OP (R296). -/
def tagHead (eng : Bool) (spread op : Nat) : Nat × Nat :=
  let h := 2048 * eng.toNat + 256 * spread
  if 4 ≤ spread then (h + 64 * op, 6) else (h, 8)

/-- Another CTL of a spread and an operation can have a TAG (R59, R296). -/
def State.tagRoom (s : State) (eng : Bool) (spread op : Nat) : Bool := (s.freshTag (tagHead eng spread op).1 (tagHead eng spread op).2).isSome

/-- The head of a TAG, and the width of its SERIAL. -/
def headOf (tag : BitVec 12) : Nat × Nat := if 4 ≤ fld tag 8 3 then (fld tag 6 6 * 64, 6) else (fld tag 8 4 * 256, 8)

/-- A CTL that is held is sent as soon as a TAG is free for it (R59): it enters the crossing toward CFGEP now, which wakes CFGEP's tile (R260, R464). -/
def State.launchCtl (s : State) (id : Nat) : State :=
  match s.seq.ctls.find? (fun o => o.id == id) with
  | none => s
  | some o => match o.held, s.freshTag (headOf o.tag).1 (headOf o.tag).2 with
    | some k, some tag =>
      let sent (x : OutCtl) : OutCtl := if x.id = id then { x with tag := tag, sent := s.ticks, held := none } else x
      let k := { k with tag := tag, tstamp := s.stamp }
      { s.nextFree with seq := { s.seq with ctls := s.seq.ctls.map sent, outq := s.seq.outq ++ [k] } }.wake (epTile s.build.cfgep) true
    | _, _ => s

/-- The CTLs that are held are sent, as far as there are TAGs, in the order in which they were formed. -/
def State.launchHeld (s : State) : State := ((s.seq.ctls.filter (·.held.isSome)).map (·.id)).foldl State.launchCtl s

/-- The sequencer or the CFG port sends a CTL (R258, R260, R464), which waits where no TAG is free for it (R59). -/
def State.sendCtl (s : State) (c : CtxId) (kind : CtlKind) (key : Nat) (eng : Bool) (spread op : Nat) (dest : BitVec 10) (func : Nat)
    (lenm1 : Nat) (data : Line) (tiles : Nat) (opid : Option (BitVec 16)) : State :=
  let k : Pkt :=
    { dest := dest, src := s.build.cfgep, cls := 1, cmd := Cmd.CTL, dfc := 1, pdom := 8, lenm1 := BitVec.ofNat 8 lenm1,
      aux := BitVec.ofNat 32 func, data := [data] }
  let ring := ((s.ctx c).job.map (·.ring.val)).getD 8
  let o : OutCtl := ⟨s.seq.nextId, BitVec.ofNat 12 (tagHead eng spread op).1, dest, kind, c, key, ring, s.ticks, tiles, opid, some k⟩
  { s with seq := { s.seq with ctls := s.seq.ctls ++ [o], nextId := s.seq.nextId + 1 } }.launchCtl s.seq.nextId

/-- The number that the CTL sent last bears. -/
def State.lastId (s : State) : Nat := s.seq.nextId - 1

/-- TSENDs outstanding of a context, those of its earlier jobs among them (R260, R291). -/
def State.tsOut (s : State) (c : CtxId) : Nat := (s.seq.ctls.filter (fun o => o.kind == .send && o.ctx == c)).length

/-- The job with a key, running or suspended, changes. -/
def State.updJob (s : State) (key : Nat) (f : Job → Job) : State :=
  let s := ctxIds.foldl (fun s c =>
    match (s.ctx c).job with
    | some j => if j.key = key then s.setCtx c { s.ctx c with job := some (f j) } else s
    | none => s) s
  (List.range 9).foldl (fun s r =>
    match s.savedJob r with
    | some j => if j.key = key then s.setSaved r (some (f j)) else s
    | none => s) s

def Job.tsAdd (n : Nat) (j : Job) : Job := { j with tserr := min 0xFFFF (j.tserr + n) }

-- Answers.

/-- The crossbar's code as STCS and WAITC report it (R256, R276). -/
def accCode (code : Nat) : Nat :=
  match code with
  | 0 => rOk
  | 1 => rRefused
  | 2 => rDecerr
  | 3 => rTimeout
  | _ => rChainErr

/-- The condition of LDEQ or LDNE on the word read (R265). -/
def pollHolds (word : BitVec 32) (j : Job) (v : W) : Bool :=
  let c := wCond word
  let ra := fld c 0 4
  let eq := (v &&& j.get (ra + 1)) == j.get (ra + 2)
  if fld c 6 3 = 2 then eq else !eq

/-- An access that is answered traps, unless a reset of its ring or a machine check is to end the job at this boundary (DESIGN CHOICE, notes/assumptions/156.md). -/
def State.accTrap (s : State) (c : CtxId) (addr : W) : State :=
  match (s.ctx c).due with
  | some (.abort tail) => s.abortJob c tail
  | some .mcheck => s.mcheckJob c 0 0
  | _ => s.trap c tCserr (addr.toNat % 2 ^ 32)

/-- The answer of a context's access (R255, R256, R265). -/
def State.accAnswer (s : State) (c : CtxId) (key code : Nat) (data : W) : State :=
  let x := s.ctx c
  match x.acc, x.job with
  | some (k, use, addr), some j =>
    if k ≠ key then s
    else
      let s := s.setCtx c { x with acc := none }
      match use with
      | .load => if code = 0 then s.doneRd c data else s.accTrap c addr
      | .half hi => if code = 0 then s.doneRd c (BitVec.ofNat 64 (fld data (if hi then 32 else 0) 32)) else s.accTrap c addr
      | .store =>
        if code = 0 then s.done c id
        else if code = 1 then s.done c (fun j => { j with sref := min 0xFFFF (j.sref + 1) })
        else s.accTrap c addr
      | .status =>
        s.done c (fun j => (if code = 1 then { j with sref := min 0xFFFF (j.sref + 1) } else j).set (iRd x.word) (BitVec.ofNat 64 (accCode code)))
      | .poll =>
        if code ≠ 0 then s.doneCode c (accCode code)
        else if pollHolds x.word j data then s.doneCode c rOk
        else s
  | _, _ => s

/-- A gather's or a broadcast's counts: OK, other codes, no answer; none when the CRSP carries none (R262, R300). -/
def crspCounts (r : CrspBody) : Option (Nat × Nat × Nat) :=
  if hasCounts r then
    let c := r.data.getD 1 0
    some (fld c 0 16, fld c 16 16, fld c 32 16)
  else none

/-- TCALL ends: RESP and status word, then the CRSP's data bytes (R261). -/
def State.callEnds (s : State) (c : CtxId) (l : Bool) (r : CrspBody) : State :=
  let rs := iRd (s.ctx c).word
  let n := r.lenm1.toNat + 1
  let byte (i : Nat) : W :=
    if r.data.isEmpty then 0
    else if 8 * i + 8 ≤ n then r.data.getD i 0
    else BitVec.ofNat 64 ((r.data.getD i 0).toNat % 2 ^ (8 * (n - 8 * i)))
  let w : W := BitVec.ofNat 64 (r.resp.toNat + 2 ^ 32 * r.aux.toNat)
  s.done c (fun j =>
    let j := (j.set rs w).set (rs + 1) (byte 0)
    if l then (j.set (rs + 2) (byte 1)).set (rs + 3) (byte 2) else j)

/-- A gather ends with its value and counts (R262). -/
def State.gatherEnds (s : State) (c : CtxId) (v counts : W) : State :=
  let rs := iRd (s.ctx c).word
  s.done c (fun j => (j.set rs v).set (rs + 1) counts)

/-- A LOCK's wait ends without the slot (R269). -/
def State.lockGivesUp (s : State) (c : CtxId) : State :=
  { s with seq := { s.seq with lockq := s.seq.lockq.filter (fun x => x.2 != c) } }.doneCode c rHeld

end Sys2Proof.Machine
end

