-- ==== Sys2Proof/Machine/MCheck.lean ====
section
/-! DEFINITION. Ends of jobs from outside and machine checks (R279, R281, R283, R284). -/
namespace Sys2Proof.Machine

-- Ends of jobs from outside.

/-- A wait that RUNLIM, an abort or a machine check does not interrupt: FENCE, BARR, a stratum instruction (R279). -/
def Wait.holds : Wait → Bool
  | .fence _ => true
  | .barrDrain _ _ _ => true
  | .commitDrain _ _ => true
  | .step _ _ => true
  | _ => false

/-- An instruction that is in progress and no wait: an access, a change of the timebase, the injection of a CTL. A ring's reset and a machine check act when it has completed; RUNLIM ends it at once, as R279 excepts FENCE, BARR and the stratum instructions alone (R281, R284; DEDUCED, notes/assumptions/77.md). -/
def Wait.completes : Wait → Bool
  | .access => true
  | .time _ => true
  | .inject _ _ => true
  | _ => false

/-- Of two ends that are due, the one that stays: an abort over every other, a machine check over RUNLIM (DESIGN CHOICE, notes/assumptions/156.md). -/
def Due.over : Due → Due → Due
  | .abort tail, _ => .abort tail
  | .mcheck, .runlim => .mcheck
  | _, d => d

/-- A context's job ends at its next instruction boundary; a wait that may be interrupted ends at once and writes nothing (R279, R281, R284). -/
def State.endSoon (s : State) (c : CtxId) (d : Due) : State :=
  let x := s.ctx c
  if x.job.isNone then s
  else
    let due := match x.due with
      | some old => old.over d
      | none => d
    let s' := s.setCtx c { x with due := some due }
    if x.wait.holds || (due != .runlim && x.wait.completes) then s' else s'.boundary c

-- Machine checks (R283, R284).

/-- An odd number of ones in a dispatch entry's bits or in a microword. -/
def State.dispBad (s : State) (op : Nat) : Bool := parity ((s.rd (aDisp op)).extractLsb' 0 18)
def State.microBad (s : State) (m : Nat) : Bool := parity (tget (0 : BitVec 96) s.micro m)

/-- A suspended job ends with STATUS MCHECK. -/
def State.mcheckSaved (s : State) (r : Nat) : State :=
  match s.savedJob r with
  | none => s
  | some j => ((s.setSaved r none).endRecord j.lastCtx j stMcheck 0 0).breakLocks r

/-- BOOT_STAT.STATE (R425). -/
def bsFuses : Nat := 0
def bsSfdp : Nat := 1
def bsHeaders : Nat := 2
def bsLoading : Nat := 3
def bsVerify : Nat := 4
def bsDone : Nat := 5
def bsFailed : Nat := 6
def bsChainwait : Nat := 7
def bsReload : Nat := 8

/-- The instance boots over the chain (R434). -/
def State.chainBoots (s : State) : Bool := s.gb aChnId CHN_ID.CHBOOT && !s.isRoot

/-- Who met a parity error: a context, the scrubber, or a read through the register window (R283). -/
inductive MetBy where
  | ctx (c : CtxId)
  | scrub
  | window
  deriving DecidableEq, Repr

def MetBy.ctxNum : MetBy → Nat
  | .ctx c => c.val
  | _ => 0

/-- Steps 4 and 5 of a machine check begin once every job has ended (R284): the microcode is reread, in a chain-booted instance over the chain. -/
def State.reloadStart (s : State) : State :=
  if s.gb aSeqStatus SEQ_STATUS.MCHK = false ∨ s.gb aSeqStatus SEQ_STATUS.RELOADING = true ∨ s.gb aSeqStatus SEQ_STATUS.DEAD = true
      ∨ ctxIds.any (fun c => (s.ctx c).job.isSome) = true then s
  else
    let s := (s.pb aSeqStatus SEQ_STATUS.RELOADING true).p aBootStat BOOT_STAT.STATE bsReload
    if s.chainBoots then
      { s with chn := { s.chn with reload := true, qtries := 1 }, boot := { s.boot with image := [] } }.sendFrame 0 1 s.chnAddr .qreq
    else s

/-- The record of a machine check, and event 937 (R284). -/
def State.mchkRecord (s : State) (met : MetBy) (table : Bool) (addr : Nat) : State :=
  let s := s.sat aSeqMchk SEQ_MCHK.COUNT
  let s := (s.p aSeqMchk SEQ_MCHK.CTX met.ctxNum).pb aSeqMchk SEQ_MCHK.SCRUB (met == .scrub)
  let s := (s.pb aSeqMchk SEQ_MCHK.WHERE table).p aSeqMchk SEQ_MCHK.ADDR addr
  ((s.pb aSeqStatus SEQ_STATUS.MCHK true).pb aSeqStatus SEQ_STATUS.READY false).raise 937

/-- A machine check (R284, R292): the record; the jobs of every ring end, and the reload begins; during a reload, the sequencer stops, and once DEAD nothing else follows. -/
def State.machineCheck (s : State) (met : MetBy) (table : Bool) (addr : Nat) : State :=
  let s := s.mchkRecord met table addr
  if s.gb aSeqStatus SEQ_STATUS.DEAD then s
  else if s.gb aSeqStatus SEQ_STATUS.RELOADING then (s.pb aSeqStatus SEQ_STATUS.DEAD true).raise 938
  else
    let s := match met with
      | .ctx c => s.mcheckJob c tMcheck (trapResult (s.ctx c).word addr)
      | _ => s
    let s := ctxIds.foldl (fun s c => s.endSoon c .mcheck) s
    ((List.range 9).foldl State.mcheckSaved s).reloadStart

/-- A read of a dispatch entry or of a microword through the register window checks its parity (R283); the record of an error names no context (DESIGN CHOICE, notes/assumptions/121.md). -/
def State.windowCheck (s : State) (o : Nat) : State :=
  if inArr o (aDisp 0) 8 128 then
    let op := (o - aDisp 0) / 8
    if s.dispBad op then s.machineCheck .window true op else s
  else if baseSeq + 0x60000 ≤ o ∧ o < basePu then
    let m := (o - baseSeq - 0x60000) / 16
    if s.microBad m then s.machineCheck .window false m else s
  else s

end Sys2Proof.Machine
end

