-- ==== Sys2Proof/Machine/Obs.lean ====
section
/-! DEFINITION. Probes, trace buffers, the shared calibration settings, and the self-test of tile memories (R450 to R456). -/
namespace Sys2Proof.Machine

/-- The OWNER value of a master: a host's port, 8 for the sequencer, and the master named in a chain frame (R452). -/
def ownerCode : Master → Nat
  | .host h => h.val
  | .chHost h => h.val
  | .sq _ => 8
  | .chSq => 8
  | .bl => 9

/-- A master's writes to the probe and trace-buffer registers act: those of hosts and of the sequencer, while they are active (R35, R36). -/
def State.obsWriter (s : State) (m : Master) : Bool := s.masterActs m && (masterIsSeq m || (masterHost m).isSome)

/-- A host may write a probe or buffer that is in use only when it owns it (R35). -/
def ownerAllows (m : Master) (busy : Bool) (owner : Nat) : Bool := masterIsSeq m || !busy || ownerCode m == owner

-- Probes.

/-- A probe is bound anew: its counters and its trace sequence are cleared, and packets matched before count no more (R452, R454). -/
def State.clearProbe (s : State) (p : Nat) : State :=
  let s := (List.range 4).foldl (fun s i => s.wr (aPrbCnt p i) 0) s
  let s := (s.setTrSeq p 0).setSamp p 0
  { s with obs := { s.obs with lost := s.obs.lost.filter (· != p), binds := tput 0 s.obs.binds p (s.bindNo p + 1) } }

/-- The probes that take one of a tile's four slots. -/
def State.slotsTaken (s : State) (t p : Nat) : Nat :=
  ((List.range 32).filter (fun q =>
    q != p && s.gb (aPrb q) OBS_PRBCTL.EN && !s.gb (aPrb q) OBS_PRBCTL.BINDERR && s.g (aPrb q) OBS_PRBCTL.TILE == t)).length

/-- The fields that a write of OBS_PRBCTL sets. -/
def prbRw : W := maskOf .rw rowsOBS_PRBCTL

/-- The point that a probe names. -/
def probePoint (w : W) : Nat := fld w 4 13

/-- A write of OBS_PRBCTL that reaches the probe: a write that sets EN, or changes the point while EN is 1, binds it anew; EN = 0 unbinds it (R452). -/
def State.probeWrite (s : State) (m : Master) (p : Nat) (v : W) : State :=
  let old := s.rd (aPrb p)
  let w := (old &&& ~~~prbRw) ||| (v &&& prbRw)
  let s := s.wr (aPrb p) w
  if bitOf w 0 = false then (s.pb (aPrb p) OBS_PRBCTL.BOUND false).pb (aPrb p) OBS_PRBCTL.BINDERR false
  else if bitOf old 0 = true ∧ probePoint old = probePoint w then s
  else
    let s := if bitOf old 0 then s else s.p (aPrb p) OBS_PRBCTL.OWNER (ownerCode m)
    let t := s.g (aPrb p) OBS_PRBCTL.TILE
    let bad := decide (144 ≤ t) || decide (4 ≤ s.slotsTaken t p)
    ((s.clearProbe p).pb (aPrb p) OBS_PRBCTL.BOUND false).pb (aPrb p) OBS_PRBCTL.BINDERR bad

/-- A write of OBS_PRBCTL by a master (R35, R452). -/
def State.prbctlWrite (s : State) (m : Master) (p : Nat) (v : W) : State :=
  if s.obsWriter m = true ∧ ownerAllows m (s.gb (aPrb p) OBS_PRBCTL.EN) (s.g (aPrb p) OBS_PRBCTL.OWNER) = true then s.probeWrite m p v
  else s

/-- PROBE_CONTROL_WRITE (R452). -/
def execProbeControlWrite (m : Master) (p : Fin 32) (v : W) (s : State) : Res := .next (s.prbctlWrite m p.val v)

/-- PROBE_BOUND (R452): the binding comes into force. -/
def execProbeBound (p : Fin 32) (s : State) : Res :=
  .next (
    if s.gb (aPrb p.val) OBS_PRBCTL.EN = true ∧ s.gb (aPrb p.val) OBS_PRBCTL.BINDERR = false then s.pb (aPrb p.val) OBS_PRBCTL.BOUND true
    else s)

/-- A write of a mask or a value of a probe (R35, R454). -/
def State.prbWordWrite (s : State) (m : Master) (p o : Nat) (v : W) : State :=
  if s.obsWriter m = true ∧ ownerAllows m (s.gb (aPrb p) OBS_PRBCTL.EN) (s.g (aPrb p) OBS_PRBCTL.OWNER) = true then s.wr o v else s

/-- The offset in the tile's window under which a configuration access names a counter of a probe slot: the spec gives none (DESIGN CHOICE, notes/assumptions/108.md). -/
def probeCntOff (p i : Nat) : Nat := 0x5000 + 32 * p + 8 * i

-- Trace buffers.

/-- The fields that a write of OBS_TBCTL sets. -/
def tbRw : W := maskOf .rw rowsOBS_TBCTL

/-- Records that a trace buffer still takes after its trigger. -/
def State.setPost (s : State) (b : Nat) (n : Option Nat) : State := { s with obs := { s.obs with post := tput none s.obs.post b n } }

/-- A write of OBS_TBCTL: ARM = 1 clears the buffer and sets OWNER (R35, R456). -/
def State.tbctlWrite (s : State) (m : Master) (b : Nat) (v : W) : State :=
  let o := aTbctl b
  if s.obsWriter m = true ∧ ownerAllows m (s.gb o OBS_TBCTL.ARM) (s.g o OBS_TBCTL.OWNER) = true then
    let s := s.wr o ((s.rd o &&& ~~~tbRw) ||| (v &&& tbRw))
    if bitOf v 0 then
      let s := ((s.p o OBS_TBCTL.WIDX 0).pb o OBS_TBCTL.WRAPPED false).pb o OBS_TBCTL.FROZEN false
      let s := (s.p o OBS_TBCTL.LOST 0).p o OBS_TBCTL.OWNER (ownerCode m)
      s.setPost b none
    else s
  else s

/-- TRACE_BUFFER_ARM (R456). -/
def execTraceBufferArm (m : Master) (b : Fin 8) (v : W) (s : State) : Res := .next (s.tbctlWrite m b.val v)

/-- A record enters a buffer at WIDX; under STOPFULL the buffer freezes at its end instead of wrapping, with WIDX and WRAPPED as they stand, and it freezes POST records after the trigger (R456; DEDUCED, notes/assumptions/106.md). -/
def State.traceStore (s : State) (b p : Nat) (ws : List W) : State :=
  let o := aTbctl b
  let i := s.g o OBS_TBCTL.WIDX
  let s := (List.range 4).foldl (fun s k => s.wr (aTrec b i k) (ws.getD k 0)) s
  let full := decide (i = 2047)
  let stops := full && s.gb o OBS_TBCTL.STOPFULL
  let s := if stops then s else s.p o OBS_TBCTL.WIDX ((i + 1) % 2048)
  let s := if full && !stops then s.pb o OBS_TBCTL.WRAPPED true else s
  let left : Option Nat := tget none s.obs.post b
  let hit := s.gb o OBS_TBCTL.TRIGEN && s.g o OBS_TBCTL.TRIGP == p
  let left' : Option Nat := match left with
    | some n => some (n - 1)
    | none => if hit then some (s.g o OBS_TBCTL.POST) else none
  let s := s.setPost b left'
  if stops || left' == some 0 then s.pb o OBS_TBCTL.FROZEN true else s

/-- A trace record reaches OBS: stored, or discarded and counted (R456). -/
def State.traceIn (s : State) (p : Nat) (ws : List W) : State :=
  let b := s.g (aPrb p) OBS_PRBCTL.TBUF
  let o := aTbctl b
  if s.gb o OBS_TBCTL.ARM = false ∨ s.gb o OBS_TBCTL.FROZEN = true ∨ s.g (aPrb p) OBS_PRBCTL.OWNER ≠ s.g o OBS_TBCTL.OWNER then
    s.sat o OBS_TBCTL.LOST
  else s.traceStore b p ws

/-- TRACE_RECORD (R456): the oldest record that has arrived, in one management cycle. -/
def execTraceRecord (s : State) : Res :=
  .next (match s.obs.rx with
    | ws :: rest =>
      if s.pm.mstate = .running then { s with obs := { s.obs with rx := rest } }.traceIn (fld (ws.getD 0 0) 32 5) ws else s
    | [] => s)

-- Link settings.

/-- A write of OBS_LCFG: a change of CALPLOG2 or CALEN acts from a boundary that all tiles share, the next multiple of 2^24 cycles at least 8,192 cycles after the write that made it; a later change with the same boundary takes its place (R450). Lanes that the new settings make call for repair are requested (R442). -/
def State.lcfgWrite (s : State) (v : W) : State :=
  let mask := maskOf .sq rowsOBS_LCFG
  let old := s.rd aLcfg
  let w := (old &&& ~~~mask) ||| (v &&& mask)
  let at_ := (s.fcc + 8192 + 2 ^ 24 - 1) / 2 ^ 24 * 2 ^ 24
  let pend := if fld w 8 5 = fld old 8 5 ∧ bitOf w 0 = bitOf old 0 then s.obs.calPend
    else s.obs.calPend.filter (fun x => x.1 != at_) ++ [(at_, bitOf w 0, fld w 8 5)]
  ({ s with obs := { s.obs with calPend := pend } }.wr aLcfg w).newCalls s

/-- SHARED_STEP_BOUNDARY (R450): the boundary of the first change that waits. -/
def execSharedStepBoundary (s : State) : Res :=
  .next (match s.obs.calPend with
    | (c, en, k) :: rest => { s.until (s.rst0 + c) with obs := { s.obs with calPend := rest, calLog2 := k, calEn := en } }
    | [] => s)

-- Tile memory self-test.

/-- The contents of the memories that a test destroys: bit 0 the request-plane buffers, bit 1 the response-plane buffers, bit 2 the NI buffers and crossing FIFOs (R451). The tile is fenced and quiet, so that nothing of a packet is lost. -/
def State.destroy (s : State) (t groups : Nat) : State :=
  let s := if groups.testBit 0 then s.setRouter t 0 { s.router t 0 with inv := [] } else s
  let s := if groups.testBit 1 then s.setRouter t 1 { s.router t 1 with inv := [] } else s
  if groups.testBit 2 then
    (List.range 3).foldl (fun s p => s.setNi t p { s.ni t p with injq := [], rx := [], pres := [], rspq := [], mbox := [], mboxQ := none }) s
  else s

/-- A write of TL_MBIST through the restore window: START runs the test of the groups selected (R451). -/
def State.mbistWrite (s : State) (t : Nat) (v : W) : State :=
  let o := aMbist t
  let s := s.p o TL_MBIST.GROUP (fld v 1 3)
  if bitOf v 0 = false ∨ s.gb o TL_MBIST.BUSY = true then s
  else
    let s := ((s.pb o TL_MBIST.BUSY true).pb o TL_MBIST.DONE false).pb o TL_MBIST.FAIL false
    let s := ((s.p o TL_MBIST.FAILGRP 0).p o TL_MBIST.FADDR 0).destroy t (fld v 1 3)
    s.setAgent t { s.agent t with bist := some (fld v 1 3) }

/-- The tile that PM_RSTADDR names can be reached through the restore window (R377). -/
def State.windowOpen (s : State) (t : Nat) : Bool := decide (t < 144) && (s.pst t == stFenced || s.pst t == stRestore)

/-- TL_MBIST_START (R451): a write of PM_RSTDATA while PM_RSTADDR names TL_MBIST; refused, with REJ, in any other state of the tile. -/
def execTlMbistStart (m : Master) (v : W) (s : State) : Res :=
  .next (
    let t := s.g aRstaddr PM_RSTADDR.TILE
    if s.sqRight m = false ∨ s.g aRstaddr PM_RSTADDR.OFFSET ≠ 0x4400 ∨ 144 ≤ t then s
    else if s.windowOpen t then s.mbistWrite t v
    else s.pmReject t)

/-- The result of a tile's test. -/
def State.tileBist (s : State) (t groups fail addr : Nat) : State :=
  let o := aMbist t
  let f := Nat.land groups fail
  let s := (s.pb o TL_MBIST.BUSY false).pb o TL_MBIST.DONE true
  let s := ((s.pb o TL_MBIST.FAIL (f != 0)).p o TL_MBIST.FAILGRP f).p o TL_MBIST.FADDR (if f = 0 then 0 else addr)
  s.setAgent t { s.agent t with bist := none }

/-- MBIST_DONE (R451): the test of a tile, or of the TAP's memory group, finishes with what failed. -/
def execMbistDone (tile : Option Tile) (failGroups : BitVec 3) (faddr : BitVec 16) (s : State) : Res :=
  .next (match tile with
    | some t => match (s.agent t.val).bist with
      | some g => s.tileBist t.val g failGroups.toNat faddr.toNat
      | none => s
    | none =>
      if bitOf s.tap.mb 8 = true ∧ bitOf s.tap.mb 9 = false then
        let f := failGroups != 0
        let v := setFld (setFld (setFld (setFld s.tap.mb 8 1 0) 9 1 1) 10 1 f.toNat) 16 16 (if f then faddr.toNat else 0)
        { s with tap := { s.tap with mb := v } }
      else s)

end Sys2Proof.Machine
end

