-- ==== Sys2Proof/Machine/Sched.lean ====
section
/-! DEFINITION. The egress schedulers: gates, the dequeue decision, cell and record reads, delivery, and the switch to another tree (R169, R174 to R177, R185, R191 to R202, R212 to R219). -/
namespace Sys2Proof.Machine

-- Gates (R213 to R217).

def State.gate (s : State) (k : Nat) : Gate := tget Gate.reset s.tm.gates k
def State.setGate (s : State) (k : Nat) (g : Gate) : State := { s with tm := { s.tm with gates := tput Gate.reset s.tm.gates k g } }
/-- NENT of a bank as it acts. -/
def State.nent (s : State) (k b : Nat) : Nat := min 1024 (s.g (aGcyc k b) TM_GCYC.NENT)
def State.gcycle (s : State) (k b : Nat) : Nat := s.g (aGcyc k b) TM_GCYC.CYCLE
def State.gbase (s : State) (k b : Nat) : Nat := s.g (aGbase k b) TM_GBASE.BASE

/-- The entry in force at a phase, its gates, and the phase at which it ends; n entries are left, from entry e on, acc their start. -/
def State.gateEntry (s : State) (k b phase : Nat) : Nat → Nat → Nat → Nat × Nat × Nat
  | 0, e, _ => (e - 1, s.g (aGent k b (e - 1)) TM_GENT.GATES, s.gcycle k b)
  | n + 1, e, acc =>
    let acc' := acc + s.g (aGent k b e) TM_GENT.INTERVAL
    if phase < acc' then (e, s.g (aGent k b e) TM_GENT.GATES, min acc' (s.gcycle k b)) else s.gateEntry k b phase n (e + 1) acc'

/-- A bank's entry, its gates, and the nanoseconds until it ends, at time t; none where every gate is open for good (R213). -/
def State.gateSeg (s : State) (k b t : Nat) : Nat × Nat × Option Nat :=
  if s.nent k b = 0 ∨ s.gcycle k b = 0 then (0, 0xFF, none)
  else
    let phase := (((t : Int) - s.gbase k b) % (s.gcycle k b : Int)).toNat
    let (e, g, ending) := s.gateEntry k b phase (s.nent k b) 0 0
    (e, g, some (ending - phase))

/-- The bank whose list is in force at time t: the pending one from its start on (R215, R217). -/
def State.gateBank (s : State) (k t : Nat) : Bool :=
  let g := s.gate k
  match g.pend with
  | some st => if st ≤ t then !g.bank else g.bank
  | none => g.bank

/-- The entry and the gates of a scheduler at time t, and when they next may change. -/
def State.gatesAt (s : State) (k t : Nat) : Nat × Nat × Option Nat :=
  let (e, g, ending) := s.gateSeg k (s.gateBank k t).toNat t
  let ending := ending.map (t + ·)
  match (s.gate k).pend with
  | some st => if t < st then (e, g, some (match ending with | some x => min x st | none => st)) else (e, g, ending)
  | none => (e, g, ending)

/-- Gate c of a scheduler is open at time t. -/
def State.gateOpen (s : State) (k c t : Nat) : Bool := (s.gatesAt k t).2.1.testBit c

/-- Gate c is open throughout from t to stop; one step per entry that is in force on the way. -/
def State.openThrough (s : State) (k c stop : Nat) : Nat → Nat → Bool
  | 0, _ => true
  | fuel + 1, t =>
    if stop ≤ t then true
    else if ¬ s.gateOpen k c t then false
    else match (s.gatesAt k t).2.2 with
      | none => true
      | some t' => s.openThrough k c stop fuel (max t' (t + 1))

/-- LRATE as it acts. -/
def State.lrate (s : State) (k : Nat) : Nat := rateCap (s.g (aEscfg k) TM_ESCFG.LRATE)
/-- The time at which gates are evaluated (R214). -/
def State.gateTime (s : State) (k : Nat) : Nat := s.ntNs + s.g (aEscfg2 k) TM_ESCFG2.GADV

/-- The Windowed rule: a packet of counted length l fits (R215). The one CYCLE of the look-ahead is that of the list in force at tg, also where a pending list starts within it; a list with every gate open bounds nothing (DESIGN CHOICE, notes/assumptions/140.md). Two lists of 1,024 entries have at most 2,050 entries in force within one cycle. -/
def State.windowFits (s : State) (k c l : Nat) : Bool :=
  let tg := s.gateTime k
  let tx := (l * 8000 + s.lrate k - 1) / s.lrate k
  let b := (s.gateBank k tg).toNat
  let look := if s.nent k b = 0 ∨ s.gcycle k b = 0 then tx else min tx (s.gcycle k b)
  s.openThrough k c (tg + look) 2100 tg

-- Eligibility (R197).

/-- The class follows the gates. -/
def State.gated (s : State) (k c : Nat) : Bool := (s.g (aEscfg k) TM_ESCFG.GATEMSK).testBit c

/-- A queue of scheduler k is eligible. -/
def State.queueEligible (s : State) (k q : Nat) : Bool :=
  let b := s.treeBank k
  match (s.queue q).recs with
  | [] => false
  | e :: _ =>
    let c := s.tcOf b (s.qmap b q TM_QMAP.GROUP)
    e.at_ == .store && s.mapValid b q
      && (s.qmap b q TM_QMAP.SHEN == 0 || decide (0 ≤ s.shStart (s.qmap b q TM_QMAP.SHP)))
      && !(s.gated k c && s.qmap b q TM_QMAP.GMODE == 1 && !s.windowFits k c (s.lenAt k e.rec_.len))

/-- The groups of scheduler k that are backlogged. -/
def State.backlogged (s : State) (k : Nat) : List Nat := (s.tm.drr.filter (fun kv => kv.1 / 4096 == k)).map (fun kv => kv.1 % 4096)

/-- Backlogged groups of a class, whose shaper conforms and that hold an eligible queue, in ascending order (R196). -/
def State.candGroups (s : State) (k c : Nat) : List Nat :=
  let b := s.treeBank k
  (s.backlogged k).filter (fun g =>
    s.tcOf b g == c
      && (s.grpF b g TM_GRPA.SHEN == 0 || decide (0 ≤ s.shStart (s.grpF b g TM_GRPA.SHP)))
      && (s.drrList k g).any (fun q => s.queueEligible k q))

/-- Tag a is earlier than tag u (R202). -/
def tagEarlier (a u : Nat) : Bool := let d := (u + 2 ^ 48 - a) % 2 ^ 48; decide (1 ≤ d) && decide (d < 2 ^ 47)

/-- The group with the earliest tag; the lowest number among equals. -/
def State.bestGroup (s : State) (k : Nat) (gs : List Nat) : Option Nat :=
  gs.foldl (fun best g => match best with
    | none => some g
    | some h => if tagEarlier (tget 0 s.tm.stag (gkey k g)) (tget 0 s.tm.stag (gkey k h)) then some g else some h) none

/-- QUANTUM as it acts. -/
def State.quantum (s : State) (k q : Nat) : Nat := max 64 (s.qmap (s.treeBank k) q TM_QMAP.QUANTUM)

/-- drr_pick over the queues of a group that are left in this pass (R199). -/
def State.drrPick (s : State) (k g : Nat) : List Nat → State × Option Nat
  | [] => (s, none)
  | q :: rest =>
    if s.queueEligible k q = false then s.drrPick k g rest
    else
      let x := s.queue q
      let x := if x.turn then x else { x with dc := x.dc + s.quantum k q, turn := true }
      let l := match x.recs.head? with | some e => s.lenAt k e.rec_.len | none => 1
      if l ≤ x.dc then (s.setQueue q x, some q)
      else
        let s := (s.setQueue q { x with turn := false }).setDrr k g ((s.drrList k g).filter (fun y => y != q) ++ [q])
        s.drrPick k g rest

/-- drr_charge (R199). -/
def State.drrCharge (s : State) (k q l : Nat) : State :=
  let x := s.queue q
  if x.recs.isEmpty then s.leaveGroup k q (s.treeBank k) else s.setQueue q { x with dc := x.dc - l }

/-- sfq_charge (R201). -/
def State.sfqCharge (s : State) (k c g l : Nat) : State :=
  let w := max 1 (s.grpF (s.treeBank k) g TM_GRPA.WEIGHT)
  let t := tget 0 s.tm.stag (gkey k g)
  { s with tm := { s.tm with
    vt := tput 0 s.tm.vt (ckey k c) t, stag := tput 0 s.tm.stag (gkey k g) ((t + (l * 256 + w - 1) / w) % 2 ^ 48) } }

/-- DLYAVG with one more delay (R185). -/
def smooth (avg delay w : Nat) : Nat := ((avg : Int) + ((delay : Int) - avg).tdiv (2 ^ w)).toNat

/-- The head record leaves its queue at a decision: HEAD, CELLS and DLYAVG (R174, R185). -/
def State.takeHead (s : State) (q : Nat) (e : QRec) : State × Nat :=
  let x := s.queue q
  let delay := (s.stamp - e.rec_.tstamp).toNat
  let s := s.setQueue q { x with recs := x.recs.drop 1 }
  let s := s.bump (aQdesc q 2) TM_QDESC2.HEAD
  let s := s.p (aQdesc q 3) TM_QDESC3.CELLS (s.g (aQdesc q 3) TM_QDESC3.CELLS - cellsOf e.rec_.ncells)
  (s.p (aQdesc q 3) TM_QDESC3.DLYAVG (smooth (s.g (aQdesc q 3) TM_QDESC3.DLYAVG) delay (s.g aSmpcfg TM_SMPCFG.W)), delay)

-- The dispatch queue and reads (R174, R176, R177, R198).

def State.disp (s : State) (k : Nat) : List Sel := tget [] s.tm.disp k
def State.setDisp (s : State) (k : Nat) (l : List Sel) : State := { s with tm := { s.tm with disp := tput [] s.tm.disp k l } }
def State.recReads (s : State) (k : Nat) : List RecRead := tget [] s.tm.recReads k
def State.setRecReads (s : State) (k : Nat) (l : List RecRead) : State := { s with tm := { s.tm with recReads := tput [] s.tm.recReads k l } }
/-- Packets that stand in the dispatch queue. -/
def State.dispCount (s : State) (k : Nat) : Nat := ((s.disp k).filter (fun x => !x.issued)).length
/-- Tags of a packet's reads. -/
def Sel.tags (x : Sel) : List Nat := (x.reads.filter (fun r => !r.done)).map (·.rid) ++ x.xrid.toList
/-- Tags of reads that a scheduler port awaits. -/
def State.spTags (s : State) (k : Nat) : List Nat := (s.disp k).flatMap Sel.tags ++ (s.recReads k).map (·.rid)
/-- Cells of the read buffer that are taken or reserved (R174). -/
def State.bufUsed (s : State) (k : Nat) : Nat :=
  ((s.disp k).map (fun x => x.reads.length + x.xrid.toList.length)).foldl (· + ·) (s.recReads k).length

/-- Data cells that a record names itself: CP0 and up to 15 or 16 of the data flit. -/
def recCells (r : Rec) : List Nat :=
  r.cp0 :: (List.range (if 17 < r.ncells then 15 else r.ncells - 1)).map (fun i => slotOf [r.ptrs] (i + 1) % 2 ^ 30)
/-- The extension cell of a record. -/
def recExt (r : Rec) : Option Nat := if 17 < r.ncells then some (slotOf [r.ptrs] 16 % 2 ^ 30) else none
/-- Bytes in data cell i of a packet. -/
def cellBytes (len i : Nat) : Nat := min 256 (len - 256 * i)

/-- A scheduler port sends an RD for n bytes (R174). -/
def State.sendRead (s : State) (k : Nat) (cls : BitVec 2) (dest : BitVec 10) (addr : BitVec 48) (n : Nat) : State × Nat :=
  let tag := unusedTag (s.spTags k) s.tm.nextRid
  let s := { s with tm := { s.tm with nextRid := tag + 1 } }
  (s.tmSend (16 + k) { dest := dest, src := s.tmEp (16 + k), cls := cls, cmd := Cmd.RD, tag := BitVec.ofNat 12 tag, pdom := 0xF,
                       addr := addr, lenm1 := BitVec.ofNat 8 (n - 1) }, tag)

/-- The next read of packet i of the disp list, if it has one and the buffer has room. -/
def State.issueOne (s : State) (k i : Nat) : Option State :=
  match (s.disp k)[i]? with
  | none => none
  | some x =>
    if 512 ≤ s.bufUsed k then none
    else if x.xneed then
      let cp := (recExt x.rec_).getD 0
      let (s, tag) := s.sendRead k x.cls (s.memEp (s.chOf cp)) (s.cellAddr cp 0) (4 * (x.rec_.ncells - 16))
      some (s.setDisp k ((s.disp k).set i { x with xneed := false, xrid := some tag }))
    else if x.issued || x.xrid.isSome then none
    else match x.cells[x.reads.length]? with
      | none => none
      | some cp =>
        let n := cellBytes x.rec_.len x.reads.length
        let (s, tag) := s.sendRead k x.cls (s.memEp (s.chOf cp)) (s.cellAddr cp 0) n
        let reads := x.reads ++ [(⟨tag, cp, n, false, []⟩ : SpRead)]
        some (s.setDisp k ((s.disp k).set i { x with reads := reads, issued := decide (x.rec_.ncells ≤ reads.length) }))

/-- Every read of packet i that may go now; a packet has at most 81. -/
def State.issueFor (s : State) (k i : Nat) : Nat → State
  | 0 => s
  | n + 1 => match s.issueOne k i with
    | some s' => s'.issueFor k i n
    | none => s

/-- The scheduler port issues what reads it has room for, in the order of selection. -/
def State.issueReads (s : State) (k : Nat) : State := (List.range (s.disp k).length).foldl (fun s i => s.issueFor k i 81) s

-- The decision (R196, R212).

/-- The group's thresholds discard the packet (R212). -/
def State.colourDiscard (s : State) (k q g : Nat) (r : Rec) : Bool :=
  let b := s.treeBank k
  let avg := s.g (aQdesc q 3) TM_QDESC3.DLYAVG
  let y := s.g (aGrpb b.toNat g) TM_GRPB.YDLY
  let rd := s.g (aGrpb b.toNat g) TM_GRPB.RDLY
  (r.color == 1 && y != 0 && decide (y < avg)) || (r.color == 2 && rd != 0 && decide (rd < avg))

/-- A packet is discarded by colour: it takes the decision and charges nothing (R212). -/
def State.discard (s : State) (k q : Nat) (e : QRec) : State :=
  let cls := s.fclass k q
  let s := (s.takeHead q e).1.sat (aEsstat k) TM_ESSTAT.DISC
  let s := (s.drrCharge k q 0).freeAll e.rec_.pool (recCells e.rec_)
  match recExt e.rec_ with
  | none => s
  | some _ =>
    (s.setDisp k (s.disp k ++ [(⟨e.rec_, cls, 0, [], true, none, [], true, false, false, true⟩ : Sel)])).issueReads k

/-- A packet of counted length l is selected (R174, R185, R186, R196). -/
def State.selectPkt (s : State) (k c g q : Nat) (e : QRec) : State :=
  let b := s.treeBank k
  let l := s.lenAt k e.rec_.len
  let cls := s.fclass k q
  let sh := (if s.qmap b q TM_QMAP.SHEN = 1 then [s.qmap b q TM_QMAP.SHP] else [])
    ++ (if s.grpF b g TM_GRPA.SHEN = 1 then [s.grpF b g TM_GRPA.SHP] else [])
  let (s, delay) := s.takeHead q e
  let s := (s.sfqCharge k c g l).drrCharge k q l
  let s := (sh.foldl (fun s i => s.chargeSh i l) s).chargePort k l
  let due := match (s.queue q).lastSmp with | some t => decide (s.g aSmpcfg TM_SMPCFG.INTVL ≤ s.ntNs - t) | none => true
  let s := if due then s.sample (16 + k) q 0 delay else s
  let seq := s.g (aEsout k) TM_ESOUT.SEQ
  let s := s.bump (aEsout k) TM_ESOUT.SEQ
  (s.setDisp k (s.disp k ++
    [(⟨e.rec_, cls, seq, recCells e.rec_, (recExt e.rec_).isSome, none, [], false, false, false, false⟩ : Sel)])).issueReads k

/-- The head of queue q, found in group g of class c, is dealt with. -/
def State.serve (s : State) (k c g q : Nat) : State :=
  match (s.queue q).recs with
  | [] => s
  | e :: _ => if s.colourDiscard k q g e.rec_ then s.discard k q e else s.selectPkt k c g q e

/-- Classes from the highest down (R196). -/
def State.classes (s : State) (k : Nat) : List Nat → State
  | [] => s
  | c :: rest =>
    if s.gated k c && !s.gateOpen k c (s.gateTime k) then s.classes k rest
    else match s.bestGroup k (s.candGroups k c) with
      | none => s.classes k rest
      | some g =>
        let (s, q) := s.drrPick k g (s.drrList k g)
        match q with
        | none => s
        | some q => s.serve k c g q

-- The switch to another tree (R137, R219).

/-- A non-empty queue of scheduler k leaves the list of the old tree where its GROUP changes (R219). -/
def State.leaveOld (s : State) (k : Nat) (old new : Bool) (q : Nat) : State :=
  if s.qmap old q TM_QMAP.GROUP = s.qmap new q TM_QMAP.GROUP then s else s.leaveGroup k q old

/-- A non-empty queue of scheduler k under the new tree: it waits under an invalid map (R194), keeps the place it has, or joins its group's list (R219). -/
def State.joinNew (s : State) (k : Nat) (new : Bool) (q : Nat) : State :=
  if s.mapValid new q = false then s.treeErr k
  else if (s.drrList k (s.qmap new q TM_QMAP.GROUP)).contains q then s
  else s.toTail k q new

/-- Groups of scheduler k that are backlogged under another class, or first become backlogged under the new tree, wake; `was` are those backlogged before (R201, R219). -/
def State.switchGroups (s : State) (k : Nat) (old new : Bool) (was gs : List Nat) : State :=
  gs.foldl (fun s g => if was.contains g && s.tcOf old g == s.tcOf new g then s else s.wakeGroup k g new) s

/-- The scheduler takes its tree from the bank that its FLIP named (R219). -/
def State.switchTree (s : State) (k : Nat) : State :=
  let old := s.treeBank k
  let new := bitOf s.tm.flipTree k
  if old = new then s
  else
    let qs := (s.tm.qs.filter (fun kv => !kv.2.recs.isEmpty && s.ownerOf kv.1 == some k)).map (·.1)
    let s := { s with tm := { s.tm with tree := putBit s.tm.tree k new } }
    let was := s.backlogged k
    let s := qs.foldl (fun s q => s.joinNew k new q) (qs.foldl (fun s q => s.leaveOld k old new q) s)
    s.switchGroups k old new was (s.backlogged k)

/-- One decision of scheduler k (R196). -/
def State.dequeue (s : State) (k : Nat) : State :=
  let s := (s.decides k).switchTree k
  if s.gb (aEscfg k) TM_ESCFG.EN = false ∨ s.lrate k = 0 ∨ s.pTok k < 0 ∨ 64 ≤ s.dispCount k then s
  else s.classes k [7, 6, 5, 4, 3, 2, 1, 0]

/-- DEQUEUE_DECISION (R196). -/
def execDequeueDecision (k : EsId) (s : State) : Res := .next (s.dequeue k.val)

-- A FLIP at a scheduler (R137, R217, R218).

/-- The start of a list written since the last STPREP, for a FLIP at time f: S, whether it is late, whether its cycle is invalid (R217). -/
def State.listStart (s : State) (k b f : Nat) : Nat × Bool × Bool :=
  let base := s.gbase k b
  let cyc := s.gcycle k b
  let soon := f + 2000
  if cyc = 0 then (max base soon, false, decide (0 < s.nent k b))
  else
    let n := if soon ≤ base then 0 else (soon - base + cyc - 1) / cyc
    (base + n * cyc, decide (1 ≤ n), false)

/-- A FLIP that names a stratum reaches a scheduler (R137, R217). A bank that was not written since STPREP is in force from the FLIP on; it does not count as a list that started late, or that started with CYCLE = 0 (DEDUCED, notes/assumptions/54.md). -/
def State.schedFlip (s : State) (k : Nat) (str : Bool) : State :=
  if bitOf s.tm.flipTree k = str then s
  else
    let g := s.gate k
    let written := bitOf s.seq.written k
    let s := { s with tm := { s.tm with flipTree := putBit s.tm.flipTree k str }, seq := { s.seq with written := putBit s.seq.written k false } }
    if g.bank = str then s.setGate k { g with pend := none }
    else if written then
      let (st, late, _) := s.listStart k str.toNat s.ntNs
      let s := s.setGate k { g with pend := some st }
      if late then (s.pb (aEsstat k) TM_ESSTAT.LATE true).raiseTm (16 + k) 848 else s
    else s.setGate k ⟨str, s.ntNs, none⟩

/-- The scheduler still uses the old tree or an old gate list (R145, R146). -/
def State.schedOld (s : State) (k : Nat) : Bool := s.treeBank k != bitOf s.tm.flipTree k || (s.gate k).pend.isSome

/-- Cycles from now until network time has reached t ns, no slew counted. -/
def State.cyclesTo (s : State) (t : Nat) : Nat :=
  let d := t * nsUnit - s.tb.nt s.fcc
  if s.tb.period = 0 then 0 else (d + s.tb.period - 1) / s.tb.period

/-- GATE_LIST_START (R217). -/
def execGateListStart (k : EsId) (s : State) : Res :=
  .next (
    let g := s.gate k.val
    match g.pend with
    | none => s
    | some st =>
      let s := (s.until (s.cyc + s.cyclesTo st)).setGate k.val ⟨!g.bank, st, none⟩
      let b := (!g.bank).toNat
      if s.gcycle k.val b = 0 ∧ 0 < s.nent k.val b then (s.pb (aEsstat k.val) TM_ESSTAT.GERR true).raiseTm (16 + k.val) 849 else s)

-- Record reads, answers and delivery (R169, R174 to R177).

/-- RECORD_READ (R169): the first record in memory, where the store has room and its write has been answered. -/
def State.recordRead (s : State) (k q : Nat) : State :=
  match (s.queue q).recs.find? (fun e => e.at_ == .memory) with
  | none => s
  | some e =>
    if s.ownerOf q = some k ∧ s.storeRoom k q = true ∧ s.bufUsed k < 512 ∧ s.tm.wrns.all (fun w => !(w.qid == q && w.idx == e.idx)) = true then
      let pl := s.recPlace q e.idx
      let (s, tag) := s.sendRead k (s.fclass k q) pl.1 pl.2 128
      let x := s.queue q
      let s := s.setQueue q { x with recs := replaceFirst (fun e => e.at_ == .memory) (fun e => { e with at_ := .reading }) x.recs }
      s.setRecReads k (s.recReads k ++ [⟨tag, q, e.idx⟩])
    else s

/-- RECORD_READ (R169). -/
def execRecordRead (k : EsId) (qid : BitVec 16) (s : State) : Res := .next (s.recordRead k.val qid.toNat)

/-- A failed record read loses the queue's ring: EN = 0, HEAD = TAIL, the packets counted in DROPS (R177). -/
def State.ringLost (s : State) (k q : Nat) : State :=
  let n := (s.queue q).recs.length
  let s := s.leaveGroup k q (s.treeBank k)
  let s := (s.setQueue q { s.queue q with recs := [] }).pb (aQdesc q 0) TM_QDESC0.EN false
  let s := (s.p (aQdesc q 2) TM_QDESC2.HEAD (s.g (aQdesc q 2) TM_QDESC2.TAIL)).p (aQdesc q 3) TM_QDESC3.CELLS 0
  let s := (s.sat (aQdesc q 2) TM_QDESC2.DROPS n).sample (16 + k) q 1 0
  let s := if 1 < n ∧ s.gb aSmpcfg TM_SMPCFG.EN = true ∧ s.gb (aQdesc q 0) TM_QDESC0.SAMP = true then
      (s.sat aSmpidx TM_SMPIDX.LOST (n - 1)).raiseTm (16 + k) 836 else s
  s.raiseTm (16 + k) 838

/-- A record read of queue q at ring index idx is answered. -/
def State.recordAnswer (s : State) (k : Nat) (r : RecRead) (ok : Bool) (data : List Line) : State :=
  let s := s.setRecReads k ((s.recReads k).filter (fun x => x.rid != r.rid))
  let x := s.queue r.qid
  let mine (e : QRec) : Bool := e.idx == r.idx && e.at_ == .reading
  if x.recs.any mine = false then s
  else if ok then s.setQueue r.qid { x with recs := replaceFirst mine (fun e => ⟨recOf data, .store, e.idx⟩) x.recs }
  else s.ringLost k r.qid

/-- A read of packet x fails: nothing of it is delivered, and all its cells known are freed (R177). -/
def State.pktFails (s : State) (k i : Nat) (x : Sel) : State :=
  let s := s.setDisp k ((s.disp k).set i { x with failed := true, issued := true, xneed := false })
  if x.failed then s
  else
    let s := s.freeAll x.rec_.pool (x.cells ++ (recExt x.rec_).toList)
    if x.disc then s else (s.dropAt (16 + k) x.rec_.qid).raiseTm (16 + k) 838

/-- A packet discarded or failed leaves once every read of it is answered. -/
def State.dropDone (s : State) (k : Nat) : State :=
  s.setDisp k ((s.disp k).filter (fun x => !((x.failed || x.disc) && !x.xneed && x.tags.isEmpty)))

/-- The data cells that a packet's extension cell names. -/
def extCells (r : Rec) (data : List Line) : List Nat := extPtrs (r.ncells - 16) data

/-- A cell read of packet i is answered. -/
def State.cellAnswer (s : State) (k i : Nat) (x : Sel) (rid : Nat) (ok : Bool) (data : List Line) : State :=
  let isX := x.xrid == some rid
  let x' := if isX then { x with xrid := none }
    else { x with reads := x.reads.map (fun r => if r.rid == rid && !r.done then { r with done := true, data := data } else r) }
  if ok = false then (s.pktFails k i x').dropDone k
  else if isX && x.disc then
    ((s.setDisp k ((s.disp k).set i x')).freeAll x.rec_.pool (extCells x.rec_ data ++ (recExt x.rec_).toList)).dropDone k
  else if isX then s.setDisp k ((s.disp k).set i { x' with cells := x.cells ++ extCells x.rec_ data })
  else (s.setDisp k ((s.disp k).set i x')).dropDone k

/-- The answer with a tag reaches a scheduler port; one that nothing awaits has no effect. -/
def State.spAnswer (s : State) (k rid : Nat) (ok : Bool) (data : List Line) : State :=
  match (s.recReads k).find? (fun r => r.rid == rid) with
  | some r => s.recordAnswer k r ok data
  | none =>
    match (s.disp k).findIdx? (fun x => x.tags.contains rid) with
    | none => s
    | some i => match (s.disp k)[i]? with
      | some x => s.cellAnswer k i x rid ok data
      | none => s

/-- CELL_READ_RESPONSE (R177): the answer that stands at the port. -/
def execCellReadResponse (k : EsId) (rid : Nat) (resp : BitVec 4) (data : List Line) (s : State) : Res :=
  .next (
    match extract (fun (p : Pkt) => p.tag.toNat == rid && p.resp == resp && p.data == data) (s.tmRx (16 + k.val)) with
    | none => s
    | some (_, rest) => ((s.setTmRx (16 + k.val) rest).spAnswer k.val rid (decide (resp = Resp.OK)) data).issueReads k.val)

/-- The WR that delivers cell i of a packet (R175). R175 names no TAG for it: 0 (DESIGN CHOICE, notes/assumptions/141.md). -/
def State.deliveryWr (s : State) (k : Nat) (dest : BitVec 10) (x : Sel) (i : Nat) (r : SpRead) : Pkt :=
  { dest := dest, src := s.tmEp (16 + k), cls := x.cls, cmd := Cmd.WR, pdom := 0xF, cache := 0, order := 0,
    addr := BitVec.ofNat 48 (x.seq * 2 ^ 36 + (x.rec_.len - 1) * 2 ^ 21 + 256 * i), lenm1 := BitVec.ofNat 8 (r.bytes - 1),
    be := BitVec.allOnes 64, tstamp := x.rec_.tstamp, data := r.data.take (flitsFor r.bytes) }

/-- The packet to deliver next: the oldest selected one that is neither delivered, failed nor discarded. -/
def State.nextDelivery (s : State) (k : Nat) : Option Nat := (s.disp k).findIdx? (fun x => !x.delivered && !x.failed && !x.disc)

/-- DELIVERY (R174, R175): every read of the packet has returned. -/
def State.deliver (s : State) (k : Nat) : State :=
  match s.nextDelivery k with
  | none => s
  | some i => match (s.disp k)[i]? with
    | none => s
    | some x =>
      if x.issued && x.tags.isEmpty then
        let dual := s.gb (aEsout k) TM_ESOUT.DUAL
        let second := dual && bitOf s.tm.alt k
        let dest := BitVec.ofNat 10 (s.g (aEsout k) (if second then TM_ESOUT.DEST1 else TM_ESOUT.DEST0))
        let s := if dual then { s with tm := { s.tm with alt := putBit s.tm.alt k (!second) } } else s
        let ws := (List.range x.reads.length).filterMap (fun j => (x.reads[j]?).map (s.deliveryWr k dest x j))
        (ws.foldl (fun s w => s.tmSend (16 + k) w) s).setDisp k ((s.disp k).set i { x with delivered := true })
      else s

/-- DELIVERY (R175). -/
def execDelivery (k : EsId) (s : State) : Res := .next (s.deliver k.val)

/-- A delivery WR of a packet number still waits at the port. -/
def State.wrWaits (s : State) (k seq : Nat) : Bool :=
  (tget [] s.tm.outq (16 + k)).any (fun p => p.cmd == Cmd.WR && fld p.addr 36 12 == seq)

/-- LAST_DELIVERY_INJECTED (R176): of the first packet whose last WR has been injected, be it ahead of an older one of another class, the cells go to the record's pool, and their room is free for more reads. -/
def State.lastInjected (s : State) (k : Nat) : State :=
  match extract (fun (x : Sel) => x.delivered && !s.wrWaits k x.seq) (s.disp k) with
  | none => s
  | some (x, rest) =>
      ((s.setDisp k rest).freeAll x.rec_.pool (x.cells ++ (recExt x.rec_).toList)).issueReads k

/-- LAST_DELIVERY_INJECTED (R176). -/
def execLastDeliveryInjected (k : EsId) (s : State) : Res := .next (s.lastInjected k.val)

end Sys2Proof.Machine
end

