-- ==== Sys2Proof/Machine/Stratum.lean ====
section
/-! DEFINITION. The sequencer's side of strata and barriers: commit phases, FLIP rounds, drains, releases, reverts, BARR (R139 to R154, R267, R303). -/
namespace Sys2Proof.Machine

/-- A combined answer: value, answers OK, answers with another code, tiles that did not answer (R262, R300). -/
structure Comb where
  value : W
  ok : Nat
  bad : Nat
  silent : Nat
  deriving DecidableEq, Repr

/-- Units that did not confirm (R147). -/
def Comb.missing (x : Comb) : Nat := x.bad + x.silent

/-- The combined answer that a CRSP carries; none where it carries no counts (R262). -/
def crspComb (r : CrspBody) : Option Comb :=
  (crspCounts r).map (fun c => ⟨r.data.getD 0 0, c.1, c.2.1, c.2.2⟩)

-- Commit phases (R139, R150).
def phIdle : Nat := 0
def phPrepared : Nat := 1
def phDraining : Nat := 2

def State.phase (s : State) : Nat := s.g aStstate SEQ_STSTATE.PHASE
def State.setPhase (s : State) (n : Nat) : State := s.p aStstate SEQ_STSTATE.PHASE n
def State.setWaiting (s : State) (n : Nat) : State := s.p aStstate SEQ_STSTATE.WAITING (min n 0xFF)
/-- Tiles that take part in an operation over the instance (R152). -/
def State.liveTiles (s : State) : Nat := ((List.range 144).filter (fun t => !s.asOff t)).length
/-- The plane that a paused commit holds. -/
def State.heldPlane (s : State) : Option Plane :=
  let v := s.g aStstate SEQ_STSTATE.PAUSE
  if v.testBit 0 then some 0 else if v.testBit 1 then some 1 else none

/-- The next step of the current instruction: an engine CTL spread from the root agent over the instance (R298, R300). -/
def State.stepSend (s : State) (c : CtxId) (k : StepKind) (n arg spread op : Nat) : State :=
  let key := ((s.ctx c).job.map (·.key)).getD 0
  let s := s.sendCtl c .step key true spread op (epAddr s.build.root.val 3) (engFunc n) 63 (engArgs n arg) s.liveTiles none
  s.setCtx c { s.ctx c with wait := .step k s.lastId }

/-- A broadcast with acknowledgement, and a gather, of an engine function (R296). -/
def spBroadcast : Nat := 1
def spGather : Nat := 4
def opSum : Nat := 0
def opOr : Nat := 1
def opMax : Nat := 2
def opAnd : Nat := 3

-- FLIP (R141, R153).

/-- The argument of FLIP: the stratum and the plane to hold. -/
def flipArg (str : Bool) (hold : Option Plane) : Nat := str.toNat + 2 * (match hold with | none => 0 | some p => p.val + 1)

/-- Schedulers that have not switched to CUR and whose tile takes part. -/
def State.schedsLeft (s : State) : List Nat :=
  (List.range 32).filter (fun k => bitOf s.tm.flipTree k != s.cur && !s.asOff (epTile (s.tmEp (16 + k))))

/-- A FLIP round to the stratum CUR leaves the sequencer. A round that is repeated names the held plane again, also where a RELEASE has begun (DESIGN CHOICE, notes/assumptions/145.md). -/
def State.flipRound (s : State) (c : CtxId) (rv : Bool) : State :=
  let s := { s with seq := { s.seq with flipAt := s.cyc, partialFlip := false } }
  s.stepSend c (.flip rv none) engFlip (flipArg s.cur s.heldPlane) spBroadcast opSum

/-- A FLIP round ends: OK, or PARTIAL with the units that did not confirm (R141, R154). -/
def State.flipEnds (s : State) (c : CtxId) (n : Nat) : State :=
  ({ s with seq := { s.seq with partialFlip := n != 0 } }.setWaiting n).doneCode c (if n = 0 then rOk else rPartial)

/-- Once every agent has answered and every scheduler has switched, the round ends. -/
def State.flipCheck (s : State) (c : CtxId) : State :=
  match (s.ctx c).wait with
  | .step (.flip _ (some n)) _ => if s.schedsLeft = [] then s.flipEnds c n else s
  | _ => s

/-- A scheduler receives its FLIP (R141, R217, R219); the round that awaited it may end. -/
def State.schedFlipped (s : State) (k : Nat) (str : Bool) : State :=
  if s.phase = phDraining ∧ str = s.cur then ctxIds.foldl State.flipCheck (s.schedFlip k str) else s

/-- Steps 2 and 3 of STCOMMIT, with the DLDIFF that its barrier gathered (R141, R143). -/
def State.commitFlips (s : State) (c : CtxId) (dl : Nat) : State :=
  let s := s.p aStstate SEQ_STSTATE.DLDIFF dl
  if s.phase ≠ phPrepared then s.doneCode c (if s.phase = phDraining then rBusy else rNotPrep)
  else if dl = 3 then s.doneCode c rDl2
  else
    let s := ((s.pb aStstate SEQ_STSTATE.CUR (!s.cur)).setPhase phDraining).pb aStstate SEQ_STSTATE.REVERTED false
    let s := s.p aStstate SEQ_STSTATE.PAUSE dl
    let s := { s with seq := { s.seq with planeStr := s.heldPlane, strCtx := if dl = 0 then none else some c } }
    s.flipRound c false

/-- STCOMMIT REVERT once no plane is held (R153). A further REVERT flips CUR back once more and leaves REVERTED at 1, of which R153 says nothing (DESIGN CHOICE, notes/assumptions/109.md). -/
def State.revertFlips (s : State) (c : CtxId) : State :=
  ((s.pb aStstate SEQ_STSTATE.CUR (!s.cur)).pb aStstate SEQ_STSTATE.REVERTED true).flipRound c true

-- Draining (R144, R146).

/-- A gather of old-stratum counts. -/
def State.gatherOld (s : State) (c : CtxId) (k : StepKind) : State := s.stepSend c k engGather 0 spGather opSum

/-- Fields of a combined report: old requests, old responses, tiles with an old slot bank, tree or gate list, tiles with PAUSE. -/
def oldRq (v : W) : Nat := fld v 0 24
def oldRs (v : W) : Nat := fld v 24 24
def oldUnits (v : W) : Nat := fld v 48 8
def oldPaused (v : W) : Nat := fld v 56 8

/-- RELEASE is broadcast under the new stratum (R144). -/
def State.sendRelease (s : State) (c : CtxId) (rv : Bool) : State :=
  s.stepSend c (.release rv) engRelease s.cur.toNat spBroadcast opSum

/-- The tiles that take part and whose PAUSE is set. -/
def State.pausedTiles (s : State) : List Nat := (List.range 144).filter (fun t => !s.asOff t && (s.paused t 0 || s.paused t 1))

/-- RELEASE goes again, to each agent that still reports PAUSE and to no other; the next gather shows what it did (R144; DESIGN CHOICE, notes/assumptions/110.md). -/
def State.releaseAgain (s : State) (c : CtxId) (rv : Bool) (left : Nat) : State :=
  let key := ((s.ctx c).job.map (·.key)).getD 0
  let one (s : State) (t : Nat) : State :=
    s.sendCtl c .step key true 0 0 (epAddr t 3) (engFunc engRelease) 63 (engArgs engRelease s.cur.toNat) 1 none
  (s.pausedTiles.foldl one (s.setWaiting left)).gatherOld c (.gather rv left)

/-- No plane is held any more (R144 step 5). -/
def State.allReleased (s : State) : State :=
  { s with seq := { s.seq with strCtx := none } }.p aStstate SEQ_STSTATE.PAUSE 0

/-- STDRAIN completes: the phase is IDLE, and no packet of the old stratum remains for R114 to order after (R146). -/
def State.drainEnds (s : State) (c : CtxId) : State :=
  let s := ((s.setPhase phIdle).bump aStstate SEQ_STSTATE.COMMITS).pb aStstate SEQ_STSTATE.REVERTED false
  let cur := s.cur
  let keep (n : Ni) : Ni := { n with hist := n.hist.filter (fun h => h.stratum == cur) }
  let nis : Tab Ni := s.nis.map (fun kv => (kv.1, keep kv.2))
  let s := { s with nis := nis.filter (fun kv => kv.2 != Ni.reset), seq := { s.seq with strCtx := none, partialFlip := false } }
  s.doneCode c rOk

/-- A gather of a drain or of a revert ends (R144, R146, R153). -/
def State.drainGathered (s : State) (c : CtxId) (rv : Bool) (x : Comb) : State :=
  let next (s : State) : State := s.gatherOld c (.gather rv 0)
  let left := oldPaused x.value + x.missing
  let again := s.heldPlane.isSome && s.seq.planeStr.isNone && oldPaused x.value != 0
  if x.missing ≠ 0 then
    if again then s.releaseAgain c rv left else next s
  else match s.seq.planeStr with
    | some p =>
      if (if p.val = 0 then oldRq x.value else oldRs x.value) = 0 then
        { s with seq := { s.seq with planeStr := none } }.sendRelease c rv
      else next s
    | none =>
      let s := if oldPaused x.value = 0 then s.allReleased else s
      if again then s.releaseAgain c rv left
      else if rv then s.revertFlips c
      else if oldRq x.value = 0 ∧ oldRs x.value = 0 ∧ oldUnits x.value = 0 then s.drainEnds c
      else next s

/-- The broadcast of RELEASE ends; the agents that are missing count in WAITING (R144). -/
def State.releaseEnds (s0 : State) (c : CtxId) (rv : Bool) (x : Comb) : State :=
  let s := s0.setWaiting x.missing
  if x.missing ≠ 0 then s.gatherOld c (.gather rv x.missing)
  else if rv then s.allReleased.revertFlips c
  else s.allReleased.gatherOld c (.gather rv 0)

/-- STQUERY with GATHER writes its two registers (R147). -/
def State.queryEnds (s : State) (c : CtxId) (second : W) : State :=
  let rd := iRd (s.ctx c).word
  let v := s.rd aStstate
  s.done c (fun j => (j.set rd v).set (rd + 1) second)

/-- A barrier of BARR ends; the abandoned messages count with the units (R267, R303). -/
def State.barrEnds (s : State) (c : CtxId) (missing abandoned : Nat) : State :=
  let s := { s with seq := { s.seq with abandoned := s.seq.abandoned - abandoned } }.setWaiting (missing + abandoned)
  s.doneCode c (if missing + abandoned = 0 then rOk else rTimeout)

/-- The combined answer of a step of context c has come. -/
def State.stepEnds (s : State) (c : CtxId) (k : StepKind) (id : Nat) (x : Comb) : State :=
  let n := x.missing
  match k with
  | .prepCopy => (s.setWaiting n).doneCode c (if n = 0 then rOk else rTimeout)
  | .commitBarrier => if n = 0 then (s.setWaiting 0).commitFlips c (fld x.value 0 2) else (s.setWaiting n).doneCode c rTimeout
  | .flip rv _ => ((s.setWaiting n).setCtx c { s.ctx c with wait := .step (.flip rv (some n)) id }).flipCheck c
  | .flush => s.gatherOld c (.gather false 0)
  | .gather rv _ => (s.setWaiting n).drainGathered c rv x
  | .release rv => s.releaseEnds c rv x
  | .queryGather =>
    (s.setWaiting n).queryEnds c
      (if n = 0 then BitVec.ofNat 64 (oldRq x.value + 2 ^ 32 * oldRs x.value) else BitVec.allOnes 64)
  | .barrier ab => s.barrEnds c n ab

/-- The tiles of a chain operation that have not confirmed. -/
def State.opMissing (s : State) (o : OutCtl) : Nat :=
  match o.op.bind (fun i => s.chn.ops.find? (fun x => x.opid == i)) with
  | some x => (if x.own then o.tiles else 0) + x.bad + x.silent + (x.waits.map (·.2)).foldl (· + ·) 0
  | none => o.tiles

/-- A step's bound expires (R147, R151, R154). -/
def State.stepExpires (s : State) (c : CtxId) (k : StepKind) (id : Nat) : State :=
  let n := match s.seq.ctls.find? (fun o => o.id == id) with | some o => s.opMissing o | none => 0
  let s := s.leaveCtl id
  match k with
  | .prepCopy => (s.setWaiting n).doneCode c rTimeout
  | .commitBarrier => (s.setWaiting n).doneCode c rTimeout
  | .flip _ f => s.flipEnds c (f.getD n + s.schedsLeft.length)
  | .flush => s.doneCode c rTimeout
  | .gather _ left => (s.setWaiting (max left n)).doneCode c rTimeout
  | .release _ => (s.setWaiting n).doneCode c rTimeout
  | .queryGather => (s.setWaiting n).queryEnds c (BitVec.allOnes 64)
  | .barrier ab => s.barrEnds c n ab

-- BARR, step 1 (R303).

/-- Accesses of the sequencer with a number below a mark that no port has answered, those of jobs that have ended among them. -/
def State.accsBelow (s : State) (key : Nat) : Bool :=
  (List.range 11).any (fun j => ((s.xport j).holder.toList ++ (s.xport j).pend).any (fun a => a.master == 8 && decide (a.req < key)))

/-- Accesses and messages that a BARR awaits remain: those numbered below the marks it took at its issue (R267, R303). -/
def State.barrBusy (s : State) (id key : Nat) : Bool :=
  s.seq.ctls.any (fun o => decide (o.id < id) && (o.kind == .send || o.kind == .bcast || o.kind == .call)) || s.accsBelow key

/-- What the barrier of an STCOMMIT awaits: every message and access of the sequencer, every configuration access and every message that a parent asked for, sent before it (R141). -/
def State.commitBusy (s : State) (id key : Nat) : Bool :=
  s.seq.ctls.any (fun o => decide (o.id < id) && o.kind != .step) || s.accsBelow key

-- The instructions.

/-- The context that issues stratum instructions while a plane is held is the one that may send messages (R143). -/
def State.strIssue (s : State) (c : CtxId) : State :=
  if s.heldPlane.isSome then { s with seq := { s.seq with strCtx := some c } } else s

/-- STPREP (R140). -/
def State.stprep (s : State) (c : CtxId) (mask : Nat) : State :=
  if s.phase = phDraining then s.doneCode c rBusy
  else
    let s := { s with seq := { s.seq with written := 0 } }.setPhase phPrepared
    if mask = 0 then s.doneCode c rOk else s.stepSend c .prepCopy engCopy mask spBroadcast opSum

/-- The barrier of an STCOMMIT is spread once every access and message sent before it has been answered (R141, R303). -/
def State.commitGo1 (s : State) (c : CtxId) : State :=
  match (s.ctx c).wait with
  | .commitDrain id key => if s.commitBusy id key then s else s.stepSend c .commitBarrier engBarrier 0 spGather opOr
  | _ => s

/-- STCOMMIT (R141, R153, R154); one that only returns a code leaves the context that may send where it is. -/
def State.stcommit (s : State) (c : CtxId) (rv : Bool) : State :=
  if rv then
    if s.phase ≠ phDraining then s.doneCode c rNotPrep
    else if s.heldPlane.isSome then (s.strIssue c).gatherOld c (.gather true 0)
    else s.revertFlips c
  else if s.phase = phIdle then s.doneCode c rNotPrep
  else if s.phase = phPrepared then (s.setCtx c { s.ctx c with wait := .commitDrain s.seq.nextId s.seq.nextKey }).commitGo1 c
  else if s.seq.partialFlip then (s.strIssue c).flipRound c false
  else s.doneCode c rBusy

/-- STDRAIN (R144, R146). -/
def State.stdrain (s : State) (c : CtxId) (fl : Bool) : State :=
  if s.phase ≠ phDraining then s.doneCode c rOk
  else if fl then (s.strIssue c).stepSend c .flush engFlush 0 spBroadcast opSum
  else (s.strIssue c).gatherOld c (.gather false 0)

/-- STQUERY (R147): it changes nothing but its registers and WAITING. -/
def State.stquery (s : State) (c : CtxId) (gather : Bool) : State :=
  if gather then s.gatherOld c .queryGather else s.doneRd c (s.rd aStstate)

end Sys2Proof.Machine
end

