-- ==== Sys2Proof/Machine/RegRead.lean ====
section
/-! DEFINITION. What every register of the management map reads as: stored words, the fields that show other state, and the reads that act (R9, R33, R131, R145, R149, R164, R184, R206, R209, R211, R220, R244, R271, R282, R291, R315, R327, R340, R362, R377, R400, R450, R456). -/
namespace Sys2Proof.Machine

-- Old packets of a tile (R145).

/-- Old packets that a router input VC holds. -/
def oldInVc (cur : Bool) (x : InVc) : Nat :=
  (x.buf.filter (fun f => (f.ftype.toNat == ftHead || f.ftype.toNat == ftHeadTail) && f.stratum != cur)).length
    + (match x.cur with | some c => if c.hdr.stratum != cur then 1 else 0 | none => 0)

/-- Old packets whose header an originator has put on a local input's wires. -/
def oldWire (cur : Bool) (w : List Sys2Proof.RawFlit) : Nat :=
  (w.filter (fun f => (fld f.sb 3 2 == ftHead || fld f.sb 3 2 == ftHeadTail) && bitOf f.sb 5 != cur)).length

/-- Old requests that an initiator NI has accepted and not injected. -/
def oldReqs (cur : Bool) (n : Ni) : Nat :=
  ((n.injq ++ n.dwait.toList).filter (fun r => r.refuse.isNone && r.stratum != cur)).length

/-- OLDRQ (plane 0) and OLDRS (plane 1) of a tile (R145, R149). -/
def State.oldCount (s : State) (t pl : Nat) : Nat :=
  let r := s.router t pl
  let a := (r.inv.map (fun kv => oldInVc s.cur kv.2)).foldl (· + ·) 0
  let b := (r.inw.map (fun kv => oldWire s.cur kv.2)).foldl (· + ·) 0
  let c := if pl = 0 then ((List.range 3).map (fun p => oldReqs s.cur (s.ni t p))).foldl (· + ·) 0 else 0
  a + b + c

/-- SLOTOLD of a tile. -/
def State.slotOld (s : State) (t : Nat) : Bool := (List.range 3).any (fun p => (s.ni t p).slotOld)

/-- DLDIFF of a tile: a dateline field of the two banks differs on a plane (R141, R149). -/
def State.dlDiff (s : State) (t pl : Nat) : Bool :=
  (List.range 12).any (fun j =>
    fld (s.rd (aMap t pl 0 j)) 48 8 != fld (s.rd (aMap t pl 1 j)) 48 8)

-- Tile windows.

/-- The NI register at an offset of a port's window. -/
def State.niRead (s : State) (t p k : Nat) : W :=
  let o := niBase t p + k
  let v := s.rd o
  if k = 0 then setFld v 4 2 (s.niState t p)
  else if k = 8 then setFld v 0 9 (min 0x1FF (s.outstd t p))
  else if s.kind t p = .initiator ∧ inArr k 0x20 8 4 = true then setFld v 40 8 (s.niTok t p ((k - 0x20) / 8) / 65536)
  else if s.kind t p = .message ∧ inArr k 0x500 8 16 = true then setFld v 40 8 ((s.ni t p).mboxCount ((k - 0x500) / 8))
  else v

/-- The register at an offset of a tile's window; zero where none stands, and at TL_MBIST, which only the restore window reaches (R451). -/
def State.tlRead (s : State) (t k : Nat) : W :=
  let o := tlBase t + k
  if (rowsTl s.build t k).isEmpty ∨ k = 0x4400 then 0
  else if k = 0x30 then
    setFld (setFld (setFld (setFld (setFld (s.rd o) 32 16 (min 0xFFFF (s.oldCount t 1))) 16 16 (min 0xFFFF (s.oldCount t 0))) 5 1 (s.slotOld t).toNat)
      4 1 (s.dlDiff t 1).toNat) 3 1 (s.dlDiff t 0).toNat
  else if k = 0x38 then s.fenceWord t
  else if k = 0x40 then
    setFld (setFld (s.rd o) 8 8 (min 0xFF ((s.agent t).edge.length + (s.agent t).level.length))) 2 2 (if s.powered t then s.pst t else 0)
  else if 0x1000 ≤ k ∧ k < 0x4000 then s.niRead t (k / 0x1000 - 1) (k % 0x1000)
  else s.rd o

-- The other ranges.

/-- Transactions of a host from before its reset, whose answers will be sunk (R360). -/
def State.sinking (s : State) (h : Nat) : Nat :=
  ((List.range 11).filter (fun j => (s.xport j).sunk && (match (s.xport j).holder with | some a => a.master == h | none => false))).length

/-- OUTST: the requests accepted and neither answered nor sunk (R361, R362). -/
def State.outst (s : State) (h : Nat) : Nat := (s.host h).reqs.length + s.sinking h

/-- A released host port waits for its crossing, or for transactions from before its reset (R361). -/
def State.hostWaits (s : State) (h : Nat) : Bool := (s.host h).waitClear || decide (0 < s.sinking h)

def State.xbRead (s : State) (o : Nat) : W :=
  if inArr o 0x200 8 11 then
    let x := s.xport ((o - 0x200) / 8)
    let v := setFld (s.rd o) 32 4 (match x.holder with | some a => a.master | none => 0xF)
    x.pend.foldl (fun v a => putBit v a.master true) v
  else if inArr o 0x380 8 8 then
    let h := s.host ((o - 0x380) / 8)
    setFld (setFld (s.rd o) 3 1 (h.low || s.hostWaits ((o - 0x380) / 8)).toNat) 0 3 (s.outst ((o - 0x380) / 8))
  else s.rd o

/-- The offset not yet absorbed, in whole ns (R398, R400). -/
def State.slewLeft (s : State) : Int :=
  match s.tb.slew with
  | some sl =>
    let a : Int := sl.absorbed s.tb.period (s.fcc - s.tb.cb)
    (if 0 ≤ sl.rem then sl.rem - a else sl.rem + a).tdiv nsUnit
  | none => 0

def State.pmRead (s : State) (o : Nat) : W :=
  if o = aGovstat then setFld (s.rd o) 48 16 (min 0xFFFF ((s.pm.pavg / 10).floor.toNat))
  else if o = aRstdata then 0
  else if o = aTbTime then BitVec.ofNat 64 s.ntNs
  else if o = aTbSlewrem then BitVec.ofInt 64 s.slewLeft
  else if o = aTbStat then setFld (setFld (s.rd o) 4 1 s.tb.slew.isSome.toNat) 3 1 s.tb.armed.isSome.toNat
  else s.rd o

/-- EVC_CTXSTAT of a target (R340). -/
def State.ctxStat (s : State) (t : Nat) : W :=
  let st := s.stack t
  let top := st.headD (1022, 0)
  let v := setFld (setFld (setFld (s.rd (aCtx t)) 0 10 top.1) 10 8 top.2) 18 4 st.length
  setFld (setFld v 22 1 (bitOf s.evc.irq t).toNat) 23 1 (bitOf s.evc.spur t).toNat

def State.evcRead (s : State) (o : Nat) : W :=
  let k := o - baseEvc
  if inArr k 0x1080 8 16 then s.rd (aPend ((k - 0x1080) / 8))
  else if 0x10000 ≤ k ∧ k < 0x14000 ∧ inArr (k % 0x100) 0x80 8 16 = true then s.rd (aEn ((k - 0x10000) / 0x100) (k % 0x80 / 8))
  else if 0x20000 ≤ k ∧ k < 0x21000 ∧ k % 0x40 = 0x18 then s.ctxStat ((k - 0x20000) / 0x40)
  else s.rd o

/-- SEQ_CTXSTAT.STATE (R291). -/
def waitState : Wait → Nat
  | .none => 1
  | .access => 1
  | .time _ => 1
  | .waitc _ => 2
  | .waitt _ => 2
  | .fence _ => 2
  | .step _ _ => 2
  | .barrDrain _ _ _ => 2
  | .commitDrain _ _ => 2
  | .call _ _ => 3
  | .gather _ => 3
  | .inject _ _ => 1
  | .room => 3
  | .lock _ _ => 4

/-- SEQ_CTXSTAT of a context (R291): between instructions, PC and OP name the one that issues next; without a job, TSOUT alone is not zero. -/
def State.ctxstatRead (s : State) (c : CtxId) : W :=
  match (s.ctx c).job with
  | none => BitVec.ofNat 64 (2 ^ 32 * s.tsOut c)
  | some j =>
    let word := if (s.ctx c).wait = .none then s.ringWord j.ring.val (s.head j.ring.val + 4 + j.pc.toNat) else (s.ctx c).word
    BitVec.ofNat 64 (1 + 2 * waitState (s.ctx c).wait + 2 ^ 4 * j.ring.val + 2 ^ 8 * j.pc.toNat + 2 ^ 25 * iOp word
      + 2 ^ 32 * s.tsOut c + 2 ^ 48 * j.jobid.toNat)

/-- Word h of microword m: bytes 0 to 11, then zeros (R282). -/
def State.microRead (s : State) (m h : Nat) : W :=
  let v := tget (0 : BitVec 96) s.micro m
  if h = 0 then v.extractLsb' 0 64 else (v.extractLsb' 64 32).setWidth 64

def State.seqRead (s : State) (o : Nat) : W :=
  let k := o - baseSeq
  if k = 0 then
    setFld (s.rd o) 8 4 ((ctxIds.map (fun c => if (s.ctx c).job.isSome then 2 ^ c.val else 0)).foldl (· + ·) 0)
  else if inArr k 0x10 8 4 then
    (match ctxIds[(k - 0x10) / 8]? with | some c => s.ctxstatRead c | none => 0)
  else if inArr k 0x500 8 64 then setFld (s.rd o) 32 32 (tget 0 s.seq.leaseEnd ((k - 0x500) / 8) - s.ticks)
  else if 0x60000 ≤ k then s.microRead ((k - 0x60000) / 16) (k % 16 / 8)
  else s.rd o

def State.puRead (s : State) (o : Nat) : W :=
  if inArr o (aVsum 0) 8 7 then
    let j := (o - aVsum 0) / 8
    (List.range 64).foldl (fun v b => if 64 * j + b < 432 then putBit v b (s.gb (aVrec0 (64 * j + b)) PU_VREC0.VALID) else v) 0
  else s.rd o

/-- A link end of a tile shows trouble (R450). -/
def State.linkTrouble (s : State) (t : Nat) : Bool :=
  [0, 1].any (fun pl => [0, 1].any (fun e => (List.range 4).any (fun d =>
    let w := s.rd (aLnkstat t pl e d)
    bitOf w 3 || fld w 0 3 == lkDown || fld w 0 3 == lkFailed || decide (fld w 26 6 < s.g aLcfg OBS_LCFG.CALMIN))))

/-- A host reads a trace buffer that it does not own as zero (R456). -/
def State.obsRead (s : State) (m : Master) (o : Nat) : W :=
  let k := o - baseObs
  if inArr k 0x10 8 3 then
    let j := (k - 0x10) / 8
    (List.range 64).foldl (fun v b => if 64 * j + b < 144 then putBit v b (s.linkTrouble (64 * j + b)) else v) 0
  else if 0x80000 ≤ k then
    let b := (k - 0x80000) / 0x10000
    if masterIsSeq m = false ∧ ownerCode m ≠ s.g (aTbctl b) OBS_TBCTL.OWNER then 0 else s.rd o
  else s.rd o

/-- Whole tokens of a signed bucket, in 32 bits. -/
def wholeTok (x : Int) : W := (BitVec.ofInt 32 (x / (shUnit : Int))).setWidth 64

/-- What a read of the TM window shows. The tokens of a meter and of a policer are shown refilled up to now, not as of the last decision (R209; DESIGN CHOICE, notes/assumptions/150.md). -/
def State.tmRead (s : State) (o : Nat) : W :=
  let k := o - baseTm
  if o = aBmstat then setFld (s.rd o) 0 30 s.freeCells
  else if 0x520000 ≤ k ∧ k < 0x540000 ∧ k % 0x10 = 8 then wholeTok (s.shTok ((k - 0x520000) / 0x10))
  else if 0x540000 ≤ k ∧ k < 0x5C0000 ∧ k % 0x20 = 0x10 then
    let z := s.mtrTok ((k - 0x540000) / 0x20)
    BitVec.ofNat 64 (z.1 / mtUnit + 2 ^ 32 * (z.2 / mtUnit))
  else if 0x5C0000 ≤ k ∧ k < 0x5C1000 ∧ k % 0x10 = 8 then
    let i := (k - 0x5C0000) / 0x10
    setFld (s.rd o) 0 32 (s.polTok i / mtUnit)
  else if 0x5D0000 ≤ k ∧ k < 0x5D0800 then
    let e := (k - 0x5D0000) / 0x40
    let g := s.gate e
    if k % 0x40 = 0x18 then
      let x := s.gatesAt e (s.gateTime e)
      BitVec.ofNat 64 (g.bank.toNat + 2 * g.pend.isSome.toNat + 8 * x.1 + 2 ^ 16 * x.2.1)
    else if k % 0x40 = 0x20 then BitVec.ofNat 64 (g.pend.getD g.start)
    else if k % 0x40 = 0x28 then wholeTok (s.pTok e)
    else s.rd o
  else s.rd o

def State.ftRead (s : State) (o : Nat) : W :=
  if o = aFtStat then setFld (s.rd o) 18 7 s.ft.learnq.length else s.rd o

/-- The word at an offset as a master reads it, for the reads that change nothing. -/
def State.peek (s : State) (m : Master) (o : Nat) : W :=
  if baseTl ≤ o ∧ o < endTl then s.tlRead ((o - baseTl) / 0x10000) ((o - baseTl) % 0x10000)
  else if (rowsAt s.build o).isEmpty ∧ ¬ (baseSeq + 0x60000 ≤ o ∧ o < basePu) then 0
  else if o < baseBf then s.xbRead o
  else if o < basePm then s.rd o
  else if o < baseEvc then s.pmRead o
  else if o < baseSeq then s.evcRead o
  else if o < basePu then s.seqRead o
  else if o < baseObs then s.puRead o
  else if o < 0x300000 then s.obsRead m o
  else if baseTm ≤ o ∧ o < baseFt then s.tmRead o
  else s.ftRead o

/-- The tile and register that PM_RSTADDR names. -/
def State.rstTile (s : State) : Nat := s.g aRstaddr PM_RSTADDR.TILE
def State.rstOff (s : State) : Nat := s.g aRstaddr PM_RSTADDR.OFFSET

/-- A read of PM_RSTDATA (R377). -/
def State.windowRead (s : State) : State × W :=
  let t := s.rstTile
  if 144 ≤ t then (s, 0)
  else if s.windowOpen t then (s, if s.rstOff = 0x4400 then s.rd (aMbist t) else s.tlRead t s.rstOff)
  else (s.pmReject t, 0)

/-- The loader reads XB, BOOT and FUSE alone; every other master reads the whole map (R36). -/
def mayRead (m : Master) (o : Nat) : Bool := m != .bl || decide (o < baseChn)

/-- A read by a master that is active and has the right to it, with its effect: EVC_CLAIM by the owning host claims (R327), PM_RSTDATA acts on the tile that PM_RSTADDR names (R377), a read of the microcode checks its parity (R283). Any other read answers zero and does nothing. -/
def State.readReg (s : State) (m : Master) (o : Nat) : State × W :=
  if s.masterActs m = false ∨ mayRead m o = false then (s, 0)
  else if inArr o (aClaim 0) 0x40 64 then
    let t := (o - aClaim 0) / 0x40
    if masterHost m = some (t / 8) then
      let r := s.claim t
      (r.1, BitVec.ofNat 64 r.2)
    else (s, 1022)
  else if o = aRstdata then s.windowRead
  else (s.windowCheck o, s.peek m o)

end Sys2Proof.Machine
end

