-- ==== Sys2Proof/Machine/RegWrite.lean ====
section
/-! DEFINITION. What a write to every register of the management map does: the access codes and rights, the banked registers, the PU ownership, and the writes that act (R9, R10, R12, R34 to R36, R128, R134, R164, R218, R237, R239, R240, R333, R377, R400, R436). -/
namespace Sys2Proof.Machine

-- Access codes (R9).

/-- A word stored by the access codes: RW and SQ fields take the bits under the mask, W1C bits under it that are 1 are cleared, the rest stays. -/
def codeWrite (rs : List Fd) (old v mask : W) : W :=
  let set := mask &&& (maskOf .rw rs ||| maskOf .sq rs)
  ((old &&& ~~~set) ||| (v &&& set)) &&& ~~~(v &&& mask &&& maskOf .w1c rs)

/-- A register written by its access codes alone. -/
def State.plainWrite (s : State) (o : Nat) (v mask : W) : State := s.wr o (codeWrite (rowsAt s.build o) (s.rd o) v mask)

/-- A word with the bits under a mask replaced. -/
def mixWord (old v mask : W) : W := (old &&& ~~~mask) ||| (v &&& mask)

-- Banked registers (R133, R134).

/-- The bank that a register belongs to, for a register that a stratum governs. -/
def bankOf (b : Build) (o : Nat) : Option Bool :=
  if (rowsAt b o).isEmpty then none
  else if baseTl ≤ o ∧ o < endTl then
    let k := (o - baseTl) % 0x10000
    if k < 0x20 then some (decide (k % 0x10 = 8))
    else if 0x100 ≤ k ∧ k < 0x300 then some (decide (k % 0x100 / 0x80 = 1))
    else if 0x1000 ≤ k ∧ k < 0x4000 ∧ 0x100 ≤ k % 0x1000 ∧ k % 0x1000 < 0x500 then some (decide ((k % 0x1000 - 0x100) / 0x200 = 1))
    else none
  else if basePu ≤ o ∧ o < basePu + 432 * 0x800 then some (decide ((o - basePu) % 0x800 / 0x400 = 1))
  else if baseTm + 0x400000 ≤ o ∧ o < baseTm + 0x500000 then some (decide ((o - baseTm - 0x400000) / 0x80000 = 1))
  else if baseTm + 0x500000 ≤ o ∧ o < baseTm + 0x520000 then some (decide ((o - baseTm - 0x500000) / 0x10000 = 1))
  else if baseTm + 0x600000 ≤ o ∧ o < baseTm + 0x680000 then some (decide ((o - baseTm - 0x600000) % 0x4000 / 0x2000 = 1))
  else if baseTm + 0x680000 ≤ o ∧ o < baseTm + 0x680800 then some (decide ((o - baseTm - 0x680000) % 0x40 / 0x20 = 1))
  else none

/-- A write to the register is refused: its bank is in use, or the commit phase is not PREPARED (R134). -/
def State.bankRefuses (s : State) (o : Nat) : Bool :=
  match bankOf s.build o with
  | some b => b == s.cur || s.phase != phPrepared
  | none => false

/-- A refused write is noted (R134). -/
def State.wrBlocked (s : State) : State := (s.pb aStstate SEQ_STSTATE.WRBLOCK true).raise 940

-- Tile windows.

/-- A write of TL_NICFG (R128, R129). FORCE is taken as the field stands at ABTO, so a write that sets ENABLE with FORCE = 0 ends what a forced disable would abort (DESIGN CHOICE, notes/assumptions/143.md). -/
def State.nicfgWrite (s : State) (t p : Nat) (v mask : W) : State :=
  let o := aNicfg t p
  let w := mixWord (s.rd o) v mask
  let s := (s.p o TL_NICFG.ABTO (fld w 32 16)).p o TL_NICFG.RTO (fld w 16 16)
  if bitOf w 0 then (s.pb o TL_NICFG.FORCE (bitOf w 1)).niEnable t p else s.niDisable t p (bitOf w 1)

/-- A write of TL_NIREG (R119): a regulator that is enabled starts with BURST tokens; tokens above a new BURST are lost. -/
def State.niregWrite (s : State) (t p c : Nat) (v mask : W) : State :=
  let was := bitOf (s.rd (aNireg t p c)) 63
  let s := (s.settleTok t p).plainWrite (aNireg t p c) v mask
  let n := s.ni t p
  let cap := max 5 (fld (s.rd (aNireg t p c)) 24 8) * 65536
  let x := if was = false ∧ bitOf (s.rd (aNireg t p c)) 63 = true then cap else min cap (tget 0 n.tok c)
  s.setNi t p { n with tok := tput 0 n.tok c x }

/-- A write at an offset of a tile's window, with the writer's rights; through the restore window when the flag says so (R377, R451). -/
def State.tlPut (s : State) (t k : Nat) (v mask : W) (window : Bool) : State :=
  let o := tlBase t + k
  if (rowsTl s.build t k).isEmpty then s
  else if 0x1000 ≤ k ∧ k < 0x4000 then
    let p := k / 0x1000 - 1
    let j := k % 0x1000
    if j = 0 then s.nicfgWrite t p v mask
    else if s.kind t p = .initiator ∧ inArr j 0x20 8 4 = true then s.niregWrite t p ((j - 0x20) / 8) v mask
    else s.plainWrite o v mask
  else if k = 0x4400 ∧ window = false then s
  else if k = 0x4400 then s.mbistWrite t (mixWord (s.rd o &&& ~~~1#64) v mask)
  else s.plainWrite o v mask

/-- A write at an offset of a tile's window by its agent: the state after, and whether R134 refused it. -/
def State.tlWrite (s : State) (t k : Nat) (v mask : W) : State × Bool :=
  if s.bankRefuses (tlBase t + k) then (s.wrBlocked, true)
  else (s.tlPut t k v mask false, false)

/-- A write of PM_RSTDATA (R377). -/
def State.windowWrite (s : State) (v mask : W) : State :=
  let t := s.rstTile
  if 144 ≤ t then s
  else if s.windowOpen t then s.tlPut t s.rstOff v mask true
  else s.pmReject t

-- Protection units.

/-- The index of the PU whose rules, control or record stand at an offset. -/
def puAt (o : Nat) : Nat := if o < puBase 0 then (o - basePu) / 0x800 else (o - puBase 0) / 0x40

/-- A write to a PU is allowed to a master (R239). -/
def State.puOwned (s : State) (m : Master) (i : Nat) : Bool :=
  let byHost (h : Nat) : Bool := decide (s.puDom i < 8) && s.domHost (s.puDom i) == some h
  match m with
  | .sq r => r.val == 8 || byHost r.val
  | .host h => byHost h.val
  | .chHost h => byHost h.val
  | .chSq => Config.remoteSequencerOwns i
  | .bl => false

/-- A write to PU i that R239 does not allow; the event leaves from the PU's tile (R22, R240, R242, R244). -/
def State.ownRej (s : State) (i : Nat) : State := ((s.pb aPuErr PU_ERR.OWNREJ true).sat aPuErr PU_ERR.REJCNT).raiseFrom (i / 3) 904

/-- A write that the PU of its offset takes (R233, R237). -/
def State.puPut (s : State) (o : Nat) (v mask : W) : State :=
  if o < puBase 0 then s.plainWrite o v mask
  else if (o - puBase 0) % 0x40 = 0x10 then (if bitOf (v &&& mask) 63 then s.clearViolation (puAt o) else s)
  else s.plainWrite o v mask

/-- A write in the range of rules and PU control, by a master with the right to write it (R134, R239, R240). A write of reserved or read-only bits is a write to the PU as well. -/
def State.puWrite (s : State) (m : Master) (o : Nat) (v mask : W) : State × Nat :=
  if (rowsAt s.build o).isEmpty then (s, 0)
  else if s.puOwned m (puAt o) = false then (s.ownRej (puAt o), 1)
  else if s.bankRefuses o then (s.wrBlocked, 1)
  else (s.puPut o v mask, 0)

-- The other ranges.

/-- A write in the PM and TB range by the sequencer (R372, R377, R394, R395, R400). -/
def State.pmWrite (s : State) (m : Master) (o : Nat) (v mask : W) : State :=
  let hit := v &&& mask
  if inArr o (aPmTile 0) 8 144 then
    let t := (o - aPmTile 0) / 8
    let s := if bitOf hit 7 then s.pb o PM_TILE.REJ false else s
    let s := if fld mask 32 2 = 3 then s.minstWrite t (fld v 32 2) else s
    s.pmCmd t (fld hit 48 8)
  else if o = aRstdata then s.windowWrite v mask
  else if o = aTbCfg then
    let s := s.plainWrite o v mask
    if bitOf hit 0 then s.timeInvalidate m else s
  else if o = aTbPeriod then s.periodWrite m (mixWord (BitVec.ofNat 64 s.tb.period) v mask)
  else s.plainWrite o v mask

/-- A write in the EVC range (R333 to R336, R340). -/
def State.evcWrite (s : State) (m : Master) (o : Nat) (v mask : W) : State :=
  let k := o - baseEvc
  let hit := v &&& mask
  if o = aEvcCfg then (if fld mask 0 8 = 0 then s else s.prisplitWrite m (fld v 0 3))
  else if inArr k 0x1000 8 16 then s.setPendWord m ((k - 0x1000) / 8) hit
  else if inArr k 0x1080 8 16 then s.clrPendWord m ((k - 0x1080) / 8) hit
  else if 0x10000 ≤ k ∧ k < 0x14000 then
    let t := (k - 0x10000) / 0x100
    let j := k % 0x100
    if inArr j 0 8 16 then s.enSetWord m t (j / 8) hit
    else if inArr j 0x80 8 16 then s.enClrWord m t (j % 0x80 / 8) hit
    else s
  else if 0x20000 ≤ k ∧ k < 0x21000 then
    let t := (k - 0x20000) / 0x40
    if k % 0x40 = 8 then (if fld mask 0 16 = 0 then s else if s.ownsTarget m t then s.complete t (fld hit 0 10) else s)
    else if k % 0x40 = 0x10 then (if fld mask 0 8 = 0 then s else s.threshWrite m t (BitVec.ofNat 8 (fld v 0 8)))
    else s
  else if s.sqRight m then (s.plainWrite o v mask).evcCycle
  else s

/-- A write to a program ring (R285): each half of the word is a slot. -/
def State.ringWrite (s : State) (m : Master) (k : Nat) (v mask : W) : State :=
  let r := (k - 0x10000) / 0x4000
  let i := (k - 0x10000) % 0x4000 / 8
  let w := mixWord (s.rd (aRing r i)) v mask
  let half (s : State) (h : Nat) : State :=
    if fld mask (32 * h) 32 = 0 then s else s.slotWrite m r (2 * i + h) (w.extractLsb' (32 * h) 32)
  half (half s 0) 1

/-- A write in the SEQ range (R285, R286, R289, R291). -/
def State.seqWrite (s : State) (m : Master) (o : Nat) (v mask : W) : State :=
  let k := o - baseSeq
  if 0x100 ≤ k ∧ k < 0x220 then
    let r := (k - 0x100) / 0x20
    let x := fld (mixWord (s.rd o) v mask) 0 16
    if fld mask 0 16 = 0 then s
    else if k % 0x20 = 0 then s.ringtailWrite m r x
    else if k % 0x20 = 0x10 then s.cplheadWrite m r x
    else s
  else if 0x10000 ≤ k ∧ k < 0x34000 then s.ringWrite m k v mask
  else if s.sqRight m then s.plainWrite o v mask
  else s

/-- A write in the OBS range (R35, R450, R452, R454, R456). -/
def State.obsWrite (s : State) (m : Master) (o : Nat) (v mask : W) : State :=
  let k := o - baseObs
  let w := mixWord (s.rd o) v mask
  if o = aLcfg then (if s.sqRight m then s.lcfgWrite w else s)
  else if 0x10000 ≤ k ∧ k < 0x11000 then
    let p := (k - 0x10000) / 0x80
    if k % 0x80 = 0 then s.prbctlWrite m p w
    else if inArr (k % 0x80) 8 8 4 then s.prbWordWrite m p o w
    else s
  else if inArr k 0x20000 8 8 then
    let b := (k - 0x20000) / 8
    if bitOf mask 0 then s.tbctlWrite m b w
    else if s.obsWriter m && ownerAllows m (s.gb o OBS_TBCTL.ARM) (s.g o OBS_TBCTL.OWNER) then s.plainWrite o v mask
    else s
  else s

/-- The scheduler whose gate lists stand at an offset, and a write of an idle list since STPREP is noted (R137). -/
def State.gateWrite (s : State) (k o : Nat) (v mask : W) : State :=
  let s := s.plainWrite o v mask
  { s with seq := { s.seq with written := putBit s.seq.written k true } }

/-- A write in the TM range by the sequencer (R161, R164, R171, R172, R206, R209, R210, R220). -/
def State.tmWrite (s : State) (o : Nat) (v mask : W) : State × Nat :=
  let k := o - baseTm
  let w := mixWord (s.rd o) v mask
  if s.bankRefuses o then (s.wrBlocked, 1)
  else (
    if (rowsTm k).isEmpty then s
    else if k < 0x200000 then s.qdescWrite (k / 0x20) (k % 0x20 / 8) w
    else if inArr k 0x200000 8 1024 then s.qpartWrite ((k - 0x200000) / 8) w
    else if o = aPbcfg then s.pbcfgWrite (mixWord (s.rd o &&& ~~~(1#64 <<< 63)) v mask)
    else if 0x520000 ≤ k ∧ k < 0x540000 then (if k % 0x10 = 0 then s.shaperWrite ((k - 0x520000) / 0x10) (mixWord (s.rd o) v mask) else s)
    else if 0x540000 ≤ k ∧ k < 0x5C0000 then s.meterWrite ((k - 0x540000) / 0x20) (k % 0x20 / 8) w
    else if 0x5C0000 ≤ k ∧ k < 0x5C1000 then
      let i := (k - 0x5C0000) / 0x10
      if k % 0x10 = 0 then s.polWrite i w else if bitOf (v &&& mask) 63 then s.polReset i else s
    else if 0x5D0000 ≤ k ∧ k < 0x5D0800 then
      let e := (k - 0x5D0000) / 0x40
      (s.setPtok e (s.pTok e)).plainWrite o v mask
    else if 0x600000 ≤ k ∧ k < 0x680000 then s.gateWrite ((k - 0x600000) / 0x4000) o v mask
    else if 0x680000 ≤ k ∧ k < 0x680800 then s.gateWrite ((k - 0x680000) / 0x40) o v mask
    else s.plainWrite o v mask, 0)

/-- A write in the FT range by the sequencer (R183, R184). -/
def State.ftPut (s : State) (o : Nat) (v mask : W) : State :=
  let k := o - baseFt
  if k < 0x400000 then (if k % 8 = 0 then s.ftWrite (k / 32) (k % 32 / 8) (mixWord (s.rd o) v mask) else s) else s.plainWrite o v mask

/-- A write of the chain range by the sequencer (R430, R436). -/
def State.chnWrite (s : State) (o : Nat) (v mask : W) : State :=
  let s := s.plainWrite o v mask
  if o = aChnCtl ∧ bitOf (v &&& mask) 0 = true then s.enumRoot else s

/-- A write in the TM or the FT range: the state after, and the crossbar's code. -/
def State.tmftWrite (s : State) (o : Nat) (v mask : W) : State × Nat :=
  if o < baseFt then s.tmWrite o v mask else if o < 0x2800000 then (s.ftPut o v mask, 0) else (s, 0)

/-- A master's write of the XB range: the W1C bits are every host's and the sequencer's (R35, R36). -/
def State.xbWrite (s : State) (m : Master) (o : Nat) (v mask : W) : State :=
  if s.sqRight m then s.plainWrite o v mask
  else if (masterHost m).isSome then s.plainWrite o v (mask &&& maskOf .w1c (rowsAt s.build o)) else s

/-- The loader's writes act in BOOT, and on ring 8 (R36). -/
def blActs (o : Nat) : Bool :=
  (decide (baseBf ≤ o) && decide (o < baseChn) || decide (baseSeq ≤ o) && decide (o < basePu))

/-- A write of the bytes under a strobe at an aligned offset by a master: the state after, and the crossbar's code, 1 REFUSED or 0 (R9, R10, R34 to R36, R134, R240, R346, R348). A beat without a strobe writes no byte: it is answered OK and refused nowhere, at a PU and at a bank in use too (DESIGN CHOICE, notes/assumptions/26.md). -/
def State.writeReg (s : State) (m : Master) (o : Nat) (v : W) (strb : BitVec 8) : State × Nat :=
  let mask := strbMask strb
  let right := s.sqRight m
  if mask = 0 ∨ s.masterActs m = false ∨ (m = .bl ∧ blActs o = false) then (s, 0)
  else if o < baseBf then (s.xbWrite m o v mask, 0)
  else if o < baseChn then (if m = .bl ∧ inArr o (aBootData 0) 8 4096 = true then s.wr o (mixWord (s.rd o) v mask) else if right ∨ m = .bl then s.plainWrite o v mask else s, 0)
  else if o < basePm then (if right then s.chnWrite o v mask else s, 0)
  else if o < baseEvc then (if right then s.pmWrite m o v mask else s, 0)
  else if o < baseSeq then (s.evcWrite m o v mask, 0)
  else if o < basePu then (s.seqWrite m o v mask, 0)
  else if o < baseObs then (if right = false then (s, 0) else if o < aVsum 0 then s.puWrite m o v mask else (s.plainWrite o v mask, 0))
  else if o < 0x300000 then (s.obsWrite m o v mask, 0)
  else if right = false then (s, 0)
  else if baseTl ≤ o ∧ o < endTl then
    let r := s.tlWrite ((o - baseTl) / 0x10000) ((o - baseTl) % 0x10000) v mask
    (r.1, r.2.toNat)
  else if baseTm ≤ o then s.tmftWrite o v mask
  else (s, 0)

/-- A tile's registers can be reached over the fabric: not in SLEEP, FENCED, RESTORE or without power (R377). -/
def State.reachable (s : State) (t : Nat) : Bool := s.pst t == 0 || s.pst t == 3

/-- The endpoint side of a PU cannot take a value: its clock stands, or its half of the crossing is in reset or not reconnected (R385, R387). -/
def State.epStands (s : State) (i : Nat) : Bool :=
  let n := s.ni (i / 3) (i % 3)
  n.clkStop || n.epLow || !n.epUp

/-- A write changes ACT or a PRIV bit of a PU whose endpoint side cannot take the value: the register has it at once, and the write completes when the value has crossed (R232 to R234, R387; DEDUCED, notes/assumptions/125.md). -/
def State.actWaits (s : State) (o : Nat) (v mask : W) : Bool :=
  let w := codeWrite (rowsAt s.build o) (s.rd o) v mask
  decide (puBase 0 ≤ o) && decide (o < aVsum 0) && decide ((o - puBase 0) % 0x40 = 0) && !(rowsAt s.build o).isEmpty
    && [PU_CTL.ACT, PU_CTL.PRIV0, PU_CTL.PRIV1].any (fun f => fld w f.lo f.w != s.g o f) && s.epStands (puAt o)

/-- The same for a write that R239 allows. -/
def State.writeWaits (s : State) (m : Master) (o : Nat) (v : W) (strb : BitVec 8) : Bool :=
  s.sqRight m && s.actWaits o v (strbMask strb) && s.puOwned m (puAt o)

/-- REGISTER_WRITE (R9): the write as its target applies it. A tile's register is written while its tile can be reached. -/
def execRegisterWrite (m : Master) (off : BitVec 26) (v : W) (strb : BitVec 8) (s : State) : Res :=
  .next (
    let o := off.toNat
    if o % 8 ≠ 0 ∨ (baseTl ≤ o ∧ o < endTl ∧ s.reachable ((o - baseTl) / 0x10000) = false) then s
    else (s.writeReg m o v strb).1)

/-- PU_CTL_WRITE (R233, R239, R240): ACT takes effect in the tile domain; an endpoint side that stands takes it later, before any request of its port. -/
def execPuCtlWrite (m : Master) (t : Tile) (p : LPort) (v : W) (s : State) : Res :=
  .next (s.writeReg m (aPuCtl (puIndex t.val p.val)) v 0xFF).1

/-- VIOLATION_CLEAR (R237, R239, R240). -/
def execViolationClear (m : Master) (t : Tile) (p : LPort) (s : State) : Res :=
  .next (s.writeReg m (aVrec0 (puIndex t.val p.val)) 0x8000000000000000 0xFF).1

/-- RESTORE_ACCESS (R377): a read's value stands on no field of the state. -/
def execRestoreAccess (m : Master) (write : Bool) (v : W) (s : State) : Res :=
  .next (if write then (s.writeReg m aRstdata v 0xFF).1 else (s.readReg m aRstdata).1)

end Sys2Proof.Machine
end

