-- ==== Sys2Proof/Machine/Agent.lean ====
section
/-! DEFINITION. The tile agent's functions: programs' reads and writes, snapshots, events, tile reset, HOLD, and the engine functions of configuration accesses, barriers and strata (R140, R141, R144 to R146, R254, R297, R298, R303 to R305, R372). -/
namespace Sys2Proof.Machine

-- Program functions (R297).

/-- The word at an offset of the tile's window; only aligned offsets name registers. -/
def State.agentRead (s : State) (t off : Nat) : W := if off % 8 = 0 then s.tlRead t off else 0

/-- PING: TL_AGSTAT. -/
def State.agPing (s : State) (t : Nat) (_ : Pkt) : State × Option AgAns := (s, some { value := s.tlRead t 0x40 })
/-- RDREG. -/
def State.agRdreg (s : State) (t : Nat) (k : Pkt) : State × Option AgAns := (s, some { value := s.agentRead t (fld (ctlArg k 0) 0 16) })
/-- WRREG, under its mask; refused as R134 says. -/
def State.agWrreg (s : State) (t : Nat) (k : Pkt) : State × Option AgAns :=
  let r := s.tlWrite t (fld (ctlArg k 0) 0 16) (ctlArg k 1) (ctlArg k 2)
  (r.1, some { refused := r.2 })
/-- A field of len bits at pos, as EXT takes it (R253). -/
def extField (v : W) (pos lenm1 : Nat) : W := BitVec.ofNat 64 (fld v pos (lenm1 + 1))
/-- RDFLD. -/
def State.agRdfld (s : State) (t : Nat) (k : Pkt) : State × Option AgAns :=
  let a := ctlArg k 0
  (s, some { value := extField (s.agentRead t (fld a 0 16)) (fld a 16 6) (fld a 22 6) })

/-- The registers that a snapshot copies, by their offsets (R315). -/
def snapOffsets : List Nat := [0x20, 0x28, 0x30, 0x1008, 0x1010, 0x2008, 0x2010, 0x3008, 0x3010, 0x40]

/-- The agent copies its registers now (R304). -/
def State.capture (s : State) (t : Nat) : State :=
  let vals := snapOffsets.map (s.tlRead t)
  let s := (List.range 10).foldl (fun s j => s.wr (aSnap t j) (vals.getD j 0)) s
  let s := s.p (aAgsnap t) TL_AGSNAP.CTIME (s.ntNs % 2 ^ 32)
  (s.pb (aAgsnap t) TL_AGSNAP.VALID true).pb (aAgsnap t) TL_AGSNAP.ARMED false

/-- SNAPARM (R304). A capture time that equals the network time of its arrival in whole nanoseconds has passed: the copy is made at once, with LATE (DESIGN CHOICE, notes/assumptions/129.md). -/
def State.agSnaparm (s : State) (t : Nat) (k : Pkt) : State × Option AgAns :=
  let s := ((s.pb (aAgsnap t) TL_AGSNAP.ARMED true).pb (aAgsnap t) TL_AGSNAP.VALID false).pb (aAgsnap t) TL_AGSNAP.LATE false
  let s := s.setAgent t { s.agent t with capT := ctlArg k 0 }
  if (ctlArg k 0).toNat ≤ s.ntNs then (s.capture t |>.pb (aAgsnap t) TL_AGSNAP.LATE true, some { late := true }) else (s, some {})

/-- SNAPCLR. -/
def State.agSnapclr (s : State) (t : Nat) (_ : Pkt) : State × Option AgAns :=
  (((s.pb (aAgsnap t) TL_AGSNAP.ARMED false).pb (aAgsnap t) TL_AGSNAP.VALID false).pb (aAgsnap t) TL_AGSNAP.LATE false, some {})

/-- EVFLUSH: the held events leave at once, whatever keeps them (R297, R321). -/
def State.agEvflush (s : State) (t : Nat) (_ : Pkt) : State × Option AgAns :=
  (s.flushHeld t, some { value := BitVec.ofNat 64 ((s.agent t).edge.length + (s.agent t).level.length) })

/-- What keeps a tile from being reset (R305): bit 0 an NI not DISABLED, bit 1 old packets, bit 2 a plane held. -/
def State.trstBlocks (s : State) (t : Nat) : Nat :=
  (!s.portsDisabled t).toNat + 2 * (decide (0 < s.oldCount t 0 + s.oldCount t 1)).toNat + 4 * (s.paused t 0 || s.paused t 1).toNat

/-- An offset of the tile's window that a tile reset returns to its reset value: router banks and counters, NI registers and slot banks, the snapshot state. -/
def trstClears (k : Nat) : Bool := decide (k < 0x30) || k == 0x58 || inArr k 0x80 8 10 || decide (0x100 ≤ k) && decide (k < 0x4000)

/-- The tile's fabric state returns to reset, and INJ to CUR (R305). -/
def State.tileReset (s : State) (t : Nat) : State :=
  let lo := tlBase t
  let s := s.resetRegs (fun o => !(decide (lo ≤ o) && decide (o < lo + 0x10000) && trstClears (o - lo)))
  let s := (List.range 3).foldl (fun s p => s.wr (aPuCnt (puIndex t p)) 0) s
  let s := (List.range 3).foldl (fun s p => s.setNi t p { s.ni t p with tok := [], tokAt := s.fcc, slotBank := s.cur, slotOld := false }) s
  s.setInj t s.cur

/-- TRST (R305). -/
def State.agTrst (s : State) (t : Nat) (_ : Pkt) : State × Option AgAns :=
  let b := s.trstBlocks t
  if b ≠ 0 then (s, some { resp := Resp.DECERR, detail := b }) else (s.tileReset t, some {})

/-- HOLD (R372): the tile stays ACTIVE for a number of basalt ticks, counted from the receipt of the CTL; 0 ends the hold. -/
def State.agHold (s : State) (t : Nat) (k : Pkt) : State × Option AgAns :=
  let n := fld (ctlArg k 0) 0 16
  let s := s.setAgent t { s.agent t with holdEnd := if n = 0 then none else some (s.holdFrom t k + n) }
  (if n = 0 then s else s.wake t true, some {})

/-- PING (R297). -/
def execPing (t : Tile) (s : State) : Res := .next (s.agentRun t.val (isProg 0x00) (fun s k => s.agPing t.val k))
/-- RDREG (R297). -/
def execRdreg (t : Tile) (s : State) : Res := .next (s.agentRun t.val (isProg 0x01) (fun s k => s.agRdreg t.val k))
/-- WRREG (R297). -/
def execWrreg (t : Tile) (s : State) : Res := .next (s.agentRun t.val (isProg 0x02) (fun s k => s.agWrreg t.val k))
/-- RDFLD (R297). -/
def execRdfld (t : Tile) (s : State) : Res := .next (s.agentRun t.val (isProg 0x03) (fun s k => s.agRdfld t.val k))
/-- SNAPARM (R304). -/
def execSnaparm (t : Tile) (s : State) : Res := .next (s.agentRun t.val (isProg 0x10) (fun s k => s.agSnaparm t.val k))
/-- SNAPCLR (R297). -/
def execSnapclr (t : Tile) (s : State) : Res := .next (s.agentRun t.val (isProg 0x11) (fun s k => s.agSnapclr t.val k))
/-- EVFLUSH (R297). -/
def execEvflush (t : Tile) (s : State) : Res := .next (s.agentRun t.val (isProg 0x20) (fun s k => s.agEvflush t.val k))
/-- TRST (R305). -/
def State.trst (s : State) (t : Nat) : State := s.agentRun t (isProg 0x30) (fun s k => s.agTrst t k)
/-- HOLD (R372). -/
def execHold (t : Tile) (s : State) : Res := .next (s.agentRun t.val (isProg 0x40) (fun s k => s.agHold t.val k))

/-- HOLD_EXPIRY (R372). -/
def execHoldExpiry (t : Tile) (s : State) : Res :=
  .next (match (s.agent t.val).holdEnd with
    | some e =>
      let s := s.untilTick e
      s.setAgent t.val { s.agent t.val with holdEnd := none }
    | none => s)

/-- SNAPSHOT_CAPTURE (R304): network time reaches the capture time of an armed agent. -/
def execSnapshotCapture (t : Tile) (s : State) : Res :=
  .next (
    if s.gb (aAgsnap t.val) TL_AGSNAP.ARMED = true ∧ s.coreRuns t.val = true then
      (s.until (s.cyc + s.cyclesTo (s.agent t.val).capT.toNat)).capture t.val
    else s)

/-- SNAPSHOT_WAKE (R304). -/
def execSnapshotWake (t : Tile) (s : State) : Res :=
  .next (if s.gb (aAgsnap t.val) TL_AGSNAP.ARMED = true ∧ s.pst t.val = stIdle then s.wake t.val false else s)

-- Engine functions (R298).

/-- What a configuration read finds: at an offset of the tile's window a register, or a counter of a probe slot (R254, R454); at an offset of TM or FT in the management map, its register (R343). -/
def State.configWord (s : State) (t off : Nat) : W :=
  let k := off - probeCntOff 0 0
  if baseTm ≤ off then s.peek (.sq 8) off
  else if probeCntOff 0 0 ≤ off ∧ k < 1024 ∧ off % 8 = 0 then
    (if s.g (aPrb (k / 32)) OBS_PRBCTL.TILE = t then s.rd (aPrbCnt (k / 32) (k % 32 / 8)) else 0)
  else s.agentRead t off

/-- What a configuration write does at an offset, and whether it is refused (R134, R254, R343); a write without a strobe writes nothing. -/
def State.configPut (s : State) (t off : Nat) (v : W) (strb : BitVec 8) : State × Bool :=
  if strb = 0 then (s, false)
  else if baseTm ≤ off then
    let r := s.tmftWrite off v (strbMask strb)
    (r.1, r.2 != 0)
  else s.tlWrite t off v (strbMask strb)

/-- CONFIG_READ (R254, R343). -/
def execConfigRead (t : Tile) (tag : BitVec 12) (off : BitVec 26) (s : State) : Res :=
  .next (s.agentRun t.val (fun k => k.tag == tag && isEngine k engCfgRead off.toNat)
    (fun s _ => (s, some { value := s.configWord t.val off.toNat })))

/-- CONFIG_WRITE (R254, R343). -/
def execConfigWrite (t : Tile) (tag : BitVec 12) (off : BitVec 26) (v : W) (strb : BitVec 8) (s : State) : Res :=
  .next (s.agentRun t.val (fun k => k.tag == tag && isEngine k engCfgWrite (cfgArg off.toNat strb v))
    (fun s _ =>
      let r := s.configPut t.val off.toNat v strb
      (r.1, some { refused := r.2 })))

/-- BARRIER_CONFIRM (R141, R303): every earlier CTL has been applied; the tile reports DLDIFF. -/
def execBarrierConfirm (t : Tile) (tag : BitVec 12) (s : State) : Res :=
  .next (s.agentRun t.val (fun k => k.tag == tag && isEngine k engBarrier 0)
    (fun s _ => (s, some { value := BitVec.ofNat 64 ((s.dlDiff t.val 0).toNat + 2 * (s.dlDiff t.val 1).toNat) })))

/-- A range of registers is copied over another of the same length. -/
def State.copyRange (s : State) (src dst len : Nat) : State :=
  let moved := (s.regs.filter (fun kv => decide (src ≤ kv.1) && decide (kv.1 < src + len))).map (fun kv => (kv.1 - src + dst, kv.2))
  moved.foldl (fun s kv => s.wr kv.1 kv.2) (s.resetRegs (fun o => !(decide (dst ≤ o) && decide (o < dst + len))))

/-- The bank in use of a set is copied over the idle one; the banks lie a stride apart. -/
def State.copyBank (s : State) (base stride len : Nat) : State :=
  s.copyRange (base + s.cur.toNat * stride) (base + (!s.cur).toNat * stride) len

/-- Schedulers whose endpoint A stands on the tile. -/
def State.tileScheds (s : State) (t : Nat) : List Nat := (List.range 32).filter (fun k => epTile (s.tmEp (16 + k)) == t)

/-- The tile's share of a copy (R140): bit 0 its routers, bit 1 its slot tables, bit 2 its PUs' rules, bit 3 the gate lists of its schedulers and the trees, which every scheduler's tile copies whole. -/
def State.stcopy (s : State) (t : Nat) (mask : Nat) : State :=
  let s := if mask.testBit 0 then
      [0, 1].foldl (fun s pl => (s.copyBank (aCtl t pl 0) 8 8).copyBank (aMap t pl 0 0) 0x80 0x80) s
    else s
  let s := if mask.testBit 1 then (List.range 3).foldl (fun s p => s.copyBank (aNislot t p 0 0) 0x200 0x200) s else s
  let s := if mask.testBit 2 then (List.range 3).foldl (fun s p => s.copyBank (aRule (puIndex t p) 0 0 0 0) 0x400 0x400) s else s
  if mask.testBit 3 then
    (s.tileScheds t).foldl (fun s k =>
      let s := (s.copyBank (aGent k 0 0) 0x2000 0x2000).copyBank (aGbase k 0) 0x20 0x20
      (s.copyBank (aQmap 0 0) 0x80000 0x80000).copyBank (aGrpa 0 0) 0x10000 0x10000) s
  else s

/-- STCOPY (R140). -/
def execStcopy (t : Tile) (tag : BitVec 12) (mask : BitVec 4) (s : State) : Res :=
  .next (s.agentRun t.val (fun k => k.tag == tag && isEngine k engCopy mask.toNat) (fun s _ => (s.stcopy t.val mask.toNat, some {})))

/-- The agent's part of FLIP, in one cycle (R141): INJ, PAUSE of the held plane, and every NI's slot table is marked. -/
def State.agentFlip (s : State) (t : Nat) (str : Bool) (hold : Option Plane) : State :=
  let s := s.setInj t str
  let s := match hold with
    | some p => s.putBitAt (aStrat t) (1 + p.val) true
    | none => s
  let s := (List.range 3).foldl (fun s p =>
    if s.kind t p = .initiator then s.setNi t p { s.ni t p with slotOld := (s.ni t p).slotBank != str } else s) s
  s.settleTile t

/-- FLIP (R141): of an agent, of a PU, whose requests already carry their stratum, of a scheduler. -/
def execFlip (u : FlipUnit) (stratum : Bool) (hold : Option Plane) (s : State) : Res :=
  .next (match u with
    | .agent t => s.agentRun t.val (fun k => isEngine k engFlip (flipArg stratum hold)) (fun s _ => (s.agentFlip t.val stratum hold, some {}))
    | .pu _ _ => s
    | .sched k => s.schedFlipped k.val stratum)

/-- The agent's part of RELEASE (R144): PAUSE is cleared, and what was held leaves. -/
def State.agentRelease (s : State) (t : Nat) : State :=
  let s := (s.putBitAt (aStrat t) 1 false).putBitAt (aStrat t) 2 false
  (s.sendHeld t).settleTile t

/-- RELEASE (R144). -/
def execRelease (t : Tile) (stratum : Bool) (s : State) : Res :=
  .next (s.agentRun t.val (fun k => isEngine k engRelease stratum.toNat) (fun s _ => (s.agentRelease t.val, some {})))

/-- A scheduler has not switched, or still runs an old gate list (R137, R145). -/
def State.schedUsesOld (s : State) (k : Nat) : Bool := s.treeBank k != s.cur || (s.gate k).bank != s.cur || (s.gate k).pend.isSome

/-- The tile's report of a gather (R145, R146): old packets per plane, whether a slot bank, tree or gate list is old, whether a plane is held. -/
def State.oldReport (s : State) (t : Nat) : Nat :=
  s.oldCount t 0 % 2 ^ 24 + 2 ^ 24 * (s.oldCount t 1 % 2 ^ 24)
    + 2 ^ 48 * (s.slotOld t || (s.tileScheds t).any (fun k => s.schedUsesOld k)).toNat + 2 ^ 56 * (s.paused t 0 || s.paused t 1).toNat

/-- OLD_COUNT_GATHER (R145). -/
def execOldCountGather (t : Tile) (tag : BitVec 12) (s : State) : Res :=
  .next (s.agentRun t.val (fun k => k.tag == tag && isEngine k engGather 0)
    (fun s _ => (s, some { value := BitVec.ofNat 64 (s.oldReport t.val) })))

/-- An old packet's header stands at the front of an input VC, toward an output whose link is down (R146). -/
def State.heldOld (s : State) (t pl port v : Nat) : Bool :=
  let x := (s.router t pl).vc port v
  match x.buf, x.cur with
  | f :: _, none => f.stratum != s.cur && decide (f.route < 4) && s.linkDown t pl f.route
  | _, _ => false

/-- The old packets of a plane that wait at down links go to the fence sink, one VC after the other, until none waits. -/
def State.flushPlane : Nat → State → Nat → Nat → State
  | 0, s, _, _ => s
  | n + 1, s, t, pl =>
    let vcs := (List.range 8).flatMap (fun port => (List.range 8).map (fun v => (port, v)))
    let held := vcs.filter (fun x => s.heldOld t pl x.1 x.2)
    if held.isEmpty then s
    else State.flushPlane n ((held.foldl (fun s x => s.sinkStep t pl x.1 x.2) s).settle t pl) t pl

/-- FLUSH (R146). -/
def execFlush (t : Tile) (s : State) : Res :=
  .next (s.agentRun t.val (fun k => isEngine k engFlush 0) (fun s _ => ((s.flushPlane 5 t.val 0).flushPlane 5 t.val 1, some {})))

end Sys2Proof.Machine
end

