-- ==== Sys2Proof/Machine/OpBase.lean ====
section
/-! DEFINITION. Spreads of the sequencer over a scope, operations over the chain tree, and the second step of BARR (R262, R267, R296, R300, R303, R307 to R309, R431). -/
namespace Sys2Proof.Machine

-- Scopes (R262, R300).

/-- The scope of a broadcast or gather: every tile, row y, column x. -/
inductive Scope where
  | inst
  | row (y : Nat)
  | col (x : Nat)
  deriving DecidableEq, Repr

/-- The scope fields of EP (R262). -/
def mScope (w : BitVec 32) : Nat := fld w 19 2
def mRow (w : BitVec 32) : Nat := fld w 15 4
def mCol (w : BitVec 32) : Nat := fld w 11 4

/-- The scope that EP names (R262). -/
def msgScope (w : BitVec 32) : Scope :=
  match mScope w with
  | 1 => .row (mRow w)
  | 2 => .col (mCol w)
  | _ => .inst

/-- The tiles in a scope that take part (R152). -/
def State.scopeTiles (s : State) (x : Scope) : Nat :=
  ((List.range 144).filter (fun t => !s.asOff t && (match x with
    | .inst => true
    | .row y => t / 12 == y
    | .col c => t % 12 == c))).length

/-- The agent that the first CTL of a spread goes to (R300). -/
def State.scopeHead (s : State) (x : Scope) : BitVec 10 :=
  let r := s.build.root.val
  epAddr (match x with
    | .inst => r
    | .row y => y * 12 + r % 12
    | .col c => r / 12 * 12 + c) 3

/-- SPREAD without its gather part: 1 instance, 2 row, 3 column. -/
def scopeNo : Scope → Nat
  | .inst => 1 | .row _ => 2 | .col _ => 3
def scopeCoord : Scope → Nat
  | .inst => 0 | .row y => y | .col x => x

/-- A spread operation: a broadcast, or a gather with its OP (R296). -/
structure SpreadOp where
  gather : Option Nat
  scope : Scope
  deriving DecidableEq, Repr

def SpreadOp.spread (x : SpreadOp) : Nat := scopeNo x.scope + (if x.gather.isSome then 3 else 0)
def SpreadOp.op (x : SpreadOp) : Nat := x.gather.getD 0

/-- Broadcasts that await their combined answer; one whose instruction's bound has passed has timed out (R296). -/
def State.bcasts (s : State) : Nat :=
  (s.seq.ctls.filter (fun o => decide (1 ≤ fld o.tag 8 3) && decide (fld o.tag 8 3 ≤ 3) && (o.kind != .step || s.stepAwaits o.ctx o.id))).length
/-- Another broadcast can be sent (R296). -/
def State.bcastRoom (s : State) : Bool := decide (s.bcasts < 256)

/-- The first CTL of a spread leaves the sequencer. -/
def State.sendSpread (s : State) (c : CtxId) (kind : CtlKind) (key : Nat) (eng : Bool) (x : SpreadOp) (func lenm1 : Nat) (data : Line)
    (opid : Option (BitVec 16)) : State :=
  s.sendCtl c kind key eng x.spread x.op (s.scopeHead x.scope) func lenm1 data (s.scopeTiles x.scope) opid

-- Chain operations.

/-- Every operation that an OPDN can name: the barrier, then broadcasts and gathers. -/
def opScopes : List Scope := .inst :: ((List.range 12).map Scope.row ++ (List.range 12).map Scope.col)
def opSpreads : List SpreadOp :=
  opScopes.map (fun x => ⟨none, x⟩) ++ (List.range 4).flatMap (fun o => opScopes.map (fun x => ⟨some o, x⟩))

/-- The number of an operation: 0 the barrier. -/
def opNumber : Option SpreadOp → Nat
  | none => 0
  | some x => 1 + (match x.gather with | none => 0 | some o => o + 1) * 25
      + (match x.scope with | .inst => 0 | .row y => 1 + y | .col c => 13 + c)

/-- The operation that a KIND byte names; the barrier is `some none`. -/
def opOfKind (k : BitVec 8) : Option (Option SpreadOp) :=
  (none :: opSpreads.map some).find? (fun x => Config.opKind (opNumber x) == k)

/-- The downstream ports that an operation goes to, with the tiles below each: those that enumeration gave a range, unless no downstream port is UP (R307 to R309). -/
def State.opPorts (s : State) : List (Nat × Nat) :=
  if [1, 2].any s.cpIsUp then
    ([1, 2].filter (fun p => s.g (aChnPort p) CHN_PORT.LO != 0)).map (fun p => (p, s.g (aChnPort p) CHN_PORT.SUBTILES))
  else []

/-- The tiles of the instances below, by the codes recorded at enumeration (R308). -/
def State.tilesBelow (s : State) : Nat := (s.opPorts.map (·.2)).foldl (· + ·) 0

/-- An OPID that no operation here bears. -/
def State.freshOp (s : State) : BitVec 16 :=
  (((List.range 65536).map (fun i => s.chn.nextOp + BitVec.ofNat 16 i)).find? (fun i => s.chn.ops.all (fun x => x.opid != i))).getD s.chn.nextOp

/-- An operation begins at this instance: recorded, and forwarded to its children (R307). -/
def State.opStart (s : State) (opid : BitVec 16) (x : Option SpreadOp) (func : BitVec 8) (args : List W) (up : Bool) : State :=
  let ps := s.opPorts
  let o : ChainOp := ⟨opid, (match x with | none => opOr | some y => y.op), ps, true, 0, 0, 0, 0, Resp.OK, up, false⟩
  let s := { s with chn := { s.chn with ops := s.chn.ops ++ [o] } }
  ps.foldl (fun s p => s.sendFrame p.1 0 s.chnAddr (.opdn opid (Config.opKind (opNumber x)) func args)) s

/-- An answer is combined into an operation (R300, R307). -/
def ChainOp.add (x : ChainOp) (v : W) (ok bad silent : Nat) (resp : BitVec 4) : ChainOp :=
  { x with
    value := combineVal x.op x.ok x.value ok v, ok := x.ok + ok, bad := x.bad + bad, silent := x.silent + silent,
    resp := maxResp (maxResp x.resp resp) (if silent = 0 then 0 else Resp.TIMEOUT) }

/-- An operation of this instance has its combined answer: the broadcast's TSERR, the gather's registers, the barrier's step (R262, R267, R300). -/
def State.opDeliver (s : State) (o : OutCtl) (x : Comb) : State :=
  let s := s.dropCtl o.id
  match o.kind with
  | .bcast => s.updJob o.key (Job.tsAdd x.missing)
  | .call =>
    match (s.ctx o.ctx).wait with
    | .gather id => if id = o.id then s.gatherEnds o.ctx x.value (countsWord x.ok x.bad x.silent) else s
    | _ => s
  | .step =>
    match (s.ctx o.ctx).wait with
    | .step k id => if id = o.id then s.stepEnds o.ctx k id x else s
    | _ => s
  | _ => s

/-- An operation with nothing left to await is answered: upward, or to the context that issued it (R307). -/
def State.opSettle (s : State) (opid : BitVec 16) : State :=
  match s.chn.ops.find? (fun x => x.opid == opid) with
  | none => s
  | some x =>
    if x.own || !x.waits.isEmpty then s
    else
      let s := { s with chn := { s.chn with ops := s.chn.ops.filter (fun y => y.opid != opid) } }
      let v : W := if x.ok = 0 then 0 else x.value
      if x.up then s.sendFrame 0 0 s.chnAddr (.opup opid (x.resp.setWidth 8) v (countsWord x.ok x.bad x.silent))
      else match s.seq.ctls.find? (fun o => o.op == some opid) with
        | some o => s.opDeliver o ⟨v, x.ok, x.bad, x.silent⟩
        | none => s

/-- An operation of this instance changes, and is answered once nothing is left to await. -/
def State.opUpdate (s : State) (opid : BitVec 16) (f : ChainOp → ChainOp) : State :=
  State.opSettle { s with chn := { s.chn with ops := replaceFirst (fun x => x.opid == opid) f s.chn.ops } } opid

/-- The instance's own part of an operation is done; without counts, every tile in its scope is silent. -/
def State.opOwn (s : State) (opid : BitVec 16) (tiles : Nat) (x : Option Comb) (resp : BitVec 4) : State :=
  s.opUpdate opid (fun o =>
    let o := { o with own := false }
    match x with
    | some x => o.add x.value x.ok x.bad x.silent resp
    | none => o.add 0 0 0 tiles resp)

/-- A child's answer, or its silence, is combined. -/
def State.opChild (s : State) (opid : BitVec 16) (p : Nat) (v : W) (ok bad silent : Nat) (resp : BitVec 4) : State :=
  s.opUpdate opid (fun o => { o with waits := o.waits.filter (fun w => w.1 != p) }.add v ok bad silent resp)

-- BARR (R303).

/-- The second step of BARR, over the chain when CH is 1. -/
def State.barrStep (s : State) (c : CtxId) (ch : Bool) : State :=
  let s := s.stepSend c (.barrier s.seq.abandoned) engBarrier 0 spGather opOr
  if ch then
    let opid := s.freshOp
    let id := s.lastId
    let ctls := s.seq.ctls.map (fun o => if o.id = id then { o with op := some opid } else o)
    State.opStart { s with seq := { s.seq with ctls := ctls }, chn := { s.chn with nextOp := opid + 1 } } opid none 0 [0] false
  else s

/-- A context whose BARR, or the barrier of whose STCOMMIT, has nothing left to await goes on. -/
def State.barrGo1 (s : State) (c : CtxId) : State :=
  match (s.ctx c).wait with
  | .barrDrain ch id key => if s.barrBusy id key then s else s.barrStep c ch
  | .commitDrain _ _ => s.commitGo1 c
  | _ => s
def State.barrGo (s : State) : State := ctxIds.foldl State.barrGo1 s

/-- The units that a BARR awaits: the tiles of this instance, and with CH those of the instances below (R267, R308). -/
def State.barrUnits (s : State) (ch : Bool) : Nat := s.liveTiles + (if ch then s.tilesBelow else 0)

/-- BARR issues (R267, R303). An instance that cannot make chain operations ends it at once (R431). -/
def State.barr (s : State) (c : CtxId) (ch : Bool) : State :=
  if ch = true ∧ s.chnReady = false then s.barrEnds c (s.barrUnits true) s.seq.abandoned
  else (s.setCtx c { s.ctx c with wait := .barrDrain ch s.seq.nextId s.seq.nextKey }).barrGo

end Sys2Proof.Machine
end

