-- ==== Sys2Proof/Machine/Recheck.lean ====
section
/-! DEFINITION. What follows every command that can bring a condition about: the waits whose conditions hold end (R138, R236, R260, R264 to R268, R284). -/
namespace Sys2Proof.Machine

-- Conditions (R265, R268).

/-- The PUs that a FENCE names have no access of the other epoch in flight (R138). -/
def State.fenceClear (s : State) (pu : Nat) : Bool :=
  let zero (i : Nat) : Bool := s.g (aPuCnt i) (cntFd (!s.cur)) == 0
  if pu = 0x1FF then s.regs.all (fun kv => !(inArr kv.1 (aPuCnt 0) 0x40 432) || zero ((kv.1 - aPuCnt 0) / 0x40)) else zero pu

/-- A WAITC condition on the sequencer's own state: LOCKFREE, CTXIDLE, TSDONE (R265). -/
def State.condHolds (s : State) (c : CtxId) (cond : BitVec 9) : Bool :=
  match fld cond 6 3 with
  | 0 => s.lockState (fld cond 0 6) != lkIsHeld
  | 1 => (s.ctx ⟨fld cond 0 2, by simp [fld]; omega⟩).job.isNone
  | 4 => s.tsOut c == 0
  | _ => false

/-- A CTL has left the crossing toward CFGEP: it was injected (R260, R464). -/
def State.injected (s : State) (tag : BitVec 12) (dest : BitVec 10) : Bool := s.seq.outq.all (fun k => !(k.tag == tag && k.dest == dest))

/-- The message that a context holds back for want of a CRSP can be sent now: of a TSEND fewer than 16 are outstanding, of the broadcasts fewer than 256, and a TAG is free (R59, R260, R296). -/
def State.crspRoom (s : State) (c : CtxId) : Bool :=
  let w := (s.ctx c).word
  match iOp w with
  | 0x30 => decide (s.tsOut c < 16) && s.tagRoom false 0 0
  | 0x31 => s.tagRoom false 0 0
  | 0x32 => s.bcastRoom && s.tagRoom false (scopeNo (msgScope w)) 0
  | o => s.tagRoom false (scopeNo (msgScope w) + 3) (o - 0x33)

/-- The wait of a context whose condition holds now ends OK; a message completes, or issues again. -/
def State.recheck1 (s : State) (c : CtxId) : State :=
  match (s.ctx c).job, (s.ctx c).wait with
  | some _, .waitc cond => if s.condHolds c cond then s.doneCode c rOk else s
  | some _, .fence pu => if s.fenceClear pu then s.doneCode c rOk else s
  | some _, .inject tag dest => if s.injected tag dest then s.done c id else s
  | some _, .room => if s.crspRoom c then s.setCtx c { s.ctx c with wait := .none } else s
  | _, _ => s

/-- Waits whose conditions hold end, until none does: the end of one job can be another context's condition. CTLs that waited for a TAG are sent. A reload begins once a machine check has no job left to end. -/
def State.recheck (s : State) : State := ([0, 1, 2, 3].foldl (fun s (_ : Nat) => ctxIds.foldl State.recheck1 s) s).launchHeld.reloadStart

end Sys2Proof.Machine
end

