-- ==== Sys2Proof/Machine/Xbar.lean ====
section
/-! DEFINITION. The management crossbar: decode, arbitration, the target ports, configuration accesses, accesses over the chain, answers, watchdogs (R342 to R363, R432, R433, R464). -/
namespace Sys2Proof.Machine

-- Decode (R344).

/-- The target port of an offset of this instance: DEF for a burst that leaves its range or is not aligned (R33, R34). -/
def localPort (off beats : Nat) : Nat :=
  if off % 8 ≠ 0 ∨ rangeOf off ≠ rangeOf (off + 8 * (beats - 1)) then 9 else portOf off

/-- The target port of an access (R344). -/
def State.decodePort (s : State) (a : Acc) : Nat :=
  let i := a.inst.toNat
  if a.master = 10 then localPort a.off.toNat a.beats
  else if (251 ≤ i ∧ i ≤ 254) ∨ (i = 255 ∧ a.write = false) then 9
  else if i ≠ 0 ∧ i ≠ s.chnAddr then
    (if a.master < 8 ∧ s.gb (aXbHcfg a.master) XB_HCFG.CHAIN = false then 9 else 10)
  else localPort a.off.toNat a.beats

/-- Write beats that have not arrived. -/
def Acc.missing (a : Acc) : Nat := if a.write then a.beats - a.data.length else 0

-- Answers.

/-- A host's answers leave in the order of its requests, unless its clock stands or it holds HSREADY at 0 (R347, R349, R359). -/
def State.hostFlush (s : State) (h : Nat) : State :=
  let x := s.host h
  if x.stopped || x.hold then s
  else s.setHost h { x with out := x.out ++ (x.reqs.takeWhile (·.2.isSome)).filterMap (·.2), reqs := x.reqs.dropWhile (·.2.isSome) }

/-- A target answers a host's request. -/
def State.hostAnswer (s : State) (h n : Nat) (a : HAns) : State :=
  let x := s.host h
  let reqs : List (Nat × Option HAns) := x.reqs.map (fun r => if r.1 = n then (n, some a) else r)
  (s.setHost h { x with reqs := reqs }).hostFlush h

/-- The higher of two crossbar codes, in the order of the result codes that stand for them (R256, R276). -/
def worseCode (a b : Nat) : Nat := if accCode a < accCode b then b else a

/-- The highest code of some beats. -/
def worst (beats : List (Nat × W)) : Nat := (beats.map (·.1)).foldl max 0

/-- An access of a host or of the sequencer is answered; the answer to a host that was reset is sunk and counted (R346, R348, R360). -/
def State.accEnds (s : State) (a : Acc) (sunk : Bool) (beats : List (Nat × W)) : State :=
  if a.master < 8 then
    if sunk then s.sat (aXbHstat a.master) XB_HSTAT.SUNK
    else s.hostAnswer a.master a.req
      ⟨if a.write then [(BitVec.ofNat 3 (worst beats), 0)] else beats.map (fun b => (BitVec.ofNat 3 b.1, b.2))⟩
  else match a.ctx with
    | some c => (s.accAnswer c a.req (worst beats) ((beats.map (·.2)).headD 0)).barrGo
    | none => s

/-- The beats of an answer that bears one code for all of them. -/
def Acc.sameBeats (a : Acc) (code : Nat) (data : List W) : List (Nat × W) :=
  if a.write then [(code, 0)] else (List.range a.beats).map (fun i => (code, data.getD i 0))

/-- The port is released. -/
def XPort.release (x : XPort) : XPort := { x with holder := none, waits := none, sunk := false, cons := if x.pend.isEmpty then 0 else x.cons, next := none }

-- Arbitration (R351 to R353).

def State.prio (s : State) (j m : Nat) : Nat := fld (s.rd (aXbTcfg j)) (2 * m) 2

/-- The master that R351 chooses among those pending. -/
def State.roundRobin (s : State) (j : Nat) : Option Nat :=
  let x := s.xport j
  let ms := (List.range 11).filter (fun m => x.pend.any (fun a => a.master == m))
  let top := (ms.map (s.prio j)).foldl max 0
  ((List.range 11).map (fun i => (x.last + 1 + i) % 11)).find? (fun m => ms.contains m && s.prio j m == top)

/-- The last holder keeps the port (R353). -/
def State.keepsPort (s : State) (j : Nat) : Bool :=
  let x := s.xport j
  decide (0 < x.cons) && x.pend.any (fun a => a.master == x.last)
    && x.pend.all (fun a => decide (s.prio j a.master ≤ s.prio j x.last))
    && decide (x.cons < max 1 (s.g (aXbTcfg j) XB_TCFG.BLIM))

/-- The winner among the requests pending now, and whether it keeps the port. -/
def State.winnerNow (s : State) (j : Nat) : Option (Nat × Bool) :=
  if s.keepsPort j then some ((s.xport j).last, true) else (s.roundRobin j).map (fun m => (m, false))

/-- The last response beat: the port is released, and the next holder is decided among the requests that are pending in this cycle (R353). -/
def State.lastBeat (s : State) (j : Nat) : State := s.setXport j { (s.xport j).release with next := s.winnerNow j }

/-- The answer to the chain access that CHX holds under a tag; any other is discarded (R358). -/
def State.chxEnds (s : State) (tag code : Nat) (data : List W) : State :=
  let x := s.xport 10
  match x.holder with
  | some a => if x.waits = some tag then (s.lastBeat 10).accEnds a x.sunk (a.sameBeats code data) else s
  | none => s

-- Remote accesses (R432, R433).

/-- A flooded write with nothing left to await is answered: upward, to its originator, or to CHX (R432). -/
def State.remoteSettle (s : State) (key : Nat) : State :=
  match s.chn.remotes.find? (fun r => r.key == key) with
  | none => s
  | some r =>
    if !r.own || !r.waits.isEmpty then s
    else
      let s := { s with chn := { s.chn with remotes := s.chn.remotes.filter (fun x => x.key != key) } }
      let b : FrameBody := .rsp r.tag (BitVec.ofNat 8 r.code) r.data
      if r.up then s.sendFrame 0 r.src.toNat s.chnAddr b
      else if r.src.toNat = s.chnAddr then s.chxEnds r.tag.toNat r.code []
      else s.routeFrame r.src.toNat s.chnAddr b

/-- A remote access changes, and is answered once it is complete. -/
def State.remoteUpdate (s : State) (key : Nat) (f : Remote → Remote) : State :=
  State.remoteSettle { s with chn := { s.chn with remotes := replaceFirst (fun r => r.key == key) f s.chn.remotes } } key

/-- A downstream port answers a flooded write, or cannot (R432, R435). -/
def State.remoteChild (s : State) (key p code : Nat) : State :=
  s.remoteUpdate key (fun r => { r with waits := r.waits.filter (· != p), code := worseCode r.code code })

/-- The local part of a remote access is done. -/
def State.remoteDone (s : State) (a : Acc) (beats : List (Nat × W)) : State :=
  s.remoteUpdate a.req (fun r => { r with own := true, code := worseCode r.code (worst beats), data := if a.write then [] else beats.map (·.2) })

-- The local target ports.

/-- The holder of a port other than CHX has its last beat: the port is released, and the answer goes to its master. -/
def State.finishPort (s : State) (j : Nat) (beats : List (Nat × W)) : State :=
  let x := s.xport j
  match x.holder with
  | none => s
  | some a =>
    let s := s.lastBeat j
    if a.master = 10 then s.remoteDone a beats else s.accEnds a x.sunk beats

/-- One beat of an access at its target. -/
def State.beat (s : State) (a : Acc) (i : Nat) : State × (Nat × W) :=
  let o := a.off.toNat + 8 * i
  if a.write then
    let r := s.writeReg a.who o (a.data.getD i 0) (a.strb.getD i 0)
    (r.1, (r.2, 0))
  else
    let r := s.readReg a.who o
    (r.1, (0, r.2))

/-- All beats, in order. -/
def State.beats (s : State) (a : Acc) : State × List (Nat × W) :=
  (List.range a.beats).foldl (fun z i =>
    let r := z.1.beat a i
    (r.1, z.2 ++ [r.2])) (s, [])

/-- DEF answers a host, one beat in each management cycle (R345, R350, R363). -/
def State.defCount (s : State) (a : Acc) : State :=
  if a.master < 8 then (List.range (if a.write then 1 else a.beats)).foldl (fun s (_ : Nat) => (s.sat aXbStat XB_STAT.DEFCNT).raise 971) s else s


/-- The probe counter at an offset: its probe and number. -/
def probeCntAt (o : Nat) : Option (Nat × Nat) :=
  let k := o - aPrbCnt 0 0
  if aPrbCnt 0 0 ≤ o ∧ k < 0x1000 ∧ k % 0x80 < 0x20 ∧ k % 8 = 0 then some (k / 0x80, k % 0x80 / 8) else none

/-- Beat i of the holder of port j is carried to a tile as a configuration access: the tile, and the offset in its window (R343, R454) or, of TM and FT, in the management map. TM and FT are reached at the root tile, which never enters OFF and is never fenced (DESIGN CHOICE, notes/assumptions/126.md). -/
def State.carried (s : State) (j : Nat) (a : Acc) (i : Nat) : Option (Nat × Nat) :=
  let o := a.off.toNat + 8 * i
  if j = 8 then some (if a.off.toNat < baseTm then ((o - baseTl) / 0x10000, (o - baseTl) % 0x10000) else (s.build.root.val, o))
  else if j = 7 ∧ a.write = false then
    match probeCntAt o with
    | some (p, n) =>
      let t := s.g (aPrb p) OBS_PRBCTL.TILE
      if s.gb (aPrb p) OBS_PRBCTL.BOUND = true ∧ t < 144 then some (t, probeCntOff p n) else none
    | none => none
  else none

/-- Some beat of an access is carried to a tile. -/
def State.isCarried (s : State) (j : Nat) (a : Acc) : Bool := (List.range a.beats).any (fun i => (s.carried j a i).isSome)

/-- A beat is sent to the agent of a tile (R254, R298, R464). A master without the right to write sends no strobe. -/
def State.sendBeat (s : State) (j : Nat) (a : Acc) (t k : Nat) : State :=
  let i := a.done.length
  let strb : BitVec 8 := if s.sqRight a.who then a.strb.getD i 0 else 0
  let n := if a.write then engCfgWrite else engCfgRead
  let arg := if a.write then cfgArg k strb (a.data.getD i 0) else k
  let s := s.sendCtl (a.ctx.getD 0) .port 0 true 0 0 (epAddr t 3) (engFunc n) 63 (engArgs n arg) 1 none
  s.setXport j { s.xport j with waits := some s.lastId }

/-- The port goes on with its holder's beats, of which at most n are left: one that is carried to a tile is sent, any other acts here; after the last, the access is answered. -/
def State.nextBeat : Nat → State → Nat → State
  | 0, s, j => match (s.xport j).holder with
    | some a => s.finishPort j a.done
    | none => s
  | n + 1, s, j => match (s.xport j).holder with
    | none => s
    | some a => match s.carried j a a.done.length with
      | some (t, k) => s.sendBeat j a t k
      | none =>
        let r := s.beat a a.done.length
        State.nextBeat n (r.1.setXport j { r.1.xport j with holder := some { a with done := a.done ++ [r.2] } }) j

/-- The port that awaits a CTL. -/
def State.ctlPort (s : State) (id : Nat) : Nat := if (s.xport 7).waits = some id then 7 else 8

/-- The CRSP of a configuration access: DECERR for any RESP but OK, REFUSED as the status word says (R346). The next beat follows, or the answer. -/
def State.cfgAnswer (s : State) (j : Nat) (r : CrspBody) : State :=
  let x := s.xport j
  match x.holder with
  | none => s
  | some a =>
    let code := if respRead r.resp ≠ Resp.OK then 2 else if bitOf r.aux 8 then 1 else 0
    let a : Acc := { a with done := a.done ++ [(code, if a.write ∨ code = 2 then 0 else r.data.getD 0 0)] }
    (s.setXport j { x with holder := some a, waits := none }).nextBeat (a.beats - a.done.length) j

/-- The PU whose endpoint side a write awaits, if it awaits one (R234); a burst reaches one PU_CTL at most. -/
def State.accWaits (s : State) (a : Acc) : Option Nat :=
  if a.write then
    ((List.range a.beats).find? (fun i => s.writeWaits a.who (a.off.toNat + 8 * i) (a.data.getD i 0) (a.strb.getD i 0))).map
      (fun i => puAt (a.off.toNat + 8 * i))
  else none

/-- An access is presented to its target, at any port but CHX: at once, but for an incomplete write, an access to a tile, a write whose value an endpoint's side has still to take, and a write that a later cycle applies (R234, R346, R350, R394). -/
def State.presentLocal (s : State) (j : Nat) : State :=
  match (s.xport j).holder with
  | none => s
  | some a =>
    if 0 < a.missing then s
    else if j = 9 then (s.defCount a).finishPort 9 (a.sameBeats 2 [])
    else if s.isCarried j a then s.nextBeat a.beats j
    else
      let r := s.beats a
      match (if s.tb.pend.length < r.1.tb.pend.length then r.1.tb.pend.getLast?.map (·.1) else s.accWaits a) with
      | some f => r.1.setXport j { r.1.xport j with holder := some { a with done := r.2 }, waits := some f }
      | none => r.1.finishPort j r.2

/-- A port is granted to an access. -/
def XPort.grant (x : XPort) (a : Acc) (cons last : Nat) : XPort :=
  { x with holder := some a, waits := none, sunk := false, cons := cons, last := last, next := none }

/-- The port is parked on a master, and nothing holds it or waits (R354). -/
def State.parkedOn (s : State) (j m : Nat) : Bool :=
  let x := s.xport j
  s.pm.mstate == .running && x.holder.isNone && x.pend.isEmpty && s.g (aXbTcfg j) XB_TCFG.PARK == m

/-- An access waits in its pending slot, or behind it (R352). -/
def State.pendAcc (s : State) (j : Nat) (a : Acc) : State := s.setXport j { s.xport j with pend := (s.xport j).pend ++ [a] }

/-- An access arrives at a port other than CHX. -/
def State.arriveLocal (s : State) (j : Nat) (a : Acc) : State :=
  if s.parkedOn j a.master then (s.setXport j ((s.xport j).grant a 1 a.master)).presentLocal j else s.pendAcc j a

-- CHX (R432, R433).

/-- The ORIG byte of an access (R428). -/
def origOf (a : Acc) : BitVec 8 := BitVec.ofNat 8 (a.master % 16 + 16 * a.write.toNat + 32 * (a.beats - 1))

/-- A remote access begins here as master CH (R433): flooded further to the ports that enumeration gave a range, when it goes to every instance (R432). -/
def State.remoteStart (s : State) (flood : Bool) (tag src orig : BitVec 8) (off : BitVec 32) (data : List W) (strb : List (BitVec 8)) : State :=
  let ps := if flood then [1, 2].filter (fun p => s.g (aChnPort p) CHN_PORT.LO != 0) else []
  let r : Remote := ⟨s.chn.nextKey, tag, src, flood, ps.filter s.cpIsUp, false, if ps.all s.cpIsUp then 0 else 4, [], flood && !s.isRoot⟩
  let a : Acc :=
    { master := 10, who := if h : fld orig 0 4 < 8 then .chHost ⟨fld orig 0 4, h⟩ else .chSq, req := s.chn.nextKey, ctx := none,
      write := bitOf orig 4, inst := 0, off := off.setWidth 26, beats := fld orig 5 3 + 1, data := data, strb := strb, done := [] }
  let s := { s with chn := { s.chn with remotes := s.chn.remotes ++ [r], nextKey := s.chn.nextKey + 1 } }
  let s := (ps.filter s.cpIsUp).foldl (fun s p => s.sendFrame p 255 src.toNat (.req tag orig off data strb)) s
  s.arriveLocal (localPort (off.toNat % 2 ^ 26) a.beats) a

/-- CHX presents its holder: answered CHAINERR where it cannot be delivered (R346, R431, R435). -/
def State.chxPresent (s : State) : State :=
  let x := s.xport 10
  match x.holder with
  | none => s
  | some a =>
    if 0 < a.missing then s
    else
      let tag := s.chn.nextTag
      let s := { s with chn := { s.chn with nextTag := tag + 1 } }.setXport 10 { x with waits := some tag.toNat }
      let off : BitVec 32 := a.off.setWidth 32
      let frame : FrameBody := .req tag (origOf a) off (if a.write then a.data else []) (if a.write then a.strb else [])
      let own := BitVec.ofNat 8 s.chnAddr
      if s.chnReady = false then s.chxEnds tag.toNat 4 []
      else if a.inst = 255#8 then
        if s.isRoot then s.remoteStart true tag own (origOf a) off a.data a.strb
        else if s.cpIsUp 0 then s.sendFrame 0 255 s.chnAddr frame
        else s.chxEnds tag.toNat 4 []
      else match s.way a.inst.toNat with
        | .port p => s.sendFrame p a.inst.toNat s.chnAddr frame
        | _ => s.chxEnds tag.toNat 4 []

def State.presentAt (s : State) (j : Nat) : State := if j = 10 then s.chxPresent else s.presentLocal j

/-- A request reaches its target port (R344, R350, R352). -/
def State.arrive (s : State) (a : Acc) : State :=
  let j := s.decodePort a
  if s.parkedOn j a.master then (s.setXport j ((s.xport j).grant a 1 a.master)).presentAt j else s.pendAcc j a

/-- The next holder: the one decided at the last response beat, where it still waits, and else the winner of what is pending now (R350, R353). -/
def State.winner (s : State) (j : Nat) : Option (Nat × Bool) :=
  match (s.xport j).next with
  | some d => if (s.xport j).pend.any (fun a => a.master == d.1) then some d else s.winnerNow j
  | none => s.winnerNow j

/-- The next holder is accepted. -/
def State.portGrant (s : State) (j : Nat) : State :=
  let x := s.xport j
  if s.pm.mstate ≠ .running ∨ x.holder.isSome = true then s
  else
    match s.winner j with
    | none => s
    | some (m, keep) =>
      match extract (fun (a : Acc) => a.master == m) x.pend with
      | none => s
      | some (a, rest) => (s.setXport j (({ x with pend := rest } : XPort).grant a (if keep then x.cons + 1 else 1) m)).presentAt j

-- Hosts (R347 to R349, R357).

/-- Some access of a port changes. -/
def XPort.mapAcc (x : XPort) (f : Acc → Acc) : XPort := { x with holder := x.holder.map f, pend := x.pend.map f }

/-- A beat reaches the write of a request, if it still stands at a port. -/
def State.beatTo (s : State) (h n : Nat) (b : W × BitVec 8) : State :=
  let f (a : Acc) : Acc := if a.master = h ∧ a.req = n then { a with data := a.data ++ [b.1], strb := a.strb ++ [b.2] } else a
  (List.range 11).foldl (fun s j =>
    if ((s.xport j).holder.toList ++ (s.xport j).pend).any (fun a => a.master == h && a.req == n) then s.setXport j ((s.xport j).mapAcc f) else s) s

/-- A beat belongs to the oldest write that still owes one; a beat of a write that was discarded is lost; without such a write it waits for the next one (R348, R357, R358). -/
def State.hostBeat (s : State) (h : Nat) (b : W × BitVec 8) : State :=
  let x := s.host h
  match x.owed with
  | [] => s.setHost h { x with extra := x.extra ++ [b] }
  | (n, k) :: rest => (s.setHost h { x with owed := if k ≤ 1 then rest else (n, k - 1) :: rest }).beatTo h n b

/-- A write owes its beats; those that came before it are its first (R357). -/
def State.oweBeats (s : State) (h n beats : Nat) : State :=
  let x := s.host h
  let s := s.setHost h { x with owed := x.owed ++ [(n, beats)], extra := [] }
  x.extra.foldl (fun s b => s.hostBeat h b) s

/-- A port whose holder of this host has now all its beats presents it. -/
def State.feedPorts (s : State) (h : Nat) : State :=
  (List.range 11).foldl (fun s j =>
    let x := s.xport j
    match x.holder with
    | some a => if a.master = h ∧ a.write = true ∧ x.waits = none ∧ a.missing = 0 then s.presentAt j else s
    | none => s) s

/-- The host's side of its port works: out of reset, reconnected, and clocked (R359 to R361). -/
def State.hostAlive (s : State) (h : Nat) : Bool := !(s.host h).low && !(s.host h).stopped && !s.hostWaits h

/-- Items that the host's crossing can still take: 8 while the management clock stands (R382). -/
def State.hostRoom (s : State) (h n : Nat) : Nat := if s.pm.mstate = .running then n else min n (8 - (s.host h).xin)

/-- The crossing holds items more while the management clock stands. -/
def State.hostItems (s : State) (h n : Nat) : State :=
  if s.pm.mstate = .running then s else s.setHost h { s.host h with xin := (s.host h).xin + n }

/-- The host port takes a request: fewer than 4 are outstanding, and its crossing has room (R349, R382). -/
def State.hostReady (s : State) (h : Nat) : Bool := decide ((s.host h).reqs.length < 4) && decide (0 < s.hostRoom h 1)

/-- The number of the next request of a host. -/
def XHost.nextReq (x : XHost) : Nat := (x.reqs.map (·.1) ++ x.owed.map (·.1)).foldl max 0 + 1

/-- A request is accepted, and the management domain wakes for it (R344, R380). -/
def State.hostTake (s : State) (h : HostId) (r : HReq) : State :=
  let s := s.wakeMgmt.hostItems h.val 1
  let x := s.host h.val
  let n := x.nextReq
  let a : Acc :=
    { master := h.val, who := .host h, req := n, ctx := none, write := r.write, inst := r.inst, off := r.addr, beats := r.len.toNat + 1,
      data := [], strb := [], done := [] }
  let s := (s.setHost h.val { x with reqs := x.reqs ++ [(n, none)] }).arrive a
  if r.write then s.oweBeats h.val n (r.len.toNat + 1) else s

/-- Write beats are accepted as far as the crossing has room, in the order of acceptance of their writes (R348, R382). -/
def State.hostBeats (s : State) (h : Nat) (bs : List (W × BitVec 8)) : State :=
  let bs := bs.take (s.hostRoom h bs.length)
  (bs.foldl (fun s b => s.hostBeat h b) (s.hostItems h bs.length)).feedPorts h

/-- HOST_REQUEST (R344, R347 to R349): HSREADY takes its level, a valid request is accepted where HQREADY is 1, and write beats follow on their own channel. -/
def execHostRequest (h : HostId) (r : HReq) (s : State) : Res :=
  .next (
    if s.hostAlive h.val = false then s
    else
      let s := (s.setHost h.val { s.host h.val with hold := !r.ready }).hostFlush h.val
      let s := if r.valid = true ∧ s.hostReady h.val = true then s.hostTake h r else s
      (s.hostBeats h.val ((List.range r.data.length).map (fun i => (r.data.getD i 0, r.strb.getD i 0)))).recheck)

-- Watchdogs (R358).

/-- The watchdog of a port that a transaction holds; arbitration runs in the next cycle. -/
def State.watchdog (s : State) (j : Nat) : State :=
  let x := s.xport j
  match x.holder with
  | none => s
  | some a =>
    let s := if j = 7 ∨ j = 8 then (match x.waits with | some id => s.leaveCtl id | none => s) else s
    let s := (s.sat (aXbTstat j) XB_TSTAT.WDFIRE).sat aXbStat XB_STAT.WDCNT
    let s := (s.putBitAt aXbStat j true).raise (960 + j)
    let s := s.finishPort j (a.sameBeats 3 [])
    s.setXport j { s.xport j with next := none }

/-- WATCHDOG_FIRE (R358); a configuration access that it ends is awaited no longer (R267). -/
def execWatchdogFire (j : Fin 11) (s : State) : Res := .next (s.watchdog j.val).barrGo.recheck

-- Chain frames of remote accesses.

/-- The frame is one that R428 and R432 allow: a master of 0 to 8, a beat of data and of strobes for each beat of a write, and only writes to every instance. -/
def reqOk (hdr : FrameHdr) (orig : BitVec 8) (data : List W) (strb : List (BitVec 8)) : Bool :=
  let n := if bitOf orig 4 then fld orig 5 3 + 1 else 0
  decide (fld orig 0 4 ≤ 8) && data.length == n && strb.length == n && (bitOf orig 4 || hdr.dst != 255#8)

/-- A frame with a wrong form is discarded and counted (R428). -/
def State.badFrame (s : State) : State := s.sat aChnErr CHN_ERR.BADFRAME

/-- A REQ is performed, flooded, forwarded, or answered CHAINERR (R431 to R433, R435). -/
def State.reqIn (s : State) (p : Nat) (hdr : FrameHdr) (tag orig : BitVec 8) (off : BitVec 32) (data : List W) (strb : List (BitVec 8)) : State :=
  let err (s : State) : State := s.sendFrame p hdr.src.toNat s.chnAddr (.rsp tag 4 [])
  if reqOk hdr orig data strb = false then s.badFrame
  else if s.chnReady = false then err s
  else if hdr.dst = 255#8 then
    if s.isRoot ∨ p = 0 then s.remoteStart true tag hdr.src orig off data strb
    else if s.cpIsUp 0 then s.sendFrame 0 255 hdr.src.toNat (.req tag orig off data strb)
    else err s
  else match s.way hdr.dst.toNat with
    | .here => s.remoteStart false tag hdr.src orig off data strb
    | .port q => s.sendFrame q hdr.dst.toNat hdr.src.toNat (.req tag orig off data strb)
    | .none => err s

/-- Inbound accesses in progress (R342). -/
def State.inbound (s : State) : Nat := (s.chn.remotes.filter (fun r => !r.own)).length

/-- REQ (R433): with 8 inbound accesses in progress, a frame for this instance waits. -/
def execReq (p : ChPort) (hdr : FrameHdr) (tag orig : BitVec 8) (offset : BitVec 32) (data : List W) (strb : List (BitVec 8)) (s : State) : Res :=
  .next (
    if s.onRootU p.val = false ∧ 8 ≤ s.inbound ∧ (hdr.dst.toNat = s.chnAddr ∨ hdr.dst = 255#8) then s
    else (s.takeFrame p.val ⟨hdr, .req tag orig offset data strb⟩ (fun s => s.reqIn p.val hdr tag orig offset data strb)).recheck)

/-- An RSP answers a flooded write of this instance, or its own access, or goes on (R432). -/
def State.rspIn (s : State) (p : Nat) (hdr : FrameHdr) (tag code : BitVec 8) (data : List W) : State :=
  match s.chn.remotes.find? (fun r => r.flood && r.tag == tag && r.src == hdr.dst && r.waits.contains p) with
  | some r => s.remoteChild r.key p code.toNat
  | none =>
    if hdr.dst.toNat = s.chnAddr then s.chxEnds tag.toNat code.toNat data
    else s.routeFrame hdr.dst.toNat hdr.src.toNat (.rsp tag code data)

/-- RSP (R432). -/
def execRsp (p : ChPort) (hdr : FrameHdr) (tag code : BitVec 8) (data : List W) (s : State) : Res :=
  .next (s.takeFrame p.val ⟨hdr, .rsp tag code data⟩ (fun s => s.rspIn p.val hdr tag code data)).recheck

/-- A chain port went DOWN: flooded writes that await it are answered CHAINERR (R435). -/
def State.portLost (s : State) (p : Nat) : State :=
  if s.cpIsUp p then s
  else (s.chn.remotes.filter (fun r => r.waits.contains p)).foldl (fun s r => s.remoteChild r.key p 4) s

end Sys2Proof.Machine
end

