-- ==== Sys2Proof/Machine/Waits.lean ====
section
/-! DEFINITION. What the contexts wait for: the ends of waits, machine checks, aborts, and the commands by which a wait can end (R138, R236, R260, R264 to R271, R279 to R284). -/
namespace Sys2Proof.Machine

-- Ends of jobs from outside.

/-- RUNLIM_EXPIRY (R279): MAXRUN, when it is a limit, has passed since the job started or resumed. -/
def execRunlimExpiry (c : CtxId) (s : State) : Res :=
  .next (match (s.ctx c).job with
    | some j =>
      let n := s.g (aRingcfg j.ring.val) SEQ_RINGCFG.MAXRUN
      if n = 0 then s else ((s.untilTick ((s.ctx c).started + 16 * n)).endSoon c .runlim).recheck
    | none => s)

-- The scrubber.

/-- SCRUB_READ (R283): the next microword or dispatch entry is read, and may be found bad. -/
def execScrubRead (bad : Bool) (s : State) : Res :=
  .next (
    let n := s.seq.scrub
    let s := { s with seq := { s.seq with scrub := (n + 1) % 8320 } }
    let wrong := bad || (if n < 8192 then s.microBad n else s.dispBad (n - 8192))
    if wrong then (s.machineCheck .scrub (decide (8192 ≤ n)) (if n < 8192 then n else n - 8192)).recheck else s)

-- Ends of waits.

/-- WAIT_TIMEOUT (R264): the bound of a W-format wait expires; the condition governs when it is met as well. -/
def execWaitTimeout (c : CtxId) (s : State) : Res :=
  .next (
    let w := (s.ctx c).wait
    let s' := s.untilTick (s.ctx c).deadline
    match w with
    | .waitc cond => (s'.doneCode c (if s'.condHolds c cond then rOk else rTimeout)).recheck
    | .waitt target => (s'.doneCode c (if target.toNat ≤ s'.ntNs then rOk else rTimeout)).recheck
    | .fence pu => (s'.doneCode c (if s'.fenceClear pu then rOk else rTimeout)).recheck
    | .step k id => (s'.stepExpires c k id).barrGo.recheck
    | .barrDrain ch _ _ => (s'.barrEnds c (s'.barrUnits ch) s'.seq.abandoned).barrGo.recheck
    | .commitDrain _ _ => ((s'.setWaiting s'.liveTiles).doneCode c rTimeout).recheck
    | _ => s)

/-- A load of a WAITC condition leaves for the crossbar (R265). -/
def State.issueAcc (s : State) (c : CtxId) (j : Job) (use : AccUse) (write : Bool) (addr : W) (v : W) (strb : BitVec 8) : State :=
  let key := s.seq.nextKey
  let a : Acc :=
    { master := 8, who := .sq j.ring, req := key, ctx := some c, write := write, inst := addr.extractLsb' 32 8,
      off := addr.extractLsb' 0 26 &&& ~~~(7#26), beats := 1, data := if write then [v] else [], strb := if write then [strb] else [], done := [] }
  let s := { s with seq := { s.seq with nextKey := key + 1 } }
  (s.setCtx c { s.ctx c with acc := some (key, use, addr) }).arrive a

/-- The control address of a base and an offset (R254). -/
def ctlAddr (base off : W) : W := (base + off) &&& 0xFFFFFFFFFF#64

/-- WAITC_POLL (R265): LDEQ and LDNE load again. The load due while the previous one is still unanswered is left out (DESIGN CHOICE, notes/assumptions/131.md). -/
def execWaitcPoll (c : CtxId) (s : State) : Res :=
  .next (match (s.ctx c).job, (s.ctx c).wait, (s.ctx c).acc with
    | some j, .waitc cond, none =>
      if fld cond 6 3 = 2 ∨ fld cond 6 3 = 3 then (s.issueAcc c j .poll false (ctlAddr (j.get (fld cond 0 4)) 0) 0 0).recheck else s
    | _, _, _ => s)

/-- WAITT_TARGET (R266): network time reaches the target before the bound has passed. -/
def execWaittTarget (c : CtxId) (s : State) : Res :=
  .next (match (s.ctx c).wait with
    | .waitt target =>
      let s' := s.until (s.cyc + s.cyclesTo target.toNat)
      if s'.ticks ≤ (s.ctx c).deadline ∧ target.toNat ≤ s'.ntNs then (s'.doneCode c rOk).recheck else s
    | _ => s)

/-- LOCK_WAIT_EXPIRY (R269). -/
def execLockWaitExpiry (c : CtxId) (s : State) : Res :=
  .next (match (s.ctx c).wait with
    | .lock _ _ => ((s.untilTick (s.ctx c).deadline).lockGivesUp c).recheck
    | _ => s)

/-- LEASE_EXPIRY (R271): the lock breaks; the expiry crosses from the basalt domain, where a pulse can be lost (R384). -/
def execLeaseExpiry (slot : Fin 64) (s : State) : Res :=
  .next (
    let e := tget 0 s.seq.leaseEnd slot.val
    if e = 0 then s
    else
      let s := s.untilTick e
      let c := tget ⟨false, 0, 0⟩ s.pm.cts 64
      let s := s.ctPulse 64 577
      if c.busy = true ∧ 15 ≤ c.cnt then s
      else ((s.breakSlot slot.val 941).wakeMgmt.grantLock slot.val).recheck)

/-- A message that has no answer in its time, or a broadcast's tiles without one, count with the job's errors (R260, R300). -/
def State.tsError (s : State) (key n : Nat) : State := s.updJob key (Job.tsAdd n)

/-- A gather ends without usable counts: no tile counts as an answer, every tile in scope as silent, and with CH every tile of the instances below, by the codes recorded at enumeration (R262, R308; DEDUCED, notes/assumptions/117.md). -/
def State.gatherFails (s : State) (o : OutCtl) : State :=
  let below := if o.op.isSome then s.tilesBelow else 0
  (s.dropCtl o.id).gatherEnds o.ctx 0 (countsWord 0 0 (o.tiles + below))

/-- CALLTO_EXPIRY (R260 to R262, R303): CALLTO passes from the send of a CTL without its CRSP. A CTL that no context awaits any more is only forgotten. -/
def execCalltoExpiry (id : Nat) (s : State) : Res :=
  .next (match s.seq.ctls.find? (fun o => o.id == id) with
    | none => s
    | some o =>
      if o.held.isSome then s
      else
      let s' := s.untilTick (o.sent + s.callTicks o.ring)
      let lost (s : State) : State :=
        let s := (s.dropCtl id).tsError o.key 1
        { s with seq := { s.seq with abandoned := s.seq.abandoned + 1 } }
      match o.kind with
      | .send => (lost s').barrGo.recheck
      | .bcast => (lost s').barrGo.recheck
      | .call =>
        match (s.ctx o.ctx).wait with
        | .call i l =>
          if i = id then ((s'.dropCtl id).callEnds o.ctx l { resp := Resp.TIMEOUT, lenm1 := 0 }).barrGo.recheck else (s'.dropCtl id).barrGo.recheck
        | .gather i => if i = id then (s'.gatherFails o).barrGo.recheck else (s'.dropCtl id).barrGo.recheck
        | _ => (s'.dropCtl id).barrGo.recheck
      | .chain opid => ((s'.dropCtl id).opOwn opid o.tiles none Resp.TIMEOUT).barrGo.recheck
      | .step => if s.stepAwaits o.ctx id then s else s'.dropCtl id
      | .port => s)

-- Commands at initiator NIs that take PU counters down (R235).

/-- FLIT_ARRIVAL (R86); a posted request whose tail it is leaves its counter (R235). -/
def execFlitArrival (t : Tile) (pl : Plane) (port : RPort) (f : Sys2Proof.RawFlit) (s : State) : Res :=
  .next (s.flitArrival t.val pl.val port.val f).recheck
/-- INJECT_HEADER (R111). -/
def execInjectHeader (src : InjSrc) (cls : BitVec 2) (tag : BitVec 12) (s : State) : Res := .next (s.injectHeader src cls tag).recheck
/-- RESPONSE_LEAVES_ON_S (R116). -/
def execResponseLeavesOnS (t : Tile) (p : LPort) (s : State) : Res := .next (s.leaveS t.val p.val).recheck
/-- ENDPOINT_RESET_ASSERT (R127). -/
def execEndpointResetAssert (t : Tile) (p : LPort) (s : State) : Res := .next (s.epReset t.val p.val).recheck
/-- ABORT_TIMEOUT (R129). -/
def execAbortTimeout (t : Tile) (p : LPort) (s : State) : Res := .next (s.abortTimeout t.val p.val).recheck
/-- RDATA (R108). -/
def execRdata (t : Tile) (p : LPort) (s : State) : Res := .next (s.rdataIn t.val p.val).recheck
/-- WACK (R108). -/
def execWack (t : Tile) (p : LPort) (s : State) : Res := .next (s.wackIn t.val p.val).recheck
/-- TRST (R305): the PU counters of its tile's ports are 0 again. -/
def execTrst (t : Tile) (s : State) : Res := .next (s.trst t.val).recheck
/-- RESPONSE_TIMEOUT (R117). -/
def execResponseTimeout (t : Tile) (p : LPort) (tag : BitVec 12) (s : State) : Res := .next (s.responseTimeout t.val p.val tag).recheck

end Sys2Proof.Machine
end

