-- ==== Sys2Proof/Machine/Operands.lean ====
section
/-! DEFINITION. The operand forms of the Bonov instructions: immediates, field checks, what the A and I formats compute, and the fetch, dispatch and decode that every instruction shares (R247, R249 to R253, R274, R277, R278, R282, R283). -/
namespace Sys2Proof.Machine

-- Immediates (R251).

/-- IMM of format I, sign-extended and zero-extended. -/
def iSext (w : BitVec 32) : W := (iImm w).signExtend 64
def iZext (w : BitVec 32) : W := (iImm w).setWidth 64
/-- IMM of format L. -/
def lSext (w : BitVec 32) : W := (lImm w).signExtend 64
def lZext (w : BitVec 32) : W := (lImm w).setWidth 64
/-- EP as a register number (R259). -/
def mReg (w : BitVec 32) : Nat := fld w 11 4

-- Field checks (R250).

/-- The highest register of an M-format instruction: with L = 1, w(rs) to w(rs + 3) are used; a result fills two registers. -/
def mRegsOk (w : BitVec 32) (writes : Bool) : Bool := decide (iRd w ≤ (if mL w then 12 else if writes then 14 else 15))
/-- EP of TSEND and TCALL (R259). -/
def mEpOk (w : BitVec 32) : Bool := !mCh w && (if mInd w then fld w 15 6 == 0 else fld w 11 2 == 3)
/-- EP of TBCAST and of the gathers (R262). -/
def mScopeOk (w : BitVec 32) : Bool :=
  !mInd w && (match mScope w with
    | 0 => fld w 11 8 == 0
    | 1 => mCol w == 0
    | 2 => mRow w == 0
    | _ => false)
/-- COND of WAITC (R265). -/
def waitcOk (w : BitVec 32) : Bool :=
  match fld w 18 3 with
  | 0 => true
  | 1 => fld w 14 4 == 0
  | 2 => fld w 16 2 == 0 && decide (fld w 12 4 ≤ 13)
  | 3 => fld w 16 2 == 0 && decide (fld w 12 4 ≤ 13)
  | 4 => fld w 12 6 == 0
  | _ => false

/-- Every field that an opcode does not use is zero, and every value is one that it defines (R250, R252, R253, R259, R262, R265 to R274). -/
def fieldsOk (op : Nat) (w : BitVec 32) : Bool :=
  let sub0 := iSub w == 0
  let immHi0 := fld w 6 6 == 0
  let lsub0 := lSub w == 0
  if op ≤ 0x0B then fld w 0 13 == 0
  else match op with
    | 0x10 => sub0
    | 0x11 => sub0
    | 0x12 => sub0
    | 0x13 => sub0
    | 0x14 => sub0 && immHi0
    | 0x15 => sub0 && immHi0
    | 0x16 => sub0 && immHi0
    | 0x17 => sub0
    | 0x18 => sub0
    | 0x19 => sub0
    | 0x1A => sub0
    | 0x1B => sub0
    | 0x1C => lsub0
    | 0x1D => lsub0
    | 0x20 => sub0
    | 0x21 => sub0
    | 0x22 => sub0
    | 0x23 => sub0
    | 0x24 => sub0
    | 0x30 => mEpOk w && mRegsOk w false
    | 0x31 => mEpOk w && mRegsOk w true
    | 0x32 => mScopeOk w && mRegsOk w false
    | 0x33 => mScopeOk w && mRegsOk w true
    | 0x34 => mScopeOk w && mRegsOk w true
    | 0x35 => mScopeOk w && mRegsOk w true
    | 0x36 => mScopeOk w && mRegsOk w true
    | 0x40 => sub0
    | 0x41 => sub0 && immHi0 && iRa w == 0
    | 0x42 => fld w 12 8 == 0
    | 0x43 => waitcOk w
    | 0x44 => fld w 17 4 == 0
    | 0x45 => true
    | 0x50 => fld w 16 5 == 0
    | 0x51 => fld w 13 8 == 0
    | 0x52 => fld w 13 8 == 0
    | 0x53 => fld w 13 8 == 0 && (!bitOf w 12 || decide (iRd w ≤ 14))
    | 0x60 => sub0 && iRa w == 0 && fld w 2 10 == 0 && fld w 0 2 != 3
    | 0x61 => sub0 && fld w 1 11 == 0
    | 0x62 => sub0 && fld w 0 12 == 0
    | 0x63 => sub0 && fld w 0 12 == 0
    | 0x70 => lsub0 && iRd w == 0
    | 0x71 => decide (iSub w ≤ 5)
    | 0x72 => lsub0
    | 0x73 => sub0 && fld w 0 12 == 0 && iRd w == 0
    | 0x74 => sub0 && fld w 0 12 == 0 && iRd w == 0
    | 0x75 => lsub0 && iRd w == 0
    | 0x76 => fld w 0 25 == 0
    | 0x77 => fld w 0 25 == 0
    | _ => false

/-- The opcode map has an instruction at an opcode (R252). -/
def opDefined (op : Nat) : Bool :=
  decide (op ≤ 0x0B) || decide (0x10 ≤ op ∧ op ≤ 0x1D) || decide (0x20 ≤ op ∧ op ≤ 0x24) || decide (0x30 ≤ op ∧ op ≤ 0x36)
    || decide (0x40 ≤ op ∧ op ≤ 0x45) || decide (0x50 ≤ op ∧ op ≤ 0x53) || decide (0x60 ≤ op ∧ op ≤ 0x63) || decide (0x70 ≤ op ∧ op ≤ 0x77)

-- Arithmetic (R251 to R253).

/-- A comparison's result. -/
def cmp (b : Bool) : W := if b then 1 else 0
/-- The amount of a shift. -/
def shAmt (v : W) : Nat := fld v 0 6
/-- The low n bits set. -/
def lowOnes (n : Nat) : W := BitVec.ofNat 64 (2 ^ n - 1)
/-- pos and len of EXT and INS (R253). -/
def xPos (w : BitVec 32) : Nat := fld w 0 6
def xLen (w : BitVec 32) : Nat := fld w 6 6 + 1
def extVal (w : BitVec 32) (v : W) : W := (v >>> xPos w) &&& lowOnes (xLen w)
def insVal (w : BitVec 32) (old v : W) : W :=
  let mask := lowOnes (xLen w) <<< xPos w
  (old &&& ~~~mask) ||| ((v <<< xPos w) &&& mask)

/-- The condition of BRC (R274). -/
def brcHolds (sub : Nat) (a b : W) : Bool :=
  match sub with
  | 0 => a == b
  | 1 => a != b
  | 2 => a.slt b
  | 3 => !a.slt b
  | 4 => a.ult b
  | _ => !a.ult b

-- Issue (R247, R277, R278, R282, R283).

/-- The job of a context that can issue its next instruction. -/
def State.canIssue (s : State) (c : CtxId) : Option Job :=
  if s.dispatching && (s.ctx c).wait == .none && (s.ctx c).acc.isNone then (s.ctx c).job else none

/-- The word at the PC of a job. -/
def State.fetchWord (s : State) (j : Job) : BitVec 32 := s.ringWord j.ring.val (s.head j.ring.val + 4 + j.pc.toNat)

/-- The word is fetched: it is the context's current instruction. -/
def State.fetched (s : State) (c : CtxId) (j : Job) : State :=
  s.setCtx c { s.ctx c with word := s.fetchWord j, job := some { j with lastPc := j.pc } }

/-- The first microword of an opcode. -/
def State.dispStart (s : State) (op : Nat) : Nat := s.g (aDisp op) SEQ_DISP.START
def State.dispValid (s : State) (op : Nat) : Bool := s.gb (aDisp op) SEQ_DISP.VALID

/-- One instruction of context c with an opcode: fetch, dispatch, decode, then its own action. A word with another opcode is another command's. -/
def State.issue (s : State) (c : CtxId) (op : Nat) (act : State → Job → BitVec 32 → State) : State :=
  match s.canIssue c with
  | none => s
  | some j =>
    if j.len ≤ j.pc.toNat then (s.trapWith c tBound 0 j.pc.toNat).recheck
    else
      let w := s.fetchWord j
      let o := iOp w
      let f := s.fetched c j
      if s.dispBad o then (f.machineCheck (.ctx c) true o).recheck
      else if s.dispValid o && s.microBad (s.dispStart o) then (f.machineCheck (.ctx c) false (s.dispStart o)).recheck
      else if opDefined o = false ∨ s.dispValid o = false then (f.trap c tIllegal 0).recheck
      else if o ≠ op then s
      else if fieldsOk op w = false then (f.trap c tIllegal 0).recheck
      else (act f { j with lastPc := j.pc } w).recheck

/-- An instruction that writes one value to w(RD). -/
def State.compute (s : State) (c : CtxId) (op : Nat) (f : Job → BitVec 32 → W) : State := s.issue c op (fun s j w => s.doneRd c (f j w))
/-- An instruction of format A: its value from w(RA) and w(RB). -/
def State.aluA (s : State) (c : CtxId) (op : Nat) (f : W → W → W) : State := s.compute c op (fun j w => f (j.get (iRa w)) (j.get (iRb w)))
/-- An instruction of format I: its value from w(RS) and IMM, as it is extended. -/
def State.aluI (s : State) (c : CtxId) (op : Nat) (ext : BitVec 32 → W) (f : W → W → W) : State :=
  s.compute c op (fun j w => f (j.get (iRa w)) (ext w))

end Sys2Proof.Machine
end

