-- ==== Sys2Proof/Machine/Access.lean ====
section
/-! DEFINITION. Control-space loads and stores, and the loads of WAITC (R254 to R257, R265). -/
namespace Sys2Proof.Machine

/-- What becomes of an access before it is issued: it traps, it is refused inside the sequencer, or it is issued. -/
inductive AccPre where
  | trap (cause detail : Nat)
  | decerr
  | issue
  deriving DecidableEq, Repr

/-- The access names another instance of the chain, or stores to all of them (R257). -/
def State.chainAccess (s : State) (addr : W) (write : Bool) : Bool :=
  let i := fld addr 32 8
  (decide (1 ≤ i ∧ i ≤ 250) && i != s.chnAddr) || (i == 255 && write)

/-- The checks of an access of n bytes in the order of R278 (R254 to R257). -/
def State.accPre (s : State) (j : Job) (addr : W) (write : Bool) (n : Nat) : AccPre :=
  if s.chainAccess addr write && !j.pchain then .trap tPerm 0
  else if addr.toNat % n ≠ 0 then .trap tAlign (addr.toNat % 2 ^ 32)
  else if fld addr 26 6 ≠ 0 then .decerr
  else .issue

/-- One control-space access of an instruction (R254 to R256). -/
def State.access (s : State) (c : CtxId) (j : Job) (use : AccUse) (write : Bool) (n : Nat) (addr v : W) (strb : BitVec 8) : State :=
  match s.accPre j addr write n with
  | .trap cause detail => s.trap c cause detail
  | .decerr => if use = .status then s.doneCode c rDecerr else s.trap c tCserr (addr.toNat % 2 ^ 32)
  | .issue => (s.setCtx c { s.ctx c with wait := .access }).issueAcc c j use write addr v strb

/-- The control address of an I-format access (R254). -/
def accAddr (j : Job) (w : BitVec 32) : W := ctlAddr (j.get (iRa w)) (iSext w)

/-- LDC (R255, R256). -/
def execLdc (c : CtxId) (s : State) : Res := .next (s.issue c 0x20 (fun s j w => s.access c j .load false 8 (accAddr j w) 0 0))

/-- LDCW (R255, R256). -/
def execLdcw (c : CtxId) (s : State) : Res :=
  .next (s.issue c 0x21 (fun s j w => s.access c j (.half (bitOf (accAddr j w) 2)) false 4 (accAddr j w) 0 0))

/-- STC (R255, R256). -/
def execStc (c : CtxId) (s : State) : Res :=
  .next (s.issue c 0x22 (fun s j w => s.access c j .store true 8 (accAddr j w) (j.get (iRd w)) 0xFF#8))

/-- The data and strobes of STCW: the half that bit 2 of the address names (R255). -/
def halfData (addr v : W) : W := if bitOf addr 2 then v <<< 32 else v &&& 0xFFFFFFFF#64
def halfStrb (addr : W) : BitVec 8 := if bitOf addr 2 then 0xF0#8 else 0x0F#8

/-- STCW (R255, R256). -/
def execStcw (c : CtxId) (s : State) : Res :=
  .next (s.issue c 0x23 (fun s j w =>
    let a := accAddr j w
    s.access c j .store true 4 a (halfData a (j.get (iRd w))) (halfStrb a)))

/-- STCS (R255, R256). -/
def execStcs (c : CtxId) (s : State) : Res :=
  .next (s.issue c 0x24 (fun s j w => s.access c j .status true 8 (accAddr j w) (j.get (iRd w)) 0xFF#8))

/-- WAITC begins (R264, R265): a condition of the sequencer is looked at by the check that follows every command; LDEQ and LDNE load at once. -/
def State.waitcStart (s : State) (c : CtxId) (j : Job) (w : BitVec 32) : State :=
  let cond := wCond w
  let go (s : State) : State := s.await c (.waitc cond) (s.bound (wT w))
  if fld cond 6 3 = 2 ∨ fld cond 6 3 = 3 then
    let addr := ctlAddr (j.get (fld cond 0 4)) 0
    match s.accPre j addr false 8 with
    | .trap cause detail => s.trap c cause detail
    | .decerr => s.doneCode c rDecerr
    | .issue => (go s).issueAcc c j .poll false addr 0 0
  else go s

/-- WAITC (R265). -/
def execWaitc (c : CtxId) (s : State) : Res := .next (s.issue c 0x43 (fun s j w => s.waitcStart c j w))

end Sys2Proof.Machine
end

