-- ==== Sys2Proof/Machine/Alu.lean ====
section
/-! DEFINITION. Arithmetic, logic, shifts, compares, fields and constants (R251 to R253). -/
namespace Sys2Proof.Machine

def wAdd (a b : W) : W := a + b
def wSub (a b : W) : W := a - b
def wAnd (a b : W) : W := a &&& b
def wOr (a b : W) : W := a ||| b
def wXor (a b : W) : W := a ^^^ b
def wSll (a b : W) : W := a <<< shAmt b
def wSrl (a b : W) : W := a >>> shAmt b
def wSra (a b : W) : W := a.sshiftRight (shAmt b)
def wMul (a b : W) : W := a * b
def wCeq (a b : W) : W := cmp (a == b)
def wClt (a b : W) : W := cmp (a.slt b)
def wCltu (a b : W) : W := cmp (a.ult b)

/-- ADD (R252). -/
def execAdd (c : CtxId) (s : State) : Res := .next (s.aluA c 0x00 wAdd)
/-- SUB (R252). -/
def execSub (c : CtxId) (s : State) : Res := .next (s.aluA c 0x01 wSub)
/-- AND (R252). -/
def execAnd (c : CtxId) (s : State) : Res := .next (s.aluA c 0x02 wAnd)
/-- OR (R252). -/
def execOr (c : CtxId) (s : State) : Res := .next (s.aluA c 0x03 wOr)
/-- XOR (R252). -/
def execXor (c : CtxId) (s : State) : Res := .next (s.aluA c 0x04 wXor)
/-- SLL (R251, R252). -/
def execSll (c : CtxId) (s : State) : Res := .next (s.aluA c 0x05 wSll)
/-- SRL (R251, R252). -/
def execSrl (c : CtxId) (s : State) : Res := .next (s.aluA c 0x06 wSrl)
/-- SRA (R251, R252). -/
def execSra (c : CtxId) (s : State) : Res := .next (s.aluA c 0x07 wSra)
/-- MUL (R252). -/
def execMul (c : CtxId) (s : State) : Res := .next (s.aluA c 0x08 wMul)
/-- CEQ (R251, R252). -/
def execCeq (c : CtxId) (s : State) : Res := .next (s.aluA c 0x09 wCeq)
/-- CLT (R251, R252). -/
def execClt (c : CtxId) (s : State) : Res := .next (s.aluA c 0x0A wClt)
/-- CLTU (R251, R252). -/
def execCltu (c : CtxId) (s : State) : Res := .next (s.aluA c 0x0B wCltu)
/-- ADDI (R251, R252). -/
def execAddi (c : CtxId) (s : State) : Res := .next (s.aluI c 0x10 iSext wAdd)
/-- ANDI (R251, R252). -/
def execAndi (c : CtxId) (s : State) : Res := .next (s.aluI c 0x11 iZext wAnd)
/-- ORI (R251, R252). -/
def execOri (c : CtxId) (s : State) : Res := .next (s.aluI c 0x12 iZext wOr)
/-- XORI (R251, R252). -/
def execXori (c : CtxId) (s : State) : Res := .next (s.aluI c 0x13 iZext wXor)
/-- SLLI (R252). -/
def execSlli (c : CtxId) (s : State) : Res := .next (s.aluI c 0x14 iZext wSll)
/-- SRLI (R252). -/
def execSrli (c : CtxId) (s : State) : Res := .next (s.aluI c 0x15 iZext wSrl)
/-- SRAI (R252). -/
def execSrai (c : CtxId) (s : State) : Res := .next (s.aluI c 0x16 iZext wSra)
/-- CEQI (R251, R252). -/
def execCeqi (c : CtxId) (s : State) : Res := .next (s.aluI c 0x17 iSext wCeq)
/-- CLTI (R251, R252). -/
def execClti (c : CtxId) (s : State) : Res := .next (s.aluI c 0x18 iSext wClt)
/-- CLTUI (R251, R252). -/
def execCltui (c : CtxId) (s : State) : Res := .next (s.aluI c 0x19 iSext wCltu)
/-- EXT (R253). -/
def execExt (c : CtxId) (s : State) : Res := .next (s.compute c 0x1A (fun j w => extVal w (j.get (iRa w))))
/-- INS (R253). -/
def execIns (c : CtxId) (s : State) : Res := .next (s.compute c 0x1B (fun j w => insVal w (j.get (iRd w)) (j.get (iRa w))))
/-- LI (R252). -/
def execLi (c : CtxId) (s : State) : Res := .next (s.compute c 0x1C (fun _ w => lSext w))
/-- LIH (R252). -/
def execLih (c : CtxId) (s : State) : Res := .next (s.compute c 0x1D (fun j w => (j.get (iRd w) <<< 18) ||| lZext w))

end Sys2Proof.Machine
end

