-- ==== Sys2Proof/Machine/Fuse.lean ====
section
/-! DEFINITION. The fuses: sensing and correction, the fields in force, and the TAP that programs and reads them (R417 to R424, R451). -/
namespace Sys2Proof.Machine

-- Sealed words (R417, R418).

/-- Sealed words: 0, 1 and 5 to 55. -/
def isSealed (w : Nat) : Bool := decide (w < 2) || decide (5 ≤ w ∧ w < 56)
/-- Check words: 56 to 62. -/
def isCheck (w : Nat) : Bool := decide (56 ≤ w ∧ w < 63)

/-- The Hamming positions of the data bits: from 3 on, those that are no power of two. -/
def fusePos : List Nat := ((List.range 72).drop 3).filter (fun p => p != 4 && p != 8 && p != 16 && p != 32 && p != 64)

/-- The syndrome that the data bits give by themselves: the XOR of the positions of the ones. -/
def fuseSyn (d : W) : Nat := ((List.range 64).filter (fun i => bitOf d i)).foldl (fun s i => Nat.xor s (fusePos.getD i 0)) 0

/-- The check byte of a word (R418). -/
def fuseCheck (d : W) : BitVec 8 :=
  let c : BitVec 8 := BitVec.ofNat 8 (fuseSyn d)
  putBit c 7 (parity d != parity c)

/-- What decoding a sealed word gives: the word, whether it was corrected, whether it is uncorrectable (R44, R418). -/
def fuseDecode (d : W) (c : BitVec 8) : W × Bool × Bool :=
  let syn := Nat.xor (fuseSyn d) (c.toNat % 128)
  let odd := parity d != parity c
  if syn = 0 then (d, odd, false)
  else if odd = true ∧ syn < 72 then
    match fusePos.findIdx? (· == syn) with
    | some i => (putBit d i (!bitOf d i), true, false)
    | none => (d, true, false)
  else (d, false, true)

def State.fuse (s : State) (w : Nat) : W := tget 0 s.tap.fuses w
def State.setFuse (s : State) (w : Nat) (v : W) : State := { s with tap := { s.tap with fuses := tput 0 s.tap.fuses w v } }
/-- The place of the check byte of a sealed word. -/
def checkWord (w : Nat) : Nat := 56 + w / 8
def State.checkByte (s : State) (w : Nat) : BitVec 8 := (s.fuse (checkWord w)).extractLsb' (8 * (w % 8)) 8

/-- Every fuse word is sensed into the shadow registers (R403 step 2, R418). -/
def State.sense (s : State) : State :=
  (List.range 64).foldl (fun s w =>
    if isSealed w then
      let r := fuseDecode (s.fuse w) (s.checkByte w)
      ((s.wr (aFuseW w) r.1).putBitAt aFuseCorr w r.2.1).putBitAt aFuseUnc w r.2.2
    else s.wr (aFuseW w) (s.fuse w)) s

-- Fields in force (R419 to R421).

def State.fuseBad (s : State) (w : Nat) : Bool := s.bitAt aFuseUnc w
/-- Word 1 as it acts. -/
def State.fuse1 (s : State) : W := if s.fuseBad 1 then 0xF else s.rd (aFuseW 1)
/-- A field pair reads 1 when either bit does (R418). -/
def pairBit (v : W) (i : Nat) : Bool := bitOf v (2 * i) || bitOf v (2 * i + 1)
/-- MINVER: 1 + the highest logical rollback bit set (R420). -/
def State.minver (s : State) : Nat :=
  ((List.range 64).filter (fun i => pairBit (s.rd (aFuseW (2 + i / 32))) (i % 32))).foldl (fun _ i => i + 1) 0

/-- FUSE_CTL (R425). -/
def State.fuseCtl (s : State) : W :=
  let v := s.fuse1
  let w4 := s.rd (aFuseW 4)
  BitVec.ofNat 64 (fld v 0 6 + 2 ^ 6 * (pairBit w4 0).toNat + 2 ^ 7 * (pairBit w4 1).toNat + 2 ^ 8 * (pairBit w4 2).toNat + 2 ^ 16 * s.minver)

/-- PU_CTL.DOM of a PU (R419, R421). -/
def State.fuseDom (s : State) (i : Nat) : Nat :=
  if s.fuseBad (18 + i / 16) then 0xF else 15 - fld (s.rd (aFuseW (18 + i / 16))) (4 * (i % 16)) 4

/-- Every field that a fuse fixes takes its value. -/
def State.loadFz (s : State) : State :=
  let v := s.fuse1
  let s := (s.wr aFuseCtl s.fuseCtl).pb aBootStat BOOT_STAT.SECURE (bitOf v 0)
  let s := (s.p aGovcap PM_GOVCAP.FCAP (fld v 16 16)).p aGovcap PM_GOVCAP.CAP (fld v 32 16)
  let s := { s with pm := { s.pm with cap := s.rd aGovcap } }
  let s := s.wr aDommap (if s.fuseBad 17 then 0 else (s.rd (aFuseW 17)) &&& 0xFFFFFFFF#64)
  ((List.range 432).filter (puExists s.build)).foldl (fun s i => s.p (aPuCtl i) PU_CTL.DOM (s.fuseDom i)) s

/-- Events 1,001 and 1,002 after a release of ZV_RST_N (R418). -/
def State.fuseEvents (s : State) : State :=
  let s := if s.rd aFuseCorr = 0 then s else s.raiseBasalt 1001
  if s.rd aFuseUnc = 0 then s else s.raiseBasalt 1002

/-- The key slot can be used: not blank, not revoked, not uncorrectable (R412, R419). -/
def State.keyUsable (s : State) (k : Nat) : Bool :=
  let ws := (List.range 6).map (fun i => 5 + 6 * k + i)
  decide (k < 2) && !(if k = 0 then s.gb aFuseCtl FUSE_CTL.KEYREV0 else s.gb aFuseCtl FUSE_CTL.KEYREV1)
    && ws.all (fun w => !s.fuseBad w) && ws.any (fun w => s.rd (aFuseW w) != 0)
/-- The digest in a key slot. -/
def State.keyDigest (s : State) (k : Nat) : List Byte := (List.range 6).flatMap (fun i => bytesOf (s.rd (aFuseW (5 + 6 * k + i))))

-- The TAP (R422).

def irIdcode : BitVec 4 := 1
def irFaddr : BitVec 4 := 2
def irFdata : BitVec 4 := 3
def irFprog : BitVec 4 := 4
def irFread : BitVec 4 := 5
def irMbist : BitVec 4 := 8
def irBypass : BitVec 4 := 0xF

def State.idcode (s : State) : W := BitVec.ofNat 64 (2 ^ 28 * 2 + 2 ^ 12 * 0x0144 + 2 * fld s.fuse1 48 11 + 1)

/-- An instruction is selected, and its data register captured. -/
def State.tapSelect (s : State) (ir : BitVec 4) (captured : W) : State := { s with tap := { s.tap with ir := ir, captured := captured } }

/-- TAP_RESET: Test-Logic-Reset selects IDCODE (R422). -/
def execTapReset (s : State) : Res := .next (s.tapSelect irIdcode s.idcode)
/-- IDCODE (R422). -/
def execIdcode (s : State) : Res := .next (s.tapSelect irIdcode s.idcode)
/-- FADDR (R422). -/
def execFaddr (v : BitVec 8) (s : State) : Res :=
  .next ({ s with tap := { s.tap with faddr := v } }.tapSelect irFaddr (s.tap.faddr.setWidth 64))
/-- FDATA (R422). -/
def execFdata (v : W) (s : State) : Res := .next ({ s with tap := { s.tap with fdata := v } }.tapSelect irFdata s.tap.fdata)
/-- FREAD captures the physical word, uncorrected (R422). -/
def execFread (s : State) : Res := .next (s.tapSelect irFread (s.fuse (fld s.tap.faddr 0 6)))
/-- BYPASS: the register captures 0. The command stands for every instruction code without a name, which all act as BYPASS and of which none can be told from another; the model holds the code of BYPASS for each (R422). -/
def execBypass (s : State) : Res := .next (s.tapSelect irBypass 0)

-- Status bits of FPROG (R422).
def fpBusy : BitVec 8 := 1
def fpDone : BitVec 8 := 2
def fpRefused : BitVec 8 := 4
def fpVpplow : BitVec 8 := 8
def fpFail : BitVec 8 := 16

def State.setFp (s : State) (st : BitVec 8) (prog : Option Nat) : State := { s with tap := { s.tap with status := st, prog := prog } }

/-- FPROG on the word is refused (R423): LOCK and TAPLOCK act as sensed at the last cold reset (R424). -/
def State.fprogRefused (s : State) (w : Nat) (vpp : Bool) : Bool :=
  isCheck w || !vpp
    || (isSealed w && (bitOf (s.rd (aFuseW 63)) w || s.gb aFuseCtl FUSE_CTL.TAPLOCK || (s.fuse w &&& ~~~s.tap.fdata) != 0))

/-- FPROG enters Run-Test/Idle (R422, R423): programming starts, is refused, or goes on. -/
def State.fprogRun (s : State) (vpp : Bool) : State :=
  let w := fld s.tap.faddr 0 6
  if s.tap.prog.isSome then s
  else if s.fprogRefused w vpp then s.setFp (fpRefused ||| (if vpp then 0 else fpVpplow)) none
  else s.setFp fpBusy (some w)

/-- FPROG (R422, R423): the status is captured as it stands, and programming starts where Run-Test/Idle is entered, with FUSE_VPP at its programming level or not. -/
def execFprog (idle : Option Bool) (s : State) : Res :=
  .next (
    let s := s.tapSelect irFprog (s.tap.status.setWidth 64)
    match idle with
    | some vpp => s.fprogRun vpp
    | none => s)

/-- Bits of a word are programmed. -/
def State.blow (s : State) (w : Nat) (v : W) : State := s.setFuse w (s.fuse w ||| v)

/-- The check byte of a word in its place. -/
def checkBits (w : Nat) (d : W) : W := ((fuseCheck d).setWidth 64) <<< (8 * (w % 8))

/-- Programming that does not finish has programmed some of its bits: which, the spec does not say. A device that stopped has begun the check byte only with every data bit programmed; one with a bit that would not blow may have gone on past it. LOCK stays blank (R423, R424; notes/assumptions/87.md). -/
def State.blowSome (s : State) (w : Nat) (stopped : Bool) : State :=
  let m := Config.freeLine s.free
  let d := s.tap.fdata
  let s := s.nextFree.blow w (d &&& lineWord m 0)
  if isSealed w ∧ (stopped = false ∨ s.fuse w &&& d = d) then s.blow (checkWord w) (checkBits w d &&& lineWord m 1) else s

/-- FUSE_PROGRAM_DONE (R423): every bit has blown, or one has not after 4 attempts. -/
def execFuseProgramDone (blown : Bool) (s : State) : Res :=
  .next (match s.tap.prog with
    | none => s
    | some w =>
      if blown then
        let s := s.blow w s.tap.fdata
        let s := if isSealed w then (s.blow (checkWord w) (checkBits w s.tap.fdata)).blow 63 (1#64 <<< w) else s
        s.setFp fpDone none
      else (s.blowSome w false).setFp fpFail none)

/-- Programming under way stops (R424). -/
def State.fuseStops (s : State) (st : BitVec 8) : State :=
  match s.tap.prog with
  | none => s
  | some w => (s.blowSome w true).setFp st none

/-- FUSE_VPP_LOSS (R424). -/
def execFuseVppLoss (s : State) : Res := .next (s.fuseStops fpVpplow)

/-- MBIST (R451): a start, with the two clocks running or not, runs only while ZV_RST_N is asserted with MGT_CLK and FAB_CLK running, on a group that exists; it destroys what it tests, which the release reloads. -/
def execMbist (group : BitVec 8) (start : Option Bool) (s : State) : Res :=
  .next (
    let busy := bitOf s.tap.mb 8
    let mb : BitVec 32 :=
      match start with
      | none => s.tap.mb
      | some clocks =>
        if busy then s.tap.mb
        else if s.rstLow = true ∧ clocks = true ∧ group.toNat < 8 then BitVec.ofNat 32 (256 + group.toNat)
        else BitVec.ofNat 32 (2 ^ 11 + group.toNat)
    { s with tap := { s.tap with mb := mb } }.tapSelect irMbist (s.tap.mb.setWidth 64))

end Sys2Proof.Machine
end

