-- ==== Sys2Proof/Machine/Boot.lean ====
section
/-! DEFINITION. The boot loader: serial memory, slot headers, section loads, signatures, hand-over, chain boot, reload of the microcode (R284, R403 to R416, R434). -/
namespace Sys2Proof.Machine

def State.bootState (s : State) : Nat := s.g aBootStat BOOT_STAT.STATE
def State.setBootState (s : State) (n : Nat) : State := s.p aBootStat BOOT_STAT.STATE n
/-- Both resets are released: the loader can write into the management domain (R403). -/
def State.outOfReset (s : State) : Bool := !s.porstLow && !s.rstLow

-- Serial memory (R407 to R409).

/-- The read mode: its number, opcode, and mode clocks plus wait states (R408). -/
structure ReadMode where
  mode : Nat
  opcode : BitVec 8
  dummy : Nat
  deriving DecidableEq, Repr

/-- A field of DWORD n of the Basic Flash Parameter Table, counted from 1. -/
def sfdpFld (t : Sfdp) (n lo w : Nat) : Nat := fld (t.bfpt.getD (n - 1) 0) lo w

/-- The table can be used: the signature is there, and DWORDs 1 to 4 (R407). -/
def sfdpOk (t : Sfdp) : Bool := t.sig == 0x50444653#32 && decide (4 ≤ t.bfpt.length)

/-- log2 of the density in bytes, from DWORD 2: bits minus 1, or with bit 31 set the power of two of the bits (R407; PRESUMED, notes/assumptions/95.md). -/
def sfdpDensLog2 (t : Sfdp) : Nat :=
  let x := sfdpFld t 2 0 31
  (if sfdpFld t 2 31 1 = 1 then x else Nat.log2 (x + 1)) - 3

/-- How a device of more than 16 MiB is addressed (R408). -/
inductive Addr4 where
  | only | table | enter | none
  deriving DecidableEq, Repr

/-- The first 4-byte method that the device reports: 4-byte-only addressing, the instruction table with its fast read, entry into 4-byte mode (R408; PRESUMED, notes/assumptions/95.md). -/
def sfdpAddr4 (t : Sfdp) : Addr4 :=
  if sfdpFld t 1 17 2 = 2 then .only
  else if t.fourByte.any (fun w => w.getLsbD 1) then .table
  else if sfdpFld t 1 17 2 = 1 then .enter
  else .none

/-- The density in force: a device of more than 16 MiB without a 4-byte method acts as one of 16 MiB (R408). -/
def sfdpDensUsed (t : Sfdp) : Nat := if 24 < sfdpDensLog2 t ∧ sfdpAddr4 t = .none then 24 else sfdpDensLog2 t

/-- The read opcodes come from the 4-Byte Address Instruction Table (R408). -/
def sfdpByTable (t : Sfdp) : Bool := decide (24 < sfdpDensLog2 t) && sfdpAddr4 t == .table

/-- The quad-enable requirement is one that the loader performs; a table of fewer than 15 DWORDs names none (R407, R408). -/
def sfdpQuadOk (t : Sfdp) : Bool := decide (15 ≤ t.bfpt.length) && decide (sfdpFld t 15 20 3 ≤ 5)

/-- A mode of the table: the support bit of DWORD 1, where its opcode, mode clocks and wait states stand, and its bit and opcode in the 4-byte table; none where the device does not report it. -/
def sfdpMode (t : Sfdp) (m bit n lo bit4 : Nat) (op4 : BitVec 8) : Option ReadMode :=
  let dummy := sfdpFld t n lo 5 + sfdpFld t n (lo + 5) 3
  if sfdpFld t 1 bit 1 = 0 then none
  else if sfdpByTable t then (if t.fourByte.any (fun w => w.getLsbD bit4) then some ⟨m, op4, dummy⟩ else none)
  else some ⟨m, BitVec.ofNat 8 (sfdpFld t n (lo + 8) 8), dummy⟩

/-- The fastest mode that the device reports, that SPIMAX allows, and whose quad enabling is one that the loader performs (R408). -/
def pickMode (t : Sfdp) (spimax : Nat) : ReadMode :=
  let quad (m : Nat) (x : Option ReadMode) : Option ReadMode := if sfdpQuadOk t && decide (m ≤ spimax) then x else none
  match quad 3 (sfdpMode t 3 21 3 0 5 0xEC#8) with
  | some x => x
  | none => match quad 2 (sfdpMode t 2 22 3 16 4 0x6C#8) with
    | some x => x
    | none => match (if 1 ≤ spimax then sfdpMode t 1 16 4 0 2 0x3C#8 else none) with
      | some x => x
      | none => ⟨0, if sfdpByTable t then 0x0C#8 else 0x0B#8, 8⟩

/-- SFDP_DISCOVERY (R407): the mode and the density of the serial memory; without a usable table, opcode 0x0B, 8 dummy clocks and 16 MiB. -/
def execSfdpDiscovery (t : Sfdp) (s : State) : Res :=
  .next (
    if s.porstLow = true ∨ s.bootState ≠ bsSfdp then s
    else
      let m := if sfdpOk t then pickMode t (s.g aFuseCtl FUSE_CTL.SPIMAX) else ⟨0, 0x0B#8, 8⟩
      let dens := if sfdpOk t then sfdpDensUsed t else 24
      let s := (s.pb aBootSpi BOOT_SPI.SFDPOK (sfdpOk t)).pb aBootSpi BOOT_SPI.ADDR4 (decide (24 < dens))
      let s := ((s.p aBootSpi BOOT_SPI.MODE m.mode).p aBootSpi BOOT_SPI.OPCODE m.opcode.toNat).p aBootSpi BOOT_SPI.DUMMY m.dummy
      let s := (s.p aBootSpi BOOT_SPI.DENSLOG2 dens).p aBootSpi BOOT_SPI.SLOTLOG2 (min 24 (dens - 1))
      s.setBootState bsHeaders)

/-- The slot size Z (R409). -/
def State.slotSize (s : State) : Nat := 2 ^ s.g aBootSpi BOOT_SPI.SLOTLOG2

-- Slot headers (R410 to R412).

-- Result codes (R412).
def rsOk : Nat := 0
def rsNotTried : Nat := 1
def rsMagic : Nat := 2
def rsHdrcrc : Nat := 3
def rsFormat : Nat := 4
def rsMember : Nat := 5
def rsRollback : Nat := 6
def rsKey : Nat := 7
def rsSectcrc : Nat := 8
def rsSignature : Nat := 9
def rsChain : Nat := 10

/-- A field of the header, little-endian. -/
def hdrNat (b : List Byte) (o n : Nat) : Nat := leNat ((b.drop o).take n)
def zeros (b : List Byte) (o n : Nat) : Bool := ((b.drop o).take n).all (· == 0)

-- Section types (R411).
def scDisp : Nat := 1
def scMcode : Nat := 2
def scBootprog : Nat := 3
def scData : Nat := 4
def scSkip : Nat := 5

/-- Section entry i. -/
def hdrSect (b : List Byte) (i : Nat) : Sect :=
  let o := 0x40 + 16 * i
  ⟨hdrNat b o 1, hdrNat b (o + 2) 2, hdrNat b (o + 4) 4, hdrNat b (o + 8) 4, hdrNat b (o + 12) 4⟩

/-- A section keeps R411 and lies inside the image. -/
def Sect.ok (x : Sect) (imglen : Nat) : Bool :=
  x.off % 256 == 0 && decide (0x400 ≤ x.off) && decide (x.off + x.len ≤ imglen) && (x.type == scData || x.dest == 0)
    && (match x.type with
      | 1 => x.len == 1024
      | 2 => x.len % 12 == 0 && decide (x.len ≤ 98304)
      | 3 => x.len % 4 == 0 && decide (16 ≤ x.len ∧ x.len ≤ 16384)
      | 4 => decide (x.dest * 8 + x.len ≤ 32768)
      | 5 => true
      | _ => false)

/-- Two sections share a byte. -/
def Sect.overlaps (x y : Sect) : Bool := decide (max x.off y.off < min (x.off + x.len) (y.off + y.len))

/-- No section overlaps a later one. -/
def noOverlap : List Sect → Bool
  | [] => true
  | x :: xs => xs.all (fun y => !x.overlaps y) && noOverlap xs

def sectsOf (b : List Byte) : List Sect := (List.range (hdrNat b 6 2)).map (hdrSect b)

/-- The FORMAT checks that the header alone decides; z is the slot size (R410 to R412). -/
def formatOk (b : List Byte) (z : Nat) : Bool :=
  let n := hdrNat b 6 2
  let xs := sectsOf b
  let one (t : Nat) : Bool := (xs.filter (fun x => x.type == t)).length == 1
  hdrNat b 4 2 == 1 && decide (1 ≤ n ∧ n ≤ 32) && hdrNat b 0x12 2 == 0 && zeros b 0x15 0x2B && zeros b 0x304 0xFC
    && zeros b (0x40 + 16 * n) (0x200 - 16 * n) && (List.range n).all (fun i => hdrNat b (0x41 + 16 * i) 1 == 0)
    && decide (hdrNat b 8 4 ≤ z) && xs.all (fun x => x.ok (hdrNat b 8 4)) && noOverlap xs && one scDisp && one scMcode && one scBootprog

def State.secure (s : State) : Bool := s.gb aFuseCtl FUSE_CTL.SECURE

/-- The public key's bytes. -/
def pubKey (b : List Byte) : List Byte := (b.drop 0x240).take 0x60

/-- The header checks in their order: a result code, or none (R412). -/
def State.headerCode (s : State) (b : List Byte) (z : Nat) : Option Nat :=
  let member := hdrNat b 0x10 2
  if hdrNat b 0 4 ≠ 0x31595251 then some rsMagic
  else if (crc32c (b.take 0x300)).toNat ≠ hdrNat b 0x300 4 then some rsHdrcrc
  else if formatOk b z = false then some rsFormat
  else if member ≠ 0xFFFF ∧ member ≠ Config.member.toNat then some rsMember
  else if s.secure = true ∧ hdrNat b 0xC 4 < s.g aFuseCtl FUSE_CTL.MINVER then some rsRollback
  else if s.secure = true ∧ (s.keyUsable (hdrNat b 0x14 1) = false ∨ sha384 (pubKey b) ≠ s.keyDigest (hdrNat b 0x14 1)) then some rsKey
  else none

/-- A header that passed. -/
def slotHdr (b : List Byte) : SlotHdr := ⟨hdrNat b 0xC 4, hdrNat b 0x14 1, sectsOf b, b⟩

def resField (slot : Bool) : Fd := if slot then BOOT_STAT.RESB else BOOT_STAT.RESA
def State.setRes (s : State) (slot : Bool) (code : Nat) : State := s.p aBootStat (resField slot) code

def State.hdrOf (s : State) (slot : Bool) : Option SlotHdr := if slot then s.boot.hdrB else s.boot.hdrA

/-- Event 1,000 at the end of the boot (R414). -/
def State.bootEvent (s : State) : State :=
  let bad (f : Fd) : Bool := s.g aBootStat f != rsOk && s.g aBootStat f != rsNotTried
  if s.gb aBootStat BOOT_STAT.FALLBACK || bad BOOT_STAT.RESA || bad BOOT_STAT.RESB then s.raiseBasalt 1000 else s

/-- No slot loads (R416). -/
def State.bootFailed (s : State) : State := { s.setBootState bsFailed with boot := { s.boot with bootFail := true, ready := false } }.bootEvent

/-- A slot's header is examined. -/
def State.examine (s : State) (slot : Bool) (b : List Byte) : State × Option SlotHdr :=
  match s.headerCode b s.slotSize with
  | some c => (s.setRes slot c, none)
  | none => (s, some (slotHdr b))

/-- The slot loaded first: the higher VERSION, and on equal VERSION the one that PREF names (R414). -/
def State.firstSlot (s : State) (a b : Option SlotHdr) : Bool :=
  match a, b with
  | some x, some y => if x.version = y.version then s.gb aBootCfg BOOT_CFG.PREF else decide (x.version < y.version)
  | none, some _ => true
  | _, none => false

/-- SLOT_HEADER_CHECK (R412, R414): the 1,024 bytes of both headers. -/
def execSlotHeaderCheck (a b : List Byte) (s : State) : Res :=
  .next (
    if s.porstLow = true ∨ s.bootState ≠ bsHeaders ∨ a.length ≠ 1024 ∨ b.length ≠ 1024 then s
    else
      let x := s.examine false a
      let y := x.1.examine true b
      let first := y.1.firstSlot x.2 y.2
      let s := y.1
      if x.2.isNone ∧ y.2.isNone then s.bootFailed
      else { s.setBootState bsLoading with boot := { s.boot with hdrA := x.2, hdrB := y.2, first := first, cur := first } })

-- Section loads (R412, R415).

/-- The 64-bit words of a section. -/
def sectWords (bs : List Byte) : List W := wordsOf (bs.length / 8 + 1) bs

/-- A dispatch entry is bad: PAR, or VALID at an opcode from 0x78 on (R412). -/
def dispEntryBad (op : Nat) (w : W) : Bool := parity (w.extractLsb' 0 18) || (decide (0x78 ≤ op) && bitOf w 16)
/-- The microwords of an MCODE section, 12 bytes each. -/
def microWords (bs : List Byte) : List (BitVec 96) :=
  (List.range (bs.length / 12)).map (fun i => BitVec.ofNat 96 (leNat ((bs.drop (12 * i)).take 12)))

/-- The load check of a section that fails, if one does, in the order of the table of result codes (R412). -/
def sectCode (x : Sect) (bs : List Byte) : Option Nat :=
  if x.type = scSkip then none
  else if x.type = scDisp ∧ (List.range 128).any (fun op => dispEntryBad op ((sectWords bs).getD op 0)) = true then some rsFormat
  else if x.type = scMcode ∧ (microWords bs).any (fun m => parity m) = true then some rsFormat
  else if (crc32c bs).toNat ≠ x.crc then some rsSectcrc
  else none

/-- The dispatch table; its reserved bits read zero, and entries 0x78 to 0x7F cannot be changed (R282). -/
def State.loadDisp (s : State) (bs : List Byte) : State :=
  (List.range 0x78).foldl (fun s op => s.wr (aDisp op) ((sectWords bs).getD op 0 &&& 0x3FFFF#64)) s

/-- The control store; microwords that MCODE does not cover are zero (R415). -/
def State.loadMcode (s : State) (bs : List Byte) : State :=
  let ms := microWords bs
  { s with micro := ((List.range ms.length).map (fun i => (i, ms.getD i 0))).filter (fun kv => kv.2 != 0) }

/-- The writes that load ring 8 from slot 0 (R415). -/
def bootprogWrites (bs : List Byte) : List LoadStep :=
  (List.range (bs.length / 4)).map (fun i =>
    .write (aRing 8 (i / 2)) (BitVec.ofNat 64 (leNat ((bs.drop (4 * i)).take 4)) <<< (32 * (i % 2))) (if i % 2 = 0 then 0x0F#8 else 0xF0#8))

/-- The writes that load BOOT_DATA from byte o (R411). -/
def dataWrites (o : Nat) (bs : List Byte) : List LoadStep :=
  (List.range bs.length).map (fun i =>
    .write (aBootData ((o + i) / 8)) ((bs.getD i 0).setWidth 64 <<< (8 * ((o + i) % 8))) (1#8 <<< ((o + i) % 8)))

/-- What loads a section (R411, R415). -/
def sectSteps (x : Sect) (bs : List Byte) : List LoadStep :=
  match x.type with
  | 1 => [.disp bs]
  | 2 => [.mcode bs]
  | 3 => bootprogWrites bs
  | 4 => dataWrites (8 * x.dest) bs
  | _ => []

/-- What loads a slot: its sections in the order of the table, up to the first whose check fails, and the outcome. -/
def slotSteps (h : SlotHdr) (all : List (Sect × List Byte)) : List (Sect × List Byte) → List LoadStep
  | [] => [.loaded h all]
  | (x, bs) :: rest =>
    match sectCode x bs with
    | some c => [.fails c]
    | none => sectSteps x bs ++ slotSteps h all rest

/-- A section's bytes by its type. -/
def bytesOfType (t : Nat) (xs : List (Sect × List Byte)) : List Byte := (xs.filter (fun x => x.1.type == t)).flatMap (·.2)

/-- The signed message (R413). -/
def signedMessage (h : SlotHdr) (xs : List (Sect × List Byte)) : List Byte :=
  h.bytes.take 0x2A0 ++ (xs.filter (fun x => x.1.type != scSkip)).flatMap (·.2)

/-- BOOT_MDIG takes a digest of 48 bytes. -/
def State.setMdig (s : State) (d : List Byte) : State :=
  (List.range 6).foldl (fun s i => s.wr (aBootMdig i) (BitVec.ofNat 64 (leNat ((d.drop (8 * i)).take 8)))) s
/-- The digest of DISP and MCODE (R415). -/
def microDigest (xs : List (Sect × List Byte)) : List Byte := sha384 (bytesOfType scDisp xs ++ bytesOfType scMcode xs)

/-- Every check has passed: hand-over can follow. -/
def State.bootReady (s : State) : State := { s.setRes s.boot.cur rsOk with boot := { s.boot with ready := true } }

/-- A slot's sections have been read and loaded without an error. -/
def State.slotLoaded (s : State) (h : SlotHdr) (xs : List (Sect × List Byte)) : State :=
  let s := s.setMdig (microDigest xs)
  let image : List (Nat × List Byte) := (0, h.bytes) :: (xs.filter (fun x => x.1.type != scSkip)).map (fun x => (x.1.off, x.2))
  let s := { s with boot := { s.boot with msgHash := beNat (sha384 (signedMessage h xs)), tail := (bytesOfType scBootprog xs).length / 4, image := image } }
  if s.secure then s.setBootState bsVerify else s.bootReady

/-- The slot being loaded fails: the other one is loaded, when it passed the header checks and has not been tried (R414). -/
def State.slotFails (s : State) (code : Nat) : State :=
  let s := s.setRes s.boot.cur code
  if s.boot.cur = s.boot.first ∧ (s.hdrOf (!s.boot.cur)).isSome = true then
    { s.setBootState bsLoading with boot := { s.boot with cur := !s.boot.cur } }
  else s.bootFailed

/-- The bytes read are those of the sections. -/
def sectsGiven (h : SlotHdr) (bs : List (List Byte)) : Bool :=
  h.sects.length == bs.length && (h.sects.zip bs).all (fun x => x.1.type == scSkip || x.1.len == x.2.length)

/-- The loader's access: a write of one beat as master BL (R36, R342). -/
def blAcc (o : Nat) (v : W) (strb : BitVec 8) : Acc :=
  { master := 9, who := .bl, req := 0, ctx := none, write := true, inst := 0, off := BitVec.ofNat 26 o, beats := 1, data := [v], strb := [strb], done := [] }

/-- No access holds a port or waits at it, and its clock runs. -/
def State.portIdle (s : State) (j : Nat) : Bool := s.pm.mstate == .running && (s.xport j).holder.isNone && (s.xport j).pend.isEmpty

/-- The last step of the hand-over: READY, the status of the boot, ZV_BOOTDONE (R415). -/
def State.handedOver (s : State) : State :=
  let h := s.hdrOf s.boot.cur
  let s := s.pb aSeqStatus SEQ_STATUS.READY true
  let s := (s.p aBootStat BOOT_STAT.VERSION ((h.map (·.version)).getD 0)).p aBootStat BOOT_STAT.KEYIDX ((h.map (·.keyidx)).getD 0)
  let s := (if s.gb aBootStat BOOT_STAT.SRC then s else s.pb aBootStat BOOT_STAT.SLOT s.boot.cur).pb aBootStat BOOT_STAT.FALLBACK (s.boot.cur != s.boot.first)
  { s.setBootState bsDone with boot := { s.boot with ready := false, bootDone := true } }.bootEvent

/-- One step of the loader other than a write. -/
def State.loadAct (s : State) : LoadStep → State
  | .write .. => s
  | .disp bs => s.loadDisp bs
  | .mcode bs => s.loadMcode bs
  | .loaded h xs => s.slotLoaded h xs
  | .fails c => s.slotFails c
  | .handed => s.handedOver

/-- The steps that wait. -/
def State.setTodo (s : State) (l : List LoadStep) : State := { s with boot := { s.boot with todo := l } }

/-- The loader goes through its steps, with one access outstanding (R342). An access at an idle port is granted, takes effect and is answered before the next one (DESIGN CHOICE, notes/assumptions/94.md); at any other port it waits in its slot, and the rest with it. -/
def State.loadRun : List LoadStep → State → State
  | [], s => s.setTodo []
  | .write o v b :: rest, s =>
    let j := portOf o
    if s.portIdle j then State.loadRun rest ((s.setXport j ((s.xport j).grant (blAcc o v b) 1 9)).presentLocal j)
    else (s.pendAcc j (blAcc o v b)).setTodo rest
  | x :: rest, s => State.loadRun rest (s.loadAct x)

/-- An access of the loader waits. -/
def State.blWaits (s : State) : Bool := (List.range 11).any (fun j => (s.xport j).pend.any (fun a => a.master == 9))

/-- The loader goes on once its access has been answered. -/
def State.loadGo (s : State) : State := if s.boot.todo.isEmpty || s.blWaits then s else State.loadRun s.boot.todo s

/-- A slot is read, checked and loaded. -/
def State.loadSlot (s : State) (h : SlotHdr) (bs : List (List Byte)) : State :=
  let xs := h.sects.zip bs
  State.loadRun (slotSteps h xs xs) s

/-- SECTION_LOAD (R415): the bytes of each section of the slot in the order of its table. -/
def execSectionLoad (slot : Bool) (sections : List (List Byte)) (s : State) : Res :=
  .next (
    if s.outOfReset = false ∨ s.bootState ≠ bsLoading ∨ s.boot.ready = true ∨ s.boot.todo ≠ [] ∨ slot ≠ s.boot.cur then s
    else match s.hdrOf slot with
      | some h => if sectsGiven h sections then s.loadSlot h sections else s
      | none => s)

/-- The header of the image that is loaded verifies against the digest of its message (R413). -/
def State.verifies (s : State) (h : SlotHdr) : Bool :=
  let n (o : Nat) : Nat := beNat ((h.bytes.drop o).take 48)
  ecdsaVerify s.boot.msgHash (n 0x240) (n 0x270) (n 0x2A0) (n 0x2D0)

/-- SIGNATURE_CHECK (R413). -/
def execSignatureCheck (s : State) : Res :=
  .next (
    if s.outOfReset = false ∨ s.bootState ≠ bsVerify ∨ s.boot.ready = true then s
    else match s.hdrOf s.boot.cur with
      | some h => if s.verifies h then s.bootReady else s.slotFails rsSignature
      | none => s)

-- Broadcasts of the image (R434).

/-- The 64-byte pieces of some bytes at an offset; what follows the last byte of a section in its last piece the spec does not say. -/
def pieces (free : Nat) (x : Nat × List Byte) : List (Nat × List Byte) :=
  (List.range ((x.2.length + 63) / 64)).map (fun i =>
    let b := (x.2.drop (64 * i)).take 64
    (x.1 + 64 * i, b ++ (bytesOf (Config.freeLine free)).drop b.length))

/-- A frame to every downstream port that is UP. -/
def State.toChildren (s : State) (src : Nat) (b : FrameBody) : State :=
  ([1, 2].filter s.cpIsUp).foldl (fun s p => s.sendFrame p 255 src b) s

/-- The root broadcasts the slot that it booted. -/
def State.broadcast (s : State) : State :=
  let slot := s.g aBootStat BOOT_STAT.SLOT
  let frames := s.boot.image.flatMap (pieces s.free)
  let imglen := hdrNat (((s.boot.image.find? (fun x => x.1 == 0)).map (·.2)).getD []) 8 4
  let s := frames.foldl (fun s x => s.toChildren s.chnAddr (.qdata (BitVec.ofNat 32 x.1) x.2)) s.nextFree
  s.toChildren s.chnAddr (.qend (BitVec.ofNat 8 slot) (BitVec.ofNat 32 imglen))

/-- A broadcast that was asked for starts, once the root has booted and no broadcast goes on: requests that came meanwhile cause one more. -/
def State.broadcastGo (s : State) : State :=
  if s.isRoot && s.chn.bcastWanted && s.boot.bootDone && !s.bcastBusy then
    { s with chn := { s.chn with bcastWanted := false } }.broadcast
  else s

/-- HANDOVER (R415): ring 8's tail, READY, ZV_BOOTDONE. -/
def execHandover (s : State) : Res :=
  .next (
    if s.outOfReset = false ∨ s.boot.ready = false ∨ s.boot.todo ≠ [] then s
    else (State.loadRun [.write (aRingtail 8) (BitVec.ofNat 64 s.boot.tail) 0xFF, .handed] s).broadcastGo)

/-- PORT_GRANT (R353); a loader whose access has been answered goes on. -/
def execPortGrant (j : Fin 11) (s : State) : Res := .next (s.portGrant j.val).loadGo.broadcastGo.recheck

-- Chain boot (R434).

/-- An instance that boots over the chain asks the root for its image, once it has its address and its link is UP. -/
def State.chainRequest (s : State) : State :=
  if s.chainBoots && s.outOfReset && s.bootState == bsFuses && s.chnAddr != 0 && s.cpIsUp 0 then
    ({ s with chn := { s.chn with qtries := 1 }, boot := { s.boot with image := [] } }.setBootState bsChainwait
      |>.pb aBootStat BOOT_STAT.SRC true).sendFrame 0 1 s.chnAddr .qreq
  else s

/-- The instance takes the QDATA of a broadcast: it waits for an image, or reloads its microcode. -/
def State.takesQdata (s : State) : Bool := s.bootState == bsChainwait || s.chn.reload

/-- n bytes of the image from an offset, out of the pieces received. -/
def imageBytes (img : List (Nat × List Byte)) (o n : Nat) : List Byte :=
  ((List.range ((n + 63) / 64)).flatMap (fun i => ((img.find? (fun x => x.1 == o + 64 * i)).map (·.2)).getD [])).take n

/-- The bytes of each section of an image received. -/
def imageSects (img : List (Nat × List Byte)) (h : SlotHdr) : List (List Byte) :=
  h.sects.map (fun x => if x.type = scSkip then [] else imageBytes img x.off x.len)

/-- The reload of the microcode ends (R284): dispatch goes on, or the sequencer is DEAD, unless a second machine check has made it DEAD already. -/
def State.reloadEnds (s : State) (good : Option (List (Sect × List Byte))) : State :=
  let s := ({ s with chn := { s.chn with reload := false } }.pb aSeqStatus SEQ_STATUS.RELOADING false).setBootState bsDone
  if s.gb aSeqStatus SEQ_STATUS.DEAD then s
  else match good with
  | some xs => (((s.loadDisp (bytesOfType scDisp xs)).loadMcode (bytesOfType scMcode xs)).pb aSeqStatus SEQ_STATUS.MCHK false).pb aSeqStatus SEQ_STATUS.READY true
  | none => (s.pb aSeqStatus SEQ_STATUS.DEAD true).raise 938

/-- The sections of the image that the loader holds. -/
def heldSects (img : List (Nat × List Byte)) : List (Sect × List Byte) :=
  let b := ((img.find? (fun x => x.1 == 0)).map (·.2)).getD []
  (sectsOf b).map (fun x => (x, ((img.find? (fun y => y.1 == x.off)).map (·.2)).getD []))

/-- MICROCODE_RELOAD (R284): the check of the section reread from the serial memory ends, once every job has ended. After a second machine check it ends nothing: RELOADING keeps the value that it had (DESIGN CHOICE, notes/assumptions/151.md). -/
def execMicrocodeReload (ok : Bool) (s : State) : Res :=
  .next (
    if s.gb aSeqStatus SEQ_STATUS.RELOADING = false ∨ s.gb aSeqStatus SEQ_STATUS.DEAD = true ∨ s.chn.reload = true
        ∨ ctxIds.any (fun c => (s.ctx c).job.isSome) = true then s
    else s.reloadEnds (if ok then some (heldSects s.boot.image) else none))

/-- Every piece of an image has come: the header, and each section that it names (R434). -/
def imageWhole (img : List (Nat × List Byte)) : Bool :=
  let whole (o n : Nat) : Bool := (List.range ((n + 63) / 64)).all (fun i => img.any (fun x => x.1 == o + 64 * i))
  whole 0 1024 && (sectsOf (imageBytes img 0 1024)).all (fun x => x.type == scSkip || whole x.off x.len)

/-- The image of a broadcast is complete: it is checked and loaded like a slot; its result stands in RESA. -/
def State.chainImage (s : State) (slot : Bool) : State :=
  let img := s.boot.image
  let b := imageBytes img 0 1024
  let s := { s with boot := { s.boot with cur := false, first := false } }
  match s.headerCode b (2 ^ 24) with
  | some c => (s.setRes false c).bootFailed
  | none =>
    let h := slotHdr b
    let s := { s with boot := { s.boot with hdrA := some h } }.pb aBootStat BOOT_STAT.SLOT slot
    (s.setBootState bsLoading).loadSlot h (imageSects img h)

/-- A broadcast ends while the microcode is being reloaded: only DISP and MCODE are taken, and checked against the digest of the boot. -/
def State.chainReload (s : State) : State :=
  let img := s.boot.image
  let h := slotHdr (imageBytes img 0 1024)
  let xs := h.sects.zip (imageSects img h)
  let dig := (List.range 6).flatMap (fun i => bytesOf (s.rd (aBootMdig i)))
  s.reloadEnds (if microDigest xs = dig then some xs else none)

end Sys2Proof.Machine
end

