-- ==== Sys2Proof/Machine/ChainCmds.lean ====
section
/-! DEFINITION. Frames and timers of the chain: training, acknowledgement, replay, operations, broadcasts of the image (R307, R308, R316, R429, R430, R434, R435). -/
namespace Sys2Proof.Machine

-- Links (R429, R435).

/-- TRAIN (R429). The MEMBER that it names is recorded by ENUMRET. -/
def execTrain (p : ChPort) (roleD rxok : Bool) (_member : BitVec 16) (s : State) : Res :=
  .next (((s.trainIn p.val roleD rxok).portLost p.val).chainRequest.recheck)

/-- Acknowledged frames leave a port; a broadcast that was asked for meanwhile starts. -/
def State.ackIn (s : State) (p : Nat) (seq : BitVec 8) : State :=
  if s.onRootU p then s.rootUp
  else if ¬ s.cpIsUp p then s
  else s.setCport p ((s.cport p).acked seq)

/-- ACK (R429). -/
def execAck (p : ChPort) (seq : BitVec 8) (s : State) : Res := .next (s.ackIn p.val seq).broadcastGo

/-- NAK (R429): what came before is acknowledged, and the sender replays from the SEQ expected. -/
def execNak (p : ChPort) (seq : BitVec 8) (s : State) : Res :=
  .next (
    if s.onRootU p.val then s.rootUp
    else if ¬ s.cpIsUp p.val then s
    else (((s.ackIn p.val (seq - 1)).replay p.val).portLost p.val).broadcastGo.recheck)

/-- REPLAY_TIMEOUT (R429): 2 µs without an acknowledgement. -/
def execReplayTimeout (p : ChPort) (s : State) : Res :=
  .next (if s.cpIsUp p.val then ((s.replay p.val).portLost p.val).broadcastGo.recheck else s)

/-- LINK_SILENCE (R429): 10 µs without a good frame, at a port that is UP or in TRAINING. -/
def execLinkSilence (p : ChPort) (s : State) : Res :=
  .next (if s.cpIsUp p.val = true ∨ s.cpState p.val = cpTraining then ((s.portDown p.val).portLost p.val).broadcastGo.recheck else s)

/-- ENUM (R430); an instance that boots over the chain asks for its image once it has an address (R434). -/
def execEnum (hdr : FrameHdr) (gen next depth : BitVec 8) (s : State) : Res :=
  .next (s.takeFrame 0 ⟨hdr, .enum gen next depth⟩ (fun s => s.enumIn gen next.toNat depth.toNat)).chainRequest

-- Operations (R307, R308).

/-- The local part of an operation that a parent asked for; a broadcast waits for the limit of R296. -/
def State.opLocal (s : State) (opid : BitVec 16) (x : Option SpreadOp) (func : BitVec 8) (args : List W) : State :=
  match x with
  | none =>
    s.sendSpread 0 (.chain opid) 0 true ⟨some opOr, .inst⟩ (engFunc engBarrier) 63 (engArgs engBarrier 0) none
  | some y =>
    s.sendSpread 0 (.chain opid) 0 false y func.toNat (if args.length = 4 then 31 else 7) (lineOf args) none

/-- The tiles of this instance in the scope of an operation. -/
def State.opTiles (s : State) (x : Option SpreadOp) : Nat :=
  match x with
  | none => s.liveTiles
  | some y => s.scopeTiles y.scope

/-- CHAINERR as a byte of RESP: the code of the crossbar (R346, R431; DESIGN CHOICE, notes/assumptions/118.md). -/
def chainErr : BitVec 8 := 4

/-- An operation comes down (R307): forwarded, and performed here. While the instance has no address or enumerates, it is answered CHAINERR at once (R431). -/
def State.opdnIn (s : State) (opid : BitVec 16) (kind func : BitVec 8) (args : List W) : State :=
  match opOfKind kind with
  | none => s.badFrame
  | some x =>
    if args.length ≠ 1 ∧ args.length ≠ 4 then s.badFrame
    else if s.chnReady = false then
      s.sendFrame 0 0 s.chnAddr (.opup opid chainErr 0 (countsWord 0 0 (s.opTiles x)))
    else (s.opStart opid x func args true).opLocal opid x func args

/-- An operation that must wait for the limit of broadcasts. -/
def State.opWaits (s : State) (kind : BitVec 8) : Bool :=
  match opOfKind kind with
  | some (some x) => x.gather.isNone && !s.bcastRoom
  | _ => false

/-- OPDN (R307). -/
def execOpdn (hdr : FrameHdr) (opid : BitVec 16) (kind func : BitVec 8) (args : List W) (s : State) : Res :=
  .next (if s.opWaits kind && !s.onRootU 0 then s else s.takeFrame 0 ⟨hdr, .opdn opid kind func args⟩ (fun s => s.opdnIn opid kind func args))

/-- A child answers an operation that awaits it; any other answer is discarded. -/
def State.opupIn (s : State) (p : Nat) (opid : BitVec 16) (resp : BitVec 8) (value counts : W) : State :=
  if s.chn.ops.any (fun x => x.opid == opid && x.waits.any (fun w => w.1 == p)) then
    ((s.opChild opid p value (fld counts 0 16) (fld counts 16 16) (fld counts 32 16) (resp.setWidth 4)).barrGo).recheck
  else s

/-- OPUP (R307). -/
def execOpup (p : ChPort) (hdr : FrameHdr) (opid : BitVec 16) (resp : BitVec 8) (value counts : W) (s : State) : Res :=
  .next (s.takeFrame p.val ⟨hdr, .opup opid resp value counts⟩ (fun s => s.opupIn p.val opid resp value counts))

/-- A child does not answer: its subtree counts as silent, and event 945 is raised once for the operation (R308, R316). -/
def State.childTimeout (s : State) (opid : BitVec 16) (p : Nat) : State :=
  match s.chn.ops.find? (fun x => x.opid == opid) with
  | none => s
  | some x =>
    match x.waits.find? (fun w => w.1 == p) with
    | none => s
    | some w =>
      let s := if x.raised then s else s.raise 945
      let ops := replaceFirst (fun (y : ChainOp) => y.opid == opid) (fun y => { y with raised := true }) s.chn.ops
      (State.opChild { s with chn := { s.chn with ops := ops } } opid p 0 0 0 w.2 Resp.OK).barrGo.recheck

/-- CHILD_TIMEOUT (R308). -/
def execChildTimeout (opid : BitVec 16) (p : ChPort) (s : State) : Res := .next (s.childTimeout opid p.val)

-- Broadcasts (R434).

/-- A QREQ reaches the root, or goes on up. -/
def State.qreqIn (s : State) (hdr : FrameHdr) : State :=
  if s.isRoot then { s with chn := { s.chn with bcastWanted := true } }.broadcastGo
  else s.sendFrame 0 hdr.dst.toNat hdr.src.toNat .qreq

/-- QREQ (R434). -/
def execQreq (p : ChPort) (hdr : FrameHdr) (s : State) : Res := .next (s.takeFrame p.val ⟨hdr, .qreq⟩ (fun s => s.qreqIn hdr))

/-- A piece of the image goes on down, and is taken by an instance that waits for it. -/
def State.qdataIn (s : State) (hdr : FrameHdr) (off : Nat) (bytes : List Byte) : State :=
  if bytes.length ≠ 64 then s.badFrame
  else
    let s := s.toChildren hdr.src.toNat (.qdata (BitVec.ofNat 32 off) bytes)
    if s.takesQdata then { s with boot := { s.boot with image := (off, bytes) :: s.boot.image.filter (fun x => x.1 != off) } } else s

/-- QDATA (R434). -/
def execQdata (hdr : FrameHdr) (offset : BitVec 32) (bytes : List Byte) (s : State) : Res :=
  .next (s.takeFrame 0 ⟨hdr, .qdata offset bytes⟩ (fun s => s.qdataIn hdr offset.toNat bytes))

/-- The end of a broadcast (R434, R284): an instance that came to wait in the middle of it awaits the next one. -/
def State.qendIn (s : State) (hdr : FrameHdr) (slot : BitVec 8) (imglen : BitVec 32) : State :=
  let s := s.toChildren hdr.src.toNat (.qend slot imglen)
  if s.takesQdata = false then s
  else if imageWhole s.boot.image = false then { s with boot := { s.boot with image := [] } }
  else if s.chn.reload then s.chainReload
  else s.chainImage (bitOf slot 0)

/-- QEND (R434). -/
def execQend (hdr : FrameHdr) (slot : BitVec 8) (imglen : BitVec 32) (s : State) : Res :=
  .next (s.takeFrame 0 ⟨hdr, .qend slot imglen⟩ (fun s => s.qendIn hdr slot imglen))

/-- QEND_TIMEOUT (R434): 100 ms without a QEND; after the fourth QREQ the chain boot has failed. -/
def execQendTimeout (s : State) : Res :=
  .next (
    if s.takesQdata = false then s
    else if s.chn.qtries < 4 then { s with chn := { s.chn with qtries := s.chn.qtries + 1 } }.sendFrame 0 1 s.chnAddr .qreq
    else if s.chn.reload then s.reloadEnds none
    else (s.setRes false rsChain).bootFailed)

-- The crossing into the management domain (R382, R386).

/-- What a frame that waited in the crossing does once the management domain runs. -/
def State.frameIn (s : State) (p : Nat) (k : Frame) : State :=
  match k.body with
  | .train .. => s
  | .ack _ => s
  | .nak _ => s
  | .enum gen next depth => (s.enumIn gen next.toNat depth.toNat).chainRequest
  | .enumRet gen next status height _ tiles => s.enumRetIn p gen next.toNat status.toNat height.toNat tiles.toNat
  | .req tag orig offset data strb => s.reqIn p k.hdr tag orig offset data strb
  | .rsp tag code data => s.rspIn p k.hdr tag code data
  | .opdn opid kind func args => s.opdnIn opid kind func args
  | .opup opid resp value counts => s.opupIn p opid resp value counts
  | .qreq => s.qreqIn k.hdr
  | .qdata offset bytes => s.qdataIn k.hdr offset.toNat bytes
  | .qend slot imglen => s.qendIn k.hdr slot imglen

/-- The frames that stand in the crossing take effect, in order. -/
def State.chainDrain (s : State) : State :=
  s.chn.xin.foldl (fun s x => s.frameIn x.1 x.2) { s with chn := { s.chn with xin := [] } }

end Sys2Proof.Machine
end

