-- ==== Sys2Proof/Machine/Crsp.lean ====
section
/-! DEFINITION. A CRSP reaches the sequencer (R260 to R262, R296, R300, R303, R307, R316, R464). -/
namespace Sys2Proof.Machine

/-- A packet bears the fields of a CRSP body. -/
def sameBody (k : Pkt) (r : CrspBody) : Bool :=
  k.resp == r.resp && k.aux == r.aux && k.lenm1 == r.lenm1 && (r.data == [] && k.data == [] || k.data == [lineOf r.data])

/-- The combined answer of a gather of this instance ends it (R262). -/
def State.gatherAnswer (s : State) (o : OutCtl) (r : CrspBody) : State :=
  match crspComb r with
  | some x => (s.dropCtl o.id).gatherEnds o.ctx (if x.ok = 0 then 0 else x.value) (countsWord x.ok x.bad x.silent)
  | none => s.gatherFails o

/-- The context of a CTL still awaits its gather. -/
def State.gatherAwaits (s : State) (o : OutCtl) : Bool :=
  match (s.ctx o.ctx).wait with
  | .gather id => id == o.id
  | _ => false

/-- A CRSP ends what its CTL belongs to. -/
def State.ctlAnswer (s : State) (o : OutCtl) (r : CrspBody) : State :=
  match o.kind with
  | .send => if respRead r.resp = Resp.OK then s.dropCtl o.id else (s.dropCtl o.id).tsError o.key 1
  | .bcast =>
    let n := match crspComb r with
      | some x => x.missing
      | none => if respRead r.resp = Resp.OK then 0 else 1
    (s.dropCtl o.id).tsError o.key n
  | .call =>
    match (s.ctx o.ctx).wait with
    | .call id l => if id = o.id then (s.dropCtl o.id).callEnds o.ctx l r else s.dropCtl o.id
    | .gather id => if id = o.id then s.gatherAnswer o r else s.dropCtl o.id
    | _ => s.dropCtl o.id
  | .port => (s.dropCtl o.id).cfgAnswer (s.ctlPort o.id) r
  | .step =>
    match (s.ctx o.ctx).wait with
    | .step k id => if id = o.id then (s.dropCtl o.id).stepEnds o.ctx k id ((crspComb r).getD ⟨0, 0, 0, o.tiles⟩) else s.dropCtl o.id
    | _ => s.dropCtl o.id
  | .chain opid => (s.dropCtl o.id).opOwn opid o.tiles (crspComb r) (respRead r.resp)

/-- A CRSP that an operation over the chain awaits ends this instance's own part of it (R307); for a gather issued here, one that carries no counts ends it without usable counts (R262). -/
def State.ownAnswer (s : State) (o : OutCtl) (opid : BitVec 16) (r : CrspBody) : State :=
  if (o.kind == .call && (crspComb r).isNone && s.gatherAwaits o) = true then s.gatherFails o
  else if s.chn.ops.any (fun x => x.opid == opid && x.own) then s.opOwn opid o.tiles (crspComb r) (respRead r.resp) else s

/-- The sequencer consumes a CRSP; the combined CRSP of a spread with RELFLT raises event 944 (R316). -/
def State.crspIn (s : State) (o : OutCtl) (r : CrspBody) : State :=
  let s := if fld o.tag 8 3 ≠ 0 ∧ bitOf r.aux 12 = true then s.raise 944 else s
  match o.op with
  | some opid => s.ownAnswer o opid r
  | none => s.ctlAnswer o r

/-- The packet first received with a property is taken. -/
def State.takeCrsp (s : State) (p : Pkt → Bool) : Option State :=
  (extract p s.seq.rx).map (fun x => { s with seq := { s.seq with rx := x.2 } })

/-- The CTL with a number that has been sent and awaits its CRSP. -/
def State.sentCtl (s : State) (id : Nat) : Option OutCtl := s.seq.ctls.find? (fun o => o.id == id && o.held.isNone)

/-- A CRSP that has reached the sequencer or the CFG port is consumed: for the CTL with a number, or, where no such CTL is outstanding, discarded (R260). -/
def State.crsp (s : State) (id : Nat) (r : CrspBody) : State :=
  match s.sentCtl id with
  | some o =>
    match s.takeCrsp (fun k => k.tag == o.tag && k.src == o.dest && sameBody k r) with
    | some s => (s.crspIn o r).barrGo.recheck
    | none => s
  | none =>
    match s.takeCrsp (fun k => sameBody k r && s.seq.ctls.all (fun o => o.held.isSome || !(o.tag == k.tag && o.dest == k.src))) with
    | some s => s
    | none => s

/-- CRSP (R260). -/
def execCrsp (id : Nat) (r : CrspBody) (s : State) : Res := .next (s.crsp id r)

end Sys2Proof.Machine
end

