-- ==== Sys2Proof/Machine/Flow.lean ====
section
/-! DEFINITION. Flow of control: branches, calls, the ends of a job, YIELD (R274, R275). -/
namespace Sys2Proof.Machine

/-- A branch target (R274). -/
def Job.target (j : Job) (off : W) : BitVec 12 := j.pc + off.setWidth 12

/-- BR (R274). -/
def execBr (c : CtxId) (s : State) : Res := .next (s.issue c 0x70 (fun s j w => s.doneAt c (j.target (lSext w)) id))

/-- BRC compares w(RD) with w(RS) (R274). -/
def execBrc (c : CtxId) (s : State) : Res :=
  .next (s.issue c 0x71 (fun s j w =>
    s.doneAt c (if brcHolds (iSub w) (j.get (iRd w)) (j.get (iRa w)) then j.target (iSext w) else j.pc + 1) id))

/-- CALL (R274). -/
def execCall (c : CtxId) (s : State) : Res :=
  .next (s.issue c 0x72 (fun s j w => s.doneAt c (j.target (lSext w)) (fun j => j.set (iRd w) ((j.pc + 1).setWidth 64))))

/-- RET (R274). -/
def execRet (c : CtxId) (s : State) : Res := .next (s.issue c 0x73 (fun s j w => s.doneAt c ((j.get (iRa w)).setWidth 12) id))

/-- HALT (R275). -/
def execHalt (c : CtxId) (s : State) : Res :=
  .next (s.issue c 0x74 (fun s j w => (s.endRecord c { j with insns := j.insns + 1 } stDone 0 (j.get (iRa w))).freeCtx c))

/-- TRAP (R275). -/
def execTrap (c : CtxId) (s : State) : Res := .next (s.issue c 0x75 (fun s _ w => s.trap c tSwtrap (lImm w).toNat))

/-- NOP (R252). -/
def execNop (c : CtxId) (s : State) : Res := .next (s.issue c 0x76 (fun s _ _ => s.done c id))

/-- YIELD (R275). -/
def execYield (c : CtxId) (s : State) : Res :=
  .next (s.issue c 0x77 (fun s j _ => (s.setSaved j.ring.val (some { j with pc := j.pc + 1, insns := j.insns + 1 })).freeCtx c))

end Sys2Proof.Machine
end

