-- ==== Sys2Proof/Machine/Message.lean ====
section
/-! DEFINITION. Fabric messages: TSEND, TCALL, TBCAST and the four gathers (R143, R258 to R263, R296, R307). -/
namespace Sys2Proof.Machine

/-- The argument of a CTL: w(RS), or w(RS) to w(RS + 3) (R258). -/
def msgArgs (j : Job) (w : BitVec 32) : List W :=
  if mL w then (List.range 4).map (fun i => j.get (iRd w + i)) else [j.get (iRd w)]
def msgLenm1 (w : BitVec 32) : Nat := if mL w then 31 else 7

/-- A messaging instruction of another context than the one that runs the stratum instructions waits while a plane is held (R143). -/
def State.msgHeld (s : State) (c : CtxId) : Bool := s.heldPlane.isSome && s.seq.strCtx != some c

/-- The destination of TSEND and TCALL (R259). -/
def msgDest (j : Job) (w : BitVec 32) : BitVec 10 := if mInd w then (j.get (mReg w)).extractLsb' 0 10 else mEp w
/-- A CTL can be sent there (R259). -/
def destOk (d : BitVec 10) : Bool := epInGrid d && epPort d == 3

/-- The current instruction completes when the CTL sent last has been injected (R260, R262). -/
def State.awaitInject (s : State) (c : CtxId) : State :=
  match s.seq.ctls.getLast? with
  | some o => s.setCtx c { s.ctx c with wait := .inject o.tag o.dest }
  | none => s

/-- The current instruction waits for a CRSP that makes room, and issues again then (R260, R296). -/
def State.awaitRoom (s : State) (c : CtxId) : State := s.setCtx c { s.ctx c with wait := .room }

/-- TSEND acts (R260); a seventeenth message, one without a free TAG (R59), and a message under a held plane, waits. -/
def State.tsend (s : State) (c : CtxId) (j : Job) (w : BitVec 32) : State :=
  let d := msgDest j w
  if destOk d = false then (s.tsError j.key 1).done c id
  else if s.msgHeld c then s
  else if 16 ≤ s.tsOut c ∨ s.tagRoom false 0 0 = false then s.awaitRoom c
  else (s.sendCtl c .send j.key false 0 0 d (mFunc w).toNat (msgLenm1 w) (lineOf (msgArgs j w)) 1 none).awaitInject c

/-- TSEND (R260). -/
def execTsend (c : CtxId) (s : State) : Res := .next (s.issue c 0x30 (fun s j w => s.tsend c j w))

/-- The current instruction awaits the CRSP of the CTL sent last. -/
def State.awaitCtl (s : State) (c : CtxId) (k : Nat → Wait) : State := s.setCtx c { s.ctx c with wait := k s.lastId }

/-- TCALL acts (R261); it waits for a TAG that no outstanding CTL bears (R59). -/
def State.tcall (s : State) (c : CtxId) (j : Job) (w : BitVec 32) : State :=
  let d := msgDest j w
  if destOk d = false then s.callEnds c (mL w) { resp := Resp.DECERR, data := [] }
  else if s.msgHeld c then s
  else if s.tagRoom false 0 0 = false then s.awaitRoom c
  else (s.sendCtl c .call j.key false 0 0 d (mFunc w).toNat (msgLenm1 w) (lineOf (msgArgs j w)) 1 none).awaitCtl c (fun id => .call id (mL w))

/-- TCALL (R261). -/
def execTcall (c : CtxId) (s : State) : Res := .next (s.issue c 0x31 (fun s j w => s.tcall c j w))

/-- The row or column exists on the member (R262). -/
def scopeExists : Scope → Bool
  | .inst => true
  | .row y => decide (y < Config.gridY)
  | .col x => decide (x < Config.gridX)

/-- A spread is sent, and with CH over the chain as well (R262, R307). -/
def State.spreadOut (s : State) (c : CtxId) (j : Job) (w : BitVec 32) (kind : CtlKind) (gather : Option Nat) : State :=
  let x : SpreadOp := ⟨gather, msgScope w⟩
  let opid := s.freshOp
  let s := s.sendSpread c kind j.key false x (mFunc w).toNat (msgLenm1 w) (lineOf (msgArgs j w)) (if mCh w then some opid else none)
  if mCh w then State.opStart { s with chn := { s.chn with nextOp := opid + 1 } } opid (some x) (mFunc w) (msgArgs j w) false else s

/-- TBCAST acts (R262); it waits while a plane is held, for the limit of broadcasts (R296), and for a TAG (R59). -/
def State.tbcast (s : State) (c : CtxId) (j : Job) (w : BitVec 32) : State :=
  if mCh w && !j.pchain then s.trap c tPerm 0
  else if scopeExists (msgScope w) = false then (s.tsError j.key 1).done c id
  else if s.msgHeld c then s
  else if s.bcastRoom = false ∨ s.tagRoom false (scopeNo (msgScope w)) 0 = false then s.awaitRoom c
  else if mCh w && !s.chnReady then (s.tsError j.key 1).done c id
  else (s.spreadOut c j w .bcast none).awaitInject c

/-- TBCAST (R262). -/
def execTbcast (c : CtxId) (s : State) : Res := .next (s.issue c 0x32 (fun s j w => s.tbcast c j w))

/-- A gather acts (R262); it waits while a plane is held, and for a TAG (R59). -/
def State.tgather (s : State) (c : CtxId) (j : Job) (w : BitVec 32) (op : Nat) : State :=
  if mCh w && !j.pchain then s.trap c tPerm 0
  else if scopeExists (msgScope w) = false then (s.tsError j.key 1).gatherEnds c 0 0
  else if s.msgHeld c then s
  else if s.tagRoom false (scopeNo (msgScope w) + 3) op = false then s.awaitRoom c
  else if mCh w && !s.chnReady then s.gatherEnds c 0 (countsWord 0 0 (s.scopeTiles (msgScope w)))
  else (s.spreadOut c j w .call (some op)).awaitCtl c Wait.gather

/-- TGSUM (R262). -/
def execTgsum (c : CtxId) (s : State) : Res := .next (s.issue c 0x33 (fun s j w => s.tgather c j w opSum))
/-- TGOR (R262). -/
def execTgor (c : CtxId) (s : State) : Res := .next (s.issue c 0x34 (fun s j w => s.tgather c j w opOr))
/-- TGMAX (R262). -/
def execTgmax (c : CtxId) (s : State) : Res := .next (s.issue c 0x35 (fun s j w => s.tgather c j w opMax))
/-- TGAND (R262). -/
def execTgand (c : CtxId) (s : State) : Res := .next (s.issue c 0x36 (fun s j w => s.tgather c j w opAnd))

end Sys2Proof.Machine
end

