-- ==== Sys2Proof/Machine/Resets.lean ====
section
/-! DEFINITION. Resets, crossings that reconnect, clocks that stop, and the retention of the management domain (R127, R281, R339, R359 to R361, R365, R367, R380, R385, R387, R403, R405, R418, R445). -/
namespace Sys2Proof.Machine

-- Host ports (R281, R339, R360, R361, R385).

/-- What a host's reset does at one target port: a waiting request is removed; an incomplete write is discarded and the port released; the answer of a presented access will be sunk (R360). -/
def XPort.hostReset (x : XPort) (h : Nat) : XPort :=
  let x := { x with pend := x.pend.filter (fun a => a.master != h) }
  match x.holder with
  | some a => if a.master ≠ h then x else if 0 < a.missing then x.release else { x with sunk := true }
  | none => x

/-- A grant or a transaction of the host is outstanding. -/
def State.hostBusy (s : State) (h : Nat) : Bool :=
  !(s.host h).reqs.isEmpty || (List.range 11).any (fun j => (s.xport j).holder.any (fun a => a.master == h))

/-- The crossbar's part of a host port's reset (R360). -/
def State.xbHostReset (s : State) (h : Nat) : State :=
  let x := s.host h
  let busy := s.hostBusy h
  let s := (List.range 11).foldl (fun s j => s.setXport j ((s.xport j).hostReset h)) s
  let s := (s.sat (aXbHstat h) XB_HSTAT.SUNK (x.reqs.filter (·.2.isSome)).length).sat (aXbHstat h) XB_HSTAT.RSTCNT
  let s := if busy then s.raise (972 + h) else s
  s.setHost h { x with reqs := [], extra := [], owed := [], xin := 0, low := true, waitClear := true, irqKept := if x.stopped then some 0 else none }

/-- The sequencer's part of a host port's reset (R271, R281). -/
def State.ringReset (s : State) (h : Nat) : State :=
  let tail := s.tail h
  let s := s.breakLocks h
  let s := match s.savedJob h with
    | some j => (s.setSaved h none).endRecord j.lastCtx j stAborted 0 0
    | none => s
  let s := if s.ringRuns h then s else s.setPtr (aRinghead h) tail
  ctxIds.foldl (fun s c => if (s.ctx c).job.any (fun j => j.ring.val == h) then s.endSoon c (.abort tail) else s) s

/-- The management side of the host's crossings enters FLUSH; the counters of its wake pulses are cleared (R384, R385). -/
def State.flushHost (s : State) (h : Nat) : State :=
  let cts := s.pm.cts.filter (fun kv => kv.1 / 8 != h)
  { s with pm := { s.pm with cts := cts } }.flushDomain 577

/-- HOST_RESET_ASSERT (R360). -/
def execHostResetAssert (h : HostId) (s : State) : Res :=
  .next (
    if (s.host h.val).low then s
    else ((((s.flushHost h.val).xbHostReset h.val).evcHostReset h.val).ringReset h.val).evcCycle.barrGo.recheck)

/-- HOST_RESET_RELEASE (R361): the host side asks to reconnect. -/
def execHostResetRelease (h : HostId) (s : State) : Res :=
  .next (if (s.host h.val).low then (s.setHost h.val { s.host h.val with low := false }).evcCycle else s)

/-- A PU_CTL write at the PU port completes once the endpoint side that it awaits takes values again (R234, R387). -/
def State.retryPu (s : State) : State :=
  match (s.xport 6).holder, (s.xport 6).waits with
  | some a, some i => if s.epStands i then s else s.finishPort 6 a.done
  | _, _ => s

/-- The host's crossing is UP again, and each wake pulse that was counted meanwhile goes on its way (R384, R385). -/
def State.reconnectHost (s : State) (h : Nat) : State :=
  if (s.host h).low || !(s.host h).waitClear then s
  else (List.range 8).foldl (fun s i => s.ctTripEnd (8 * h + i)) (s.setHost h { s.host h with waitClear := false })

/-- CROSSING_RECONNECT (R385): both halves are UP after the release. -/
def execCrossingReconnect (x : CrossId) (s : State) : Res :=
  .next (match x with
    | .ep t p => ((s.reconnectEp t.val p.val).retryPu).recheck
    | .host h => s.reconnectHost h.val)

-- Clocks that the integrator may stop (R359, R365, R387).

/-- CLOCK_STOP: a host's clock at any time, an endpoint's while its port is DISABLED or its reset asserted (R365). -/
def execClockStop (k : ClkId) (s : State) : Res :=
  .next (match k with
    | .host h => s.setHost h.val { s.host h.val with stopped := true, irqKept := some (s.hostIrq h.val) }
    | .ep t p =>
      if s.niState t.val p.val = niDisabled ∨ (s.ni t.val p.val).epLow = true then s.setNi t.val p.val { s.ni t.val p.val with clkStop := true }
      else s)

/-- CLOCK_RESTART: what waited for the clock goes on (R359, R387). -/
def execClockRestart (k : ClkId) (s : State) : Res :=
  .next (match k with
    | .host h => (s.setHost h.val { s.host h.val with stopped := false, irqKept := none }).hostFlush h.val
    | .ep t p => ((s.setNi t.val p.val { s.ni t.val p.val with clkStop := false }).retryPu).recheck)

-- Retention (R336, R380).

/-- Nothing keeps the management domain from retention (R380). -/
def State.mgmtIdle (s : State) : Bool :=
  ctxIds.all (fun c => (s.ctx c).job.isNone)
    && (List.range 9).all (fun r => (s.savedJob r).isNone && !s.startable r)
    && (List.range 11).all (fun j => (s.xport j).holder.isNone && (s.xport j).pend.isEmpty)
    && s.chn.remotes.isEmpty && s.chn.ops.isEmpty && s.chn.enum.isNone && s.chn.ports.toList.all (fun x => x.wait.isEmpty && x.replay.isEmpty) && s.chn.xin.isEmpty
    && s.pm.offing.isEmpty && (List.range 144).all (fun t => s.pst t != stFencing && s.pst t != stPowering)

/-- MGMT_RETENTION_ENTRY (R336, R380). -/
def execMgmtRetentionEntry (s : State) : Res :=
  .next (
    if s.gb aPmCfg PM_CFG.MRETEN = true ∧ s.pm.mstate = .running ∧ s.mgmtIdle = true then
      { s with pm := { s.pm with mstate := .retention }, evc := { s.evc with irq := 0 } }.bump aEvcCnt EVC_CNT.SAVES
    else s)

/-- EVC_RESTORE (R336, R382): the frames that waited in the crossing from the chain take effect. -/
def execEvcRestore (s : State) : Res := .next (if s.pm.mstate = .clocked then s.mgmtRuns.chainDrain.recheck else s)

-- Cold reset and fabric reset (R367, R403, R405).

/-- Hosts and endpoints keep what their own pins say: a reset held, a clock stopped. -/
def State.keepPins (s : State) : Tab XHost × Tab Ni :=
  let hosts : Tab XHost := s.hosts.map (fun kv => (kv.1, { XHost.reset with
    low := kv.2.low, waitClear := kv.2.low, stopped := kv.2.stopped, hold := kv.2.hold, irqKept := if kv.2.stopped then some 0 else none }))
  let nis : Tab Ni := s.nis.map (fun kv => (kv.1, kv.2.pins))
  (hosts.filter (fun kv => kv.2 != XHost.reset), nis.filter (fun kv => kv.2 != Ni.reset))

/-- Everything is reset but the fuse array, the pins, and time. -/
def State.blank (s : State) : State :=
  let pins := s.keepPins
  { State.reset with
    pending := s.pending, cyc := s.cyc, rst0 := s.rst0, bas0 := s.bas0, porstLow := s.porstLow, rstLow := s.rstLow, build := s.build,
    hosts := pins.1, nis := pins.2, tap := s.tap, free := s.free }

/-- POWER_ON_RESET_ASSERT (R367): every domain. -/
def execPowerOnResetAssert (s : State) : Res := .next { (s.fuseStops 0).blank with porstLow := true }

/-- Registers that a fabric reset keeps: the fuse shadow, the SFDP results, PREF, the chain's address and enumeration records (R405, R431). -/
def keptByFabricReset (o : Nat) : Bool :=
  decide (aFuseW 0 ≤ o ∧ o ≤ aFuseCtl) || o == aBootSpi || o == aBootCfg || o == aChnId || o == aChnCtl

/-- What a fabric reset leaves of a chain port's register (R431). -/
def State.keepRange (s old : State) (p : Nat) : State :=
  let g (f : Fd) : Nat := old.g (aChnPort p) f
  s.setRange p (g CHN_PORT.LO) (g CHN_PORT.HI) (g CHN_PORT.SUBH) (g CHN_PORT.SUBTILES)

/-- FABRIC_RESET_ASSERT (R367, R405): every domain but basalt. -/
def execFabricResetAssert (s : State) : Res :=
  .next (
    let regs : Tab W := s.regs.filter (fun kv => keptByFabricReset kv.1)
    let b := { s.blank with rstLow := true, regs := regs }
    ((b.keepRange s 1).keepRange s 2).loadFz)

/-- Every tile's links train (R445). -/
def State.trainLinks (s : State) : State :=
  (List.range 144).foldl (fun s t => [0, 1].foldl (fun s pl => (List.range 4).foldl (fun s d => s.startTraining t pl d) s) s) s

/-- The chain's ports train; the root never uses U (R426, R429). -/
def State.trainChain (s : State) : State :=
  [0, 1, 2].foldl (fun s p => if s.onRootU p then s else s.trainPort p) s

/-- Every domain that ZV_RST_N holds leaves reset (R367, R405, R418): the loader goes on from the step that R403 or R405 gives. -/
def State.leaveFabricReset (s : State) : State :=
  let s := ({ s with rst0 := s.cyc }.trainLinks.trainChain).fuseEvents
  let s := if s.bootState ≠ bsFuses ∨ s.chainBoots = true then s
    else s.setBootState (if s.g aBootSpi BOOT_SPI.OPCODE = 0 then bsSfdp else bsHeaders)
  s.chainRequest

/-- COLD_RESET_RELEASE (R403): the fuses are sensed; with ZV_RST_N released as well, every domain runs. -/
def execColdResetRelease (s : State) : Res :=
  .next (
    if s.porstLow = false then s
    else
      let s := ({ s with porstLow := false, bas0 := s.cyc }.sense).loadFz
      let s := if s.chainBoots then s else s.setBootState bsSfdp
      if s.rstLow then s else s.leaveFabricReset)

/-- FABRIC_RESET_RELEASE (R367). -/
def execFabricResetRelease (s : State) : Res :=
  .next (
    if s.rstLow = false then s
    else
      let s := { s with rstLow := false }
      if s.porstLow then s else s.leaveFabricReset)

end Sys2Proof.Machine
end

