-- ==== Sys2Proof/Machine/Sync.lean ====
section
/-! DEFINITION. Locks, waits, barriers, fences, stratum and time instructions (R264, R266 to R273). -/
namespace Sys2Proof.Machine

-- Locks.

/-- LOCK acts (R269). -/
def State.lock (s : State) (c : CtxId) (j : Job) (w : BitVec 32) : State :=
  let l := fld w 0 6
  let n := fld w 6 6
  let lease := fld (j.get (iRa w)) 0 32
  let take (code : Nat) : State := (s.takeLock l j.ring.val lease).doneCode c code
  if s.lockState l = lkFree then take rOk
  else if s.lockState l = lkBroken then take rBroken
  else if s.lockOwner l = j.ring.val then take rOwned
  else if n = 0 then s.doneCode c rHeld
  else { s with seq := { s.seq with lockq := s.seq.lockq ++ [(l, c)] } }.await c (.lock l lease) (s.ticks + 256 * n)

/-- LOCK (R269). -/
def execLock (c : CtxId) (s : State) : Res := .next (s.issue c 0x40 (fun s j w => s.lock c j w))

/-- UNLK acts (R270): the slot goes to the LOCK that has waited longest (R269). -/
def State.unlk (s : State) (c : CtxId) (j : Job) (w : BitVec 32) : State :=
  let l := fld w 0 6
  if s.lockState l = lkIsHeld ∧ s.lockOwner l = j.ring.val then
    (((s.p (aLock l) SEQ_LOCK.STATE lkFree).setLease l 0).doneCode c rOk).grantLock l
  else s.doneCode c rNotOwner

/-- UNLK (R270). -/
def execUnlk (c : CtxId) (s : State) : Res := .next (s.issue c 0x41 (fun s j w => s.unlk c j w))

-- Instructions of format W: the bound runs from the issue (R264).

/-- The bound of a W-format instruction is set at its issue. -/
def State.withBound (s : State) (c : CtxId) (w : BitVec 32) : State := s.setCtx c { s.ctx c with deadline := s.bound (wT w) }

/-- BARR acts (R267, R303). -/
def State.barrIssue (s : State) (c : CtxId) (j : Job) (w : BitVec 32) : State :=
  if bitOf (wCond w) 8 && !j.pchain then s.trap c tPerm 0 else (s.withBound c w).barr c (bitOf (wCond w) 8)

/-- BARR (R267). -/
def execBarr (c : CtxId) (s : State) : Res := .next (s.issue c 0x42 (fun s j w => s.barrIssue c j w))

/-- WAITT acts (R266). The validity of the timebase is looked at when it issues; an INVAL that comes later leaves the wait as it is (DESIGN CHOICE, notes/assumptions/132.md). -/
def State.waittIssue (s : State) (c : CtxId) (j : Job) (w : BitVec 32) : State :=
  let cond := wCond w
  let v := j.get (fld cond 0 4)
  let target : W := if bitOf cond 4 then BitVec.ofNat 64 s.ntNs + v else v
  if s.gb aTbStat TB_STAT.VALID = false then s.doneCode c rNoTime
  else if target.toNat ≤ s.ntNs then s.doneCode c rOk
  else s.await c (.waitt target) (s.bound (wT w))

/-- WAITT (R266). -/
def execWaitt (c : CtxId) (s : State) : Res := .next (s.issue c 0x44 (fun s j w => s.waittIssue c j w))

/-- FENCE acts (R268): in IDLE it completes at once (R236); a counter that is already zero is seen by the check that follows every command. -/
def State.fenceIssue (s : State) (c : CtxId) (w : BitVec 32) : State :=
  let i := (wCond w).toNat
  if i ≠ 0x1FF ∧ puExists s.build i = false then s.doneCode c rDecerr
  else if s.phase = phIdle then s.doneCode c rOk
  else s.await c (.fence i) (s.bound (wT w))

/-- FENCE (R268). -/
def execFence (c : CtxId) (s : State) : Res := .next (s.issue c 0x45 (fun s _ w => s.fenceIssue c w))

/-- STPREP (R140, R272). -/
def execStprep (c : CtxId) (s : State) : Res := .next (s.issue c 0x50 (fun s _ w => (s.withBound c w).stprep c (fld w 12 4)))
/-- STCOMMIT (R141, R272). -/
def execStcommit (c : CtxId) (s : State) : Res := .next (s.issue c 0x51 (fun s _ w => (s.withBound c w).stcommit c (bitOf w 12)))
/-- STDRAIN (R144, R146, R272). -/
def execStdrain (c : CtxId) (s : State) : Res := .next (s.issue c 0x52 (fun s _ w => (s.withBound c w).stdrain c (bitOf w 12)))
/-- STQUERY (R147, R272). -/
def execStquery (c : CtxId) (s : State) : Res := .next (s.issue c 0x53 (fun s _ w => (s.withBound c w).stquery c (bitOf w 12)))

-- Time (R273, R394).

/-- The time source that TRD reads. -/
def State.timeSource (s : State) (src : Nat) : W :=
  match src with
  | 0 => BitVec.ofNat 64 s.ntNs
  | 1 => BitVec.ofNat 64 s.ticks
  | _ => s.rd aTbPpscap

/-- TRD (R273). -/
def execTrd (c : CtxId) (s : State) : Res := .next (s.issue c 0x60 (fun s _ w => s.doneRd c (s.timeSource (fld w 0 2))))

/-- A change of the timebase needs PTIME; the instruction completes when it has been applied (R273, R394). -/
def State.timeIssue (s : State) (c : CtxId) (j : Job) (x : TimeChange) : State :=
  if j.ptime = false then s.trap c tPerm 0
  else (s.timeChange x).await c (.time (s.fcc + applyDelay)) 0

/-- TLOAD acts (R273). -/
def State.tloadIssue (s : State) (c : CtxId) (j : Job) (w : BitVec 32) : State :=
  let v := (j.get (iRa w)).toNat
  if bitOf w 0 then
    if j.ptime = false then s.trap c tPerm 0
    else if s.tb.armed.isSome then s.doneCode c rBusy
    else (s.armPps v).doneCode c rOk
  else s.timeIssue c j (.load v s.runNow)

/-- TLOAD (R273). -/
def execTload (c : CtxId) (s : State) : Res := .next (s.issue c 0x61 (fun s j w => s.tloadIssue c j w))
/-- TADJ (R273). -/
def execTadj (c : CtxId) (s : State) : Res := .next (s.issue c 0x62 (fun s j w => s.timeIssue c j (.step (j.get (iRa w)).toInt)))
/-- TSLEW (R273). -/
def execTslew (c : CtxId) (s : State) : Res := .next (s.issue c 0x63 (fun s j w => s.timeIssue c j (.slew (j.get (iRa w)).toInt)))

/-- TIME_APPLY (R394, R398): the change is made, and what waited for its apply cycle goes on: the instruction that made it, and a write of TB_PERIOD at the crossbar. -/
def execTimeApply (s : State) : Res :=
  .next (
    let s := s.timeApply
    let s := ctxIds.foldl (fun s c =>
      match (s.ctx c).wait with
      | .time f => if f ≤ s.fcc then s.doneCode c rOk else s
      | _ => s) s
    let x := s.xport 3
    let s := match x.holder, x.waits with
      | some a, some f => if f ≤ s.fcc then s.finishPort 3 a.done else s
      | _, _ => s
    s.recheck)

end Sys2Proof.Machine
end

