-- ==== Sys2Proof/Machine/Dispatch.lean ====
section
/-! DEFINITION. One arm per command: the meaning it calls. -/
namespace Sys2Proof.Machine

def exec (i : Instr) (s : State) : Host.Outcome State Fault Refusal :=
  match i with
  | .flitArrival t pl port f => Sys2Proof.Machine.execFlitArrival t pl port f s
  | .creditReturn t pl side crv crvc crp => Sys2Proof.Machine.execCreditReturn t pl side crv crvc crp s
  | .flint t pl port dest str flp => Sys2Proof.Machine.execFlint t pl port dest str flp s
  | .packetEjection t pl out flits => Sys2Proof.Machine.execPacketEjection t pl out flits s
  | .read t p q => Sys2Proof.Machine.execRead t p q s
  | .write t p q => Sys2Proof.Machine.execWrite t p q s
  | .writeNp t p q => Sys2Proof.Machine.execWriteNp t p q s
  | .atomic t p q => Sys2Proof.Machine.execAtomic t p q s
  | .message t p q => Sys2Proof.Machine.execMessage t p q s
  | .doorbell t p q => Sys2Proof.Machine.execDoorbell t p q s
  | .cell t p q => Sys2Proof.Machine.execCell t p q s
  | .enqueue t p q => Sys2Proof.Machine.execEnqueue t p q s
  | .dlastBeat t p beats dbe => Sys2Proof.Machine.execDlastBeat t p beats dbe s
  | .injectHeader src cls tag => Sys2Proof.Machine.execInjectHeader src cls tag s
  | .rd t p mtag => Sys2Proof.Machine.execRd t p mtag s
  | .wr t p mtag => Sys2Proof.Machine.execWr t p mtag s
  | .wrn t p mtag => Sys2Proof.Machine.execWrn t p mtag s
  | .atm t p mtag old => Sys2Proof.Machine.execAtm t p mtag old s
  | .msg t p => Sys2Proof.Machine.execMsg t p s
  | .pkt t p mtag => Sys2Proof.Machine.execPkt t p mtag s
  | .enq q cls => Sys2Proof.Machine.execEnq q cls s
  | .internalEvent src => Sys2Proof.Machine.execInternalEvent src s
  | .rdata t p => Sys2Proof.Machine.execRdata t p s
  | .wack t p => Sys2Proof.Machine.execWack t p s
  | .crsp id r => Sys2Proof.Machine.execCrsp id r s
  | .responseTimeout t p tag => Sys2Proof.Machine.execResponseTimeout t p tag s
  | .tagHoldExpiry t p tag => Sys2Proof.Machine.execTagHoldExpiry t p tag s
  | .targetTimeout t p mtag => Sys2Proof.Machine.execTargetTimeout t p mtag s
  | .targetResponse t p mtag code data => Sys2Proof.Machine.execTargetResponse t p mtag code data s
  | .mailboxDelivery t p => Sys2Proof.Machine.execMailboxDelivery t p s
  | .endpointResetAssert t p => Sys2Proof.Machine.execEndpointResetAssert t p s
  | .endpointResetRelease t p => Sys2Proof.Machine.execEndpointResetRelease t p s
  | .crossingReconnect x => Sys2Proof.Machine.execCrossingReconnect x s
  | .portDisable t p force => Sys2Proof.Machine.execPortDisable t p force s
  | .portEnable t p => Sys2Proof.Machine.execPortEnable t p s
  | .disableComplete t p => Sys2Proof.Machine.execDisableComplete t p s
  | .abortTimeout t p => Sys2Proof.Machine.execAbortTimeout t p s
  | .allocate q picks => Sys2Proof.Machine.execAllocate q picks s
  | .freeCells q => Sys2Proof.Machine.execFreeCells q s
  | .pbcfgInit m v => Sys2Proof.Machine.execPbcfgInit m v s
  | .ftEntryWrite m word v => Sys2Proof.Machine.execFtEntryWrite m word v s
  | .recordRead k qid => Sys2Proof.Machine.execRecordRead k qid s
  | .dequeueDecision k => Sys2Proof.Machine.execDequeueDecision k s
  | .cellReadResponse k rid resp data => Sys2Proof.Machine.execCellReadResponse k rid resp data s
  | .delivery k => Sys2Proof.Machine.execDelivery k s
  | .lastDeliveryInjected k => Sys2Proof.Machine.execLastDeliveryInjected k s
  | .shaperConfigWrite m n v => Sys2Proof.Machine.execShaperConfigWrite m n v s
  | .meterConfigWrite m n word v => Sys2Proof.Machine.execMeterConfigWrite m n word v s
  | .meterReset m n => Sys2Proof.Machine.execMeterReset m n s
  | .policerReset m n => Sys2Proof.Machine.execPolicerReset m n s
  | .qpartWrite m n v => Sys2Proof.Machine.execQpartWrite m n v s
  | .qdescWrite m qid word v => Sys2Proof.Machine.execQdescWrite m qid word v s
  | .gateListStart k => Sys2Proof.Machine.execGateListStart k s
  | .puCtlWrite m t p v => Sys2Proof.Machine.execPuCtlWrite m t p v s
  | .violationClear m t p => Sys2Proof.Machine.execViolationClear m t p s
  | .registerWrite m off v strb => Sys2Proof.Machine.execRegisterWrite m off v strb s
  | .jobStart c => Sys2Proof.Machine.execJobStart c s
  | .ringSlotWrite m r slot w => Sys2Proof.Machine.execRingSlotWrite m r slot w s
  | .ringtailWrite m r v => Sys2Proof.Machine.execRingtailWrite m r v s
  | .cplheadWrite m r v => Sys2Proof.Machine.execCplheadWrite m r v s
  | .add c => Sys2Proof.Machine.execAdd c s
  | .sub c => Sys2Proof.Machine.execSub c s
  | .and c => Sys2Proof.Machine.execAnd c s
  | .or c => Sys2Proof.Machine.execOr c s
  | .xor c => Sys2Proof.Machine.execXor c s
  | .sll c => Sys2Proof.Machine.execSll c s
  | .srl c => Sys2Proof.Machine.execSrl c s
  | .sra c => Sys2Proof.Machine.execSra c s
  | .mul c => Sys2Proof.Machine.execMul c s
  | .ceq c => Sys2Proof.Machine.execCeq c s
  | .clt c => Sys2Proof.Machine.execClt c s
  | .cltu c => Sys2Proof.Machine.execCltu c s
  | .addi c => Sys2Proof.Machine.execAddi c s
  | .andi c => Sys2Proof.Machine.execAndi c s
  | .ori c => Sys2Proof.Machine.execOri c s
  | .xori c => Sys2Proof.Machine.execXori c s
  | .slli c => Sys2Proof.Machine.execSlli c s
  | .srli c => Sys2Proof.Machine.execSrli c s
  | .srai c => Sys2Proof.Machine.execSrai c s
  | .ceqi c => Sys2Proof.Machine.execCeqi c s
  | .clti c => Sys2Proof.Machine.execClti c s
  | .cltui c => Sys2Proof.Machine.execCltui c s
  | .ext c => Sys2Proof.Machine.execExt c s
  | .ins c => Sys2Proof.Machine.execIns c s
  | .li c => Sys2Proof.Machine.execLi c s
  | .lih c => Sys2Proof.Machine.execLih c s
  | .ldc c => Sys2Proof.Machine.execLdc c s
  | .ldcw c => Sys2Proof.Machine.execLdcw c s
  | .stc c => Sys2Proof.Machine.execStc c s
  | .stcw c => Sys2Proof.Machine.execStcw c s
  | .stcs c => Sys2Proof.Machine.execStcs c s
  | .tsend c => Sys2Proof.Machine.execTsend c s
  | .tcall c => Sys2Proof.Machine.execTcall c s
  | .tbcast c => Sys2Proof.Machine.execTbcast c s
  | .tgsum c => Sys2Proof.Machine.execTgsum c s
  | .tgor c => Sys2Proof.Machine.execTgor c s
  | .tgmax c => Sys2Proof.Machine.execTgmax c s
  | .tgand c => Sys2Proof.Machine.execTgand c s
  | .lock c => Sys2Proof.Machine.execLock c s
  | .unlk c => Sys2Proof.Machine.execUnlk c s
  | .barr c => Sys2Proof.Machine.execBarr c s
  | .waitc c => Sys2Proof.Machine.execWaitc c s
  | .waitt c => Sys2Proof.Machine.execWaitt c s
  | .fence c => Sys2Proof.Machine.execFence c s
  | .stprep c => Sys2Proof.Machine.execStprep c s
  | .stcommit c => Sys2Proof.Machine.execStcommit c s
  | .stdrain c => Sys2Proof.Machine.execStdrain c s
  | .stquery c => Sys2Proof.Machine.execStquery c s
  | .trd c => Sys2Proof.Machine.execTrd c s
  | .tload c => Sys2Proof.Machine.execTload c s
  | .tadj c => Sys2Proof.Machine.execTadj c s
  | .tslew c => Sys2Proof.Machine.execTslew c s
  | .br c => Sys2Proof.Machine.execBr c s
  | .brc c => Sys2Proof.Machine.execBrc c s
  | .call c => Sys2Proof.Machine.execCall c s
  | .ret c => Sys2Proof.Machine.execRet c s
  | .halt c => Sys2Proof.Machine.execHalt c s
  | .trap c => Sys2Proof.Machine.execTrap c s
  | .nop c => Sys2Proof.Machine.execNop c s
  | .yield c => Sys2Proof.Machine.execYield c s
  | .waitTimeout c => Sys2Proof.Machine.execWaitTimeout c s
  | .waitcPoll c => Sys2Proof.Machine.execWaitcPoll c s
  | .waittTarget c => Sys2Proof.Machine.execWaittTarget c s
  | .lockWaitExpiry c => Sys2Proof.Machine.execLockWaitExpiry c s
  | .leaseExpiry slot => Sys2Proof.Machine.execLeaseExpiry slot s
  | .calltoExpiry id => Sys2Proof.Machine.execCalltoExpiry id s
  | .runlimExpiry c => Sys2Proof.Machine.execRunlimExpiry c s
  | .scrubRead bad => Sys2Proof.Machine.execScrubRead bad s
  | .microcodeReload ok => Sys2Proof.Machine.execMicrocodeReload ok s
  | .hostResetAssert h => Sys2Proof.Machine.execHostResetAssert h s
  | .hostResetRelease h => Sys2Proof.Machine.execHostResetRelease h s
  | .ping t => Sys2Proof.Machine.execPing t s
  | .rdreg t => Sys2Proof.Machine.execRdreg t s
  | .wrreg t => Sys2Proof.Machine.execWrreg t s
  | .rdfld t => Sys2Proof.Machine.execRdfld t s
  | .snaparm t => Sys2Proof.Machine.execSnaparm t s
  | .snapclr t => Sys2Proof.Machine.execSnapclr t s
  | .evflush t => Sys2Proof.Machine.execEvflush t s
  | .trst t => Sys2Proof.Machine.execTrst t s
  | .hold t => Sys2Proof.Machine.execHold t s
  | .configRead t tag off => Sys2Proof.Machine.execConfigRead t tag off s
  | .configWrite t tag off v strb => Sys2Proof.Machine.execConfigWrite t tag off v strb s
  | .barrierConfirm t tag => Sys2Proof.Machine.execBarrierConfirm t tag s
  | .stcopy t tag mask => Sys2Proof.Machine.execStcopy t tag mask s
  | .flip u stratum hold => Sys2Proof.Machine.execFlip u stratum hold s
  | .release t stratum => Sys2Proof.Machine.execRelease t stratum s
  | .oldCountGather t tag => Sys2Proof.Machine.execOldCountGather t tag s
  | .flush t => Sys2Proof.Machine.execFlush t s
  | .relayAnswer t tag src r => Sys2Proof.Machine.execRelayAnswer t tag src r s
  | .relayTimeout t tag src => Sys2Proof.Machine.execRelayTimeout t tag src s
  | .snapshotCapture t => Sys2Proof.Machine.execSnapshotCapture t s
  | .childTimeout opid p => Sys2Proof.Machine.execChildTimeout opid p s
  | .evcClaim h t => Sys2Proof.Machine.execEvcClaim h t s
  | .evcComplete m t id => Sys2Proof.Machine.execEvcComplete m t id s
  | .evcSetpend m k v => Sys2Proof.Machine.execEvcSetpend m k v s
  | .evcClrpend m k v => Sys2Proof.Machine.execEvcClrpend m k v s
  | .evcEnset m t k v => Sys2Proof.Machine.execEvcEnset m t k v s
  | .evcEnclr m t k v => Sys2Proof.Machine.execEvcEnclr m t k v s
  | .evcThresh m t v => Sys2Proof.Machine.execEvcThresh m t v s
  | .prisplitWrite m v => Sys2Proof.Machine.execPrisplitWrite m v s
  | .hostRequest h r => Sys2Proof.Machine.execHostRequest h r s
  | .portGrant j => Sys2Proof.Machine.execPortGrant j s
  | .watchdogFire j => Sys2Proof.Machine.execWatchdogFire j s
  | .tileIdleEntry t => Sys2Proof.Machine.execTileIdleEntry t s
  | .tileSleepEntry t => Sys2Proof.Machine.execTileSleepEntry t s
  | .tileWakeDone t => Sys2Proof.Machine.execTileWakeDone t s
  | .minstWrite m t v => Sys2Proof.Machine.execMinstWrite m t v s
  | .pmFence m t => Sys2Proof.Machine.execPmFence m t s
  | .pmOff m t => Sys2Proof.Machine.execPmOff m t s
  | .pmOn m t => Sys2Proof.Machine.execPmOn m t s
  | .pmUnfence m t => Sys2Proof.Machine.execPmUnfence m t s
  | .pmWake m t => Sys2Proof.Machine.execPmWake m t s
  | .fencingComplete t => Sys2Proof.Machine.execFencingComplete t s
  | .powerOffComplete t => Sys2Proof.Machine.execPowerOffComplete t s
  | .powerOnComplete t => Sys2Proof.Machine.execPowerOnComplete t s
  | .restoreAccess m write v => Sys2Proof.Machine.execRestoreAccess m write v s
  | .ctRoundTripEnd x => Sys2Proof.Machine.execCtRoundTripEnd x s
  | .tbPeriodWrite m v => Sys2Proof.Machine.execTbPeriodWrite m v s
  | .timeInvalidate m => Sys2Proof.Machine.execTimeInvalidate m s
  | .todTransfer time atpps => Sys2Proof.Machine.execTodTransfer time atpps s
  | .sfdpDiscovery t => Sys2Proof.Machine.execSfdpDiscovery t s
  | .slotHeaderCheck a b => Sys2Proof.Machine.execSlotHeaderCheck a b s
  | .sectionLoad slot sections => Sys2Proof.Machine.execSectionLoad slot sections s
  | .faddr v => Sys2Proof.Machine.execFaddr v s
  | .fdata v => Sys2Proof.Machine.execFdata v s
  | .fprog idle => Sys2Proof.Machine.execFprog idle s
  | .fuseProgramDone blown => Sys2Proof.Machine.execFuseProgramDone blown s
  | .mbist group start => Sys2Proof.Machine.execMbist group start s
  | .train p roleD rxok member => Sys2Proof.Machine.execTrain p roleD rxok member s
  | .ack p seq => Sys2Proof.Machine.execAck p seq s
  | .nak p seq => Sys2Proof.Machine.execNak p seq s
  | .enum hdr gen next depth => Sys2Proof.Machine.execEnum hdr gen next depth s
  | .enumret p hdr gen next status height member tiles => Sys2Proof.Machine.execEnumret p hdr gen next status height member tiles s
  | .req p hdr tag orig offset data strb => Sys2Proof.Machine.execReq p hdr tag orig offset data strb s
  | .rsp p hdr tag code data => Sys2Proof.Machine.execRsp p hdr tag code data s
  | .opdn hdr opid kind func args => Sys2Proof.Machine.execOpdn hdr opid kind func args s
  | .opup p hdr opid resp value counts => Sys2Proof.Machine.execOpup p hdr opid resp value counts s
  | .qreq p hdr => Sys2Proof.Machine.execQreq p hdr s
  | .qdata hdr offset bytes => Sys2Proof.Machine.execQdata hdr offset bytes s
  | .qend hdr slot imglen => Sys2Proof.Machine.execQend hdr slot imglen s
  | .replayTimeout p => Sys2Proof.Machine.execReplayTimeout p s
  | .linkSilence p => Sys2Proof.Machine.execLinkSilence p s
  | .idleAckTimer p => Sys2Proof.Machine.execIdleAckTimer p s
  | .chnReenum m => Sys2Proof.Machine.execChnReenum m s
  | .enumretTimeout p => Sys2Proof.Machine.execEnumretTimeout p s
  | .calibrationStep l lane margin => Sys2Proof.Machine.execCalibrationStep l lane margin s
  | .repairApply l => Sys2Proof.Machine.execRepairApply l s
  | .trainingEnd l failing => Sys2Proof.Machine.execTrainingEnd l failing s
  | .reinitBuffersEmpty l => Sys2Proof.Machine.execReinitBuffersEmpty l s
  | .lstat t => Sys2Proof.Machine.execLstat t s
  | .lfence t => Sys2Proof.Machine.execLfence t s
  | .lunfence t => Sys2Proof.Machine.execLunfence t s
  | .ltest t => Sys2Proof.Machine.execLtest t s
  | .ldtest t => Sys2Proof.Machine.execLdtest t s
  | .lrepair t => Sys2Proof.Machine.execLrepair t s
  | .lreinit t => Sys2Proof.Machine.execLreinit t s
  | .lpeer t l lane ka => Sys2Proof.Machine.execLpeer t l lane ka s
  | .linkTestDrained l => Sys2Proof.Machine.execLinkTestDrained l s
  | .drainTimeout l => Sys2Proof.Machine.execDrainTimeout l s
  | .testPatternEnd l failing => Sys2Proof.Machine.execTestPatternEnd l failing s
  | .tlMbistStart m v => Sys2Proof.Machine.execTlMbistStart m v s
  | .mbistDone tile failGroups faddr => Sys2Proof.Machine.execMbistDone tile failGroups faddr s
  | .probeControlWrite m p v => Sys2Proof.Machine.execProbeControlWrite m p v s
  | .probeBound p => Sys2Proof.Machine.execProbeBound p s
  | .traceBufferArm m b v => Sys2Proof.Machine.execTraceBufferArm m b v s
  | .traceRecord => Sys2Proof.Machine.execTraceRecord s
  | .clockStop k => Sys2Proof.Machine.execClockStop k s
  | .clockRestart k => Sys2Proof.Machine.execClockRestart k s
  | .targetQTransfer t p mtag => Sys2Proof.Machine.execTargetQTransfer t p mtag s
  | .responseLeavesOnS t p => Sys2Proof.Machine.execResponseLeavesOnS t p s
  | .holdExpiry t => Sys2Proof.Machine.execHoldExpiry t s
  | .snapshotWake t => Sys2Proof.Machine.execSnapshotWake t s
  | .badFrame p bytes => Sys2Proof.Machine.execBadFrame p bytes s
  | .dbl => Sys2Proof.Machine.execDbl s
  | .bypass => Sys2Proof.Machine.execBypass s
  | .slotBankSwitch => Sys2Proof.Machine.execSlotBankSwitch s
  | .initComplete => Sys2Proof.Machine.execInitComplete s
  | .learnInsert => Sys2Proof.Machine.execLearnInsert s
  | .ageClockTick => Sys2Proof.Machine.execAgeClockTick s
  | .ageScan => Sys2Proof.Machine.execAgeScan s
  | .latchDoorbell => Sys2Proof.Machine.execLatchDoorbell s
  | .mgmtRetentionEntry => Sys2Proof.Machine.execMgmtRetentionEntry s
  | .mgmtWake => Sys2Proof.Machine.execMgmtWake s
  | .evcRestore => Sys2Proof.Machine.execEvcRestore s
  | .governorWindow => Sys2Proof.Machine.execGovernorWindow s
  | .timeApply => Sys2Proof.Machine.execTimeApply s
  | .ppsEdge => Sys2Proof.Machine.execPpsEdge s
  | .ppsTimeout => Sys2Proof.Machine.execPpsTimeout s
  | .powerOnResetAssert => Sys2Proof.Machine.execPowerOnResetAssert s
  | .coldResetRelease => Sys2Proof.Machine.execColdResetRelease s
  | .fabricResetAssert => Sys2Proof.Machine.execFabricResetAssert s
  | .fabricResetRelease => Sys2Proof.Machine.execFabricResetRelease s
  | .signatureCheck => Sys2Proof.Machine.execSignatureCheck s
  | .handover => Sys2Proof.Machine.execHandover s
  | .tapReset => Sys2Proof.Machine.execTapReset s
  | .idcode => Sys2Proof.Machine.execIdcode s
  | .fread => Sys2Proof.Machine.execFread s
  | .enumStart => Sys2Proof.Machine.execEnumStart s
  | .qendTimeout => Sys2Proof.Machine.execQendTimeout s
  | .sharedStepBoundary => Sys2Proof.Machine.execSharedStepBoundary s
  | .fuseVppLoss => Sys2Proof.Machine.execFuseVppLoss s

end Sys2Proof.Machine
end

