-- ==== Sys2Proof/Machine/Step.lean ====
section
/-! DEFINITION. One step: the command at the front of the queue acts; on an empty queue one fabric cycle passes. -/
namespace Sys2Proof.Machine

/-- A fabric cycle in which no command arrives: time goes on, and flits that cannot move are counted by their probes (R453; DESIGN CHOICE, notes/assumptions/1.md). -/
def State.idle (s : State) : State := { s.stalls with cyc := s.cyc + 1 }

/-- The front command runs on the state whose queue is the rest. -/
def step (s : State) : Host.Outcome State Fault Refusal :=
  match s.pending with
  | [] => .next s.idle
  | c :: rest => exec c { s with pending := rest }

/-- The state with the command that a word spells put at the front of its queue; unchanged where the word spells none. -/
def State.withFetchWord (s : State) (nbits w : Nat) : State :=
  match Sys2Proof.decodeTableWord nbits w with
  | some c => { s with pending := c :: s.pending }
  | none => s

end Sys2Proof.Machine
end

