-- ==== Sys2Proof/WellFormed.lean ====
section
/-! DEFINITION. Well-formed commands: the bounds that the spec puts on what the environment supplies and that the operand's type does not already hold. A bound that a rule makes the block check (the length of a Q transfer, a burst that leaves its range) is no well-formedness: its meaning answers it. -/
namespace Sys2Proof

/-- A packet is a header flit and at most four data flits (R40). -/
def flitCountOk (n : Nat) : Bool := decide (1 ≤ n) && decide (n ≤ 5)

/-- The data of a transfer of at most 256 bytes, in flits (R40). -/
def lineCountOk (n : Nat) : Bool := decide (n ≤ 4)

/-- Physical lanes of a link, each named once (R439). -/
def lanesOk (ls : List Nat) : Bool := ls.all (fun p => decide (p < 597)) && decide ls.Nodup

/-- The first data flit of a CRSP holds at most eight words (R59). -/
def CrspBody.wf (r : CrspBody) : Bool := decide (r.data.length ≤ 8)

/-- Each write beat of a host has its strobes (R347). A host may bring more beats than its length says (R357). -/
def HReq.wf (r : HReq) : Bool := decide (r.data.length = r.strb.length)

/-- A REQ frame: a write brings a word of data and a strobe byte for each of the beats that its ORIG byte says, a read neither; the example of R432 counts 12 bytes for a read (R428). -/
def reqFrameOk (orig : BitVec 8) (data : List W) (strb : List (BitVec 8)) : Bool :=
  let beats := (orig.extractLsb' 5 3).toNat + 1
  let n := if orig.getLsbD 4 then beats else 0
  decide (strb.length = n) && decide (data.length = n)

/-- The check of one command. -/
def Instr.wf : Instr → Bool
  | .packetEjection _ _ _ fs => flitCountOk fs.length
  | .dlastBeat _ _ bs _ => decide (1 ≤ bs.length) && lineCountOk bs.length
  | .targetResponse _ _ _ _ d => lineCountOk d.length
  | .cellReadResponse _ _ _ d => lineCountOk d.length
  | .allocate _ picks => decide picks.Nodup
  | .crsp _ r => r.wf
  | .relayAnswer _ _ _ r => r.wf
  | .hostRequest _ r => r.wf
  | .slotHeaderCheck a b => decide (a.length = 1024) && decide (b.length = 1024)
  | .req _ _ _ orig _ data strb => reqFrameOk orig data strb
  | .rsp _ _ _ _ data => decide (data.length ≤ 8)
  | .opdn _ _ _ _ args => decide (args.length = 1) || decide (args.length = 4)
  | .qdata _ _ bytes => decide (bytes.length = 64)
  | .trainingEnd _ ls => lanesOk ls
  | .testPatternEnd _ ls => lanesOk ls
  | _ => true

end Sys2Proof
end

