-- ==== Sys2Proof/Safety.lean ====
section
/-! DEFINITION. What counts as a safe state and a safe step: the canonical form of the tables that hold the block, and a step that answers a next state. -/
namespace Sys2Proof.Machine

/-- A command answers a next state. -/
def Completes (c : Sys2Proof.Instr) (s : State) : Prop := ∃ t, exec c s = .next t

/-- A step answers a next state. -/
def StepsOn (s : State) : Prop := ∃ t, step s = .next t

/-- The register file lists its offsets in rising order, and no register that reads as it does at reset: equal register files are equal data. -/
def State.regsOk (s : State) : Prop := Tab.wf (fun o => resetVal s.build o) s.regs = true

/-- The tables of the traffic manager are in their canonical form. -/
structure Tm.canon (x : Tm) : Prop where
  lists : Tab.wf (fun _ => FreeList.reset) x.lists = true
  lastCh : Tab.wf (fun _ => 63) x.lastCh = true
  qs : Tab.wf (fun _ => Queue.reset) x.qs = true
  drr : Tab.wf (fun _ => []) x.drr = true
  stag : Tab.wf (fun _ => 0) x.stag = true
  vt : Tab.wf (fun _ => 0) x.vt = true
  sh : Tab.wf (fun _ => (0, 0)) x.sh = true
  ptok : Tab.wf (fun _ => (0, 0)) x.ptok = true
  mtr : Tab.wf (fun _ => (0, 0, 0)) x.mtr = true
  pol : Tab.wf (fun _ => (0, 0)) x.pol = true
  gates : Tab.wf (fun _ => Gate.reset) x.gates = true
  disp : Tab.wf (fun _ => []) x.disp = true
  recReads : Tab.wf (fun _ => []) x.recReads = true
  owed : Tab.wf (fun _ => 0) x.owed = true
  rx : Tab.wf (fun _ => []) x.rx = true
  outq : Tab.wf (fun _ => []) x.outq = true
  spFrame : Tab.wf (fun _ => (0, 0, 0)) x.spFrame = true

/-- The tables of the event controller are in their canonical form. -/
structure Evc.canon (x : Evc) : Prop where
  stks : Tab.wf (fun _ => []) x.stks = true
  wakes : Tab.wf (fun _ => 0) x.wakes = true
  once : Tab.wf (fun _ => 0) x.once = true

/-- The tables of the sequencer are in their canonical form. -/
structure Seq.canon (x : Seq) : Prop where
  saved : Tab.wf (fun _ => none) x.saved = true
  leaseEnd : Tab.wf (fun _ => 0) x.leaseEnd = true

/-- The tables of the observation block are in their canonical form. -/
structure Obs.canon (x : Obs) : Prop where
  seqs : Tab.wf (fun _ => 0) x.seqs = true
  sampCnt : Tab.wf (fun _ => 0) x.sampCnt = true
  post : Tab.wf (fun _ => none) x.post = true

/-- Every table of the block's parts is in its canonical form. -/
structure State.canon (s : State) : Prop where
  regs : s.regsOk
  micro : Tab.wf (fun _ => (0 : BitVec 96)) s.micro = true
  routers : Tab.wf (fun _ => Router.reset) s.routers = true
  links : Tab.wf (fun _ => LinkX.reset) s.links = true
  nis : Tab.wf (fun _ => Ni.reset) s.nis = true
  agents : Tab.wf (fun _ => Agent.reset) s.agents = true
  xports : Tab.wf (fun _ => XPort.reset) s.xports = true
  hosts : Tab.wf (fun _ => XHost.reset) s.hosts = true
  evc : s.evc.canon
  seq : s.seq.canon
  pm : Tab.wf (fun _ => (⟨false, 0, 0⟩ : Ct)) s.pm.cts = true
  tm : s.tm.canon
  tap : Tab.wf (fun _ => 0) s.tap.fuses = true
  obs : s.obs.canon

/-- What no command changes: the commands that wait, and the parameter set. -/
structure State.sameFrame (s t : State) : Prop where
  pending : t.pending = s.pending
  build : t.build = s.build

-- Instructions (R247, R277, R278, R282).

/-- Context c issues its next instruction, the word w with opcode op of job j, and nothing stops it before its own action: the context has a job and waits for nothing, the PC is inside the job, the dispatch entry is valid, parity is right, and every field is one that the opcode defines. -/
structure State.atInstr (s : State) (c : CtxId) (op : Nat) (j : Job) (w : BitVec 32) : Prop where
  ready : s.canIssue c = some j
  inside : j.pc.toNat < j.len
  word : s.fetchWord j = w
  opcode : iOp w = op
  defined : opDefined op = true
  entry : s.dispBad op = false
  valid : s.dispValid op = true
  micro : s.microBad (s.dispStart op) = false
  fields : fieldsOk op w = true

/-- The instruction w of job j is the current one of context c. -/
def State.issued (s : State) (c : CtxId) (j : Job) (w : BitVec 32) : State :=
  s.setCtx c { s.ctx c with word := w, job := some { j with lastPc := j.pc } }

/-- The current instruction of context c is over: its job is now j, at pc, with one instruction more. -/
def State.retired (s : State) (c : CtxId) (j : Job) (pc : BitVec 12) : State :=
  s.setCtx c { s.ctx c with job := some { j with pc := pc, insns := j.insns + 1 }, wait := .none, acc := none }

/-- The instruction w of job j has completed: v is in register rd, and the job goes on at pc. Register 0 discards. -/
def State.wrote (s : State) (c : CtxId) (j : Job) (w : BitVec 32) (rd : Nat) (v : W) (pc : BitVec 12) : State :=
  (s.issued c j w).retired c ({ j with lastPc := j.pc }.set rd v) pc

/-- Nothing but registers differs, and of those only the ones listed. -/
def State.writesOnly (s t : State) (os : List Nat) : Prop := t = { s with regs := t.regs } ∧ ∀ o, o ∉ os → t.rd o = s.rd o

-- Agents (R295, R297).

/-- The CTL that a tile agent executes next, with those that stay behind, where the tile runs and the agent can execute it. -/
structure State.agentTakes (s : State) (t : Nat) (k : Pkt) (rest : List Pkt) : Prop where
  first : (s.agent t).next = some (k, rest)
  runs : s.coreRuns t = true
  good : badCtl k t = false

/-- The agent's queue without the CTL that it took. -/
def State.agentTook (s : State) (t : Nat) (rest : List Pkt) : State := s.setAgent t { s.agent t with rx := rest }

-- Chain (R429, R435).

/-- Port p takes the next kept frame: it is UP, it is not U of the root, the management domain runs, and the frame bears the SEQ that the port awaits. -/
structure State.frameTakes (s : State) (p : Nat) (hdr : Sys2Proof.FrameHdr) : Prop where
  used : s.onRootU p = false
  up : s.cpIsUp p = true
  runs : s.pm.mstate = .running
  next : hdr.seq = (s.cport p).rxSeq

/-- Port p has taken a frame. -/
def State.frameTook (s : State) (p : Nat) : State := s.setCport p { s.cport p with rxSeq := (s.cport p).rxSeq + 1 }

/-- No context waits for a condition that another context's progress can bring about. -/
def State.noneWaits (s : State) : Prop := ∀ c, match (s.ctx c).wait with | .waitc _ => False | .fence _ => False | _ => True

end Sys2Proof.Machine
end

