-- ==== Sys2Proof/Certificates/Slice0/Obligations.lean ====
section
/-! DEFINITION. The statements about the block, for the provers: one Prop each, with what it says and the rules of spec/ that it formalises. A state in a statement is any state, reached by a run or not; premises name the invariant where one is needed. -/
open Sys2Proof Sys2Proof.Machine

/-- A step takes the command at the front of the queue and runs it on the state whose queue is the rest. -/
def Obligations.StepRunsFrontCommand : Prop :=
  ∀ (c : Instr) (rest : List Instr) (s : State), s.pending = c :: rest → step s = exec c { s with pending := rest }

/-- Every step answers a next state: no command faults and none is refused (R60, R10, R345: errors are answers, not stops; that a command with nothing to act on leaves the state is the model's choice, notes/assumptions/4.md). On an empty queue one fabric cycle passes (notes/assumptions/1.md: the model's choice): the cycle count grows by one, and of everything else in the state only the stall counters of the 32 probes may differ: every other register, of every range, the queue, the parameter set, the reset pins and each part of the block stay. -/
def Obligations.StepsGoOn : Prop :=
  (∀ s : State, StepsOn s) ∧
  (∀ s : State, s.pending = [] → ∃ t, step s = .next t ∧ t = { s with cyc := s.cyc + 1, regs := t.regs } ∧
     ∀ o, (∀ p, p < 32 → o ≠ aPrbCnt p 3) → t.rd o = s.rd o)

/-- Every step that answers a next state keeps the canonical form of every table: registers in rising offsets with none at its reset value, and in rising keys with none as at reset the routers, links, ports, agents, crossbar ports and hosts, the tables of the sequencer, the event controller and the observation block, the crossings, the traffic manager's queues, shapers, meters, policers, gate lists and its other tables, and the fuses (notes/assumptions/91.md). -/
def Obligations.EveryStepKeepsCanonicalForm : Prop :=
  ∀ s t : State, s.canon → step s = .next t → t.canon

/-- The state after reset has the canonical form. -/
def Obligations.ResetIsCanonical : Prop :=
  State.reset.canon

/-- No command changes the queue of waiting commands or the parameter set (R1). -/
def Obligations.CommandsKeepQueueAndBuild : Prop :=
  ∀ (c : Instr) (s t : State), exec c s = .next t → s.sameFrame t

/-- What reset leaves in the registers of identification, in the routers' port enables, and in the configuration of the NI ports that the parameter set builds (R5, R80, R131): a port of any kind is DISABLED with its response timer and forced-disable timeout at the values of the table, an initiator port has its outstanding limit, and at a port without an NI, and for the limit at a port of another kind, the registers read zero. -/
def Obligations.ResetRegisterValues : Prop :=
  let s := State.reset
  s.rd aXbIdent = 0xD1A40144#64 ∧ s.rd aXbRev = 0x0201#64 ∧
  (∀ (t : Tile) (pl : Fin 2) (b : Fin 2), s.g (aCtl t.val pl.val b.val) TL_CTL.PEN = 0xFF) ∧
  (∀ (t : Tile) (p : LPort),
    let k := s.kind t.val p.val
    let built : Prop := k = .initiator ∨ k = .target ∨ k = .message ∨ k = .memory
    (built → s.g (aNicfg t.val p.val) TL_NICFG.ENABLE = 0 ∧ s.g (aNicfg t.val p.val) TL_NICFG.STATE = 0 ∧
      s.g (aNicfg t.val p.val) TL_NICFG.RTO = 0x0C35 ∧ s.g (aNicfg t.val p.val) TL_NICFG.ABTO = 0x0100 ∧
      s.g (aNicfg t.val p.val) TL_NICFG.KIND = k.code) ∧
    (¬ built → s.rd (aNicfg t.val p.val) = 0) ∧
    (k = .initiator → s.g (aNilim t.val p.val) TL_NILIM.MAXNP = 64) ∧
    (k ≠ .initiator → s.rd (aNilim t.val p.val) = 0))

/-- The twelve A-format instructions (R251, R252): w(rd) gets the value of the operation on w(ra) and w(rb), register 0 reads as zero and discards, the PC goes on by one, one instruction is counted, and no other register of any context, and no other part of the state, changes before the other contexts are looked at again. The ten I-format arithmetic instructions (R251, R252): IMM is sign-extended for ADDI, CEQI, CLTI and CLTUI and zero-extended for the rest; the frame is that of the A format. -/
def Obligations.Arithmetic : Prop :=
  (∀ (s : State) (c : CtxId) (j : Job) (w : BitVec 32), (s.ctx c).due = none →
     let a := j.get (iRa w)
     let b := j.get (iRb w)
     let n := (b &&& 63#64).toNat
     let result (v : W) : Host.Outcome State Fault Refusal := .next (s.wrote c j w (iRd w) v (j.pc + 1)).recheck
     (s.atInstr c 0x00 j w → exec (.add c) s = result (a + b)) ∧
     (s.atInstr c 0x01 j w → exec (.sub c) s = result (a - b)) ∧
     (s.atInstr c 0x02 j w → exec (.and c) s = result (a &&& b)) ∧
     (s.atInstr c 0x03 j w → exec (.or c) s = result (a ||| b)) ∧
     (s.atInstr c 0x04 j w → exec (.xor c) s = result (a ^^^ b)) ∧
     (s.atInstr c 0x05 j w → exec (.sll c) s = result (a <<< n)) ∧
     (s.atInstr c 0x06 j w → exec (.srl c) s = result (a >>> n)) ∧
     (s.atInstr c 0x07 j w → exec (.sra c) s = result (a.sshiftRight n)) ∧
     (s.atInstr c 0x08 j w → exec (.mul c) s = result (BitVec.ofNat 64 (a.toNat * b.toNat))) ∧
     (s.atInstr c 0x09 j w → exec (.ceq c) s = result (if a = b then 1 else 0)) ∧
     (s.atInstr c 0x0A j w → exec (.clt c) s = result (if a.toInt < b.toInt then 1 else 0)) ∧
     (s.atInstr c 0x0B j w → exec (.cltu c) s = result (if a.toNat < b.toNat then 1 else 0))) ∧
  (∀ (s : State) (c : CtxId) (j : Job) (w : BitVec 32), (s.ctx c).due = none →
     let a := j.get (iRa w)
     let x : W := (w.extractLsb' 0 12).signExtend 64
     let z : W := (w.extractLsb' 0 12).setWidth 64
     let n := (w &&& 63#32).toNat
     let result (v : W) : Host.Outcome State Fault Refusal := .next (s.wrote c j w (iRd w) v (j.pc + 1)).recheck
     (s.atInstr c 0x10 j w → exec (.addi c) s = result (a + x)) ∧
     (s.atInstr c 0x11 j w → exec (.andi c) s = result (a &&& z)) ∧
     (s.atInstr c 0x12 j w → exec (.ori c) s = result (a ||| z)) ∧
     (s.atInstr c 0x13 j w → exec (.xori c) s = result (a ^^^ z)) ∧
     (s.atInstr c 0x14 j w → exec (.slli c) s = result (a <<< n)) ∧
     (s.atInstr c 0x15 j w → exec (.srli c) s = result (a >>> n)) ∧
     (s.atInstr c 0x16 j w → exec (.srai c) s = result (a.sshiftRight n)) ∧
     (s.atInstr c 0x17 j w → exec (.ceqi c) s = result (if a = x then 1 else 0)) ∧
     (s.atInstr c 0x18 j w → exec (.clti c) s = result (if a.toInt < x.toInt then 1 else 0)) ∧
     (s.atInstr c 0x19 j w → exec (.cltui c) s = result (if a.toNat < x.toNat then 1 else 0)))

/-- EXT and INS (R253): pos from IMM[5:0], len - 1 from IMM[11:6], mask = (2^len - 1) << pos with the bits above 63 fallen away; EXT gives (w(rs) >> pos) and (2^len - 1), INS gives (w(rd) and not mask) or ((w(rs) << pos) and mask); LI gives the sign-extended 18 bits, LIH shifts w(rd) left by 18 and puts 18 bits in, and every 64-bit constant is what LI and three LIH build. In each the PC goes on by one, and nothing but w(rd) and the count of instructions changes. -/
def Obligations.FieldsAndConstants : Prop :=
  ∀ (s : State) (c : CtxId) (j : Job) (w : BitVec 32), (s.ctx c).due = none →
    let pos := fld w 0 6
    let len := fld w 6 6 + 1
    let ones : W := BitVec.ofNat 64 (2 ^ len - 1)
    let mask : W := ones <<< pos
    let result (v : W) : Host.Outcome State Fault Refusal := .next (s.wrote c j w (iRd w) v (j.pc + 1)).recheck
    (s.atInstr c 0x1A j w → exec (.ext c) s = result ((j.get (iRa w) >>> pos) &&& ones)) ∧
    (s.atInstr c 0x1B j w → exec (.ins c) s = result ((j.get (iRd w) &&& ~~~mask) ||| ((j.get (iRa w) <<< pos) &&& mask))) ∧
    (s.atInstr c 0x1C j w → exec (.li c) s = result ((lImm w).signExtend 64)) ∧
    (s.atInstr c 0x1D j w → exec (.lih c) s = result ((j.get (iRd w) <<< 18) ||| (lImm w).setWidth 64)) ∧
    (∀ v : W, ∃ p q r t : BitVec 18,
      let lih (x : W) (y : BitVec 18) : W := (x <<< 18) ||| y.setWidth 64
      lih (lih (lih (p.signExtend 64) q) r) t = v)

/-- The branches and NOP (R274, R252): targets are computed modulo 4,096; BR and CALL add the sign-extended IMM to the PC of the branch itself, CALL writes PC + 1 to w(rd), RET jumps to w(rs)[11:0], BRC compares w(RD) with w(RS) and goes to PC + sext(IMM) when the condition of SUB holds, and the job goes on at the next PC; a reserved SUB traps ILLEGAL, and takes no branch (which PC its record names is left open here). When the PC of the next instruction lies outside the job's LEN words, the fetch traps BOUND and ends the job: there is a command that takes the trap. -/
def Obligations.Branches : Prop :=
  (∀ (s : State) (c : CtxId) (j : Job) (w : BitVec 32), (s.ctx c).due = none →
    let a := j.get (iRd w)
    let b := j.get (iRa w)
    let far : BitVec 12 := j.pc + ((lImm w).signExtend 64).setWidth 12
    let near : BitVec 12 := j.pc + iImm w
    let go (pc : BitVec 12) : Host.Outcome State Fault Refusal := .next (s.wrote c j w 0 0 pc).recheck
    (s.atInstr c 0x70 j w → exec (.br c) s = go far) ∧
    (s.atInstr c 0x72 j w → exec (.call c) s = .next (s.wrote c j w (iRd w) ((j.pc + 1).setWidth 64) far).recheck) ∧
    (s.atInstr c 0x73 j w → exec (.ret c) s = go (b.setWidth 12)) ∧
    (s.atInstr c 0x76 j w → exec (.nop c) s = go (j.pc + 1)) ∧
    (s.atInstr c 0x71 j w →
      (iSub w = 0 → exec (.brc c) s = go (if a = b then near else j.pc + 1)) ∧
      (iSub w = 1 → exec (.brc c) s = go (if a ≠ b then near else j.pc + 1)) ∧
      (iSub w = 2 → exec (.brc c) s = go (if a.toInt < b.toInt then near else j.pc + 1)) ∧
      (iSub w = 3 → exec (.brc c) s = go (if b.toInt ≤ a.toInt then near else j.pc + 1)) ∧
      (iSub w = 4 → exec (.brc c) s = go (if a.toNat < b.toNat then near else j.pc + 1)) ∧
      (iSub w = 5 → exec (.brc c) s = go (if b.toNat ≤ a.toNat then near else j.pc + 1)))) ∧
  (∀ (s : State) (c : CtxId) (j : Job), s.canIssue c = some j →
    let ends (t : State) (j' : Job) (cause : Nat) (result : W) : State := (((t.endRecord c j' 1 cause result).freeCtx c).breakLocks j.ring.val).recheck
    (j.len ≤ j.pc.toNat →
      ∃ i : Instr, exec i s = .next (ends s j tBound (trapResult 0 j.pc.toNat))) ∧
    (j.pc.toNat < j.len → ∀ w, s.fetchWord j = w → iOp w = 0x71 → 6 ≤ iSub w → s.dispBad 0x71 = false → s.dispValid 0x71 = true →
      s.microBad (s.dispStart 0x71) = false →
      ∃ j', (j' = j ∨ j' = { j with lastPc := j.pc }) ∧ exec (.brc c) s = .next (ends (s.issued c j w) j' tIllegal (trapResult w 0))))

/-- HALT, TRAP and YIELD (R275, R280): HALT ends the job with STATUS DONE and RESULT = w(rs) and frees the context, its ring's locks untouched; TRAP ends it TRAPPED with cause SWTRAP, the word and IMM in the record, frees the context and breaks the ring's locks; YIELD saves the job at PC + 1 in its ring's slot and frees the context. What stops a fetch (R277, R278, R280): with the PC outside the job's words the job traps BOUND, whichever instruction is commanded (the model's choice, notes/assumptions/80.md); with a reserved opcode, an invalid dispatch entry, or a field that the opcode does not define, it traps ILLEGAL; either ends the job and writes no register of it. -/
def Obligations.EndsOfJobsAndFetchTraps : Prop :=
  (∀ (s : State) (c : CtxId) (j : Job) (w : BitVec 32),
     let s' := s.issued c j w
     let j' := { j with lastPc := j.pc }
     (s.atInstr c 0x74 j w →
       exec (.halt c) s = .next ((s'.endRecord c { j' with insns := j.insns + 1 } 0 0 (j.get (iRa w))).freeCtx c).recheck) ∧
     (s.atInstr c 0x75 j w →
       exec (.trap c) s = .next (((s'.endRecord c j' 1 tSwtrap (trapResult w (lImm w).toNat)).freeCtx c).breakLocks j.ring.val).recheck) ∧
     (s.atInstr c 0x77 j w →
       exec (.yield c) s = .next ((s'.setSaved j.ring.val (some { j' with pc := j.pc + 1, insns := j.insns + 1 })).freeCtx c).recheck)) ∧
  (∀ (s : State) (c : CtxId) (j : Job) (op : Nat) (act : State → Job → BitVec 32 → State), s.canIssue c = some j →
     (j.len ≤ j.pc.toNat →
       s.issue c op act = (((s.endRecord c j 1 tBound (trapResult 0 j.pc.toNat)).freeCtx c).breakLocks j.ring.val).recheck) ∧
     (j.pc.toNat < j.len → ∀ w, s.fetchWord j = w → s.dispBad (iOp w) = false →
       (s.dispValid (iOp w) = true → s.microBad (s.dispStart (iOp w)) = false) →
       (opDefined (iOp w) = false ∨ s.dispValid (iOp w) = false ∨ (iOp w = op ∧ fieldsOk op w = false)) →
       s.issue c op act = ((((s.issued c j w).endRecord c { j with lastPc := j.pc } 1 tIllegal (trapResult w 0)).freeCtx c).breakLocks j.ring.val).recheck))

/-- LDC, LDCW, STC, STCW and STCS (R254, R255, R257): the control address is w(rs) + sext(IMM) modulo 2^40; when PCHAIN allows its instance, it is aligned and its offset lies in the map, the context waits and one access of that address leaves for the crossbar, of a whole word, or of the half that address bit 2 names. Otherwise nothing leaves: each of the five traps PERM first, then ALIGN with the address; an offset beyond the map traps CSERR, and STCS writes DECERR instead. How the answer of an access ends its instruction (R255, R256): LDC takes the word, LDCW its half zero-extended, STC goes on, a refused store counts in SREF, STCS takes the code: OK, REFUSED, DECERR, TIMEOUT or CHAINERR, and any other answer of LDC, LDCW or STC traps CSERR with the address; where a reset of the ring or a machine check is to end the job, it ends by that in place of the trap (the model's choice, notes/assumptions/156.md). -/
def Obligations.ControlSpaceAccesses : Prop :=
  (∀ (s : State) (c : CtxId) (j : Job) (w : BitVec 32), (s.ctx c).due = none →
     let addr : W := (j.get (iRa w) + (iImm w).signExtend 64) &&& 0xFFFFFFFFFF#64
     let v := j.get (iRd w)
     let j' := { j with lastPc := j.pc }
     let s' := s.issued c j w
     let go (use : AccUse) (write : Bool) (data : W) (strb : BitVec 8) : Host.Outcome State Fault Refusal :=
       .next ((s'.setCtx c { s'.ctx c with wait := .access }).issueAcc c j' use write addr data strb).recheck
     let may (write : Bool) : Prop := s.chainAccess addr write = true → j.pchain = true
     let fits (n : Nat) : Prop := addr.toNat % n = 0 ∧ fld addr 26 6 = 0
     let trap (cause : Nat) : Host.Outcome State Fault Refusal :=
       .next (s'.trap c cause (if cause = tPerm then 0 else addr.toNat % 2 ^ 32)).recheck
     (s.atInstr c 0x20 j w →
       (may false ∧ fits 8 → exec (.ldc c) s = go .load false 0 0) ∧
       (¬ may false → exec (.ldc c) s = trap tPerm) ∧
       (may false ∧ addr.toNat % 8 ≠ 0 → exec (.ldc c) s = trap tAlign) ∧
       (may false ∧ addr.toNat % 8 = 0 ∧ fld addr 26 6 ≠ 0 → exec (.ldc c) s = trap tCserr)) ∧
     (s.atInstr c 0x21 j w →
       (may false ∧ fits 4 → exec (.ldcw c) s = go (.half (bitOf addr 2)) false 0 0) ∧
       (¬ may false → exec (.ldcw c) s = trap tPerm) ∧
       (may false ∧ addr.toNat % 4 ≠ 0 → exec (.ldcw c) s = trap tAlign) ∧
       (may false ∧ addr.toNat % 4 = 0 ∧ fld addr 26 6 ≠ 0 → exec (.ldcw c) s = trap tCserr)) ∧
     (s.atInstr c 0x22 j w →
       (may true ∧ fits 8 → exec (.stc c) s = go .store true v 0xFF#8) ∧
       (¬ may true → exec (.stc c) s = trap tPerm) ∧
       (may true ∧ addr.toNat % 8 ≠ 0 → exec (.stc c) s = trap tAlign) ∧
       (may true ∧ addr.toNat % 8 = 0 ∧ fld addr 26 6 ≠ 0 → exec (.stc c) s = trap tCserr)) ∧
     (s.atInstr c 0x23 j w →
       (may true ∧ fits 4 → exec (.stcw c) s =
         go .store true (if bitOf addr 2 then v <<< 32 else v &&& 0xFFFFFFFF#64) (if bitOf addr 2 then 0xF0#8 else 0x0F#8)) ∧
       (¬ may true → exec (.stcw c) s = trap tPerm) ∧
       (may true ∧ addr.toNat % 4 ≠ 0 → exec (.stcw c) s = trap tAlign) ∧
       (may true ∧ addr.toNat % 4 = 0 ∧ fld addr 26 6 ≠ 0 → exec (.stcw c) s = trap tCserr)) ∧
     (s.atInstr c 0x24 j w →
       (may true ∧ fits 8 → exec (.stcs c) s = go .status true v 0xFF#8) ∧
       (¬ may true → exec (.stcs c) s = trap tPerm) ∧
       (may true ∧ addr.toNat % 8 ≠ 0 → exec (.stcs c) s = trap tAlign) ∧
       (may true ∧ addr.toNat % 8 = 0 ∧ fld addr 26 6 ≠ 0 →
         exec (.stcs c) s = .next (s.wrote c j w (iRd w) (BitVec.ofNat 64 rDecerr) (j.pc + 1)).recheck))) ∧
  (∀ (s : State) (c : CtxId) (j : Job) (key code : Nat) (use : AccUse) (addr data : W),
     (s.ctx c).due = none → (s.ctx c).job = some j → (s.ctx c).acc = some (key, use, addr) →
     let s' := s.setCtx c { s.ctx c with acc := none }
     let rd := iRd (s.ctx c).word
     let refused : Job := { j with sref := min 0xFFFF (j.sref + 1) }
     (use = .load → code = 0 → s.accAnswer c key code data = s'.retired c (j.set rd data) (j.pc + 1)) ∧
     (∀ hi, use = .half hi → code = 0 →
       s.accAnswer c key code data = s'.retired c (j.set rd (BitVec.ofNat 64 (fld data (if hi then 32 else 0) 32))) (j.pc + 1)) ∧
     (use = .store → code = 0 → s.accAnswer c key code data = s'.retired c j (j.pc + 1)) ∧
     (use = .store → code = 1 → s.accAnswer c key code data = s'.retired c refused (j.pc + 1)) ∧
     (use = .status → code = 0 → s.accAnswer c key code data = s'.retired c (j.set rd (BitVec.ofNat 64 rOk)) (j.pc + 1)) ∧
     (use = .status → code = 1 → s.accAnswer c key code data = s'.retired c (refused.set rd (BitVec.ofNat 64 rRefused)) (j.pc + 1)) ∧
     (use = .status → code = 2 → s.accAnswer c key code data = s'.retired c (j.set rd (BitVec.ofNat 64 rDecerr)) (j.pc + 1)) ∧
     (use = .status → code = 3 → s.accAnswer c key code data = s'.retired c (j.set rd (BitVec.ofNat 64 rTimeout)) (j.pc + 1)) ∧
     (use = .status → 3 < code → s.accAnswer c key code data = s'.retired c (j.set rd (BitVec.ofNat 64 rChainErr)) (j.pc + 1)) ∧
     ((use = .load ∨ (∃ hi, use = .half hi)) → code ≠ 0 → s.accAnswer c key code data = s'.trap c tCserr (addr.toNat % 2 ^ 32)) ∧
     (use = .store → 1 < code → s.accAnswer c key code data = s'.trap c tCserr (addr.toNat % 2 ^ 32))) ∧
  (∀ (s : State) (c : CtxId) (j : Job) (key code : Nat) (use : AccUse) (addr data : W),
     (s.ctx c).job = some j → (s.ctx c).acc = some (key, use, addr) → (use = .load ∨ use = .store) → 1 < code →
     let s' := s.setCtx c { s.ctx c with acc := none }
     (∀ tail, (s.ctx c).due = some (.abort tail) → s.accAnswer c key code data = s'.abortJob c tail) ∧
     ((s.ctx c).due = some .mcheck → s.accAnswer c key code data = s'.mcheckJob c 0 0))

/-- TSEND, TCALL, TBCAST and the gathers (R258 to R263, R296): the argument is w(rs), or w(rs) to w(rs + 3) with L; TSEND and TBCAST wait until the CTL that they gave to the crossing, the first of a spread, has been injected, and then complete; TCALL and the gathers wait for its CRSP. A destination or scope that names no tile sends nothing: TSEND and TBCAST count one error of the job and go on, a gather does so with zeros, and TCALL completes with DECERR and zeros; destination and scope are looked at before any wait (the model's choice, notes/assumptions/80.md). CH without PCHAIN traps PERM; with CH while the instance makes no chain operations (R431), TBCAST counts one error, and a gather ends with every tile in scope as not answering. A seventeenth TSEND, a broadcast beyond the limit of R296, and a message for which no TAG is free (R59), wait for room. While a plane is held, only the context that runs the stratum instructions sends (R143); any other one's message stays the instruction that the context issues again (the model's choice, notes/assumptions/80.md). A CTL of the sequencer (R258, R296): one packet joins those that wait at the crossing toward CFGEP, with one data flit, class Control, and a TAG that no other outstanding CTL bears; the CTL is noted as outstanding under the next number. Where no TAG is free, a CTL of an engine or of the CFG port is noted, and is sent as soon as there is one (DEDUCED, notes/assumptions/152.md). A context that awaits the injection of its CTL stays while the packet waits at the crossing, and its instruction completes once it is gone. -/
def Obligations.FabricMessages : Prop :=
  (∀ (s : State) (c : CtxId) (j : Job) (w : BitVec 32), (s.ctx c).due = none →
     let j' := { j with lastPc := j.pc }
     let s' := s.issued c j w
     let rs := iRd w
     let free : Prop := s.heldPlane = none ∨ s.seq.strCtx = some c
     let held : Host.Outcome State Fault Refusal := .next s'.recheck
     let room : Host.Outcome State Fault Refusal := .next (s'.setCtx c { s'.ctx c with wait := .room }).recheck
     let none_ := (j'.set rs (BitVec.ofNat 64 Resp.DECERR.toNat)).set (rs + 1) 0
     let d := if mInd w then (j.get (mReg w)).extractLsb' 0 10 else mEp w
     let args := if mL w then [j.get (iRd w), j.get (iRd w + 1), j.get (iRd w + 2), j.get (iRd w + 3)] else [j.get (iRd w)]
     let send (kind : CtlKind) := s'.sendCtl c kind j.key false 0 0 d (mFunc w).toNat (if mL w then 31 else 7) (lineOf args) 1 none
     let may : Prop := mCh w = true → j.pchain = true
     let ready : Prop := mCh w = true → s.chnReady = true
     let perm : Host.Outcome State Fault Refusal := .next (s'.trap c tPerm 0).recheck
     let gather (i : Instr) (op : Nat) : Prop :=
       let tags : Bool := s.tagRoom false (scopeNo (msgScope w) + 3) op
       (¬ may → exec i s = perm) ∧
       (may → scopeExists (msgScope w) = false → exec i s = .next ((s'.tsError j.key 1).gatherEnds c 0 0).recheck) ∧
       (may → scopeExists (msgScope w) = true →
         (¬ free → exec i s = held) ∧
         (free → tags = false → exec i s = room) ∧
         (free → tags = true → ¬ ready →
           exec i s = .next (s'.retired c ((j'.set rs 0).set (rs + 1) (countsWord 0 0 (s.scopeTiles (msgScope w)))) (j.pc + 1)).recheck) ∧
         (free → tags = true → ready → exec i s = .next ((s'.spreadOut c j' w .call (some op)).awaitCtl c Wait.gather).recheck))
     (s.atInstr c 0x30 j w →
       (destOk d = true → free → s.tsOut c < 16 → s.tagRoom false 0 0 = true → exec (.tsend c) s = .next ((send .send).awaitInject c).recheck) ∧
       (destOk d = true → free → 16 ≤ s.tsOut c ∨ s.tagRoom false 0 0 = false → exec (.tsend c) s = room) ∧
       (destOk d = true → ¬ free → exec (.tsend c) s = held) ∧
       (destOk d = false → exec (.tsend c) s = .next ((s'.tsError j.key 1).done c id).recheck)) ∧
     (s.atInstr c 0x31 j w →
       (destOk d = true → free → s.tagRoom false 0 0 = true →
         exec (.tcall c) s = .next ((send .call).awaitCtl c (fun id => .call id (mL w))).recheck) ∧
       (destOk d = true → free → s.tagRoom false 0 0 = false → exec (.tcall c) s = room) ∧
       (destOk d = true → ¬ free → exec (.tcall c) s = held) ∧
       (destOk d = false → exec (.tcall c) s =
         .next (s'.retired c (if mL w then (none_.set (rs + 2) 0).set (rs + 3) 0 else none_) (j.pc + 1)).recheck)) ∧
     (s.atInstr c 0x32 j w →
       let tags : Bool := s.tagRoom false (scopeNo (msgScope w)) 0
       (¬ may → exec (.tbcast c) s = perm) ∧
       (may → scopeExists (msgScope w) = false → exec (.tbcast c) s = .next ((s'.tsError j.key 1).done c id).recheck) ∧
       (may → scopeExists (msgScope w) = true →
         (¬ free → exec (.tbcast c) s = held) ∧
         (free → s.bcastRoom = false ∨ tags = false → exec (.tbcast c) s = room) ∧
         (free → s.bcastRoom = true → tags = true → ¬ ready → exec (.tbcast c) s = .next ((s'.tsError j.key 1).done c id).recheck) ∧
         (free → s.bcastRoom = true → tags = true → ready →
           exec (.tbcast c) s = .next ((s'.spreadOut c j' w .bcast none).awaitInject c).recheck))) ∧
     (s.atInstr c 0x33 j w → gather (.tgsum c) 0) ∧
     (s.atInstr c 0x34 j w → gather (.tgor c) 1) ∧
     (s.atInstr c 0x35 j w → gather (.tgmax c) 2) ∧
     (s.atInstr c 0x36 j w → gather (.tgand c) 3)) ∧
  (∀ (s : State) (c : CtxId) (kind : CtlKind) (key : Nat) (eng : Bool) (spread op : Nat) (dest : BitVec 10) (func lenm1 : Nat) (data : Line)
     (tiles : Nat) (opid : Option (BitVec 16)), spread < 8 → op < 4 → (∀ o ∈ s.seq.ctls, o.id ≠ s.seq.nextId) →
     let t := s.sendCtl c kind key eng spread op dest func lenm1 data tiles opid
     let frame : Prop := t.seq.nextId = s.seq.nextId + 1 ∧ t.regs = s.regs ∧ t.nis = s.nis ∧ t.routers = s.routers ∧ t.seq.ctx = s.seq.ctx
     (s.tagRoom eng spread op = true → frame ∧ ∃ tag : BitVec 12, (∀ o ∈ s.seq.ctls, o.held = none → o.tag ≠ tag) ∧
       (∃ k : Pkt, t.seq.outq = s.seq.outq ++ [k] ∧ k.dest = dest ∧ k.src = s.build.cfgep ∧ k.cls = 1 ∧ k.cmd = Cmd.CTL ∧ k.dfc = 1 ∧ k.tag = tag ∧
         k.lenm1 = BitVec.ofNat 8 lenm1 ∧ k.aux = BitVec.ofNat 32 func ∧ k.data = [data]) ∧
       (∃ o : OutCtl, t.seq.ctls = s.seq.ctls ++ [o] ∧ o.id = s.seq.nextId ∧ o.tag = tag ∧ o.kind = kind ∧ o.ctx = c ∧ o.key = key ∧ o.held = none ∧
         o.sent = s.ticks) ∧
       t.awaitInject c = t.setCtx c { s.ctx c with wait := .inject tag dest }) ∧
     (s.tagRoom eng spread op = false → frame ∧ t.seq.outq = s.seq.outq ∧
       ∃ o : OutCtl, t.seq.ctls = s.seq.ctls ++ [o] ∧ o.id = s.seq.nextId ∧ o.kind = kind ∧ o.ctx = c ∧ o.key = key ∧
         ∃ k : Pkt, o.held = some k ∧ k.dest = dest ∧ k.aux = BitVec.ofNat 32 func ∧ k.data = [data])) ∧
  (∀ (s : State) (id : Nat) (o : OutCtl) (k : Pkt), s.seq.ctls.find? (fun x => x.id == id) = some o → o.held = some k →
     let head := headOf o.tag
     let heads : List (BitVec 12) := (List.range (2 ^ head.2)).map (fun i => BitVec.ofNat 12 (head.1 + i))
     ((∀ tag ∈ heads, ∃ x ∈ s.seq.ctls, x.held = none ∧ x.tag = tag) → s.launchCtl id = s) ∧
     ((∃ tag ∈ heads, ∀ x ∈ s.seq.ctls, x.held = none → x.tag ≠ tag) →
       ∃ tag ∈ heads, (∀ x ∈ s.seq.ctls, x.held = none → x.tag ≠ tag) ∧ ∃ k' : Pkt, (s.launchCtl id).seq.outq = s.seq.outq ++ [k'] ∧ k'.tag = tag ∧
         k' = { k with tag := k'.tag, tstamp := k'.tstamp } ∧
         (s.launchCtl id).seq.ctls = s.seq.ctls.map (fun x => if x.id = id then { x with tag := tag, sent := s.ticks, held := none } else x))) ∧
  (∀ (s : State) (c : CtxId) (j : Job) (tag : BitVec 12) (dest : BitVec 10), (s.ctx c).job = some j → (s.ctx c).due = none → (s.ctx c).wait = .inject tag dest →
     ((∃ k ∈ s.seq.outq, k.tag = tag ∧ k.dest = dest) → s.recheck1 c = s) ∧
     ((∀ k ∈ s.seq.outq, ¬ (k.tag = tag ∧ k.dest = dest)) → s.recheck1 c = s.retired c j (j.pc + 1)))

/-- LOCK and UNLK (R269, R270): LOCK takes a FREE slot with OK, a BROKEN one with BROKEN and its own ring's with OWNED, HELD by its ring with its lease from this tick; a slot that another ring holds answers HELD at once when the wait is 0, and otherwise makes the context wait in turn, until the wait ends with HELD; UNLK of a slot that the ring holds answers OK, sets it FREE, with OWNER kept (the model's choice, notes/assumptions/78.md), and hands it to the LOCK that has waited longest, and otherwise answers NOTOWNER and changes nothing else; an UNLK that executes has zeros in RS and IMM[11:6]. A LOCK that waited takes the state that the release or break left, with its lease from the grant. A slot is a ring's, not a context's: HALT and YIELD leave every slot as it is, and a later job of the ring finds it HELD by its own ring. Commands come one by one, so no two LOCKs issue in one cycle. -/
def Obligations.LocksTakeAndRelease : Prop :=
  (∀ (s : State) (c : CtxId) (j : Job) (w : BitVec 32), (s.ctx c).due = none →
    let l := fld w 0 6
    let n := fld w 6 6
    let lease := fld (j.get (iRa w)) 0 32
    let j' := { j with lastPc := j.pc }
    let s' := s.issued c j w
    let taken (code : Nat) : Host.Outcome State Fault Refusal :=
      .next ((s'.takeLock l j.ring.val lease).retired c (j'.set (iRd w) (BitVec.ofNat 64 code)) (j.pc + 1)).recheck
    let other : Prop := s.lockState l = lkIsHeld ∧ s.lockOwner l ≠ j.ring.val
    (s.atInstr c 0x40 j w →
      (s.lockState l = lkFree → exec (.lock c) s = taken rOk) ∧
      (s.lockState l = lkBroken → exec (.lock c) s = taken rBroken) ∧
      (s.lockState l = lkIsHeld → s.lockOwner l = j.ring.val → exec (.lock c) s = taken rOwned) ∧
      (other → n = 0 → exec (.lock c) s = .next (s.wrote c j w (iRd w) (BitVec.ofNat 64 rHeld) (j.pc + 1)).recheck) ∧
      (other → n ≠ 0 → exec (.lock c) s =
        .next (State.await { s' with seq := { s'.seq with lockq := s'.seq.lockq ++ [(l, c)] } } c (.lock l lease) (s.ticks + 256 * n)).recheck)) ∧
    (s.atInstr c 0x41 j w →
      (s.lockState l = lkIsHeld → s.lockOwner l = j.ring.val → exec (.unlk c) s =
        .next ((((s'.p (aLock l) SEQ_LOCK.STATE lkFree).setLease l 0).retired c (j'.set (iRd w) (BitVec.ofNat 64 rOk)) (j.pc + 1)).grantLock l).recheck) ∧
      (¬ (s.lockState l = lkIsHeld ∧ s.lockOwner l = j.ring.val) →
        exec (.unlk c) s = .next (s.wrote c j w (iRd w) (BitVec.ofNat 64 rNotOwner) (j.pc + 1)).recheck) ∧
      iRa w = 0 ∧ n = 0)) ∧
  (∀ (s : State) (c : CtxId) (j : Job) (l lease : Nat), s.canon → l < 64 → (s.ctx c).job = some j → (s.ctx c).due = none → (s.ctx c).wait = .lock l lease →
    (let t := s.takeLock l j.ring.val lease
     t.lockState l = lkIsHeld ∧ t.lockOwner l = j.ring.val ∧ tget 0 t.seq.leaseEnd l = (if lease = 0 then 0 else s.ticks + lease)) ∧
    (s.lockState l ≠ lkIsHeld → s.seq.lockq.find? (fun x => x.1 == l) = some (l, c) →
      let t := s.takeLock l j.ring.val lease
      let j' := j.set (iRd (s.ctx c).word) (BitVec.ofNat 64 (if s.lockState l = lkFree then rOk else rBroken))
      s.grantLock l = State.retired { t with seq := { t.seq with lockq := s.seq.lockq.filter (fun x => x.2 != c) } } c j' (j.pc + 1)) ∧
    (s.lockState l ≠ lkIsHeld → s.seq.lockq.find? (fun x => x.1 == l) = none → s.grantLock l = s) ∧
    (let late := s.untilTick (s.ctx c).deadline
     exec (.lockWaitExpiry c) s =
       .next (State.retired { late with seq := { late.seq with lockq := s.seq.lockq.filter (fun x => x.2 != c) } } c
         (j.set (iRd (s.ctx c).word) (BitVec.ofNat 64 rHeld)) (j.pc + 1)).recheck)) ∧
  (∀ (s : State) (c : CtxId) (j : Job) (w : BitVec 32), (s.atInstr c 0x74 j w ∨ s.atInstr c 0x77 j w) → (∀ d, d ≠ c → (s.ctx d).job = none) →
    ∃ t, exec (if iOp w = 0x74 then .halt c else .yield c) s = .next t ∧ ∀ l, l < 64 → t.rd (aLock l) = s.rd (aLock l))

/-- WAITT, WAITC, FENCE and BARR (R264 to R268): the bound of T units of 16 ticks runs from the issue, T = 0 is 4,096 units. WAITT answers NOTIME without valid time, OK when the target has come, and else waits; WAITC on a lock, a context or messages waits for the look that follows; on a word it loads at once; FENCE is over at once in IDLE (R236), else waits for the PUs it names, and answers DECERR for one that does not exist; BARR marks what is outstanding and waits for it. The ends of waits (R264 to R269, R271, R279): WAITC ends with OK when its condition holds: at a look for a lock, a context or messages, at the answer of its load for a word, and with the code of that answer when it is not OK; FENCE ends with OK when every counter that it names is zero; BARR gathers once nothing that it awaits is outstanding, and ends with OK when every unit confirmed and no message was abandoned, and else with TIMEOUT and the number in WAITING; an expired bound ends WAITC, FENCE and WAITT with OK when the condition has come by then, and otherwise with TIMEOUT, and BARR as one whose units have not confirmed; a target reached within the bound ends WAITT with OK; a LOCK gives up with HELD and leaves the queue of its slot; a poll loads again; a lease that ends breaks its slot with event 941 and hands it on; MAXRUN ends a job that may be interrupted with cause RUNLIM, and marks one that may not; a reset of the ring and a machine check let an access, a change of the timebase and an injection complete as well (DEDUCED, notes/assumptions/77.md). -/
def Obligations.WaitsBeginAndEnd : Prop :=
  (∀ (s : State) (c : CtxId) (j : Job) (w : BitVec 32), (s.ctx c).due = none →
     let j' := { j with lastPc := j.pc }
     let s' := s.issued c j w
     let cond := wCond w
     let due := s.ticks + 16 * (if wT w = 0 then 4096 else wT w)
     let target : W := if bitOf cond 4 then BitVec.ofNat 64 s.ntNs + j.get (fld cond 0 4) else j.get (fld cond 0 4)
     let polled : W := j.get (fld cond 0 4) &&& 0xFFFFFFFFFF#64
     (s.atInstr c 0x44 j w →
       (s.gb aTbStat TB_STAT.VALID = false → exec (.waitt c) s = .next (s.wrote c j w (iRd w) (BitVec.ofNat 64 rNoTime) (j.pc + 1)).recheck) ∧
       (s.gb aTbStat TB_STAT.VALID = true → target.toNat ≤ s.ntNs →
         exec (.waitt c) s = .next (s.wrote c j w (iRd w) (BitVec.ofNat 64 rOk) (j.pc + 1)).recheck) ∧
       (s.gb aTbStat TB_STAT.VALID = true → s.ntNs < target.toNat → exec (.waitt c) s = .next (s'.await c (.waitt target) due).recheck)) ∧
     (s.atInstr c 0x43 j w →
       (fld cond 6 3 ≠ 2 → fld cond 6 3 ≠ 3 → exec (.waitc c) s = .next (s'.await c (.waitc cond) due).recheck) ∧
       ((fld cond 6 3 = 2 ∨ fld cond 6 3 = 3) → (s.chainAccess polled false = true → j.pchain = true) → polled.toNat % 8 = 0 → fld polled 26 6 = 0 →
         exec (.waitc c) s = .next ((s'.await c (.waitc cond) due).issueAcc c j' .poll false polled 0 0).recheck)) ∧
     (s.atInstr c 0x45 j w →
       (cond = 0x1FF#9 ∨ puExists s.build cond.toNat = true →
         (s.phase = phIdle → exec (.fence c) s = .next (s.wrote c j w (iRd w) (BitVec.ofNat 64 rOk) (j.pc + 1)).recheck) ∧
         (s.phase ≠ phIdle → exec (.fence c) s = .next (s'.await c (.fence cond.toNat) due).recheck)) ∧
       (cond ≠ 0x1FF#9 → puExists s.build cond.toNat = false →
         exec (.fence c) s = .next (s.wrote c j w (iRd w) (BitVec.ofNat 64 rDecerr) (j.pc + 1)).recheck)) ∧
     (s.atInstr c 0x42 j w →
       (bitOf cond 8 = true → j.pchain = false → exec (.barr c) s = .next (s'.trap c tPerm 0).recheck) ∧
       (bitOf cond 8 = false ∨ (j.pchain = true ∧ s.chnReady = true) → exec (.barr c) s =
         .next ((s'.setCtx c { s'.ctx c with deadline := due, wait := .barrDrain (bitOf cond 8) s.seq.nextId s.seq.nextKey }).barrGo).recheck))) ∧
  (∀ (s : State) (c : CtxId) (j : Job), (s.ctx c).job = some j → (s.ctx c).due = none →
     let late := s.untilTick (s.ctx c).deadline
     let code (t : State) (n : Nat) : Host.Outcome State Fault Refusal :=
       .next (t.retired c (j.set (iRd (s.ctx c).word) (BitVec.ofNat 64 n)) (j.pc + 1)).recheck
     let ended (t : State) (n : Nat) : State := t.retired c (j.set (iRd (s.ctx c).word) (BitVec.ofNat 64 n)) (j.pc + 1)
     let met (t : State) (cond : BitVec 9) : Prop :=
       (fld cond 6 3 = 0 ∧ t.lockState (fld cond 0 6) ≠ lkIsHeld) ∨ (fld cond 6 3 = 1 ∧ ∀ d : CtxId, d.val = fld cond 0 2 → (t.ctx d).job = none) ∨
         (fld cond 6 3 = 4 ∧ t.tsOut c = 0)
     let zero (t : State) (i : Nat) : Prop := t.g (aPuCnt i) (cntFd (!t.cur)) = 0
     let clear (t : State) (pu : Nat) : Prop := (pu = 0x1FF ∧ ∀ i, i < 432 → zero t i) ∨ (pu ≠ 0x1FF ∧ zero t pu)
     let barred (t : State) (missing ab : Nat) : State :=
       ended ({ t with seq := { t.seq with abandoned := t.seq.abandoned - ab } }.p aStstate SEQ_STSTATE.WAITING (min (missing + ab) 0xFF))
         (if missing + ab = 0 then rOk else rTimeout)
     (∀ cond, (s.ctx c).wait = .waitc cond →
       (met s cond → s.recheck1 c = ended s rOk) ∧ (¬ met s cond → s.recheck1 c = s) ∧
       (met late cond → exec (.waitTimeout c) s = code late rOk) ∧ (¬ met late cond → exec (.waitTimeout c) s = code late rTimeout) ∧
       (∀ key addr n v, (s.ctx c).acc = some (key, .poll, addr) →
         let word := s.ctx c |>.word
         let ra := fld (wCond word) 0 4
         let eq : Prop := v &&& j.get (ra + 1) = j.get (ra + 2)
         let answered := s.setCtx c { s.ctx c with acc := none }
         let holds : Prop := (fld (wCond word) 6 3 = 2 ∧ eq) ∨ (fld (wCond word) 6 3 ≠ 2 ∧ ¬ eq)
         (n = 0 → holds → s.accAnswer c key n v = ended answered rOk) ∧
         (n = 0 → ¬ holds → s.accAnswer c key n v = answered) ∧
         (n = 1 → s.accAnswer c key n v = ended answered rRefused) ∧ (n = 2 → s.accAnswer c key n v = ended answered rDecerr) ∧
         (n = 3 → s.accAnswer c key n v = ended answered rTimeout) ∧ (3 < n → s.accAnswer c key n v = ended answered rChainErr)) ∧
       ((fld cond 6 3 = 2 ∨ fld cond 6 3 = 3) → (s.ctx c).acc = none →
         exec (.waitcPoll c) s = .next (s.issueAcc c j .poll false (j.get (fld cond 0 4) &&& 0xFFFFFFFFFF#64) 0 0).recheck)) ∧
     (∀ pu, (s.ctx c).wait = .fence pu →
       (clear s pu → s.recheck1 c = ended s rOk) ∧ (¬ clear s pu → s.recheck1 c = s) ∧
       (clear late pu → exec (.waitTimeout c) s = code late rOk) ∧ (¬ clear late pu → exec (.waitTimeout c) s = code late rTimeout)) ∧
     (∀ ch id key, (s.ctx c).wait = .barrDrain ch id key →
       (s.barrBusy id key = true → s.barrGo1 c = s) ∧
       (s.barrBusy id key = false →
         (ch = false → s.barrGo1 c = s.stepSend c (.barrier s.seq.abandoned) engBarrier 0 spGather opOr) ∧
         (ch = true → ∃ o opid, (s.barrGo1 c).seq.ctls.getLast? = some o ∧ o.id = s.seq.nextId ∧ o.kind = .step ∧ o.op = some opid ∧
           ((s.barrGo1 c).ctx c).wait = .step (.barrier s.seq.abandoned) o.id ∧ ∃ x ∈ (s.barrGo1 c).chn.ops, x.opid = opid ∧ x.own = true)) ∧
       exec (.waitTimeout c) s = .next (barred late (late.liveTiles + (if ch then late.tilesBelow else 0)) late.seq.abandoned).barrGo.recheck) ∧
     (∀ ab id, (s.ctx c).wait = .step (.barrier ab) id → ∀ o, s.seq.ctls.find? (fun x => x.id == id) = some o → o.held = none → o.ctx = c →
       o.kind = .step → o.op = none →
       (∀ (r : CrspBody) s', s.takeCrsp (fun k => k.tag == o.tag && k.src == o.dest && sameBody k r) = some s' →
         let off := (if fld o.tag 8 3 ≠ 0 ∧ bitOf r.aux 12 = true then s'.raise 944 else s').dropCtl id
         exec (.crsp id r) s = .next (barred off (if r.lenm1 = 15 ∧ r.data ≠ [] then fld (r.data.getD 1 0) 16 16 + fld (r.data.getD 1 0) 32 16 else o.tiles) ab).barrGo.recheck) ∧
       exec (.waitTimeout c) s = .next (barred (late.leaveCtl id) o.tiles ab).barrGo.recheck) ∧
     (∀ d : Due, d ≠ .runlim →
       let marked := s.setCtx c { s.ctx c with due := some d }
       let goesOn : Prop := (s.ctx c).wait.holds = true ∨ (s.ctx c).wait = .access ∨ (∃ n, (s.ctx c).wait = .time n) ∨ ∃ tag dest, (s.ctx c).wait = .inject tag dest
       (goesOn → s.endSoon c d = marked) ∧
       (¬ goesOn → (∀ tail, d = .abort tail → s.endSoon c d = marked.abortJob c tail) ∧ (d = .mcheck → s.endSoon c d = marked.mcheckJob c 0 0))) ∧
     (∀ target, (s.ctx c).wait = .waitt target →
       exec (.waitTimeout c) s = code late (if target.toNat ≤ late.ntNs then rOk else rTimeout) ∧
       (let there := s.until (s.cyc + s.cyclesTo target.toNat)
        there.ticks ≤ (s.ctx c).deadline → target.toNat ≤ there.ntNs → exec (.waittTarget c) s = code there rOk)) ∧
     (∀ l lease, (s.ctx c).wait = .lock l lease →
       exec (.lockWaitExpiry c) s = code { late with seq := { late.seq with lockq := s.seq.lockq.filter (fun x => x.2 != c) } } rHeld) ∧
     (∀ slot : Fin 64, tget 0 s.seq.leaseEnd slot.val ≠ 0 → (tget ⟨false, 0, 0⟩ s.pm.cts 64).cnt < 15 →
       exec (.leaseExpiry slot) s = .next ((((s.untilTick (tget 0 s.seq.leaseEnd slot.val)).ctPulse 64 577).breakSlot slot.val 941).wakeMgmt.grantLock slot.val).recheck) ∧
     (s.g (aRingcfg j.ring.val) SEQ_RINGCFG.MAXRUN ≠ 0 →
       let ended := s.untilTick ((s.ctx c).started + 16 * s.g (aRingcfg j.ring.val) SEQ_RINGCFG.MAXRUN)
       let marked := ended.setCtx c { s.ctx c with due := some .runlim }
       ((s.ctx c).wait.holds = false → exec (.runlimExpiry c) s = .next (marked.trap c tRunlim 0).recheck) ∧
       ((s.ctx c).wait.holds = true → exec (.runlimExpiry c) s = .next marked.recheck)))

/-- The stratum instructions act by phase (R140, R141, R144, R146, R147, R153, R154): STPREP answers
BUSY in DRAINING and changes nothing, and otherwise enters PREPARED, with OK at once for an empty
COPY and a copy in every tile for another; STCOMMIT answers NOTPREP in IDLE, in PREPARED spreads
its barrier once nothing that it must await is outstanding (R141, R303), and in DRAINING answers
BUSY, or repeats the FLIP round that ended PARTIAL; with REVERT it answers NOTPREP outside
DRAINING, gathers while a plane is held, and otherwise turns CUR back with a FLIP of its own (a
further REVERT too, DESIGN CHOICE, notes/assumptions/109.md); STDRAIN answers OK outside DRAINING
and otherwise flushes or gathers; STQUERY reads SEQ_STSTATE, or gathers first. While a plane is
held, the context of an STCOMMIT or STDRAIN that acts becomes the one that may send messages
(R143). The answers of their steps, by the same rules: a unit that answers with a code other than
OK, or not at all, counts in WAITING; a copy ends STPREP with OK, or with TIMEOUT where a unit is
missing; the barrier of STCOMMIT ends it with TIMEOUT, or gives DLDIFF: with both planes the end
is DL2, else CUR flips, PHASE becomes DRAINING, REVERTED is 0 and PAUSE the plane that differs,
and FLIP is broadcast with that plane to hold (at another phase by then it ends with that phase's
code, DEDUCED, notes/assumptions/69.md); a FLIP round whose schedulers have all switched ends OK,
or PARTIAL with the units that did not confirm; FLUSH is followed by a gather; a gather with a
unit missing is followed by another, and by RELEASE again where that was sent and a plane is still
held; one whose old count of the held plane is zero sends RELEASE under CUR; one with no old
packet, no old unit and no held plane ends the drain in IDLE with one commit more; RELEASE that
every agent answered releases the plane, and the gathers go on, or the REVERT that waited for it
flips; STQUERY gets the totals, or all ones where a unit is missing. -/
def Obligations.StratumInstructionsActByPhase : Prop :=
  (∀ (s : State) (c : CtxId) (j : Job) (w : BitVec 32), (s.ctx c).due = none →
    let due := s.ticks + 16 * (if wT w = 0 then 4096 else wT w)
    let s0 := s.issued c j w
    let s' := s0.setCtx c { s0.ctx c with deadline := due }
    let j' := { j with lastPc := j.pc }
    let sends : State := if s.heldPlane.isSome then { s' with seq := { s'.seq with strCtx := some c } } else s'
    let code (t : State) (n : Nat) : Host.Outcome State Fault Refusal :=
      .next (t.retired c (j'.set (iRd w) (BitVec.ofNat 64 n)) (j.pc + 1)).recheck
    let prepared := State.setPhase { s' with seq := { s'.seq with written := 0 } } phPrepared
    let flips (u : State) (rv str : Bool) : Host.Outcome State Fault Refusal :=
      .next (State.stepSend { u with seq := { u.seq with flipAt := s.cyc, partialFlip := false } } c (.flip rv none) engFlip (flipArg str s.heldPlane)
        spBroadcast opSum).recheck
    (s.atInstr c 0x50 j w →
      (s.phase = phDraining → exec (.stprep c) s = code s' rBusy) ∧
      (s.phase ≠ phDraining → fld w 12 4 = 0 → exec (.stprep c) s = code prepared rOk) ∧
      (s.phase ≠ phDraining → fld w 12 4 ≠ 0 →
        exec (.stprep c) s = .next (prepared.stepSend c .prepCopy engCopy (fld w 12 4) spBroadcast opSum).recheck)) ∧
    (s.atInstr c 0x51 j w →
      (bitOf w 12 = false → s.phase = phIdle → exec (.stcommit c) s = code s' rNotPrep) ∧
      (bitOf w 12 = false → s.phase = phPrepared →
        let waits := s'.setCtx c { s'.ctx c with wait := .commitDrain s.seq.nextId s.seq.nextKey }
        (s.commitBusy s.seq.nextId s.seq.nextKey = false →
          exec (.stcommit c) s = .next (waits.stepSend c .commitBarrier engBarrier 0 spGather opOr).recheck) ∧
        (s.commitBusy s.seq.nextId s.seq.nextKey = true → exec (.stcommit c) s = .next waits.recheck)) ∧
      (bitOf w 12 = false → s.phase = phDraining → s.seq.partialFlip = false → exec (.stcommit c) s = code s' rBusy) ∧
      (bitOf w 12 = false → s.phase = phDraining → s.seq.partialFlip = true → exec (.stcommit c) s = flips sends false s.cur) ∧
      (bitOf w 12 = true → s.phase ≠ phDraining → exec (.stcommit c) s = code s' rNotPrep) ∧
      (bitOf w 12 = true → s.phase = phDraining → s.heldPlane.isSome = true →
        exec (.stcommit c) s = .next (sends.stepSend c (.gather true 0) engGather 0 spGather opSum).recheck) ∧
      (bitOf w 12 = true → s.phase = phDraining → s.heldPlane = none →
        exec (.stcommit c) s = flips ((s'.pb aStstate SEQ_STSTATE.CUR (!s.cur)).pb aStstate SEQ_STSTATE.REVERTED true) true (!s.cur))) ∧
    (s.atInstr c 0x52 j w →
      (s.phase ≠ phDraining → exec (.stdrain c) s = code s' rOk) ∧
      (s.phase = phDraining → bitOf w 12 = true → exec (.stdrain c) s = .next (sends.stepSend c .flush engFlush 0 spBroadcast opSum).recheck) ∧
      (s.phase = phDraining → bitOf w 12 = false →
        exec (.stdrain c) s = .next (sends.stepSend c (.gather false 0) engGather 0 spGather opSum).recheck)) ∧
    (s.atInstr c 0x53 j w →
      (bitOf w 12 = false → exec (.stquery c) s = .next (s'.retired c (j'.set (iRd w) (s.rd aStstate)) (j.pc + 1)).recheck) ∧
      (bitOf w 12 = true → exec (.stquery c) s = .next (s'.stepSend c .queryGather engGather 0 spGather opSum).recheck))) ∧
  (∀ (s : State) (o : OutCtl) (r : CrspBody) (j : Job) (k : StepKind), s.canon →
    s.seq.ctls.find? (fun x => x.id == o.id) = some o → o.held = none → o.kind = .step → o.op = none →
    (s.ctx o.ctx).wait = .step k o.id → (s.ctx o.ctx).job = some j → (s.ctx o.ctx).due = none →
    ∀ s1, s.takeCrsp (fun x => x.tag == o.tag && x.src == o.dest && sameBody x r) = some s1 →
    let c := o.ctx
    let counted : Prop := r.lenm1 = 15 ∧ r.data ≠ []
    let counts := r.data.getD 1 0
    let n := if counted then fld counts 16 16 + fld counts 32 16 else o.tiles
    let v : W := if counted then r.data.getD 0 0 else 0
    let off := (if fld o.tag 8 3 ≠ 0 ∧ bitOf r.aux 12 = true then s1.raise 944 else s1).dropCtl o.id
    let waits (u : State) (m : Nat) : State := u.p aStstate SEQ_STSTATE.WAITING (min m 0xFF)
    let u := waits off n
    let is (t : State) : Prop := exec (.crsp o.id r) s = .next t.barrGo.recheck
    let code (t : State) (x : Nat) : State := t.retired c (j.set (iRd (s.ctx c).word) (BitVec.ofNat 64 x)) (j.pc + 1)
    let flips (t : State) (rv str : Bool) (hold : Option Plane) : State :=
      State.stepSend { t with seq := { t.seq with flipAt := s.cyc, partialFlip := false } } c (.flip rv none) engFlip (flipArg str hold) spBroadcast opSum
    let gathers (t : State) (kind : StepKind) : State := t.stepSend c kind engGather 0 spGather opSum
    let released (t : State) : State := { t with seq := { t.seq with strCtx := none } }.p aStstate SEQ_STSTATE.PAUSE 0
    let reverts (t : State) : State := flips ((t.pb aStstate SEQ_STSTATE.CUR (!s.cur)).pb aStstate SEQ_STSTATE.REVERTED true) true (!s.cur) t.heldPlane
    (k = .prepCopy → is (code u (if n = 0 then rOk else rTimeout))) ∧
    (k = .commitBarrier →
      (n ≠ 0 → is (code u rTimeout)) ∧
      (n = 0 →
        let dl := fld v 0 2
        let d := u.p aStstate SEQ_STSTATE.DLDIFF dl
        let hold : Option Plane := if dl = 1 then some 0 else if dl = 2 then some 1 else none
        let flipped := (((d.pb aStstate SEQ_STSTATE.CUR (!s.cur)).setPhase phDraining).pb aStstate SEQ_STSTATE.REVERTED false).p aStstate SEQ_STSTATE.PAUSE dl
        (s.phase = phIdle → is (code d rNotPrep)) ∧ (s.phase = phDraining → is (code d rBusy)) ∧
        (s.phase = phPrepared → dl = 3 → is (code d rDl2) ∧ d.phase = phPrepared ∧ d.cur = s.cur) ∧
        (s.phase = phPrepared → dl ≠ 3 →
          is (flips { flipped with seq := { flipped.seq with planeStr := hold, strCtx := if dl = 0 then none else some c } } false (!s.cur) hold)))) ∧
    (∀ rv f, k = .flip rv f →
      (u.schedsLeft = [] → is (code { u with seq := { u.seq with partialFlip := decide (n ≠ 0) } } (if n = 0 then rOk else rPartial))) ∧
      (u.schedsLeft ≠ [] → is (u.setCtx c { u.ctx c with wait := .step (.flip rv (some n)) o.id }))) ∧
    (k = .flush → is (gathers off (.gather false 0))) ∧
    (∀ rv left, k = .gather rv left →
      let still := s.heldPlane.isSome && s.seq.planeStr.isNone && decide (fld v 56 8 ≠ 0)
      (n ≠ 0 → still = false → is (gathers u (.gather rv 0))) ∧
      (still = true → is (u.releaseAgain c rv (fld v 56 8 + n))) ∧
      (n = 0 → ∀ p, s.seq.planeStr = some p →
        let old := if p.val = 0 then fld v 0 24 else fld v 24 24
        (old = 0 → is (State.stepSend { u with seq := { u.seq with planeStr := none } } c (.release rv) engRelease s.cur.toNat spBroadcast opSum)) ∧
        (old ≠ 0 → is (gathers u (.gather rv 0)))) ∧
      (n = 0 → s.seq.planeStr = none → still = false →
        let rel := if fld v 56 8 = 0 then released u else u
        (rv = true → is (reverts rel)) ∧
        (rv = false → fld v 0 48 = 0 ∧ fld v 48 8 = 0 →
          let z := ((rel.setPhase phIdle).bump aStstate SEQ_STSTATE.COMMITS).pb aStstate SEQ_STSTATE.REVERTED false
          let nis : Tab Ni := z.nis.map (fun kv => (kv.1, { kv.2 with hist := kv.2.hist.filter (fun h => h.stratum == s.cur) }))
          is (code { z with nis := nis.filter (fun kv => kv.2 != Ni.reset), seq := { z.seq with strCtx := none, partialFlip := false } } rOk)) ∧
        (rv = false → ¬ (fld v 0 48 = 0 ∧ fld v 48 8 = 0) → is (gathers rel (.gather false 0))))) ∧
    (∀ rv, k = .release rv →
      (n ≠ 0 → is (gathers u (.gather rv n))) ∧
      (n = 0 → rv = true → is (reverts (released u))) ∧
      (n = 0 → rv = false → is (gathers (released u) (.gather false 0)))) ∧
    (k = .queryGather →
      is (u.retired c ((j.set (iRd (s.ctx c).word) (u.rd aStstate)).set (iRd (s.ctx c).word + 1)
        (if n = 0 then BitVec.ofNat 64 (fld v 0 24 + 2 ^ 32 * fld v 24 24) else BitVec.allOnes 64)) (j.pc + 1))))

/-- The time instructions (R273, R394): TRD reads network time, basalt ticks or the PPS capture; TLOAD, TADJ and TSLEW without PTIME trap PERM; with it, the change reaches the timebase and takes effect 256 cycles later, when the instruction completes; TLOAD with ATPPS arms the load, and answers BUSY when one is armed. -/
def Obligations.TimeInstructions : Prop :=
  ∀ (s : State) (c : CtxId) (j : Job) (w : BitVec 32), (s.ctx c).due = none →
    let v := j.get (iRa w)
    let s' := s.issued c j w
    let j' := { j with lastPc := j.pc }
    let rd (x : W) : Host.Outcome State Fault Refusal := .next (s.wrote c j w (iRd w) x (j.pc + 1)).recheck
    let change (x : TimeChange) : Host.Outcome State Fault Refusal :=
      .next (State.await { s' with tb := { s.tb with pend := s.tb.pend ++ [(s.fcc + 256, x)] } } c (.time (s.fcc + 256)) 0).recheck
    let perm : Host.Outcome State Fault Refusal := .next (s'.trap c tPerm 0).recheck
    (s.atInstr c 0x60 j w →
      (fld w 0 2 = 0 → exec (.trd c) s = rd (BitVec.ofNat 64 s.ntNs)) ∧
      (fld w 0 2 = 1 → exec (.trd c) s = rd (BitVec.ofNat 64 s.ticks)) ∧
      (fld w 0 2 = 2 → exec (.trd c) s = rd (s.rd aTbPpscap))) ∧
    (s.atInstr c 0x61 j w →
      (j.ptime = false → exec (.tload c) s = perm) ∧
      (j.ptime = true → bitOf w 0 = false → exec (.tload c) s = change (.load v.toNat s.runNow)) ∧
      (j.ptime = true → bitOf w 0 = true → s.tb.armed.isSome = true → exec (.tload c) s = rd (BitVec.ofNat 64 rBusy)) ∧
      (j.ptime = true → bitOf w 0 = true → s.tb.armed = none →
        exec (.tload c) s = .next (State.retired { s' with tb := { s.tb with armed := some v.toNat, edged := false } } c (j'.set (iRd w) (BitVec.ofNat 64 rOk)) (j.pc + 1)).recheck)) ∧
    (s.atInstr c 0x62 j w →
      (j.ptime = false → exec (.tadj c) s = perm) ∧ (j.ptime = true → exec (.tadj c) s = change (.step v.toInt))) ∧
    (s.atInstr c 0x63 j w →
      (j.ptime = false → exec (.tslew c) s = perm) ∧ (j.ptime = true → exec (.tslew c) s = change (.slew v.toInt)))

/-- Host and boot-loader writes of a ring (R285, R286, R289): the ring's own master, while it is active (R36), writes a slot outside [HEAD, TAIL), moves TAIL up to 4,096 words past HEAD and never back over words submitted, and moves CPLHEAD up to CPLTAIL; nothing but the register named changes. A TAIL or CPLHEAD beyond its bounds leaves it as it was, sets RERR and raises event 939; another master's write has no effect. JOB_START (R247, R248, R287 to R289): with dispatch running and the context free, the context takes a job of the ring that the order of R248 picks: a suspended job goes on where it stood; a new job starts at PC 0 with w1 from words 1 and 2 and every other register zero; a descriptor that is no job yields a BADJOB record, moves HEAD past its four words and raises event 939. -/
def Obligations.RingsAndJobs : Prop :=
  (∀ (s : State) (m : Master) (r : RingId), s.regsOk →
     (∀ (slot : BitVec 12) (w : BitVec 32), s.ownsRing m r.val = true →
       s.ringCount r.val ≤ (slot.toNat + 4096 - s.head r.val % 4096) % 4096 →
       ∃ t, exec (.ringSlotWrite m r slot w) s = .next t ∧ s.writesOnly t [aRing r.val (slot.toNat / 2)] ∧
         (t.rd (aRing r.val (slot.toNat / 2))).extractLsb' (32 * (slot.toNat % 2)) 32 = w ∧
         (t.rd (aRing r.val (slot.toNat / 2))).extractLsb' (32 * (1 - slot.toNat % 2)) 32 =
           (s.rd (aRing r.val (slot.toNat / 2))).extractLsb' (32 * (1 - slot.toNat % 2)) 32) ∧
     (∀ v : BitVec 16, s.ownsRing m r.val = true →
       let n := (v.toNat + 65536 - s.head r.val) % 65536
       (s.ringCount r.val ≤ n ∧ n ≤ 4096 → ∃ t, exec (.ringtailWrite m r v) s = .next t ∧ s.writesOnly t [aRingtail r.val] ∧ t.tail r.val = v.toNat) ∧
       (n < s.ringCount r.val ∨ 4096 < n → ∃ t, exec (.ringtailWrite m r v) s = .next t ∧ t.tail r.val = s.tail r.val ∧
         t.gb (aRinghead r.val) SEQ_PTR.RERR = true ∧ t.evc = { s.evc with evq := s.evc.evq ++ [939] })) ∧
     (∀ v : BitVec 16, s.ownsRing m r.val = true →
       let h := s.ptr (aCplhead r.val)
       let k := s.ptr (aCpltail r.val)
       let fits : Prop := (v.toNat + 65536 - h) % 65536 ≤ (k + 65536 - h) % 65536
       (fits → ∃ t, exec (.cplheadWrite m r v) s = .next t ∧ s.writesOnly t [aCplhead r.val] ∧ t.ptr (aCplhead r.val) = v.toNat) ∧
       (¬ fits → ∃ t, exec (.cplheadWrite m r v) s = .next t ∧ t.ptr (aCplhead r.val) = h ∧
         t.gb (aRinghead r.val) SEQ_PTR.RERR = true ∧ t.evc = { s.evc with evq := s.evc.evq ++ [939] })) ∧
     (s.ownsRing m r.val = false → (∀ slot w, exec (.ringSlotWrite m r slot w) s = .next s) ∧
       (∀ v, exec (.ringtailWrite m r v) s = .next s) ∧ (∀ v, exec (.cplheadWrite m r v) s = .next s))) ∧
  (∀ (s : State) (c : CtxId) (r : RingId), s.dispatching = true → (s.ctx c).job = none → s.pickRing c = some r.val →
     (∀ j, s.savedJob r.val = some j → ∃ t j', exec (.jobStart c) s = .next t ∧ (t.ctx c).job = some j' ∧ (t.ctx c).wait = .none ∧
       j'.pc = j.pc ∧ j'.w = j.w ∧ j'.key = j.key ∧ j'.insns = j.insns ∧ t.regs = s.regs ∧ (∀ d, d ≠ c → t.ctx d = s.ctx d)) ∧
     (s.savedJob r.val = none → s.slotFree r.val = true → s.descOk r.val = true →
       ∃ t j, exec (.jobStart c) s = .next t ∧ (t.ctx c).job = some j ∧ (t.ctx c).wait = .none ∧ (t.ctx c).due = none ∧
         j.ring = r ∧ j.pc = 0 ∧ j.insns = 0 ∧ j.jobid = (s.ringWord r.val (s.head r.val)).extractLsb' 0 16 ∧
         j.len = fld (s.ringWord r.val (s.head r.val)) 16 12 ∧
         j.get 1 = s.ringWord r.val (s.head r.val + 2) ++ s.ringWord r.val (s.head r.val + 1) ∧ (∀ n, n < 16 → n ≠ 1 → j.get n = 0) ∧
         t.regs = s.regs ∧ (∀ d, d ≠ c → t.ctx d = s.ctx d)) ∧
     (s.savedJob r.val = none → s.slotFree r.val = true → s.descOk r.val = false → s.regsOk →
       ∃ t, exec (.jobStart c) s = .next t ∧ t.seq.ctx = s.seq.ctx ∧ t.head r.val = (s.head r.val + 4) % 65536 ∧ t.evc.evq = s.evc.evq ++ [928 + r.val, 939]))

/-- CRSPs and their absence (R260 to R262, R300, R316): a CRSP for an outstanding TSEND takes its CTL off, with one error of the job for a RESP other than OK; one for a TBCAST counts as errors the answers that are not OK and the tiles that did not answer; for a TCALL it writes RESP and the status word to w(rs) and the data after it; for a gather it writes the combined value, or 0 when no answer was OK, to w(rs), and the counts to w(rs + 1), and where it carries no counts, as one delivered as POISON without its data does not, 0 and every tile in scope as not answering, with the tiles of the instances below when CH is 1 (notes/assumptions/117.md). A spread's CRSP with RELFLT raises event 944. CALLTO without a CRSP counts an error of a TSEND or TBCAST, ends a TCALL with TIMEOUT, and a gather as one without counts; it does not run for a CTL that is not sent yet. A CTL whose instruction no longer awaits it is outstanding until its CRSP or CALLTO, which does nothing else (DEDUCED, notes/assumptions/152.md); a CRSP for no outstanding CTL is discarded. -/
def Obligations.AnswersOfMessages : Prop :=
  (∀ (s : State) (o : OutCtl) (r : CrspBody), s.seq.ctls.find? (fun x => x.id == o.id) = some o → o.held = none →
    let late := s.untilTick (o.sent + s.callTicks o.ring)
    let counted : Prop := r.lenm1 = 15 ∧ r.data ≠ []
    let counts := r.data.getD 1 0
    let gathered (u : State) (j : Job) (v c : W) : State := u.retired o.ctx ((j.set (iRd (s.ctx o.ctx).word) v).set (iRd (s.ctx o.ctx).word + 1) c) (j.pc + 1)
    (∀ s', s.takeCrsp (fun k => k.tag == o.tag && k.src == o.dest && sameBody k r) = some s' →
      let s1 := if fld o.tag 8 3 ≠ 0 ∧ bitOf r.aux 12 = true then s'.raise 944 else s'
      let off := s1.dropCtl o.id
      (o.op = none → o.kind = .step → s.stepAwaits o.ctx o.id = false → exec (.crsp o.id r) s = .next (off.barrGo).recheck) ∧
      (o.op = none →
        (o.kind = .send → respRead r.resp = Resp.OK → exec (.crsp o.id r) s = .next (off.barrGo).recheck) ∧
        (o.kind = .send → respRead r.resp ≠ Resp.OK → exec (.crsp o.id r) s = .next ((off.tsError o.key 1).barrGo).recheck) ∧
        (o.kind = .bcast → exec (.crsp o.id r) s = .next ((off.tsError o.key
          (if counted then fld counts 16 16 + fld counts 32 16 else if respRead r.resp = Resp.OK then 0 else 1)).barrGo).recheck) ∧
        (∀ l, o.kind = .call → (s.ctx o.ctx).wait = .call o.id l →
          exec (.crsp o.id r) s = .next ((off.callEnds o.ctx l r).barrGo).recheck) ∧
        (∀ j, o.kind = .call → (s.ctx o.ctx).wait = .gather o.id → (s.ctx o.ctx).job = some j → (s.ctx o.ctx).due = none →
          (counted → exec (.crsp o.id r) s =
            .next ((gathered off j (if fld counts 0 16 = 0 then 0 else r.data.getD 0 0) (BitVec.ofNat 64 (fld counts 0 48))).barrGo).recheck) ∧
          (¬ counted → exec (.crsp o.id r) s = .next ((gathered off j 0 (countsWord 0 0 o.tiles)).barrGo).recheck))) ∧
      (∀ j opid, o.op = some opid → o.kind = .call → (s.ctx o.ctx).wait = .gather o.id → (s.ctx o.ctx).job = some j → (s.ctx o.ctx).due = none →
        ¬ counted → exec (.crsp o.id r) s = .next ((gathered off j 0 (countsWord 0 0 (o.tiles + s1.tilesBelow))).barrGo).recheck)) ∧
    ((o.kind = .send ∨ o.kind = .bcast) →
       let lost := (late.dropCtl o.id).tsError o.key 1
       exec (.calltoExpiry o.id) s = .next (State.barrGo { lost with seq := { lost.seq with abandoned := lost.seq.abandoned + 1 } }).recheck) ∧
    (∀ l, o.kind = .call → (s.ctx o.ctx).wait = .call o.id l →
       exec (.calltoExpiry o.id) s = .next (((late.dropCtl o.id).callEnds o.ctx l { resp := Resp.TIMEOUT, lenm1 := 0 }).barrGo).recheck) ∧
    (∀ j, o.kind = .call → (s.ctx o.ctx).wait = .gather o.id → (s.ctx o.ctx).job = some j → (s.ctx o.ctx).due = none →
       exec (.calltoExpiry o.id) s =
         .next ((gathered (late.dropCtl o.id) j 0 (countsWord 0 0 (o.tiles + (if o.op.isSome then late.tilesBelow else 0)))).barrGo).recheck) ∧
    (o.kind = .step → exec (.calltoExpiry o.id) s = .next (if s.stepAwaits o.ctx o.id then s else late.dropCtl o.id))) ∧
  (∀ (s : State) (o : OutCtl), s.seq.ctls.find? (fun x => x.id == o.id) = some o → o.held.isSome = true → exec (.calltoExpiry o.id) s = .next s) ∧
  (∀ (s : State) (id : Nat) (r : CrspBody) (k : Pkt) (before after : List Pkt), (∀ x ∈ s.seq.ctls, x.id ≠ id) → s.seq.rx = before ++ k :: after →
    let lone (x : Pkt) : Prop := sameBody x r = true ∧ ∀ o ∈ s.seq.ctls, o.held = none → ¬ (o.tag = x.tag ∧ o.dest = x.src)
    lone k → (∀ x ∈ before, ¬ lone x) → exec (.crsp id r) s = .next { s with seq := { s.seq with rx := before ++ after } })

/-- The scrubber and the reload (R283, R284): a good entry only moves the scrubber on, modulo the 8,192 microwords and 128 entries; a bad one is a machine check; a reload acts once every job has ended, with the sections held when they are good. -/
def Obligations.ScrubAndReload : Prop :=
  ∀ s : State,
    let n := s.seq.scrub
    let s' := { s with seq := { s.seq with scrub := (n + 1) % 8320 } }
    let wrong := if n < 8192 then s.microBad n else s.dispBad (n - 8192)
    (wrong = false → exec (.scrubRead false) s = .next s') ∧
    (∀ bad, (bad = true ∨ wrong = true) → exec (.scrubRead bad) s =
      .next (s'.machineCheck .scrub (decide (8192 ≤ n)) (if n < 8192 then n else n - 8192)).recheck) ∧
    (s.gb aSeqStatus SEQ_STATUS.RELOADING = true → s.gb aSeqStatus SEQ_STATUS.DEAD = false → s.chn.reload = false →
      (∀ c, (s.ctx c).job = none) →
      exec (.microcodeReload true) s = .next (s.reloadEnds (some (heldSects s.boot.image))) ∧
      exec (.microcodeReload false) s = .next (s.reloadEnds none))

/-- The agent's register functions (R297): PING answers TL_AGSTAT, RDREG the register at the offset, WRREG writes the bits of its mask and reports a refusal, RDFLD gives the field of LEN bits at POS; a CTL that the agent cannot execute is answered DECERR whichever function is commanded, and one of another function stays at the head. The engine functions of an agent (R140, R141, R144 to R146, R254, R298, R303): a configuration read answers the register, or a counter of a probe of the tile (R454, under an offset of the model's choice, notes/assumptions/108.md), a write writes under its strobes, one without a strobe is answered OK and writes nothing (the model's choice, notes/assumptions/26.md), one at an offset of TM or FT in the management map reads or writes there (R343, carried to the root tile by the model's choice, notes/assumptions/126.md), a barrier confirms with DLDIFF, STCOPY copies the banks of its mask, FLIP moves INJ and holds the plane named; at a scheduler, FLIP to CUR while DRAINING switches its trees and starts the pending gate list (R217), and any other one, or one at a PU, whose requests bear their stratum already, changes nothing (DEDUCED, notes/assumptions/69.md); RELEASE clears PAUSE and lets go what was held, a gather reports the old packets, FLUSH sends old packets at down links to the sink. -/
def Obligations.AgentFunctions : Prop :=
  (∀ (s : State) (t : Tile) (k : Pkt) (rest : List Pkt),
     let s1 := s.agentTook t.val rest
     let a0 := ctlArg k 0
     (s.agentTakes t.val k rest →
       (isProg 0x00 k = true → exec (.ping t) s = .next (s1.agentStart t.val k (some { value := s1.tlRead t.val 0x40 }))) ∧
       (isProg 0x01 k = true → exec (.rdreg t) s = .next (s1.agentStart t.val k (some { value := s1.tlRead t.val (fld a0 0 16) }))) ∧
       (isProg 0x02 k = true →
         let r := s1.tlWrite t.val (fld a0 0 16) (ctlArg k 1) (ctlArg k 2)
         exec (.wrreg t) s = .next (r.1.agentStart t.val k (some { refused := r.2 }))) ∧
       (isProg 0x03 k = true → exec (.rdfld t) s =
         .next (s1.agentStart t.val k (some { value := BitVec.ofNat 64 (fld (s1.tlRead t.val (fld a0 0 16)) (fld a0 16 6) (fld a0 22 6 + 1)) }))) ∧
       (isProg 0x00 k = false → exec (.ping t) s = .next s) ∧
       (isProg 0x02 k = false → exec (.wrreg t) s = .next s)) ∧
     ((s.agent t.val).next = some (k, rest) → s.coreRuns t.val = true → badCtl k t.val = true →
       let refused : Host.Outcome State Fault Refusal := .next (s1.agentStart t.val k (some { resp := Resp.DECERR }))
       exec (.ping t) s = refused ∧ exec (.rdreg t) s = refused ∧ exec (.wrreg t) s = refused ∧ exec (.rdfld t) s = refused ∧
       exec (.snaparm t) s = refused ∧ exec (.hold t) s = refused ∧ exec (.lstat t) s = refused)) ∧
  (∀ (s : State) (t : Tile) (k : Pkt) (rest : List Pkt), s.agentTakes t.val k rest →
     let i := t.val
     let s1 := s.agentTook i rest
     (∀ off : BitVec 26, isEngine k engCfgRead off.toNat = true → off.toNat % 8 = 0 → off.toNat < 0x5000 ∨ 0x5400 ≤ off.toNat → off.toNat < 0x10000 →
       exec (.configRead t k.tag off) s = .next (s1.agentStart i k (some { value := s1.tlRead i off.toNat }))) ∧
     (∀ (p : Fin 32) (n : Fin 4), s.g (aPrb p.val) OBS_PRBCTL.TILE = i → isEngine k engCfgRead (probeCntOff p.val n.val) = true →
       exec (.configRead t k.tag (BitVec.ofNat 26 (probeCntOff p.val n.val))) s =
         .next (s1.agentStart i k (some { value := s.rd (aPrbCnt p.val n.val) }))) ∧
     (∀ off : BitVec 26, isEngine k engCfgRead off.toNat = true → baseTm ≤ off.toNat →
       exec (.configRead t k.tag off) s = .next (s1.agentStart i k (some { value := s1.peek (.sq 8) off.toNat }))) ∧
     (∀ (off : BitVec 26) (v : W) (strb : BitVec 8), isEngine k engCfgWrite (off.toNat + 2 ^ 26 * strb.toNat + 2 ^ 34 * v.toNat) = true →
       (strb = 0 → exec (.configWrite t k.tag off v strb) s = .next (s1.agentStart i k (some {}))) ∧
       (strb ≠ 0 → baseTm ≤ off.toNat → exec (.configWrite t k.tag off v strb) s =
         .next ((s1.tmftWrite off.toNat v (strbMask strb)).1.agentStart i k (some { refused := (s1.tmftWrite off.toNat v (strbMask strb)).2 != 0 }))) ∧
       (strb ≠ 0 → off.toNat < baseTm → exec (.configWrite t k.tag off v strb) s =
         .next ((s1.tlWrite i off.toNat v (strbMask strb)).1.agentStart i k (some { refused := (s1.tlWrite i off.toNat v (strbMask strb)).2 })))) ∧
     (isEngine k engBarrier 0 = true → exec (.barrierConfirm t k.tag) s =
       .next (s1.agentStart i k (some { value := BitVec.ofNat 64 ((s1.dlDiff i 0).toNat + 2 * (s1.dlDiff i 1).toNat) }))) ∧
     (∀ mask : BitVec 4, isEngine k engCopy mask.toNat = true →
       exec (.stcopy t k.tag mask) s = .next ((s1.stcopy i mask.toNat).agentStart i k (some {}))) ∧
     (∀ (str : Bool) (hold : Option Plane), isEngine k engFlip (flipArg str hold) = true →
       exec (.flip (.agent t) str hold) s = .next ((s1.agentFlip i str hold).agentStart i k (some {}))) ∧
     (∀ str : Bool, isEngine k engRelease str.toNat = true → exec (.release t str) s = .next ((s1.agentRelease i).agentStart i k (some {}))) ∧
     (isEngine k engGather 0 = true → exec (.oldCountGather t k.tag) s =
       .next (s1.agentStart i k (some { value := BitVec.ofNat 64 (s1.oldReport i) }))) ∧
     (isEngine k engFlush 0 = true → exec (.flush t) s = .next (((s1.flushPlane 5 i 0).flushPlane 5 i 1).agentStart i k (some {})))) ∧
  (∀ (s : State) (x : EsId) (str : Bool) (hold : Option Plane), s.canon →
     let k := x.val
     let g := s.gate k
     let u := s.schedFlip k str
     (∀ t p, exec (.flip (.pu t p) str hold) s = .next s) ∧
     (s.phase = phDraining → str = s.cur → exec (.flip (.sched x) str hold) s = .next (ctxIds.foldl State.flipCheck u)) ∧
     (s.phase ≠ phDraining ∨ str ≠ s.cur → exec (.flip (.sched x) str hold) s = .next s) ∧
     (bitOf s.tm.flipTree k = str → u = s) ∧
     (bitOf s.tm.flipTree k ≠ str →
       bitOf u.tm.flipTree k = str ∧ bitOf u.seq.written k = false ∧ u.nis = s.nis ∧ u.routers = s.routers ∧ u.seq.ctx = s.seq.ctx ∧
       (g.bank = str → u.gate k = { g with pend := none }) ∧
       (g.bank ≠ str → bitOf s.seq.written k = false → u.gate k = ⟨str, s.ntNs, none⟩) ∧
       (g.bank ≠ str → bitOf s.seq.written k = true → ∃ st, u.gate k = { g with pend := some st } ∧
         (s.gcycle k str.toNat = 0 → st = max (s.gbase k str.toNat) (s.ntNs + 2000)) ∧
         (s.gcycle k str.toNat ≠ 0 → s.ntNs + 2000 ≤ st ∧
           (∃ n, st = s.gbase k str.toNat + n * s.gcycle k str.toNat ∧
             ∀ m, s.ntNs + 2000 ≤ s.gbase k str.toNat + m * s.gcycle k str.toNat → n ≤ m)))))

/-- The answer to a CTL for one tile (R295, R299): the agent counts the CTL, one answered DECERR too (DEDUCED, notes/assumptions/59.md), and one CRSP joins its packets to inject, with the request's TAG and ends exchanged, the code, one data flit with the value when the code is OK, and the status word with the function and the refusal. -/
def Obligations.AgentAnswersBearTheStatusWord : Prop :=
  ∀ (s : State) (t : Nat) (k : Pkt) (a : AgAns), s.canon → (ctlSpread k = 0 ∨ ctlSpread k = 7) → k.cmd = Cmd.CTL →
    let u := s.agentStart t k (some a)
    ∃ p : Pkt, (u.agent t).outq = (s.agent t).outq ++ [p] ∧ p.dest = k.src ∧ p.src = k.dest ∧ p.tag = k.tag ∧ p.cmd = Cmd.CRSP ∧ p.resp = a.resp ∧
      (a.resp = Resp.OK → p.data = [lineOf [a.value]] ∧ p.lenm1 = 7) ∧ (a.resp ≠ Resp.OK → p.data = []) ∧
      fld p.aux 0 8 = ctlFunc k % 256 ∧ bitOf p.aux 8 = a.refused ∧
      u.g (aAgstat t) TL_AGSTAT.CTLCNT = (s.g (aAgstat t) TL_AGSTAT.CTLCNT + 1) % 2 ^ TL_AGSTAT.CTLCNT.w ∧
      u.nis = s.nis ∧ u.routers = s.routers ∧ u.seq = s.seq

/-- Snapshots, held events, tile reset and HOLD (R297, R304, R305, R372): SNAPARM arms for a later time, and for one that has passed copies at once, with LATE (at equality by the model's choice, notes/assumptions/129.md); SNAPCLR clears; EVFLUSH sends what the latch holds, whatever keeps it there; TRST of a quiet tile resets it, and otherwise answers DECERR with what keeps it; HOLD sets its end, counted from the tick in which the CTL was received, or ends it; a capture at its time copies the ten registers; an armed IDLE tile is woken; a HOLD ends. -/
def Obligations.SnapshotsResetsAndHolds : Prop :=
  ∀ (s : State) (t : Tile) (k : Pkt) (rest : List Pkt),
    let i := t.val
    let s1 := s.agentTook i rest
    let n := fld (ctlArg k 0) 0 16
    let armed := (((s1.pb (aAgsnap i) TL_AGSNAP.ARMED true).pb (aAgsnap i) TL_AGSNAP.VALID false).pb (aAgsnap i) TL_AGSNAP.LATE false)
    let cleared := (((s1.pb (aAgsnap i) TL_AGSNAP.ARMED false).pb (aAgsnap i) TL_AGSNAP.VALID false).pb (aAgsnap i) TL_AGSNAP.LATE false)
    (s.agentTakes i k rest →
      (isProg 0x10 k = true → s.ntNs < (ctlArg k 0).toNat →
        exec (.snaparm t) s = .next ((armed.setAgent i { armed.agent i with capT := ctlArg k 0 }).agentStart i k (some {}))) ∧
      (isProg 0x10 k = true → (ctlArg k 0).toNat ≤ s.ntNs →
        exec (.snaparm t) s = .next ((((armed.setAgent i { armed.agent i with capT := ctlArg k 0 }).capture i).pb (aAgsnap i) TL_AGSNAP.LATE true).agentStart i k
          (some { late := true }))) ∧
      (isProg 0x11 k = true → exec (.snapclr t) s = .next (cleared.agentStart i k (some {}))) ∧
      (isProg 0x20 k = true →
        exec (.evflush t) s = .next ((s1.flushHeld i).agentStart i k
          (some { value := BitVec.ofNat 64 ((s1.agent i).edge.length + (s1.agent i).level.length) }))) ∧
      (isProg 0x30 k = true → s1.trstBlocks i = 0 → exec (.trst t) s = .next ((s1.tileReset i).agentStart i k (some {})).recheck) ∧
      (isProg 0x30 k = true → s1.trstBlocks i ≠ 0 →
        exec (.trst t) s = .next (s1.agentStart i k (some { resp := Resp.DECERR, detail := s1.trstBlocks i })).recheck) ∧
      (isProg 0x40 k = true → n ≠ 0 → exec (.hold t) s =
        .next (((s1.setAgent i { s1.agent i with holdEnd := some (s.holdFrom i k + n) }).wake i true).agentStart i k (some {}))) ∧
      (isProg 0x40 k = true → n = 0 → exec (.hold t) s = .next ((s1.setAgent i { s1.agent i with holdEnd := none }).agentStart i k (some {})))) ∧
    (s.canon → isProg 0x40 k = true → (s.noteHold i k).holdFrom i k = s.ticks) ∧
    (∀ e, s.canon → (s.agent i).holdEnd = some e → ∃ u, exec (.holdExpiry t) s = .next u ∧ (u.agent i).holdEnd = none ∧
      u.cyc = max s.cyc (s.bas0 + e * Config.cyclesPerTick) ∧ u.regs = s.regs) ∧
    (s.canon → s.gb (aAgsnap i) TL_AGSNAP.ARMED = true → s.coreRuns i = true → ∃ u, exec (.snapshotCapture t) s = .next u ∧
      u.gb (aAgsnap i) TL_AGSNAP.VALID = true ∧ u.gb (aAgsnap i) TL_AGSNAP.ARMED = false ∧
      (let s2 := s.until (s.cyc + s.cyclesTo (s.agent i).capT.toNat)
       ∀ j, j < 10 → u.rd (aSnap i j) = s2.tlRead i (snapOffsets.getD j 0)) ∧
      u.routers = s.routers ∧ u.nis = s.nis ∧ u.agents = s.agents) ∧
    (s.canon → s.gb (aAgsnap i) TL_AGSNAP.ARMED = true → s.pst i = stIdle → ∃ u, exec (.snapshotWake t) s = .next u ∧ (u.agent i).waking = true ∧ u.regs = s.regs)

/-- Relays of a spread (R300, R301): an answer with counts is combined with the spread that awaits it; an answer without counts, as a poisoned one whose data is lost is, and the end of the wait, set RELFLT and count the relay's tiles as not answering; an answer that no spread awaits is discarded. That an answer without counts is such a failure is the model's choice (notes/assumptions/60.md). -/
def Obligations.RelaysCombine : Prop :=
  ∀ (s : State) (t src : Tile) (tag : BitVec 12) (r : CrspBody) (p : Pkt) (rest : List Pkt),
    let a := s.agent t.val
    let bears (k : Pkt) : Bool := k.tag == tag && k.src == epAddr src.val 3 && k.resp == r.resp && k.aux == r.aux && k.lenm1 == r.lenm1
      && (r.data == [] && k.data == [] || k.data == [lineOf r.data])
    let taken := s.setAgent t.val { a with crsps := rest }
    let counts := r.data.getD 1 0
    let add (x : Spread) : Spread := { x with waits := x.waits.filter (fun w => w.1 != src.val) }.add (r.data.getD 0 0) (fld counts 0 16)
      (fld counts 16 16) (fld counts 32 16) (respRead r.resp) r.aux
    (s.canon → extract bears a.crsps = some (p, rest) →
      (a.spreads.any (awaits tag src.val) = false → exec (.relayAnswer t tag src r) s = .next taken) ∧
      (a.spreads.any (awaits tag src.val) = true → r.lenm1 = 15 ∧ r.data ≠ [] → exec (.relayAnswer t tag src r) s =
        .next ((taken.setAgent t.val { a with crsps := rest, spreads := replaceFirst (awaits tag src.val) add a.spreads }).endSpreads t.val)) ∧
      (a.spreads.any (awaits tag src.val) = true → ¬ (r.lenm1 = 15 ∧ r.data ≠ []) → exec (.relayAnswer t tag src r) s =
        .next (((taken.pb (aAgstat t.val) TL_AGSTAT.RELFLT true).setAgent t.val
          { a with crsps := rest, spreads := replaceFirst (awaits tag src.val) (fun x => x.relayFails src.val) a.spreads }).endSpreads t.val))) ∧
    (∀ x : Spread, x.ctl.tag = tag → ∀ n, x.waits.find? (fun w => w.1 == src.val) = some (src.val, n) →
      (x.relayFails src.val).silent = x.silent + n ∧ (x.relayFails src.val).ok = x.ok ∧ (x.relayFails src.val).bad = x.bad ∧
      bitOf (x.relayFails src.val).bits 12 = true) ∧
    (a.spreads.any (awaits tag src.val) = true →
      let s1 := s.pb (aAgstat t.val) TL_AGSTAT.RELFLT true
      exec (.relayTimeout t tag src) s =
        .next ((s1.setAgent t.val { a with spreads := replaceFirst (awaits tag src.val) (fun x => x.relayFails src.val) a.spreads }).endSpreads t.val))

/-- The link functions of an agent whose neighbour can be reached (R442, R446 to R448): LSTAT answers TL_LNKSTAT of the sending end, LFENCE and LUNFENCE set and clear TESTF and let go what can move, LTEST on a fenced UP direction and LDTEST on an UP one wake the receiving tile, begin a test and answer at its end, each BUSY during another (the model's choice, notes/assumptions/61.md), LREPAIR of a lane wakes that tile and asks for its repair when none is pending and a spare is FREE, LREINIT of an UP direction answers OK and changes nothing else, and takes a DOWN one into reinitialisation; LPEER for the lane pending, before its apply step, is taken with OK. Link calibration, repair, training and tests run to their ends (R440 to R448): a margin below CALMIN marks its lane; the lowest margin of a rotation is in MARGIN from its last lane on, measured or not (a rotation whose direction is not UP at its last lane shows what it measured: DEDUCED, notes/assumptions/155.md); a paused direction measures nothing; a repair that the sender took is made at its apply step; a reinitialisation whose buffers are empty trains; a pass without new failing lanes gives the sending end the receiving end's map and takes the direction UP; one with new failing lanes repairs them, gives the map, sends an LPEER for each repaired one (notes/assumptions/133.md) and trains a second time, after which more than 16 of them, or a spare that is wanting, fail the direction, and fewer take it UP (that a lane already carried or FAILED needs no repair, and that more than 16 failing lanes are no failure in the first pass: DEDUCED, notes/assumptions/62.md); a drained test starts its pattern; a drain that does not end is answered TIMEOUT, and the headers that LDTEST held are released; a pattern's end notes the lanes that failed, repairs them where REPAIR asks for it, and trains again; a direction that then fails answers EXHAUSTED with REPAIR and FAIL without. -/
def Obligations.LinkFunctionsAndProcedures : Prop :=
  (∀ (s : State) (t : Tile) (k : Pkt) (rest : List Pkt), s.agentTakes t.val k rest →
     let i := t.val
     let s1 := s.agentTook i rest
     let pl := (argLink k).1
     let d := (argLink k).2
     let l := s1.link i pl d
     let w := s1.wake (neighbour i d) true
     let free : Prop := l.test = none ∧ l.repCtl = none ∧ (∀ x, l.pend = some x → x.2.2 = false)
     let ans (u : State) (code : Nat) : Host.Outcome State Fault Refusal := .next (u.agentStart i k (some (u.linkAns i pl d code)))
     let begun (live : Bool) : State :=
       let u := if live then w.setLinkState i pl d lkHeld else w
       u.setLink i pl d { u.link i pl d with test := some ⟨k, argRepair k, live, true, [], false⟩ }
     (s1.noPeer i d = true → isProg 0x50 k = true → exec (.lstat t) s = ans s1 rcNoPeer) ∧
     (s1.noPeer i d = false →
       (isProg 0x50 k = true → exec (.lstat t) s = .next (s1.agentStart i k (some { value := s1.rd (aLnkstat i pl 0 d) }))) ∧
       (isProg 0x51 k = true → exec (.lfence t) s = ans ((s1.pb (aLnkstat i pl 0 d) TL_LNKSTAT.TESTF true).settle i pl) rcOk) ∧
       (isProg 0x52 k = true → exec (.lunfence t) s = ans ((s1.pb (aLnkstat i pl 0 d) TL_LNKSTAT.TESTF false).settle i pl) rcOk) ∧
       (isProg 0x53 k = true → s1.fenced i pl d = true → s1.linkState i pl d = lkUp → free →
         exec (.ltest t) s = .next ((begun false).agentStart i k none)) ∧
       (isProg 0x53 k = true → s1.fenced i pl d = false ∨ l.test.isSome = true → exec (.ltest t) s = ans s1 rcBusy) ∧
       (isProg 0x54 k = true → s1.linkState i pl d = lkUp → free → exec (.ldtest t) s = .next ((begun true).agentStart i k none)) ∧
       (isProg 0x54 k = true → s1.linkState i pl d = lkHeld → exec (.ldtest t) s = ans s1 rcBusy) ∧
       (isProg 0x55 k = true → argLane k < 597 → l.pend = none → l.test = none → s1.linkState i pl d = lkUp →
         (lowest (s1.spares i pl 0 d) spFree).isSome = true →
         exec (.lrepair t) s = .next (((w.setLink i pl d { l with repCtl := some k }).sendLpeer i pl d (argLane k)).agentStart i k none)) ∧
       (isProg 0x55 k = true → argLane k < 597 → l.pend.isSome = true → exec (.lrepair t) s = ans s1 rcBusy) ∧
       (isProg 0x56 k = true → s1.linkState i pl d = lkUp → exec (.lreinit t) s = ans s1 rcOk) ∧
       (isProg 0x56 k = true → s1.linkState i pl d = lkDown →
         let u := w.linkDownNow i pl d
         exec (.lreinit t) s = .next ((u.setLink i pl d { u.link i pl d with ctls := (u.link i pl d).ctls ++ [k] }).agentStart i k none))) ∧
     (∀ (x : LinkId) (lane : Fin 597) (ka : Nat) (b : Bool), x.tile = t → isProg funcLpeer k = true → argLink k = (x.plane.val, x.dir.val) →
       argLane k = lane.val → fld k.aux 8 24 = ka % 2 ^ 24 → l.pend = some (lane.val, ka, b) → l.test = none → s1.calStep < ka →
       exec (.lpeer t x lane ka) s = ans ((s1.setLink i pl d { l with pend := some (lane.val, ka, true) }).setLinkPend i pl d true) rcOk)) ∧
  (∀ (s : State) (x : LinkId),
     let t := x.tile.val
     let pl := x.plane.val
     let d := x.dir.val
     let l := s.link t pl d
     (∀ (lane : Fin 597) (margin : BitVec 6), s.canon → s.obs.calEn = true → s.calStep % 597 = lane.val → s.linkState t pl d = lkUp →
       (highest (s.spares (neighbour t d) pl 1 (opposite d)) spCal).isSome = true → l.pend = none → l.lastKa ≠ some s.calStep →
       laneFailed (s.spares (neighbour t d) pl 1 (opposite d)) lane.val = false →
       ∃ u, exec (.calibrationStep x lane margin) s = .next u ∧ (u.link t pl d).rotMin = min margin.toNat (if l.rot = s.calStep / 597 then l.rotMin else 63) ∧ (u.link t pl d).rot = s.calStep / 597 ∧
         (let shown := u.g (aLnkstat (neighbour t d) pl 1 (opposite d)) TL_LNKSTAT.MARGIN
          margin.toNat < s.g aLcfg OBS_LCFG.CALMIN ∨ ((lane.val = 596 → shown = (u.link t pl d).rotMin % 64) ∧
            (lane.val ≠ 596 → l.rot ≠ s.calStep / 597 → shown = l.rotMin % 64))) ∧
         (s.g aLcfg OBS_LCFG.CALMIN ≤ margin.toNat → (u.link t pl d).marginal = l.marginal ∧ (u.link t pl d).pend = none) ∧
         (margin.toNat < s.g aLcfg OBS_LCFG.CALMIN → lane.val ∈ (u.link t pl d).marginal)) ∧
     (∀ (lane : Fin 597) (margin : BitVec 6), s.obs.calEn = true → s.calStep % 597 = lane.val → s.linkState t pl d ≠ lkUp →
       (lane.val = 596 ∧ l.rot = s.calStep / 597 → exec (.calibrationStep x lane margin) s =
         .next (s.p (aLnkstat (neighbour t d) pl 1 (opposite d)) TL_LNKSTAT.MARGIN l.rotMin)) ∧
       (¬ (lane.val = 596 ∧ l.rot = s.calStep / 597) → exec (.calibrationStep x lane margin) s = .next s)) ∧
     (∀ p ka, l.pend = some (p, ka, true) → exec (.repairApply x) s = .next (s.applyRepair t pl d p)) ∧
     (∀ p ka, l.pend = some (p, ka, false) → exec (.repairApply x) s = .next s) ∧
     (s.linkState t pl d = lkReinit → l.passes = 0 → s.inputEmpty (neighbour t d) pl (opposite d) = true →
       exec (.reinitBuffersEmpty x) s = .next (s.startTraining t pl d)) ∧
     (s.linkState t pl d = lkReinit → l.passes ≠ 0 → exec (.trainingEnd x []) s = .next ((s.giveMap t pl d).linkUp t pl d)) ∧
     (∀ failing : List Nat, s.linkState t pl d = lkReinit → l.passes ≠ 0 → failing.all (· < 597) = true →
       let bad := failing.eraseDups.filter (fun p => !laneFailed (s.rxSpares t pl d) p)
       let r := bad.foldl (fun (y : State × Bool) p => (y.1.repairNow t pl d p, y.2 || y.1.wouldExhaust t pl d p)) (s, false)
       let u := r.1.giveMap t pl d
       let v := (bad.filter (laneFailed (u.rxSpares t pl d))).foldl (fun s p => s.mapPeer t pl d p) u
       bad ≠ [] →
         (u.spares t pl 0 d = u.rxSpares t pl d) ∧
         ((v.link t pl d).passes = 1 → exec (.trainingEnd x failing) s = .next (v.setLink t pl d { v.link t pl d with passes := 2 })) ∧
         ((v.link t pl d).passes ≠ 1 → (r.2 = true ∨ 16 < bad.length) → exec (.trainingEnd x failing) s = .next (v.linkFails t pl d)) ∧
         ((v.link t pl d).passes ≠ 1 → r.2 = false → bad.length ≤ 16 → exec (.trainingEnd x failing) s = .next (v.linkUp t pl d))) ∧
     (∀ j, l.test = some j → j.draining = true →
       (s.drained t pl d = true → s.linkState t pl d ≠ lkReinit → exec (.linkTestDrained x) s =
         .next ((s.setLinkState t pl d lkTest).setLink t pl d { l with test := some { j with draining := false } })) ∧
       (s.drained t pl d = false → j.live = false → exec (.drainTimeout x) s =
         .next (((s.endTest t pl d rcTimeout).linkLater t pl d).settle t pl)) ∧
       (s.drained t pl d = false → j.live = true → s.linkState t pl d = lkHeld → exec (.drainTimeout x) s =
         .next ((((s.setLinkState t pl d lkUp).endTest t pl d rcTimeout).linkLater t pl d).settle t pl))) ∧
     (∀ j, l.test = some j → j.draining = false → s.linkState t pl d = lkTest →
       testCode j true = (if j.repair then rcExhausted else rcFail) ∧
       ∀ failing : List Nat, failing.all (· < 597) = true →
         let fs := failing.eraseDups
         let r := fs.foldl (fun (y : State × Bool) p => (y.1.repairNow t pl d p, y.2 || y.1.wouldExhaust t pl d p)) (s, false)
         (j.repair = false ∨ failing = [] → exec (.testPatternEnd x failing) s =
           .next ((s.setLink t pl d { l with test := some { j with failed := fs, exh := false } }).startTraining t pl d)) ∧
         (j.repair = true → exec (.testPatternEnd x failing) s =
           .next ((r.1.setLink t pl d { r.1.link t pl d with test := some { j with failed := fs, exh := r.2 } }).startTraining t pl d))))

/-- Doorbells and internal events (R319, R320, R337, R338, R462): while the management domain runs, the DBL at the head of DBEP's queue leaves it; of an edge source it counts DBLS and sets PEND, or counts OVERRUN where PEND is 1 already; of a level source it counts DBLS, takes the level, and sets or clears PEND; an unknown source, a kind that does not match and another command only count. In retention and until the restore, the latch holds it, and the first one held starts the wake; a packet that R319 discards starts none. An event on the internal path takes effect as an edge doorbell, in whichever order the blocks' events come (notes/assumptions/40.md). Retention of the management domain (R336, R337, R380): with MRETEN and nothing under way the running domain enters retention, EVC_IRQ falls and SAVES counts, modulo its width; the wake ends with its clock running; the restore loses the thresholds of ICX targets, merges the latch, the domain runs, and the frames that waited in the crossing from the chain take effect in the order in which they came (R382; notes/assumptions/127.md). -/
def Obligations.DoorbellsAndRetention : Prop :=
  (∀ (s : State) (k : Pkt) (rest : List Pkt) (i : Nat), s.evc.rx = k :: rest → fld k.aux 0 10 = i →
     let s1 := { s with evc := { s.evc with rx := rest } }
     let c := s1.bump aEvcCnt EVC_CNT.DBLS
     let edge := if s.pendBit i then c.sat aEvcCnt EVC_CNT.OVERRUN else c.setPend i true
     let level (b : Bool) := let v := c.setLevel i b; if b then v else if v.activeBit i then v else v.setPend i false
     let woken (u : State) : State := if s.pm.mstate = .retention then { u with pm := { u.pm with mstate := .waking } } else u
     let isDbl : Prop := k.cmd = Cmd.DBL ∧ k.dfc = 0
     (s.pm.mstate = .running →
       (isDbl → i ≤ 1021 → bitOf k.aux 10 = false → s.lvlSrc i = false → exec .dbl s = .next ((edge.icxWake i).evcCycle)) ∧
       (isDbl → i ≤ 1021 → bitOf k.aux 10 = true → s.lvlSrc i = true → exec .dbl s = .next (level (bitOf k.aux 11)).evcCycle) ∧
       (isDbl → 1021 < i → exec .dbl s = .next (s1.sat aEvcErr EVC_ERR.BADSRC)) ∧
       (isDbl → i ≤ 1021 → bitOf k.aux 10 ≠ s.lvlSrc i → exec .dbl s = .next (s1.sat aEvcErr EVC_ERR.KINDERR)) ∧
       (k.cmd ≠ Cmd.DBL → exec .dbl s = .next ((s1.sat aEvcErr EVC_ERR.NONDBL).evcDecerr k)) ∧
       exec .latchDoorbell s = .next s) ∧
     (s.pm.mstate ≠ .running →
       (isDbl → i ≤ 1021 → bitOf k.aux 10 = false → s.lvlSrc i = false → i ∉ s.evc.lEdge →
         exec .latchDoorbell s = .next (woken ({ s1 with evc := { s1.evc with lEdge := s.evc.lEdge ++ [i] } }.icxWake i))) ∧
       (isDbl → i ≤ 1021 → bitOf k.aux 10 = false → s.lvlSrc i = false → i ∈ s.evc.lEdge →
         exec .latchDoorbell s = .next (woken ({ s1 with evc := { s1.evc with lMerge := min 0xFFFF (s.evc.lMerge + 1) } }.icxWake i))) ∧
       (isDbl → i ≤ 1021 → bitOf k.aux 10 = true → s.lvlSrc i = true →
         exec .latchDoorbell s = .next (woken { s1 with evc := { s1.evc with lLevel := s.evc.lLevel.filter (fun x => x.1 != i) ++ [(i, bitOf k.aux 11)] } })) ∧
       exec .dbl s = .next s) ∧
     (s.pm.mstate ≠ .running → (¬ isDbl ∨ 1021 < i) → ∃ u, exec .latchDoorbell s = .next u ∧ u.pm = s.pm ∧ u.evc.lEdge = s.evc.lEdge ∧ u.evc.lLevel = s.evc.lLevel)) ∧
  (∀ (s : State) (src : BitVec 10) (before after : List Nat), s.pm.mstate = .running → s.evc.evq = before ++ src.toNat :: after → src.toNat ∉ before →
     let s1 := { s with evc := { s.evc with evq := before ++ after } }
     let c := s1.bump aEvcCnt EVC_CNT.DBLS
     (s.lvlSrc src.toNat = false → exec (.internalEvent src) s =
       .next (if s.pendBit src.toNat then c.sat aEvcCnt EVC_CNT.OVERRUN else c.setPend src.toNat true).evcCycle) ∧
     (s.lvlSrc src.toNat = true → exec (.internalEvent src) s = .next (s1.sat aEvcErr EVC_ERR.KINDERR))) ∧
  (∀ (s : State) (src : BitVec 10), s.pm.mstate ≠ .running ∨ src.toNat ∉ s.evc.evq → exec (.internalEvent src) s = .next s) ∧
  (∀ s : State,
     (s.gb aPmCfg PM_CFG.MRETEN = true → s.pm.mstate = .running → s.mgmtIdle = true →
       exec .mgmtRetentionEntry s =
         .next ({ s with pm := { s.pm with mstate := .retention }, evc := { s.evc with irq := 0 } }.bump aEvcCnt EVC_CNT.SAVES)) ∧
     (s.gb aPmCfg PM_CFG.MRETEN = false → exec .mgmtRetentionEntry s = .next s) ∧
     (s.pm.mstate = .retention ∨ s.pm.mstate = .waking → exec .mgmtWake s = .next { s with pm := { s.pm with mstate := .clocked } }) ∧
     (s.pm.mstate = .clocked →
       (s.hosts = [] → s.chn.xin = [] → exec .evcRestore s =
         .next { s.loseThresh.mergeLatch with pm := { s.loseThresh.mergeLatch.pm with mstate := .running } }.evcCycle.recheck) ∧
       exec .evcRestore s = .next (s.chn.xin.foldl (fun (u : State) x => u.frameIn x.1 x.2) { s.mgmtRuns with chn := { s.mgmtRuns.chn with xin := [] } }).recheck ∧
       s.mgmtRuns.chn.xin = s.chn.xin ∧
       (s.canon → s.chn.xin = [] → ∃ u, exec .evcRestore s = .next u ∧ u.pm.mstate = .running ∧ u.evc.lEdge = [] ∧ u.evc.lLevel = [] ∧ u.evc.lMerge = 0 ∧
         ∀ h, h < 8 → u.host h = { s.host h with xin := 0 })))

/-- Claims and completes (R36, R327 to R329, R334): a host that is active and claims at a target of its own receives the best source, which becomes ACTIVE, not PEND, claimed by the target, with LASTT the target and its priority on the target's stack; with nothing presented it receives 1,023 where SPUR was set and 1,022 otherwise; SPUR is cleared either way; a claim at another host's target receives 1,022 and changes nothing. A complete of a source on the stack takes it off and clears ACTIVE; one of a source that is not there counts CPLERR; 1,022 and 1,023 have no effect. -/
def Obligations.ClaimsAndCompletes : Prop :=
  ∀ (s : State) (h : HostId) (t : TgtId), s.masterActs (.host h) = true →
    let noSpur (u : State) : State := { u with evc := { u.evc with spur := putBit u.evc.spur t.val false } }
    (t.val / 8 ≠ h.val → exec (.evcClaim h t) s = .next (s.answerHost h.val ⟨[(0, 1022)]⟩)) ∧
    (t.val / 8 = h.val →
      (∀ i, s.best t.val = some i →
        exec (.evcClaim h t) s = .next (((noSpur ((((((s.setActive i true).setPend i false).p (aSrc i) EVC_SRC.CLAIMER t.val).p
          (aSrc i) EVC_SRC.LASTT t.val).setStack t.val ((i, s.pri i) :: s.stack t.val)))).evcCycle).answerHost h.val ⟨[(0, BitVec.ofNat 64 i)]⟩)) ∧
      (s.best t.val = none →
        exec (.evcClaim h t) s = .next ((noSpur s).answerHost h.val ⟨[(0, if bitOf s.evc.spur t.val then 1023 else 1022)]⟩))) ∧
    (∀ (m : Master) (id : BitVec 10),
      (s.ownsTarget m t.val = true → (∃ p, (id.toNat, p) ∈ s.stack t.val) → id.toNat ≤ 1021 →
        exec (.evcComplete m t id) s =
          .next (((s.setStack t.val ((s.stack t.val).filter (fun x => x.1 != id.toNat))).setActive id.toNat false).evcCycle)) ∧
      (s.ownsTarget m t.val = true → (∀ p, (id.toNat, p) ∉ s.stack t.val) → id.toNat ≤ 1021 →
        exec (.evcComplete m t id) s = .next (s.sat aEvcErr EVC_ERR.CPLERR)) ∧
      (1021 < id.toNat ∨ s.ownsTarget m t.val = false → exec (.evcComplete m t id) s = .next s)) ∧
    (∀ h' : HostId, s.masterActs (.host h') = false → exec (.evcClaim h' t) s = .next s)

/-- Who is offered a source (R322, R324, R325): the best source of a target is pending, not active, of a priority other than 0, and enabled for that target, its group is above the threshold's and above that of the claim at the top of the target's stack, the stack is not full, and no source presented to the target has a higher priority, nor an equal one and a lower number. A management cycle of the event controller (R320, R325): it changes nothing but pending bits, EVC_IRQ, SPUR, and wake pulses with the crossings that they take: their counters, the OVF and OVFCNT of the hosts' domains and event 995 where one is lost; ACTIVE, the enables, the thresholds, the priorities and every other register stay, and so does every other part of the block; afterwards EVC_IRQ of a target whose host port is out of reset is set exactly where a source is presented to it, that of a target in reset is 0 (R339), SPUR stays set where it was, and each target whose EVC_IRQ rose has SPUR set. In retention nothing happens. -/
def Obligations.SourcesArePresentedByPriority : Prop :=
  (∀ (s : State) (t i : Nat), s.best t = some i →
     s.pendBit i = true ∧ s.activeBit i = false ∧ s.pri i ≠ 0 ∧ s.enBit t i = true ∧ i < 1024 ∧
     s.grp (fld (s.rd (aThresh t)) 0 8) < s.grp (s.pri i) ∧ (∀ x ∈ (s.stack t).head?, s.grp x.2 < s.grp (s.pri i)) ∧ (s.stack t).length < 8 ∧
     ∀ j, j < 1024 → s.target j = some t → s.pri j < s.pri i ∨ s.pri j = s.pri i ∧ i ≤ j) ∧
  (∀ s : State, s.canon →
     (s.pm.mstate ≠ .running → s.evcCycle = s) ∧
     (s.pm.mstate = .running → ∀ t, t < 64 →
       (bitOf s.evcCycle.evc.irq t = true ↔ (s.host (t / 8)).low = false ∧ ∃ i, i < 1024 ∧ s.evcCycle.target i = some t) ∧
       (bitOf s.evcCycle.evc.spur t = (bitOf s.evc.spur t || (bitOf s.evcCycle.evc.irq t && !bitOf s.evc.irq t)))) ∧
     (let u := s.evcCycle
      u = { s with
        regs := u.regs, pm := { s.pm with cts := u.pm.cts },
        evc := { s.evc with irq := u.evc.irq, spur := u.evc.spur, wakes := u.evc.wakes, evq := u.evc.evq, once := u.evc.once } } ∧
      (∀ o, (∀ k, k < 16 → o ≠ aPend k) → (∀ h, h < 8 → o ≠ aDomstat (580 + h)) → u.rd o = s.rd o) ∧
      (u.evc.evq = s.evc.evq ∨ u.evc.evq = s.evc.evq ++ [995])))

/-- A write at the EVC's set and clear addresses by a master that is active and has the right (R36, R333 to R335): the bits written as 1 are set, or cleared, and the others stay; the sequencer's at every source, a host's pending bits at sources 0 to 255 and its enables at its own eight targets. A host's write at other sources, or at another host's targets, and the write of a master that is not active, changes no bit. The threshold and the split (R323, R334, R336): a target's owner or the sequencer writes THRESH, which clears THRLOST; PRISPLIT is written with the rights of a sequencer field; anyone else's write has no effect. -/
def Obligations.EventRegisters : Prop :=
  (∀ (s : State) (m : Master) (t : TgtId) (k : Fin 16) (v : W),
     let inWord : W := if k.val = 15 then 0x3FFFFFFFFFFFFFFF#64 else BitVec.allOnes 64
     let pend (w : W) : State := s.wr (aPend k.val) (s.rd (aPend k.val) ||| w)
     let clear (w : W) : State := s.wr (aPend k.val) (s.rd (aPend k.val) &&& ~~~w)
     let icx (w : W) (u : State) : State := (bitsOf w).foldl (fun u b => u.icxWake (64 * k.val + b)) u
     (s.masterActs m = true → masterIsSeq m = true →
       exec (.evcSetpend m k v) s = .next (icx (v &&& inWord) (pend (v &&& inWord))).evcCycle ∧
       exec (.evcClrpend m k v) s = .next (clear (v &&& inWord)).evcCycle) ∧
     (∀ h, s.masterActs m = true → masterHost m = some h → k.val < 4 →
       exec (.evcSetpend m k v) s = .next (icx v (pend v)).evcCycle ∧ exec (.evcClrpend m k v) s = .next (clear v).evcCycle) ∧
     (∀ h, s.masterActs m = false ∨ (masterHost m = some h ∧ 4 ≤ k.val) → s.canon →
       exec (.evcSetpend m k v) s = .next s.evcCycle ∧ exec (.evcClrpend m k v) s = .next s.evcCycle) ∧
     (s.masterActs m = true → masterIsSeq m = true ∨ masterHost m = some (t.val / 8) →
       exec (.evcEnset m t k v) s = .next (s.wr (aEn t.val k.val) (s.rd (aEn t.val k.val) ||| (v &&& inWord))).evcCycle ∧
       exec (.evcEnclr m t k v) s = .next (s.wr (aEn t.val k.val) (s.rd (aEn t.val k.val) &&& ~~~v)).evcCycle) ∧
     (s.masterActs m = false ∨ (masterIsSeq m = false ∧ masterHost m ≠ some (t.val / 8)) → exec (.evcEnset m t k v) s = .next s ∧ exec (.evcEnclr m t k v) s = .next s)) ∧
  (∀ (s : State) (m : Master) (t : TgtId) (v : BitVec 8) (p : BitVec 3),
     (s.ownsTarget m t.val = true →
       exec (.evcThresh m t v) s = .next ((s.wr (aThresh t.val) (v.setWidth 64)).pb (aCtx t.val) ctxThrlost false).evcCycle) ∧
     (s.ownsTarget m t.val = false → exec (.evcThresh m t v) s = .next s) ∧
     (s.sqRight m = true → exec (.prisplitWrite m p) s = .next (s.p aEvcCfg EVC_CFG.PRISPLIT p.toNat).evcCycle) ∧
     (s.sqRight m = false → exec (.prisplitWrite m p) s = .next s))

/-- A host request (R344, R347 to R349, R352, R354, R380): a port that is out of reset, reconnected and clocked takes the level of HSREADY, upon which its answers leave while it is 1; a valid request is accepted with fewer than four outstanding and room in the crossing, reaches the port that its address decodes to, parked or pending, wakes a management domain in retention, and owes its beats if it is a write; the beats on the write channel follow, accepted or not; a port in reset, or while its crossing reconnects or its clock stands, takes nothing. A host port's reset and its release (R339, R360, R361, R281): asserted, its requests are gone and its port is low and waits for its crossing, and the event controller, the sequencer and every waiting context take it up; released, the port is no longer low; a second assertion, and a release without one, change nothing. A crossing reconnects once the reset is released, and the wake pulses that were counted meanwhile go on their way (DEDUCED, notes/assumptions/147.md). -/
def Obligations.HostPorts : Prop :=
  (∀ (s : State) (h : HostId) (r : HReq),
     let i := h.val
     let s0 := (s.setHost i { s.host i with hold := !r.ready }).hostFlush i
     let beats := (List.range r.data.length).map (fun i => (r.data.getD i 0, r.strb.getD i 0))
     (s.hostAlive i = true → r.valid = true → s0.hostReady i = true →
       let s1 := s0.wakeMgmt.hostItems i 1
       let x := s1.host i
       let n := x.nextReq
       let a : Acc := { master := i, who := .host h, req := n, ctx := none, write := r.write, inst := r.inst, off := r.addr, beats := r.len.toNat + 1,
                        data := [], strb := [], done := [] }
       let s2 := s1.setHost i { x with reqs := x.reqs ++ [(n, none)] }
       let j := s2.decodePort a
       let got := if s2.parkedOn j i = true then (s2.setXport j ((s2.xport j).grant a 1 i)).presentAt j else s2.pendAcc j a
       exec (.hostRequest h r) s = .next (((if r.write = true then got.oweBeats i n (r.len.toNat + 1) else got).hostBeats i beats).recheck)) ∧
     (s.hostAlive i = true → r.valid = false ∨ s0.hostReady i = false → exec (.hostRequest h r) s = .next (s0.hostBeats i beats).recheck) ∧
     ((s.host i).low = true ∨ s.hostWaits i = true ∨ (s.host i).stopped = true → exec (.hostRequest h r) s = .next s) ∧
     (s.pm.mstate = .running → s.hostReady i = decide ((s.host i).reqs.length < 4))) ∧
  (∀ (s : State) (h : HostId),
     ((s.host h.val).low = false →
       exec (.hostResetAssert h) s = .next ((((s.flushHost h.val).xbHostReset h.val).evcHostReset h.val).ringReset h.val).evcCycle.barrGo.recheck) ∧
     ((s.host h.val).low = true → exec (.hostResetAssert h) s = .next s ∧
       exec (.hostResetRelease h) s = .next (s.setHost h.val { s.host h.val with low := false }).evcCycle ∧
       exec (.crossingReconnect (.host h)) s = .next s) ∧
     ((s.host h.val).low = false → exec (.hostResetRelease h) s = .next s ∧
       ((s.host h.val).waitClear = false → exec (.crossingReconnect (.host h)) s = .next s) ∧
       (s.canon → (s.host h.val).waitClear = true → ∃ u, exec (.crossingReconnect (.host h)) s = .next u ∧
         u.host h.val = { s.host h.val with waitClear := false } ∧ u.regs = s.regs ∧ u.evc = s.evc ∧
         (∀ key, let c := tget ⟨false, 0, 0⟩ s.pm.cts key
           tget ⟨false, 0, 0⟩ u.pm.cts key = if key / 8 = h.val ∧ c.busy = true then
             (if c.cnt = 0 then { c with busy := false } else { c with cnt := c.cnt - 1, delivered := c.delivered + 1 }) else c))) ∧
     (s.canon → let u := s.xbHostReset h.val
       (u.host h.val).reqs = [] ∧ (u.host h.val).low = true ∧ (u.host h.val).waitClear = true ∧ u.hostAlive h.val = false ∧
       (u.host h.val).owed = [] ∧ (u.host h.val).extra = [] ∧
       (∀ j, j < 11 → ∀ a ∈ (u.xport j).pend, a.master ≠ h.val) ∧
       u.g (aXbHstat h.val) XB_HSTAT.RSTCNT = satSum XB_HSTAT.RSTCNT.w (s.g (aXbHstat h.val) XB_HSTAT.RSTCNT) 1))

/-- Arbitration (R350 to R353): at a free port of a running domain the winner leaves the pending slots and holds the port; the winner is the one decided at the last response beat while it still waits, and otherwise, of what is pending now, the last holder where it keeps the port, and else the first after the last holder among those of the highest priority; a held port grants nothing; with nothing pending, nothing happens. The last response beat releases the port and decides among the requests pending then. The watchdog of a held port (R358): the holder is answered TIMEOUT in all its beats and the port is released; an access to a tile is given up, while its CTL keeps its TAG until its CRSP or CALLTO (R59; DEDUCED, notes/assumptions/152.md); WDFIRE and WDCNT count, and the port's bit in XB_STAT and event 960 + j say so; arbitration runs anew. A beat for a write that stands at no port any more has no effect. A port that nothing holds has no watchdog running. After a grant the loader goes on whose access has been answered, and a broadcast that was asked for may start; after the watchdog, a BARR that waited for that access; after both, every wait whose condition has come: with nothing left to load and no broadcast asked for the first two change nothing. -/
def Obligations.CrossbarGrantsAndWatchdog : Prop :=
  (∀ (s : State) (j : Fin 11),
     let x := s.xport j.val
     let after (u : State) : Host.Outcome State Fault Refusal := .next u.loadGo.broadcastGo.recheck
     (s.boot.todo = [] → s.loadGo = s) ∧
     (s.chn.bcastWanted = false → s.broadcastGo = s) ∧
     (x.holder.isSome = true → exec (.portGrant j) s = after s) ∧
     (s.pm.mstate = .running → x.holder = none →
       (x.pend = [] → exec (.portGrant j) s = after s) ∧
       (∀ m keep a rest, s.winner j.val = some (m, keep) → extract (fun (a : Acc) => a.master == m) x.pend = some (a, rest) →
         exec (.portGrant j) s =
           after ((s.setXport j.val (({ x with pend := rest } : XPort).grant a (if keep = true then x.cons + 1 else 1) m)).presentAt j.val))) ∧
     (∀ d, x.next = some d → (∃ a ∈ x.pend, a.master = d.1) → s.winner j.val = some d) ∧
     (∀ d, x.next = some d → (∀ a ∈ x.pend, a.master ≠ d.1) → s.winner j.val = s.winnerNow j.val) ∧
     (x.next = none → s.winner j.val = s.winnerNow j.val) ∧
     (s.keepsPort j.val = true → s.winnerNow j.val = some (x.last, true) ∧ (∃ a ∈ x.pend, a.master = x.last) ∧ 0 < x.cons ∧
       x.cons < max 1 (s.g (aXbTcfg j.val) XB_TCFG.BLIM) ∧ ∀ a ∈ x.pend, s.prio j.val a.master ≤ s.prio j.val x.last) ∧
     (s.keepsPort j.val = false → s.winnerNow j.val = (s.roundRobin j.val).map (fun m => (m, false))) ∧
     (∀ m, s.roundRobin j.val = some m → m < 11 ∧ (∃ a ∈ x.pend, a.master = m) ∧ (∀ a ∈ x.pend, a.master < 11 → s.prio j.val a.master ≤ s.prio j.val m)) ∧
     (s.canon → ((s.lastBeat j.val).xport j.val).holder = none ∧ ((s.lastBeat j.val).xport j.val).next = s.winnerNow j.val ∧
       ((s.lastBeat j.val).xport j.val).pend = x.pend)) ∧
  (∀ (s : State) (j : Fin 11),
     let x := s.xport j.val
     (x.holder = none → exec (.watchdogFire j) s = .next s.barrGo.recheck) ∧
     (∀ a, x.holder = some a →
       let fired (s1 : State) : Host.Outcome State Fault Refusal :=
         let u := (((((s1.sat (aXbTstat j.val) XB_TSTAT.WDFIRE).sat aXbStat XB_STAT.WDCNT).putBitAt aXbStat j.val true).raise (960 + j.val))).finishPort j.val
           (a.sameBeats 3 [])
         .next (u.setXport j.val { u.xport j.val with next := none }).barrGo.recheck
       (j.val ≠ 7 → j.val ≠ 8 → exec (.watchdogFire j) s = fired s) ∧
       (x.waits = none → exec (.watchdogFire j) s = fired s) ∧
       (∀ id, j.val = 7 ∨ j.val = 8 → x.waits = some id → exec (.watchdogFire j) s = fired (s.leaveCtl id)))) ∧
  (∀ (s : State) (h n : Nat) (b : W × BitVec 8),
     (∀ j, j < 11 → ∀ a ∈ (s.xport j).holder.toList ++ (s.xport j).pend, ¬ (a.master = h ∧ a.req = n)) → s.beatTo h n b = s)

/-- Tile states by themselves (R370 to R372): an ACTIVE quiet tile that MINST allows enters IDLE; an IDLE one with MINST SLEEP, with nothing ARMED and no wake under way, enters SLEEP once SLPDLY has passed, and is woken at once for an event that it holds; a wake ends in ACTIVE and its held events leave, counted when it was in SLEEP; MINST is written with the rights of a sequencer field, wakes a tile that lies below it, and from a write that first allows SLEEP on SLPDLY counts. -/
def Obligations.TilesIdleSleepAndWake : Prop :=
  ∀ (s : State) (t : Tile) (m : Master) (v : BitVec 2),
    let i := t.val
    let a := s.agent i
    let slept := (s.until (a.idleAt + s.g aPmCfg PM_CFG.SLPDLY * Config.cyclesPerTick)).p (aPmTile i) PM_TILE.ST 2
    let awake := (if s.pst i = 2 then s.bump (aPmTile i) PM_TILE.WAKES else s).p (aPmTile i) PM_TILE.ST 0
    (s.pst i = 0 → 1 ≤ s.minst i → s.quiet i = true →
      exec (.tileIdleEntry t) s = .next ((s.p (aPmTile i) PM_TILE.ST 1).setAgent i { a with idleAt := s.cyc, waking := false })) ∧
    (s.pst i = 0 → s.minst i = 0 ∨ s.quiet i = false → exec (.tileIdleEntry t) s = .next s) ∧
    (s.pst i = 1 → s.minst i = 2 → a.waking = false → s.gb (aAgsnap i) TL_AGSNAP.ARMED = false →
      (a.edge = [] → a.level = [] → exec (.tileSleepEntry t) s = .next slept) ∧
      (a.edge ≠ [] ∨ a.level ≠ [] → exec (.tileSleepEntry t) s = .next (slept.wake i true))) ∧
    (a.waking = true → s.pst i = 1 ∨ s.pst i = 2 →
      exec (.tileWakeDone t) s = .next (((((awake.setAgent i { a with waking := false }).drainXin i).sendHeld i).settleTile i))) ∧
    (s.canon → s.sqRight m = true → s.pst i = 0 → s.minst i = 2 → exec (.minstWrite m t v) s = .next (s.p (aPmTile i) PM_TILE.MINST v.toNat)) ∧
    (s.canon → s.sqRight m = true → s.pst i = 0 → s.minst i ≠ 2 → v = 2 ∨ v = 3 →
      exec (.minstWrite m t v) s = .next ((s.p (aPmTile i) PM_TILE.MINST v.toNat).setAgent i { a with idleAt := s.cyc })) ∧
    (s.canon → s.sqRight m = true → s.pst i = 2 → s.minst i = 2 → v = 0 ∨ v = 1 →
      exec (.minstWrite m t v) s = .next ((s.p (aPmTile i) PM_TILE.MINST v.toNat).wake i true)) ∧
    (s.sqRight m = false → exec (.minstWrite m t v) s = .next s)

/-- The power commands of a master with the right (R376): FENCE of a powered tile with every NI DISABLED that is not the root sets its fences and the tile FENCING, and takes a tile in SLEEP out of it, which counts a wake; OFF of a FENCED tile begins switching it off; ON of an OFF tile begins powering it; UNFENCE outside a commit clears the fences, sets INJ and the ports' slot banks to the committed stratum and the tile ACTIVE, trains its links, sends what it holds and raises event 992, which wakes a domain in retention (R380); WAKE wakes a powered tile. A command whose precondition fails changes nothing but REJ, and raises event 993. Without the right nothing happens. Power changes end (R376, R377): a FENCING tile that is quiet with no spread under way is FENCED; a tile that is switched off is OFF, with its links DOWN and the state of its core and rim lost (R369); a POWERING tile is reset, with the committed stratum's slot banks, and in RESTORE; each with event 992. What an endpoint's own pins say stays, a reset asserted and a clock stopped (R365, R387); its crossing is UP otherwise (the model's choice, notes/assumptions/154.md). The restore window (R377, R401): a write of PM_RSTDATA by a master with the right reaches the register that PM_RSTADDR names in a tile that is FENCED or in RESTORE, also in banks that R134 would refuse; in any other state of the tile the access has no effect but REJ and event 993; a read in those states changes nothing. That UNFENCE trains the tile's links, and that OFF takes them DOWN, are the model's choices (notes/assumptions/62.md). -/
def Obligations.TilesPower : Prop :=
  (∀ (s : State) (m : Master) (t : Tile),
     let i := t.val
     let rej : Host.Outcome State Fault Refusal := .next ((s.pb (aPmTile i) PM_TILE.REJ true).raise 993)
     (s.sqRight m = true →
       (s.powered i = true → s.portsDisabled i = true → t ≠ s.build.root →
         let w := if s.pst i = 2 then s.bump (aPmTile i) PM_TILE.WAKES else s
         let f := (w.setFences i true).p (aPmTile i) PM_TILE.ST 3
         exec (.pmFence m t) s = .next ((((f.setAgent i { f.agent i with waking := false }).drainXin i).settleTile i).settleAround i)) ∧
       (s.powered i = false ∨ s.portsDisabled i = false ∨ t = s.build.root → exec (.pmFence m t) s = rej) ∧
       (s.pst i = 4 → i ∉ s.pm.offing → exec (.pmOff m t) s = .next { s with pm := { s.pm with offing := s.pm.offing ++ [i] } }) ∧
       (s.pst i ≠ 4 → exec (.pmOff m t) s = rej) ∧
       (s.pst i = 5 → exec (.pmOn m t) s = .next (s.p (aPmTile i) PM_TILE.ST 6)) ∧
       (s.pst i ≠ 5 → exec (.pmOn m t) s = rej) ∧
       (s.pst i = 3 ∨ s.pst i = 4 ∨ s.pst i = 7 → i ∉ s.pm.offing → s.g aStstate SEQ_STSTATE.PHASE = 0 →
         let u := ((((s.setFences i false).pb (aStrat i) TL_STRAT.INJ s.cur).setSlotBanks i s.cur).p (aPmTile i) PM_TILE.ST 0).linksOn i
         exec (.pmUnfence m t) s = .next (((u.sendHeld i).settleTile i).raise 992).wakeMgmt) ∧
       (s.pst i = 0 ∨ s.g aStstate SEQ_STSTATE.PHASE ≠ 0 → exec (.pmUnfence m t) s = rej) ∧
       (s.powered i = true → exec (.pmWake m t) s = .next (s.wake i true)) ∧
       (s.powered i = false → exec (.pmWake m t) s = rej)) ∧
     (s.sqRight m = false → exec (.pmFence m t) s = .next s ∧ exec (.pmOff m t) s = .next s ∧ exec (.pmOn m t) s = .next s ∧
       exec (.pmUnfence m t) s = .next s ∧ exec (.pmWake m t) s = .next s)) ∧
  (∀ (s : State) (t : Tile),
     let i := t.val
     (s.pst i = 3 → s.quiet i = true → (s.agent i).spreads = [] → exec (.fencingComplete t) s = .next ((s.p (aPmTile i) PM_TILE.ST 4).raise 992).wakeMgmt) ∧
     (s.pst i ≠ 3 → exec (.fencingComplete t) s = .next s) ∧
     (i ∈ s.pm.offing → exec (.powerOffComplete t) s =
       .next ((((({ s with pm := { s.pm with offing := s.pm.offing.filter (· != i) } }.resetTile i).p (aPmTile i) PM_TILE.ST 5).linksOff i).raise 992)).wakeMgmt) ∧
     (s.canon →
       let u := s.resetTile i
       u.router i 0 = Router.reset ∧ u.router i 1 = Router.reset ∧ (∀ d, u.link i 0 d = s.link i 0 d ∨ u.link i 0 d = LinkX.reset) ∧
       (∀ p, p < 3 → u.ni i p = { Ni.reset with epLow := (s.ni i p).epLow, epUp := !(s.ni i p).epLow, clkStop := (s.ni i p).clkStop }) ∧
       (∀ k p, k ≠ i → p < 3 → u.ni k p = s.ni k p) ∧ u.agent i = { Agent.reset with edge := (s.agent i).edge, level := (s.agent i).level } ∧
       u.rd (aFence i) = s.rd (aFence i) ∧ u.seq = s.seq ∧ u.evc = s.evc ∧ u.pm = s.pm ∧
       ∀ o, baseTl + i * 0x10000 ≤ o → o < baseTl + (i + 1) * 0x10000 → o ≠ aFence i → u.rd o = resetVal s.build o) ∧
     (i ∉ s.pm.offing → exec (.powerOffComplete t) s = .next s) ∧
     (s.pst i = 6 → s.canon → ∃ u, exec (.powerOnComplete t) s = .next u ∧ u.pst i = 7 ∧ u.g (aStrat i) TL_STRAT.INJ = s.cur.toNat ∧
       u.router i 0 = Router.reset ∧ u.router i 1 = Router.reset ∧ (∀ p, p < 3 → u.ni i p =
         { Ni.reset with slotBank := s.cur, epLow := (s.ni i p).epLow, epUp := !(s.ni i p).epLow, clkStop := (s.ni i p).clkStop }) ∧
       (u.agent i).edge = (s.agent i).edge ∧ (u.agent i).level = (s.agent i).level ∧ (u.agent i).rx = [] ∧ u.evc.evq = s.evc.evq ++ [992] ∧ u.pm.mstate ≠ .retention)) ∧
  (∀ (s : State) (m : Master) (v : W), s.sqRight m = true →
     let t := s.g aRstaddr PM_RSTADDR.TILE
     (t < 144 → s.pst t = 4 ∨ s.pst t = 7 →
       exec (.restoreAccess m true v) s = .next (s.tlPut t (s.g aRstaddr PM_RSTADDR.OFFSET) v (BitVec.allOnes 64) true) ∧
       exec (.restoreAccess m false v) s = .next s) ∧
     (t < 144 → s.pst t ≠ 4 → s.pst t ≠ 7 →
       exec (.restoreAccess m true v) s = .next ((s.pb (aPmTile t) PM_TILE.REJ true).raise 993) ∧
       exec (.restoreAccess m false v) s = .next ((s.pb (aPmTile t) PM_TILE.REJ true).raise 993)))

/-- A governor window (R388, R389, R391): PAVG moves by an eighth of its distance to the estimate, made with the cap and the coefficients that stood when the window began; TL is 0 without a cap, rises above the cap, falls below 96 % of it; at 63 above the cap SATCNT counts, in each such window, and event 994 is raised unless it was since TL last left 63; the window's counts start again, and the next window takes the cap and the coefficients as they stand. That PAVG is kept exact, and that CAP = 0 is no cap whatever FCAP says, are the model's choices (notes/assumptions/16.md, 41.md). -/
def Obligations.GovernorWindows : Prop :=
  ∀ s : State, s.canon →
    let p := s.windowMw
    let pavg := s.pm.pavg + (p - s.pm.pavg) / 8
    let cap := s.capMw
    let tl := s.throttle
    ∃ u, exec .governorWindow s = .next u ∧
      u.pm.pavg = pavg ∧ u.pm.hops = 0 ∧ u.pm.niflits = 0 ∧ u.pm.cells = 0 ∧
      (cap = 0 → u.throttle = 0) ∧
      (cap ≠ 0 → (cap : Rat) < pavg → u.throttle = min 63 (tl + max 1 ((16 * (pavg - cap) / cap).ceil.toNat))) ∧
      (cap ≠ 0 → pavg < (cap : Rat) * 96 / 100 → u.throttle = tl - 1) ∧
      (cap ≠ 0 → (cap : Rat) * 96 / 100 ≤ pavg → pavg ≤ cap → u.throttle = tl) ∧
      (cap ≠ 0 → (cap : Rat) < pavg → u.throttle = 63 →
        u.g aGovstat PM_GOVSTAT.SATCNT = satSum PM_GOVSTAT.SATCNT.w (s.g aGovstat PM_GOVSTAT.SATCNT) 1 ∧ u.pm.satSeen = true ∧
        (s.pm.satSeen = false → u.evc.evq = s.evc.evq ++ [994]) ∧ (s.pm.satSeen = true → u.evc.evq = s.evc.evq)) ∧
      (u.throttle ≠ 63 ∨ cap = 0 ∨ pavg ≤ (cap : Rat) → u.evc.evq = s.evc.evq ∧ u.g aGovstat PM_GOVSTAT.SATCNT = s.g aGovstat PM_GOVSTAT.SATCNT) ∧
      (u.throttle ≠ 63 → u.pm.satSeen = false) ∧ u.pm.cap = s.rd aGovcap ∧ u.pm.coef = s.rd aGovcoef ∧
      u.routers = s.routers ∧ u.nis = s.nis ∧ u.agents = s.agents ∧ u.tm = s.tm ∧ u.seq = s.seq

/-- Toggle crossings keep their pulses (R384): the end of a round trip launches the next counted pulse, or leaves the crossing idle; a pulse into an idle crossing with nothing counted is launched, any other is counted up to 15, and one that meets 15 is lost: OVF and OVFCNT of the receiving domain say so, and event 995, unless one was raised in the same management cycle. No pulse that is not lost is merged: launched, counted and lost pulses add up. A crossing toward a host in reset or not reconnected gives no acknowledge (R385); a wake pulse is counted while it reconnects (DEDUCED, notes/assumptions/147.md), and none is sent to a port in reset. Clocks and crossings (R359, R365, R385, R387): a host's clock stops at any time and an endpoint's while its port is DISABLED or its reset asserted, and not otherwise; when a host's clock runs again its finished answers leave in the order of its requests, while it holds HSREADY at 1; an endpoint's crossing reconnects after its reset is released, and a write of PU_CTL that waited for an endpoint's side completes, unless that side still stands. While a host's clock stands its side holds the levels of EVC_IRQ that it had, whatever the event controller does meanwhile (R382). That CLOCK_STOP of an endpoint has no effect outside DISABLED and reset, and that a write of PU_CTL waits for its side, are the model's choices (notes/assumptions/88.md, 125.md). -/
def Obligations.CrossingsKeepPulses : Prop :=
  ((∀ (s : State) (x : CtId),
     let c := tget ⟨false, 0, 0⟩ s.pm.cts (ctKey x)
     let put (d : Ct) : State := { s with pm := { s.pm with cts := tput ⟨false, 0, 0⟩ s.pm.cts (ctKey x) d } }
     let flushed : Prop := ∃ t : TgtId, x = .wake t ∧ ((s.host (t.val / 8)).low = true ∨ (s.host (t.val / 8)).waitClear = true)
     (flushed → exec (.ctRoundTripEnd x) s = .next s) ∧
     (¬ flushed → c.busy = true → c.cnt ≠ 0 → exec (.ctRoundTripEnd x) s = .next (put { c with cnt := c.cnt - 1, delivered := c.delivered + 1 })) ∧
     (¬ flushed → c.busy = true → c.cnt = 0 → exec (.ctRoundTripEnd x) s = .next (put { c with busy := false })) ∧
     (c.busy = false → exec (.ctRoundTripEnd x) s = .next s)) ∧
   (∀ (s : State) (key d : Nat), s.canon →
     let c := tget ⟨false, 0, 0⟩ s.pm.cts key
     let u := s.ctPulse key d
     let c' := tget ⟨false, 0, 0⟩ u.pm.cts key
     (c.busy = false → c.cnt = 0 → c' = { c with busy := true, delivered := c.delivered + 1 } ∧ u.evc = s.evc) ∧
     (c.busy = true → c.cnt < 15 → c' = { c with cnt := c.cnt + 1 } ∧ u.evc = s.evc) ∧
     (c.busy = true → 15 ≤ c.cnt → c' = c ∧ u.gb (aDomstat d) PM_DOMSTAT.OVF = true ∧
       u.g (aDomstat d) PM_DOMSTAT.OVFCNT = satSum PM_DOMSTAT.OVFCNT.w (s.g (aDomstat d) PM_DOMSTAT.OVFCNT) 1 ∧
       (tget 0 s.evc.once 995 ≠ s.mgtCycle + 1 → u.evc.evq = s.evc.evq ++ [995]) ∧
       (tget 0 s.evc.once 995 = s.mgtCycle + 1 → u.evc = s.evc))) ∧
   (∀ (s : State) (t : TgtId), s.canon →
     let c := tget ⟨false, 0, 0⟩ s.pm.cts t.val
     let c' := tget ⟨false, 0, 0⟩ (s.wakePulse t.val).pm.cts t.val
     ((s.host (t.val / 8)).low = true → s.wakePulse t.val = s) ∧
     ((s.host (t.val / 8)).low = false → (s.host (t.val / 8)).waitClear = true → c.cnt < 15 → c'.busy = true ∧ c'.cnt = c.cnt + 1 ∧ c'.delivered = c.delivered))) ∧
  (∀ (s : State) (h : HostId) (t : Tile) (p : LPort),
     exec (.clockStop (.host h)) s = .next (s.setHost h.val { s.host h.val with stopped := true, irqKept := some (s.hostIrq h.val) }) ∧
     (s.canon → let u := s.setHost h.val { s.host h.val with stopped := true, irqKept := some (s.hostIrq h.val) }
       u.hostIrq h.val = s.hostIrq h.val ∧ u.evcCycle.hostIrq h.val = s.hostIrq h.val) ∧
     (s.canon → (s.host h.val).hold = false → ∃ u, exec (.clockRestart (.host h)) s = .next u ∧ (u.host h.val).stopped = false ∧ (u.host h.val).irqKept = none ∧
       (u.host h.val).out = (s.host h.val).out ++ ((s.host h.val).reqs.takeWhile (·.2.isSome)).filterMap (·.2) ∧
       (u.host h.val).reqs = (s.host h.val).reqs.dropWhile (·.2.isSome)) ∧
     ((s.host h.val).hold = true → s.canon → exec (.clockRestart (.host h)) s = .next (s.setHost h.val { s.host h.val with stopped := false, irqKept := none }).recheck) ∧
     (s.niState t.val p.val = niDisabled ∨ (s.ni t.val p.val).epLow = true →
       exec (.clockStop (.ep t p)) s = .next (s.setNi t.val p.val { s.ni t.val p.val with clkStop := true })) ∧
     (s.niState t.val p.val ≠ niDisabled → (s.ni t.val p.val).epLow = false → exec (.clockStop (.ep t p)) s = .next s) ∧
     (let gone (r : Host.Outcome State Fault Refusal) (u : State) : Prop :=
        ((s.xport 6).holder = none ∨ (s.xport 6).waits = none → r = .next u.recheck) ∧
        (∀ a i, (s.xport 6).holder = some a → (s.xport 6).waits = some i →
          (u.epStands i = true → r = .next u.recheck) ∧ (u.epStands i = false → r = .next (u.finishPort 6 a.done).recheck))
      gone (exec (.clockRestart (.ep t p)) s) (s.setNi t.val p.val { s.ni t.val p.val with clkStop := false }) ∧
      ((s.ni t.val p.val).epLow = false →
        gone (exec (.crossingReconnect (.ep t p)) s) (s.setNi t.val p.val { s.ni t.val p.val with epUp := true }))) ∧
     ((s.ni t.val p.val).epLow = true → (s.xport 6).holder = none → exec (.crossingReconnect (.ep t p)) s = .next s.recheck))

/-- An apply cycle passes (R394, R398, R399): the earliest pending change is made 256 cycles after it reached the timebase. A load makes network time its value plus the time since it was received, sets VALID and ends a slew, and one of a PPS edge clears ARMED (R397), unless a hardware load armed anew since that edge (the model's choice, notes/assumptions/148.md); a step moves network time by its nanoseconds, modulo 2^64 ns, and ends a slew; a period, and a slew, leave network time as it is at that cycle. The running time that tokens and the age clock count is moved by none of them, and an instruction that waited for this apply cycle completes with OK. (The premises say that no job is due to end, that no write of TB_PERIOD waits at its port, and that no machine check is in progress: the ends of those write registers of their own.) A slew is over (R398): when no change comes before, its end takes it away and raises event 998; network time at that cycle has absorbed the whole offset, forwards or back. A later slew replaces what was not yet absorbed: from its apply cycle on only the new offset is absorbed, at SLEWMAX, and never more than it. -/
def Obligations.TimeChangesApply : Prop :=
  (∀ (s : State) (f : Nat) (c : TimeChange) (rest : List (Nat × TimeChange)),
     s.canon → (∀ x, (s.ctx x).due = none) → (s.xport 3).holder = none → s.gb aSeqStatus SEQ_STATUS.MCHK = false →
     s.tb.pend = (f, c) :: rest → (∀ e, s.tb.slewEnd = some e → f ≤ e) →
     ∃ u, exec .timeApply s = .next u ∧ s.rst0 + f ≤ u.cyc ∧ u.tb.pend = rest ∧ u.tb.cb = f ∧ u.tb.runAt f = s.tb.runAt f ∧
       (∀ v r, c = .load v r → u.tb.nt f = v * 2 ^ 32 + (s.tb.runAt f - r) ∧ u.gb aTbStat TB_STAT.VALID = true ∧ u.tb.slew = none ∧ u.evc = s.evc) ∧
       (∀ v r, c = .pps v r → u.tb.nt f = v * 2 ^ 32 + (s.tb.runAt f - r) ∧ u.gb aTbStat TB_STAT.VALID = true ∧ u.tb.slew = none ∧ u.evc.evq = s.evc.evq ++ [997] ∧
         (s.tb.edged = true → u.tb.armed = none ∧ u.tb.edged = false) ∧ (s.tb.edged = false → u.tb.armed = s.tb.armed)) ∧
       (∀ d, c = .step d → (u.tb.nt f : Int) = ((s.tb.nt f : Int) + d * 2 ^ 32) % 2 ^ 96 ∧ u.tb.slew = none ∧ u.regs = s.regs) ∧
       (∀ p, c = .period p → u.tb.nt f = s.tb.nt f ∧ u.tb.period = p ∧ u.g aTbPeriod TB_PERIOD.PERIOD = p % 2 ^ 36) ∧
       (∀ d, c = .slew d → u.tb.nt f = s.tb.nt f ∧ u.tb.slew = some ⟨d * 2 ^ 32, s.slewMax⟩ ∧ u.regs = s.regs ∧
         ∀ g, f ≤ g → (u.tb.nt g : Int) = (s.tb.nt f : Int) + ((g - f) * s.tb.period : Nat) +
           d.sign * (min (d.natAbs * 2 ^ 32) ((g - f) * s.tb.period * s.slewMax / 1000000) : Nat)) ∧
       (∀ (x : CtxId) (j : Job) (g : Nat), (s.ctx x).job = some j → (s.ctx x).wait = .time g → g ≤ f →
         ∃ j', (u.ctx x).job = some j' ∧ (u.ctx x).wait = .none ∧ j'.pc = j.pc + 1 ∧ j'.w = (j.set (iRd (s.ctx x).word) (BitVec.ofNat 64 rOk)).w)) ∧
  (∀ (s : State) (e : Nat) (sl : Slew), (∀ x, (s.ctx x).due = none) → (s.xport 3).holder = none → s.gb aSeqStatus SEQ_STATUS.MCHK = false →
     s.tb.pend = [] → s.tb.slew = some sl → s.tb.slewEnd = some e → 0 < s.tb.period * sl.ppm → sl.ppm ≤ 1000000 →
     ∃ u, exec .timeApply s = .next u ∧ u.tb.slew = none ∧ u.evc.evq = s.evc.evq ++ [998] ∧ u.regs = s.regs ∧
       (u.tb.nt e : Int) = (s.tb.base + (e - s.tb.cb) * s.tb.period : Nat) + sl.rem)

/-- Changes of network time arrive (R394 to R397): a write of TB_PERIOD and a transfer of the TOD interface at once are pending for 256 cycles; a transfer for the next PPS edge arms its load; nothing is transferred while HWLOAD is 0; VALID is cleared by INVAL. Masters without the right have no effect. PPS edges (R397): an edge within 0.9 s of network time of the last accepted one only counts PPSIGN; an accepted one is captured in TB_PPSCAP, clears PPSLOST, and takes an armed load into the pending changes, once, which stays armed until it is made; 1.1 s without one sets PPSLOST and raises event 996, once. That an edge is accepted where network time has stepped back behind the last accepted one is the model's choice (notes/assumptions/44.md). -/
def Obligations.TimeChangesArrive : Prop :=
  (∀ (s : State) (m : Master) (v : W),
     let pending (c : TimeChange) : State := { s with tb := { s.tb with pend := s.tb.pend ++ [(s.fcc + 256, c)] } }
     (s.sqRight m = true → exec (.tbPeriodWrite m v) s = .next (pending (.period (fld v 0 36)))) ∧
     (s.sqRight m = false → exec (.tbPeriodWrite m v) s = .next s ∧ exec (.timeInvalidate m) s = .next s) ∧
     (s.sqRight m = true → s.regsOk → ∃ u, exec (.timeInvalidate m) s = .next u ∧ u.gb aTbStat TB_STAT.VALID = false ∧ s.writesOnly u [aTbStat]) ∧
     (s.gb aTbCfg TB_CFG.HWLOAD = true → exec (.todTransfer v false) s = .next (pending (.load v.toNat s.runNow)) ∧
       exec (.todTransfer v true) s = .next { s with tb := { s.tb with armed := some v.toNat, edged := false } }) ∧
     (s.gb aTbCfg TB_CFG.HWLOAD = false → ∀ b, exec (.todTransfer v b) s = .next s)) ∧
  (∀ s : State, s.canon →
     let now := s.tb.nt s.fcc
     let early := ∃ l, s.tb.lastPps = some l ∧ l ≤ now ∧ now - l < 900000000 * 2 ^ 32
     (early → exec .ppsEdge s = .next (s.sat aTbStat TB_STAT.PPSIGN)) ∧
     (¬ early → ∃ u, exec .ppsEdge s = .next u ∧ u.rd aTbPpscap = BitVec.ofNat 64 s.ntNs ∧ u.gb aTbStat TB_STAT.PPSLOST = false ∧
       u.tb.lastPps = some now ∧ u.tb.armed = s.tb.armed ∧ u.tb.base = s.tb.base ∧ u.tb.cb = s.tb.cb ∧
       (s.tb.armed = none ∨ s.tb.edged = true → u.tb.pend = s.tb.pend ∧ u.tb.edged = s.tb.edged) ∧
       (∀ v, s.tb.armed = some v → s.tb.edged = false → u.tb.pend = s.tb.pend ++ [(s.fcc + 256, .pps v s.runNow)] ∧ u.tb.edged = true)) ∧
     (s.gb aTbStat TB_STAT.PPSLOST = true → exec .ppsTimeout s = .next s) ∧
     (s.gb aTbStat TB_STAT.PPSLOST = false → ∃ u, exec .ppsTimeout s = .next u ∧ u.gb aTbStat TB_STAT.PPSLOST = true ∧ u.evc.evq = s.evc.evq ++ [996] ∧ u.tb = s.tb))

/-- Resets (R367, R403, R405): the power-on reset holds every domain at its reset values, but for the fuse array, the pins and the commands that wait, and with its fuse programming stopped; the fabric reset does the same but for the fuse shadow, the SFDP results, PREF, the chain address and the enumeration records; a release with no reset asserted changes nothing; when the last of the two is released the links and the chain's ports train, and the loader goes on; the release of the power-on reset senses the fuses (R403), and with ZV_RST_N released already every domain leaves reset in it. That the fabric reset keeps the test access port and its fuse programming, the chain address and the enumeration records is the model's reading (notes/assumptions/86.md); a host whose clock stands sees EVC_IRQ low after a power-on reset (R382). -/
def Obligations.ResetsAndReleases : Prop :=
  ∀ s : State,
    (∃ u, exec .powerOnResetAssert s = .next u ∧ u.porstLow = true ∧ u.regs = [] ∧ u.routers = [] ∧ u.agents = [] ∧ u.seq = State.reset.seq ∧
      u.tm = State.reset.tm ∧ u.evc = State.reset.evc ∧ u.ft = State.reset.ft ∧ u.chn = State.reset.chn ∧ u.pm = State.reset.pm ∧
      u.tb = State.reset.tb ∧ u.cyc = s.cyc ∧ u.pending = s.pending ∧ u.links = [] ∧ u.xports = [] ∧ u.micro = [] ∧ u.boot = State.reset.boot ∧
      u.obs = State.reset.obs ∧ u.build = s.build ∧ u.tap.prog = none ∧ (s.tap.prog = none → u.tap = s.tap) ∧
      (s.canon → (∀ i, s.fuse i &&& ~~~u.fuse i = 0) ∧
        (∀ h, let x := s.host h
          u.host h = { XHost.reset with
            low := x.low, waitClear := x.low, stopped := x.stopped, hold := x.hold, irqKept := if x.stopped = true then some 0 else none }) ∧
        ∀ t p, u.ni t p = { Ni.reset with epLow := (s.ni t p).epLow, epUp := !(s.ni t p).epLow, clkStop := (s.ni t p).clkStop })) ∧
    (∃ u, exec .fabricResetAssert s = .next u ∧ u.rstLow = true ∧ u.routers = [] ∧ u.agents = [] ∧ u.seq = State.reset.seq ∧ u.tm = State.reset.tm ∧
      u.evc = State.reset.evc ∧ u.pm = { State.reset.pm with cap := u.rd aGovcap } ∧ u.tb = State.reset.tb ∧ u.pending = s.pending ∧
      u.rd aBootSpi = s.rd aBootSpi ∧ (∀ w, w < 64 → u.rd (aFuseW w) = s.rd (aFuseW w)) ∧ u.rd aChnId = s.rd aChnId ∧
      u.links = [] ∧ u.xports = [] ∧ u.micro = [] ∧ u.boot = State.reset.boot ∧ u.obs = State.reset.obs ∧ u.tap = s.tap ∧ u.build = s.build ∧
      (s.canon → u.rd aBootCfg = s.rd aBootCfg ∧ ∀ p, p = 1 ∨ p = 2 → ∀ f ∈ [CHN_PORT.LO, CHN_PORT.HI, CHN_PORT.SUBH, CHN_PORT.SUBTILES],
        u.g (aChnPort p) f = s.g (aChnPort p) f)) ∧
    (s.porstLow = false → exec .coldResetRelease s = .next s) ∧
    (s.rstLow = false → exec .fabricResetRelease s = .next s) ∧
    (s.porstLow = true → s.rstLow = true → ∃ u, exec .coldResetRelease s = .next u ∧ u.porstLow = false ∧ u.rstLow = true ∧ u.bas0 = s.cyc) ∧
    (s.porstLow = true → s.rstLow = false →
      let sensed := ({ s with porstLow := false, bas0 := s.cyc }.sense).loadFz
      let t := if sensed.chainBoots = true then sensed else sensed.setBootState bsSfdp
      exec .coldResetRelease s = .next t.leaveFabricReset ∧
      (s.canon → t.leaveFabricReset.porstLow = false ∧ t.leaveFabricReset.rstLow = false ∧
        t.leaveFabricReset.bas0 = s.cyc ∧ t.leaveFabricReset.rst0 = s.cyc ∧
        (∀ w, w < 64 → t.leaveFabricReset.rd (aFuseW w) = if isSealed w = true then (fuseDecode (s.fuse w) (s.checkByte w)).1 else s.fuse w) ∧
        (sensed.chainBoots = false → t.leaveFabricReset.bootState = bsSfdp) ∧
        ∀ i pl d, i < 144 → pl < 2 → d < 4 → t.leaveFabricReset.linkState i pl d = lkReinit)) ∧
    (s.rstLow = true → s.porstLow = true → exec .fabricResetRelease s = .next { s with rstLow := false }) ∧
    (s.rstLow = true → s.porstLow = false → exec .fabricResetRelease s = .next ({ s with rstLow := false }.leaveFabricReset)) ∧
    (s.canon → ∀ t pl d, t < 144 → pl < 2 → d < 4 → s.trainLinks.linkState t pl d = lkReinit ∧ (s.trainLinks.link t pl d).passes = 1)

/-- The loader's steps (R407, R408, R412 to R415): discovery takes the density, the width of the addresses and the fastest read mode allowed, or the reset values, and goes on to the headers; two headers that fail leave no slot to load; otherwise the slot of the higher version is loaded first, and of equal versions the one PREF names. The sections are gone through in the order of the table, each checked and then loaded, up to the first whose check fails; the loader's writes are accesses of master BL, one at a time: an idle port takes one at once, and at any other it waits in BL's slot with what is left to do (R342; the one command is the model's choice: notes/assumptions/94.md). A section whose check fails, and a signature that does not verify, fail the slot: the other one is loaded when it passed and was not tried, and the boot fails otherwise. A header without its magic number is refused as such before all else. The hand-over (R36, R415): a slot that is ready gives ring 8 its tail, by a write of master BL under the rules of R286, READY and ZV_BOOTDONE; where the port is not idle the write waits there and the rest with it; before the slot is ready, and while the loader still has something to do, nothing happens. A slot that fails for the second time ends the boot (R414, R416). -/
def Obligations.BootLoadsASlot : Prop :=
  (∀ (s : State) (a b : List Byte),
     (∀ tab, s.porstLow = false → s.bootState = bsSfdp → s.canon → ∃ u, exec (.sfdpDiscovery tab) s = .next u ∧ u.bootState = bsHeaders ∧
       u.routers = s.routers ∧ u.seq = s.seq ∧ u.boot.hdrA = s.boot.hdrA ∧
       (let m := if sfdpOk tab = true then pickMode tab (s.g aFuseCtl FUSE_CTL.SPIMAX) else ⟨0, 0x0B#8, 8⟩
        let dens := if sfdpOk tab = true then sfdpDensUsed tab else 24
        u.gb aBootSpi BOOT_SPI.SFDPOK = sfdpOk tab ∧ u.gb aBootSpi BOOT_SPI.ADDR4 = decide (24 < dens) ∧ u.g aBootSpi BOOT_SPI.DENSLOG2 = dens % 64 ∧
        u.g aBootSpi BOOT_SPI.SLOTLOG2 = min 24 (dens - 1) ∧ u.g aBootSpi BOOT_SPI.MODE = m.mode ∧ u.g aBootSpi BOOT_SPI.OPCODE = m.opcode.toNat ∧
        u.g aBootSpi BOOT_SPI.DUMMY = m.dummy % 32)) ∧
     (∀ tab spimax, (pickMode tab spimax).mode ≤ 3 ∧ ((pickMode tab spimax).mode = 0 ∨ (pickMode tab spimax).mode ≤ spimax)) ∧
     (s.porstLow = false → s.bootState = bsHeaders → a.length = 1024 → b.length = 1024 → s.canon →
       let ca := s.headerCode a s.slotSize
       let cb := s.headerCode b s.slotSize
       (ca.isSome = true → cb.isSome = true → ∃ u, exec (.slotHeaderCheck a b) s = .next u ∧ u.bootState = bsFailed ∧ u.boot.bootFail = true ∧
         some (u.g aBootStat BOOT_STAT.RESA) = ca ∧ some (u.g aBootStat BOOT_STAT.RESB) = cb) ∧
       (ca = none ∨ cb = none → ∃ u, exec (.slotHeaderCheck a b) s = .next u ∧ u.bootState = bsLoading ∧ u.boot.cur = u.boot.first ∧
         (cb.isSome = true → u.boot.first = false) ∧ (ca.isSome = true → u.boot.first = true) ∧
         (ca = none → cb = none → hdrNat a 0xC 4 ≠ hdrNat b 0xC 4 → u.boot.first = decide (hdrNat a 0xC 4 < hdrNat b 0xC 4)) ∧
         (ca = none → cb = none → hdrNat a 0xC 4 = hdrNat b 0xC 4 → u.boot.first = s.gb aBootCfg BOOT_CFG.PREF))) ∧
     (hdrNat a 0 4 ≠ 0x31595251 → ∀ z, s.headerCode a z = some rsMagic) ∧
     (∀ h, s.outOfReset = true → s.boot.ready = false → s.hdrOf s.boot.cur = some h →
       (∀ bs, s.bootState = bsLoading → s.boot.todo = [] → sectsGiven h bs = true →
         exec (.sectionLoad s.boot.cur bs) s = .next (State.loadRun (slotSteps h (h.sects.zip bs) (h.sects.zip bs)) s)) ∧
       (∀ bs, s.boot.todo ≠ [] → exec (.sectionLoad s.boot.cur bs) s = .next s) ∧
       (s.bootState = bsVerify → s.verifies h = true →
         exec .signatureCheck s = .next { s.setRes s.boot.cur rsOk with boot := { s.boot with ready := true } }) ∧
       (s.bootState = bsVerify → s.verifies h = false → exec .signatureCheck s = .next (s.slotFails rsSignature)))) ∧
  (∀ (h : SlotHdr) (all good : List (Sect × List Byte)), (∀ x ∈ good, sectCode x.1 x.2 = none) →
     slotSteps h all good = good.flatMap (fun x => sectSteps x.1 x.2) ++ [.loaded h all] ∧
     ∀ x rest c, sectCode x.1 x.2 = some c → slotSteps h all (good ++ x :: rest) = good.flatMap (fun y => sectSteps y.1 y.2) ++ [.fails c]) ∧
  (∀ (s : State) (o : Nat) (v : W) (b : BitVec 8) (rest : List LoadStep),
     (s.portIdle (portOf o) = true → State.loadRun (.write o v b :: rest) s =
       State.loadRun rest ((s.setXport (portOf o) ((s.xport (portOf o)).grant (blAcc o v b) 1 9)).presentLocal (portOf o))) ∧
     (s.portIdle (portOf o) = false → State.loadRun (.write o v b :: rest) s = (s.pendAcc (portOf o) (blAcc o v b)).setTodo rest) ∧
     ((∀ j, j < 11 → ∀ a ∈ (s.xport j).pend, a.master ≠ 9) → s.boot.todo ≠ [] → s.loadGo = State.loadRun s.boot.todo s) ∧
     (∀ j a, j < 11 → a ∈ (s.xport j).pend → a.master = 9 → s.loadGo = s)) ∧
  (∀ s : State, s.canon →
     (s.boot.todo ≠ [] → exec .handover s = .next s) ∧
     (s.outOfReset = true → s.boot.ready = true → s.boot.todo = [] → s.portIdle (portOf (aRingtail 8)) = false →
       exec .handover s =
         .next ((s.pendAcc (portOf (aRingtail 8)) (blAcc (aRingtail 8) (BitVec.ofNat 64 s.boot.tail) 0xFF)).setTodo [.handed]).broadcastGo) ∧
     (s.outOfReset = true → s.boot.ready = true → s.boot.todo = [] → s.portIdle (portOf (aRingtail 8)) = true → ∃ u, exec .handover s = .next u ∧ u.boot.bootDone = true ∧ u.boot.ready = false ∧
       u.gb aSeqStatus SEQ_STATUS.READY = true ∧ u.bootState = bsDone ∧ u.routers = s.routers ∧ u.nis = s.nis ∧
       (let n := (s.boot.tail % 2 ^ 16 + 65536 - s.head 8) % 65536
        s.pm.mstate = .running → s.boot.bootDone = false → s.ringCount 8 ≤ n → n ≤ 4096 → u.tail 8 = s.boot.tail % 2 ^ 16)) ∧
     (s.outOfReset = false ∨ s.boot.ready = false → exec .handover s = .next s) ∧
     (∀ c, s.boot.cur ≠ s.boot.first → (s.slotFails c).bootState = bsFailed ∧ (s.slotFails c).boot.bootFail = true) ∧
     (∀ c, s.boot.cur = s.boot.first → (s.hdrOf (!s.boot.cur)).isSome = true →
       (s.slotFails c).boot.cur = (!s.boot.cur) ∧ (s.slotFails c).bootState = bsLoading ∧ (s.slotFails c).boot.bootFail = s.boot.bootFail))

/-- The TAP (R422, R451): each instruction selects its register and captures it: IDCODE its identification, FADDR and FDATA what they held while taking what is shifted in, FREAD the physical word that FADDR names, BYPASS 0, MBIST its register, in which a start outside ZV_RST_N, without MGT_CLK and FAB_CLK, or on a group that does not exist, sets the error bit, and which a start while a test runs leaves alone. -/
def Obligations.TapInstructions : Prop :=
  ∀ s : State,
    (∃ u, exec .tapReset s = .next u ∧ u.tap.ir = 1 ∧ fld u.tap.captured 0 1 = 1 ∧ fld u.tap.captured 12 16 = 0x0144 ∧
      fld u.tap.captured 28 4 = 2 ∧ fld u.tap.captured 1 11 = fld s.fuse1 48 11 ∧ u = { s with tap := { s.tap with ir := 1, captured := u.tap.captured } }) ∧
    exec .idcode s = exec .tapReset s ∧
    (∀ v, exec (.faddr v) s = .next { s with tap := { s.tap with faddr := v, ir := 2, captured := s.tap.faddr.setWidth 64 } }) ∧
    (∀ v, exec (.fdata v) s = .next { s with tap := { s.tap with fdata := v, ir := 3, captured := s.tap.fdata } }) ∧
    exec .fread s = .next { s with tap := { s.tap with ir := 5, captured := s.fuse (fld s.tap.faddr 0 6) } } ∧
    exec .bypass s = .next { s with tap := { s.tap with ir := 0xF, captured := 0 } } ∧
    (∀ (g : BitVec 8) (clocks : Bool),
      let sel (mb : BitVec 32) : State := { s with tap := { s.tap with ir := 8, captured := s.tap.mb.setWidth 64, mb := mb } }
      exec (.mbist g none) s = .next (sel s.tap.mb) ∧
      (bitOf s.tap.mb 8 = true → exec (.mbist g (some clocks)) s = .next (sel s.tap.mb)) ∧
      (s.rstLow = true → g.toNat < 8 → bitOf s.tap.mb 8 = false → exec (.mbist g (some true)) s = .next (sel (BitVec.ofNat 32 (256 + g.toNat)))) ∧
      (s.rstLow = false ∨ 8 ≤ g.toNat ∨ clocks = false → bitOf s.tap.mb 8 = false →
        exec (.mbist g (some clocks)) s = .next (sel (BitVec.ofNat 32 (2 ^ 11 + g.toNat)))))

/-- Fuse programming (R417, R418, R422 to R424): FPROG captures the status as it stands, and starts nothing without Run-Test/Idle; there, on a check word, without VPP, or on a sealed word that is locked, under TAPLOCK, or with a bit to be cleared, is refused; otherwise it starts; done, it has set the bits of FDATA in the word, those of its check byte and its LOCK bit when the word is sealed, and no fuse has been cleared. Programming that fails, or loses VPP, leaves the LOCK word alone. Programming ends (R423, R424): done, the word holds FDATA's bits, its check byte's bits are set where it is sealed, and its LOCK bit; a failure and a loss of VPP say so in the status and leave the LOCK word as it was; no fuse that was 1 is ever 0 again; after a loss of VPP a check byte that changed stands beside data bits that are all programmed (R423 gives the order). The status after FAIL and after a loss of VPP, and that the tests are made on the sensed LOCK and the physical word, are the model's choices (notes/assumptions/87.md). -/
def Obligations.FuseProgramming : Prop :=
  (∀ (s : State) (vpp : Bool) (w : Nat), fld s.tap.faddr 0 6 = w →
     let cap (st : BitVec 8) (prog : Option Nat) : Host.Outcome State Fault Refusal :=
       .next { s with tap := { s.tap with ir := 4, captured := s.tap.status.setWidth 64, status := st, prog := prog } }
     exec (.fprog none) s = cap s.tap.status s.tap.prog ∧
     (s.tap.prog.isSome = true → exec (.fprog (some vpp)) s = cap s.tap.status s.tap.prog) ∧
     (s.tap.prog = none → isCheck w = true ∨ vpp = false → exec (.fprog (some vpp)) s = cap (4 ||| (if vpp then 0 else 8)) none) ∧
     (s.tap.prog = none → isSealed w = true →
       bitOf (s.rd (aFuseW 63)) w = true ∨ s.gb aFuseCtl FUSE_CTL.TAPLOCK = true ∨ s.fuse w &&& ~~~s.tap.fdata ≠ 0 →
       exec (.fprog (some true)) s = cap 4 none) ∧
     (s.tap.prog = none → isSealed w = false → isCheck w = false → exec (.fprog (some true)) s = cap 1 (some w)) ∧
     (s.tap.prog = none → isSealed w = true → bitOf (s.rd (aFuseW 63)) w = false → s.gb aFuseCtl FUSE_CTL.TAPLOCK = false →
       s.fuse w &&& ~~~s.tap.fdata = 0 → exec (.fprog (some true)) s = cap 1 (some w))) ∧
  (∀ (s : State) (w : Nat), s.tap.prog = some w → w < 64 → isCheck w = false → s.canon →
     (∃ u, exec (.fuseProgramDone true) s = .next u ∧ u.tap.status = 2 ∧ u.tap.prog = none ∧
       (w ≠ 63 → u.fuse w = s.fuse w ||| s.tap.fdata) ∧ (∀ i, s.fuse i &&& ~~~u.fuse i = 0) ∧
       (isSealed w = true → u.checkByte w = s.checkByte w ||| fuseCheck s.tap.fdata ∧ u.fuse 63 = s.fuse 63 ||| (1#64 <<< w)) ∧
       (∀ i, i ≠ w → i ≠ 63 → i ≠ checkWord w → u.fuse i = s.fuse i)) ∧
     (∃ u, exec (.fuseProgramDone false) s = .next u ∧ u.tap.status = 16 ∧ u.tap.prog = none ∧ (w ≠ 63 → u.fuse 63 = s.fuse 63) ∧
       (∀ i, s.fuse i &&& ~~~u.fuse i = 0) ∧ (u.fuse w &&& ~~~(s.fuse w ||| s.tap.fdata) = 0)) ∧
     (∃ u, exec .fuseVppLoss s = .next u ∧ u.tap.status = 8 ∧ u.tap.prog = none ∧ (w ≠ 63 → u.fuse 63 = s.fuse 63) ∧ (∀ i, s.fuse i &&& ~~~u.fuse i = 0) ∧
       (u.fuse w &&& ~~~(s.fuse w ||| s.tap.fdata) = 0) ∧ (isSealed w = true → u.checkByte w ≠ s.checkByte w → s.tap.fdata &&& ~~~u.fuse w = 0)))

/-- The sideband code (R43, R44): a sideband byte with its check bits decodes clean; one of the thirteen bits flipped is corrected, with the lane that it came on; any two of the thirteen flipped are never taken as clean. A sealed word survives one flipped bit (R418): decoded with one of its 64 data bits or of its check byte's eight bits flipped, it gives the word that was programmed and says that it was corrected; unflipped, it says nothing; with any two of the 72 bits flipped the word is left as sensed and said to be uncorrectable. -/
def Obligations.CodesCorrectOneBit : Prop :=
  (∀ d : BitVec 8, sbDecode d (sbCheck d) = .ok d none ∧
     (∀ i : Fin 8, sbDecode (d ^^^ (1#8 <<< i.val)) (sbCheck d) = .ok d (some (576 + i.val))) ∧
     (∀ i : Fin 5, sbDecode d (sbCheck d ^^^ (1#5 <<< i.val)) = .ok d (some (584 + i.val))) ∧
     (∀ i j : Fin 8, i ≠ j → sbDecode (d ^^^ (1#8 <<< i.val) ^^^ (1#8 <<< j.val)) (sbCheck d) = .bad) ∧
     (∀ (i : Fin 8) (j : Fin 5), sbDecode (d ^^^ (1#8 <<< i.val)) (sbCheck d ^^^ (1#5 <<< j.val)) = .bad) ∧
     (∀ i j : Fin 5, i ≠ j → sbDecode d (sbCheck d ^^^ (1#5 <<< i.val) ^^^ (1#5 <<< j.val)) = .bad)) ∧
  (∀ d : W, fuseDecode d (fuseCheck d) = (d, false, false) ∧
     (∀ i, i < 64 → fuseDecode (putBit d i (!bitOf d i)) (fuseCheck d) = (d, true, false)) ∧
     (∀ i, i < 8 → fuseDecode d (putBit (fuseCheck d) i (!bitOf (fuseCheck d) i)) = (d, true, false)) ∧
     (let fl (x : W) (i : Nat) : W := putBit x i (!bitOf x i)
      let fc (x : BitVec 8) (i : Nat) : BitVec 8 := putBit x i (!bitOf x i)
      (∀ i j, i < 64 → j < 64 → i ≠ j → fuseDecode (fl (fl d i) j) (fuseCheck d) = (fl (fl d i) j, false, true)) ∧
      (∀ i j, i < 64 → j < 8 → fuseDecode (fl d i) (fc (fuseCheck d) j) = (fl d i, false, true)) ∧
      (∀ i j, i < 8 → j < 8 → i ≠ j → fuseDecode d (fc (fc (fuseCheck d) i) j) = (d, false, true))))

/-- Headers (R46, R47): what a header flit holds of a packet reads back in every field, whatever the CRC. -/
def Obligations.HeaderFieldsReadBack : Prop :=
  ∀ k : Pkt, hdrOf (pktHeadFlit k) = { k with data := [], stratum := false }

/-- The ports of the chain (R428, R429, R435): TRAIN frames with the expected role count, the sixteenth in a row with the peer's RXOK brings the port UP, and a matching role is a fault with event 1,006; a port in FAULT whose peer trains anew trains again, and one that is UP goes DOWN first; a TRAINING port sends its TRAIN at each turn of the idle timer, and goes DOWN in silence; an ACK frees the frames kept up to its SEQ; a NAK frees what came before it and launches the rest again; the idle timer answers an ACK, a frame of bad CRC a NAK and a count, an unknown one only a count; a missing acknowledgement replays, and counts a replay of each frame kept; with one that was replayed eight times already the port goes DOWN, and silence takes it DOWN at once, with event 1,004. At U of the root every frame only sets ROOTUP. That a port which is UP goes DOWN first when its peer trains anew, and that a bad frame of good CRC advances the SEQ awaited, are the model's readings (notes/assumptions/64.md); so are the way out of FAULT on a TRAIN without RXOK (119.md) and the TRAIN sent at each turn of the idle timer (120.md). -/
def Obligations.ChainPortsTrainAndReplay : Prop :=
  ∀ (s : State) (p : ChPort), s.canon →
    let i := p.val
    let x := s.cport i
    let own (n : Nat) : Frame := ⟨{}, .train (decide (i ≠ 0)) (decide (16 ≤ n)) (BitVec.ofNat 16 (s.g aChnId CHN_ID.MEMBER))⟩
    (s.onRootU i = false →
      (∀ roleD rxok member, roleD = decide (i ≠ 0) →
        (s.cpState i ≠ 3 → exec (.train p roleD rxok member) s =
          .next (((((s.setCport i { x with goodTrain := 0 }).setCpState i 3).raiseChain 1006).portLost i).chainRequest).recheck) ∧
        (s.cpState i = 3 → exec (.train p roleD rxok member) s = .next (s.portLost i).chainRequest.recheck)) ∧
      (∀ roleD rxok member, roleD = !decide (i ≠ 0) →
        (s.cpState i = 0 ∨ s.cpState i = 1 ∨ s.cpState i = 3 ∧ rxok = false →
          let n := min 16 (x.goodTrain + 1)
          let t := (s.setCpState i 1).setCport i { x with goodTrain := n, peerOk := rxok, out := x.out ++ [own n] }
          exec (.train p roleD rxok member) s = .next (((if 15 ≤ x.goodTrain ∧ rxok = true then t.portUp i else t).portLost i).chainRequest).recheck ∧
          (t.portUp i).cpState i = 2 ∧ t.cpState i = 1) ∧
        (s.cpIsUp i = true → rxok = false →
          let d := s.portDown i
          exec (.train p roleD rxok member) s = .next ((((d.setCpState i 1).setCport i
            { d.cport i with goodTrain := 1, peerOk := false, out := x.out ++ [own 1] }).portLost i).chainRequest).recheck) ∧
        (s.cpIsUp i = true ∨ s.cpState i = 3 → rxok = true → exec (.train p roleD rxok member) s = .next (s.portLost i).chainRequest.recheck)) ∧
      (∀ bytes, crcOk bytes = true → formOk bytes = true → exec (.badFrame p bytes) s = .next s) ∧
      (s.cpIsUp i = true →
        (∀ sq, exec (.ack p sq) s = .next (s.setCport i (x.acked sq)).broadcastGo) ∧
        (∀ sq, exec (.nak p sq) s = .next ((((s.setCport i (x.acked (sq - 1))).replay i).portLost i).broadcastGo).recheck) ∧
        exec (.idleAckTimer p) s = .next (s.setCport i { x with out := x.out ++ [⟨{}, .ack (x.rxSeq - 1)⟩] }) ∧
        (∀ bytes, crcOk bytes = false →
          exec (.badFrame p bytes) s = .next ((s.sat aChnErr CHN_ERR.CRCERR).setCport i { x with out := x.out ++ [⟨{}, .nak x.rxSeq⟩] })) ∧
        (∀ bytes, crcOk bytes = true → formOk bytes = false →
          exec (.badFrame p bytes) s = .next ((s.sat aChnErr CHN_ERR.BADFRAME).setCport i { x with rxSeq := x.rxSeq + 1 })) ∧
        (x.replay = [] → exec (.replayTimeout p) s = .next s.broadcastGo.recheck) ∧
        (x.replay ≠ [] → (∀ k ∈ x.replay, k.2 < 8) → exec (.replayTimeout p) s =
          .next ((((s.setCport i { x with replay := x.replay.map (fun k => (k.1, k.2 + 1)), out := x.out ++ x.replay.map (·.1) }).sat
            (aChnPort i) CHN_PORT.REPLAYS x.replay.length).portLost i).broadcastGo).recheck) ∧
        ((∃ k ∈ x.replay, 8 ≤ k.2) → exec (.replayTimeout p) s = exec (.linkSilence p) s)) ∧
      (s.cpIsUp i = false →
        (∀ sq, exec (.ack p sq) s = .next s.broadcastGo ∧ exec (.nak p sq) s = .next s) ∧
        (∀ bytes, crcOk bytes = false → exec (.badFrame p bytes) s = .next ((s.sat aChnErr CHN_ERR.CRCERR).setCport i { x with goodTrain := 0 })) ∧
        (∀ bytes, crcOk bytes = true → formOk bytes = false →
          exec (.badFrame p bytes) s = .next ((s.sat aChnErr CHN_ERR.BADFRAME).setCport i { x with goodTrain := 0 })))) ∧
    (s.onRootU i = true → ∀ sq bytes, let r := s.pb aChnErr CHN_ERR.ROOTUP true
      exec (.ack p sq) s = .next r.broadcastGo ∧ exec (.nak p sq) s = .next r ∧ exec (.badFrame p bytes) s = .next r ∧
      ∀ roleD rxok member, exec (.train p roleD rxok member) s = .next (r.portLost i).chainRequest.recheck) ∧
    (s.cpState i = 1 → exec (.idleAckTimer p) s = .next (s.setCport i { x with out := x.out ++ [own x.goodTrain] })) ∧
    (s.cpIsUp i = true ∨ s.cpState i = 1 →
      exec (.linkSilence p) s = .next ((((s.setCport i { x with replay := [], wait := [], goodTrain := 0, peerOk := false }).setCpState i 0).raiseChain 1004
        |>.portLost i).broadcastGo).recheck) ∧
    (s.cpIsUp i = false → exec (.replayTimeout p) s = .next s ∧
      (s.cpState i ≠ 1 → exec (.idleAckTimer p) s = .next s ∧ exec (.linkSilence p) s = .next s))

/-- Frames that are kept (R429, R435): a port that is UP with the domain running takes a frame only with the SEQ it awaits, and answers any other NAK without another effect; a port that is not UP takes none; at U of the root a frame only sets ROOTUP. While the management domain does not run, a frame in sequence is taken, wakes a domain in retention, and waits in the crossing of eight entries; with that full it only wakes the domain, and comes again (R380, R382; notes/assumptions/127.md). A port never keeps more than four frames for replay, however many wait; a frame newly launched has not been replayed. -/
def Obligations.KeptFramesInSequence : Prop :=
  (∀ (s : State) (p : ChPort) (k : Frame) (f : State → State),
    let i := p.val
    let x := s.cport i
    (s.onRootU i = true → s.takeFrame i k f = s.pb aChnErr CHN_ERR.ROOTUP true) ∧
    (s.onRootU i = false → s.cpIsUp i = false → s.takeFrame i k f = s) ∧
    (s.onRootU i = false → s.cpIsUp i = true → k.hdr.seq ≠ x.rxSeq →
      s.takeFrame i k f = s.setCport i { x with out := x.out ++ [⟨{}, .nak x.rxSeq⟩] }) ∧
    (s.onRootU i = false → s.cpIsUp i = true → k.hdr.seq = x.rxSeq → s.pm.mstate ≠ .running →
      (s.chn.xin.length < 8 → s.takeFrame i k f =
        { s.frameTook i with chn := { (s.frameTook i).chn with xin := s.chn.xin ++ [(i, k)] } }.wakeMgmt) ∧
      (8 ≤ s.chn.xin.length → s.takeFrame i k f = s.wakeMgmt)) ∧
    (s.frameTakes i k.hdr → s.takeFrame i k f = f (s.frameTook i))) ∧
  (∀ (s : State) (p : Nat) (dst src : Nat) (b : FrameBody) (sq : BitVec 8), (∀ q, (s.cport q).replay.length ≤ 4) →
    (∀ q, ((s.sendFrame p dst src b).cport q).replay.length ≤ 4) ∧ (((s.cport p).acked sq).replay.length ≤ 4))

/-- Enumeration (R430, R431): an ENUM gives this instance its address and depth and goes on to its first port that is UP, or ends; the second ENUM of a generation is answered 1, and one whose next address is above 250 is answered 2 with FULL and event 1,007; a good ENUMRET records the range of its port and goes on, one that says 1 puts its port in FAULT with event 1,006, one that says 2 records what was taken, sets FULL, with event 1,007 at the root, and is answered on up when this instance ends (the model's readings: notes/assumptions/64.md, 138.md), one of another port or generation is discarded; a child that does not answer is passed over; an instance that ends is one higher than its highest child and holds its tiles and theirs, and answers OK or FULL on up; the root begins with address 1 and the next generation, ends with ENUMD and event 1,003, and nobody else begins. -/
def Obligations.EnumerationNumbersTheTree : Prop :=
  ∀ (s : State) (hdr : FrameHdr) (p : ChPort) (gen next depth status height : BitVec 8) (member tiles : BitVec 16) (m : Master),
    (s.frameTakes 0 hdr →
      let s1 := s.frameTook 0
      (s.chnAddr ≠ 0 → s.g aChnCtl CHN_CTL.GEN = gen.toNat →
        exec (.enum hdr gen next depth) s = .next (s1.enumAnswer gen next.toNat 1 0 0).chainRequest) ∧
      (s.chnAddr = 0 ∨ s.g aChnCtl CHN_CTL.GEN ≠ gen.toNat → next.toNat ≤ 250 →
        exec (.enum hdr gen next depth) s = .next (s1.enumHere gen next.toNat depth.toNat).chainRequest) ∧
      (s.canon → s.chnAddr = 0 ∨ s.g aChnCtl CHN_CTL.GEN ≠ gen.toNat → 250 < next.toNat →
        ∃ u, exec (.enum hdr gen next depth) s = .next u ∧ u.chnAddr = 0 ∧ 1007 ∈ u.evc.evq ∧ u.gb aChnErr CHN_ERR.FULL = true)) ∧
    (s.canon → next.toNat ≤ 250 →
      let u := s.enumHere gen next.toNat depth.toNat
      let child := s.cpIsUp 1 || s.cpIsUp 2
      u.chnAddr = next.toNat ∧ u.g aChnId CHN_ID.DEPTH = depth.toNat % 2 ^ CHN_ID.DEPTH.w ∧ u.g aChnCtl CHN_CTL.GEN = gen.toNat ∧
      (s.isRoot = false → u.gb aChnId CHN_ID.ENUMD = true) ∧
      (s.isRoot = true → child = true → u.gb aChnId CHN_ID.ENUMD = s.gb aChnId CHN_ID.ENUMD) ∧
      (s.isRoot = true → child = false → u.gb aChnId CHN_ID.ENUMD = true ∧ u.evc.evq = s.evc.evq ++ [1003]) ∧
      (s.cpIsUp 1 = true → u.chn.enum = some ⟨gen, next.toNat + 1, 1, false⟩) ∧
      (s.cpIsUp 1 = false → s.cpIsUp 2 = true → u.chn.enum = some ⟨gen, next.toNat + 1, 2, false⟩) ∧
      (child = false → u.chn.enum = none ∧ u.g aChnId CHN_ID.TILES = 144 ∧ u.g aChnId CHN_ID.HEIGHT = 0)) ∧
    (s.frameTakes p.val hdr →
      let s1 := s.frameTook p.val
      let ret := exec (.enumret p hdr gen next status height member tiles) s
      (∀ e, s.chn.enum = some e → e.port = p.val → e.gen = gen →
        let ranged := if e.next < next.toNat then s1.setRange p.val e.next (next.toNat - 1) height.toNat tiles.toNat else s1
        (status = 0 → ret = .next (ranged.enumPort gen next.toNat (p.val + 1) e.full)) ∧
        (status = 1 → ret = .next ((((s1.setCport p.val { s1.cport p.val with goodTrain := 0 }).setCpState p.val 3).raiseChain 1006).enumPort gen next.toNat
          (p.val + 1) e.full)) ∧
        (status ≠ 0 → status ≠ 1 →
          let f := ranged.pb aChnErr CHN_ERR.FULL true
          ret = .next ((if s.isRoot then f.raiseChain 1007 else f).enumPort gen next.toNat (p.val + 1) true))) ∧
      ((∀ e, s.chn.enum = some e → e.port ≠ p.val ∨ e.gen ≠ gen) → ret = .next s1)) ∧
    (∀ e, s.chn.enum = some e → e.port = p.val → exec (.enumretTimeout p) s = .next (s.enumPort e.gen e.next (p.val + 1) e.full)) ∧
    (s.isRoot = false → ∀ full : Bool,
      let kids := [1, 2].filter (fun q => s.g (aChnPort q) CHN_PORT.LO != 0)
      let h := if kids = [] then 0 else 1 + (kids.map (fun q => s.g (aChnPort q) CHN_PORT.SUBH)).foldl max 0
      let n := 144 + (kids.map (fun q => s.g (aChnPort q) CHN_PORT.SUBTILES)).foldl (· + ·) 0
      let u := (s.p aChnId CHN_ID.HEIGHT h).p aChnId CHN_ID.TILES n
      s.enumEnd gen next.toNat full = { u with chn := { u.chn with enum := none } }.enumAnswer gen next.toNat (if full = true then 2 else 0) h n) ∧
    (s.isRoot = true → s.chn.enum = none →
      exec .enumStart s = .next (s.enumHere (BitVec.ofNat 8 (s.g aChnCtl CHN_CTL.GEN + 1)) 1 0)) ∧
    (s.isRoot = true → s.sqRight m = true →
      exec (.chnReenum m) s = .next (s.enumHere (BitVec.ofNat 8 (s.g aChnCtl CHN_CTL.GEN + 1)) 1 0)) ∧
    (s.isRoot = false ∨ s.sqRight m = false → exec (.chnReenum m) s = .next s) ∧
    (s.isRoot = false ∨ s.chn.enum.isSome = true → exec .enumStart s = .next s)

/-- Accesses over the chain (R431 to R433, R435): a REQ for this instance, or for every one, begins an access of master CH; one for another goes on over the port that leads there, and is answered CHAINERR where none does; with eight in progress one for this instance waits; an RSP for this instance ends the access that CHX holds under its tag, and one for another goes on. Operations over the chain (R307, R308, R316, R431): an OPDN is recorded with the children it goes on to, forwarded to each, and performed here; without an address, or while the instance enumerates, it is answered CHAINERR at once (its code in RESP is the model's choice: log entry 118); an OPUP that an operation awaits is combined, any other discarded; a child that does not answer counts its subtree as silent, with event 945 once for the operation. That an ill-formed REQ counts BADFRAME, and that a ninth REQ waits, are the model's readings (notes/assumptions/73.md). -/
def Obligations.ChainAccessesAndOperations : Prop :=
  (∀ (s : State) (p : ChPort) (hdr : FrameHdr) (tag orig code : BitVec 8) (off : BitVec 32) (data : List W) (strb : List (BitVec 8)),
     s.frameTakes p.val hdr → s.chnReady = true →
     let s1 := s.frameTook p.val
     let req := exec (.req p hdr tag orig off data strb) s
     (reqOk hdr orig data strb = true → s.inbound < 8 →
       (hdr.dst.toNat = s.chnAddr → hdr.dst ≠ 255#8 → req = .next (s1.remoteStart false tag hdr.src orig off data strb).recheck) ∧
       (hdr.dst = 255#8 → s.isRoot = true → req = .next (s1.remoteStart true tag hdr.src orig off data strb).recheck) ∧
       (hdr.dst = 255#8 → p.val = 0 → req = .next (s1.remoteStart true tag hdr.src orig off data strb).recheck) ∧
       (∀ q, hdr.dst ≠ 255#8 → s.way hdr.dst.toNat = .port q →
         req = .next (s1.sendFrame q hdr.dst.toNat hdr.src.toNat (.req tag orig off data strb)).recheck) ∧
       (hdr.dst ≠ 255#8 → s.way hdr.dst.toNat = .none → req = .next (s1.sendFrame p.val hdr.src.toNat s.chnAddr (.rsp tag 4 [])).recheck)) ∧
     (reqOk hdr orig data strb = false → s.inbound < 8 → req = .next (s1.sat aChnErr CHN_ERR.BADFRAME).recheck) ∧
     (8 ≤ s.inbound → hdr.dst.toNat = s.chnAddr → req = .next s) ∧
     (s.chn.remotes = [] →
       (hdr.dst.toNat = s.chnAddr → exec (.rsp p hdr tag code data) s = .next (s1.chxEnds tag.toNat code.toNat data).recheck) ∧
       (hdr.dst.toNat ≠ s.chnAddr → exec (.rsp p hdr tag code data) s = .next (s1.routeFrame hdr.dst.toNat hdr.src.toNat (.rsp tag code data)).recheck))) ∧
  (∀ (s : State) (p : ChPort) (hdr : FrameHdr) (tag orig : BitVec 8) (off : BitVec 32) (data : List W) (strb : List (BitVec 8)),
     s.frameTakes p.val hdr → s.chnReady = false → reqOk hdr orig data strb = true → s.inbound < 8 →
     exec (.req p hdr tag orig off data strb) s = .next ((s.frameTook p.val).sendFrame p.val hdr.src.toNat s.chnAddr (.rsp tag 4 [])).recheck) ∧
  (∀ (s : State) (p : ChPort) (hdr : FrameHdr) (opid : BitVec 16) (kind func resp : BitVec 8) (args : List W) (value counts : W),
     (∀ x, s.frameTakes 0 hdr → opOfKind kind = some x → args.length = 1 ∨ args.length = 4 → s.opWaits kind = false →
       let s1 := s.frameTook 0
       (s.chnReady = true → exec (.opdn hdr opid kind func args) s = .next ((s1.opStart opid x func args true).opLocal opid x func args)) ∧
       (s.chnReady = false → exec (.opdn hdr opid kind func args) s =
         .next (s1.sendFrame 0 0 s.chnAddr (.opup opid 4 0 (countsWord 0 0 (s.opTiles x)))))) ∧
     (∀ x, (s.opStart opid x func args true).chn.ops = s.chn.ops ++
         [⟨opid, (match x with | none => opOr | some y => y.op), s.opPorts, true, 0, 0, 0, 0, Resp.OK, true, false⟩]) ∧
     (s.frameTakes p.val hdr →
       let s1 := s.frameTook p.val
       ((∀ o ∈ s.chn.ops, o.opid = opid → ∀ w ∈ o.waits, w.1 ≠ p.val) → exec (.opup p hdr opid resp value counts) s = .next s1) ∧
       ((∃ o ∈ s.chn.ops, o.opid = opid ∧ ∃ w ∈ o.waits, w.1 = p.val) → exec (.opup p hdr opid resp value counts) s =
         .next ((s1.opChild opid p.val value (fld counts 0 16) (fld counts 16 16) (fld counts 32 16) (resp.setWidth 4)).barrGo).recheck)) ∧
     (s.chn.ops.find? (fun x => x.opid == opid) = none → exec (.childTimeout opid p) s = .next s) ∧
     (∀ x w, s.chn.ops.find? (fun x => x.opid == opid) = some x → x.waits.find? (fun w => w.1 == p.val) = some w →
       let s1 := if x.raised then s else s.raise 945
       let ops := replaceFirst (fun (y : ChainOp) => y.opid == opid) (fun y => { y with raised := true }) s1.chn.ops
       exec (.childTimeout opid p) s = .next (State.opChild { s1 with chn := { s1.chn with ops := ops } } opid p.val 0 0 0 w.2 Resp.OK).barrGo.recheck))

/-- Broadcasts of the image (R284, R434): a QREQ asks the root for one and goes on up elsewhere; a QDATA goes on down and is kept by an instance that waits; a QEND goes on down, and an image that came whole is checked and loaded, or its microcode reloaded, while an instance that came to wait in the middle of the broadcast awaits the next one; without a QEND the request is repeated, and after the fourth the boot has failed with code CHAIN, or the sequencer is DEAD. That a reload over the chain ends DEAD after the fourth request, and that a QREQ is addressed to instance 1, are the model's readings (notes/assumptions/84.md). -/
def Obligations.ImageBroadcasts : Prop :=
  ∀ (s : State) (p : ChPort) (hdr : FrameHdr) (off : BitVec 32) (bytes : List Byte) (slot : BitVec 8) (imglen : BitVec 32),
    (s.frameTakes p.val hdr →
      let s1 := s.frameTook p.val
      (s.isRoot = true → exec (.qreq p hdr) s = .next { s1 with chn := { s1.chn with bcastWanted := true } }.broadcastGo) ∧
      (s.isRoot = false → exec (.qreq p hdr) s = .next (s1.sendFrame 0 hdr.dst.toNat hdr.src.toNat .qreq))) ∧
    (s.frameTakes 0 hdr →
      let s1 := s.frameTook 0
      let s2 := s1.toChildren hdr.src.toNat (.qdata off bytes)
      let s3 := s1.toChildren hdr.src.toNat (.qend slot imglen)
      (bytes.length = 64 → s.takesQdata = false → exec (.qdata hdr off bytes) s = .next s2) ∧
      (bytes.length = 64 → s.takesQdata = true → exec (.qdata hdr off bytes) s =
        .next { s2 with boot := { s2.boot with image := (off.toNat, bytes) :: s2.boot.image.filter (fun x => x.1 != off.toNat) } }) ∧
      (bytes.length ≠ 64 → exec (.qdata hdr off bytes) s = .next (s1.sat aChnErr CHN_ERR.BADFRAME)) ∧
      (s.takesQdata = false → exec (.qend hdr slot imglen) s = .next s3) ∧
      (s.takesQdata = true → imageWhole s.boot.image = false → exec (.qend hdr slot imglen) s = .next { s3 with boot := { s3.boot with image := [] } }) ∧
      (s.chn.reload = false → s.bootState = bsChainwait → imageWhole s.boot.image = true → exec (.qend hdr slot imglen) s = .next (s3.chainImage (bitOf slot 0))) ∧
      (s.chn.reload = true → imageWhole s.boot.image = true → exec (.qend hdr slot imglen) s = .next s3.chainReload)) ∧
    (s.takesQdata = false → exec .qendTimeout s = .next s) ∧
    (s.takesQdata = true → s.chn.qtries < 4 →
      exec .qendTimeout s = .next ({ s with chn := { s.chn with qtries := s.chn.qtries + 1 } }.sendFrame 0 1 s.chnAddr .qreq)) ∧
    (s.takesQdata = true → 4 ≤ s.chn.qtries → s.chn.reload = true → exec .qendTimeout s = .next (s.reloadEnds none)) ∧
    (s.takesQdata = true → 4 ≤ s.chn.qtries → s.chn.reload = false → s.regsOk → ∃ u, exec .qendTimeout s = .next u ∧ u.bootState = bsFailed ∧
      u.g aBootStat BOOT_STAT.RESA = rsChain)

/-- Probes, trace buffers, self-tests (R35, R36, R450 to R452, R456): only a host that is active and the sequencer write here; a probe is bound anew with cleared counters, BINDERR where its tile has no slot, and acts once BOUND; an owned one is its owner's and the sequencer's alone; ARM clears its buffer; the oldest record that has arrived is stored at WIDX of the buffer that its probe names, or counted LOST where the buffer is not armed, is frozen, or has another owner; a full buffer wraps, and with STOPFULL freezes instead (the model's reading of WIDX there: log entry 106); the shared settings act from their boundaries, in turn; a self-test of a tile runs through the restore window, and ends with what failed among the groups chosen. Self-tests (R377, R451): a start through the restore window runs the groups it selects in a tile that is FENCED or in RESTORE, unless one runs, and is refused with REJ elsewhere; it ends with DONE and the groups that failed among those that it tested; the TAP's ends in its register. -/
def Obligations.ProbesTracesAndSelfTests : Prop :=
  (∀ (s : State) (m : Master) (p : Fin 32) (b : Fin 8) (v : W), s.canon →
     let o := aPrb p.val
     let w := (s.rd o &&& ~~~prbRw) ||| (v &&& prbRw)
     (s.masterActs m = false ∨ (masterIsSeq m = false ∧ masterHost m = none) → exec (.probeControlWrite m p v) s = .next s ∧ exec (.traceBufferArm m b v) s = .next s) ∧
     (s.gb o OBS_PRBCTL.EN = true → masterIsSeq m = false → ownerCode m ≠ s.g o OBS_PRBCTL.OWNER → exec (.probeControlWrite m p v) s = .next s) ∧
     (s.masterActs m = true → masterIsSeq m = true ∨ (masterHost m).isSome = true → s.gb o OBS_PRBCTL.EN = false → bitOf w 0 = true →
       ∃ u, exec (.probeControlWrite m p v) s = .next u ∧ u.gb o OBS_PRBCTL.EN = true ∧ u.gb o OBS_PRBCTL.BOUND = false ∧
         u.g o OBS_PRBCTL.OWNER = ownerCode m ∧ (144 ≤ fld w 4 8 → u.gb o OBS_PRBCTL.BINDERR = true) ∧
         (∀ i, i < 4 → u.rd (aPrbCnt p.val i) = 0) ∧ u.routers = s.routers ∧ u.agents = s.agents) ∧
     (s.gb o OBS_PRBCTL.EN = true → s.gb o OBS_PRBCTL.BINDERR = false → exec (.probeBound p) s = .next (s.pb o OBS_PRBCTL.BOUND true)) ∧
     (s.gb o OBS_PRBCTL.EN = false ∨ s.gb o OBS_PRBCTL.BINDERR = true → exec (.probeBound p) s = .next s) ∧
     (s.masterActs m = true → masterIsSeq m = true ∨ (masterHost m).isSome = true → s.gb (aTbctl b.val) OBS_TBCTL.ARM = false → bitOf v 0 = true →
       ∃ u, exec (.traceBufferArm m b v) s = .next u ∧ u.gb (aTbctl b.val) OBS_TBCTL.ARM = true ∧ u.g (aTbctl b.val) OBS_TBCTL.WIDX = 0 ∧
         u.gb (aTbctl b.val) OBS_TBCTL.FROZEN = false ∧ u.gb (aTbctl b.val) OBS_TBCTL.WRAPPED = false ∧ u.g (aTbctl b.val) OBS_TBCTL.LOST = 0 ∧
         u.g (aTbctl b.val) OBS_TBCTL.OWNER = ownerCode m) ∧
     (∀ (ws : List W) (rest : List (List W)), s.obs.rx = ws :: rest → s.pm.mstate = .running → fld (ws.getD 0 0) 32 5 = p.val →
       let t := aTbctl (s.g o OBS_PRBCTL.TBUF)
       (s.gb t OBS_TBCTL.ARM = false ∨ s.gb t OBS_TBCTL.FROZEN = true ∨ s.g o OBS_PRBCTL.OWNER ≠ s.g t OBS_TBCTL.OWNER →
         exec .traceRecord s = .next ({ s with obs := { s.obs with rx := rest } }.sat t OBS_TBCTL.LOST)) ∧
       (s.gb t OBS_TBCTL.ARM = true → s.gb t OBS_TBCTL.FROZEN = false → s.g o OBS_PRBCTL.OWNER = s.g t OBS_TBCTL.OWNER →
         ∃ u, exec .traceRecord s = .next u ∧ u.obs.rx = rest ∧
           (∀ k, k < 4 → u.rd (aTrec (s.g o OBS_PRBCTL.TBUF) (s.g t OBS_TBCTL.WIDX) k) = ws.getD k 0) ∧
           (s.g t OBS_TBCTL.WIDX ≠ 2047 ∨ s.gb t OBS_TBCTL.STOPFULL = false → u.g t OBS_TBCTL.WIDX = (s.g t OBS_TBCTL.WIDX + 1) % 2048) ∧
           (s.g t OBS_TBCTL.WIDX = 2047 → s.gb t OBS_TBCTL.STOPFULL = false → u.gb t OBS_TBCTL.WRAPPED = true) ∧
           (s.g t OBS_TBCTL.WIDX = 2047 → s.gb t OBS_TBCTL.STOPFULL = true →
             u.gb t OBS_TBCTL.FROZEN = true ∧ u.g t OBS_TBCTL.WIDX = 2047 ∧ u.gb t OBS_TBCTL.WRAPPED = s.gb t OBS_TBCTL.WRAPPED))) ∧
     (∀ c en k changes, s.obs.calPend = (c, en, k) :: changes → ∃ u, exec .sharedStepBoundary s = .next u ∧
       u.obs = { s.obs with calPend := changes, calLog2 := k, calEn := en } ∧ s.rst0 + c ≤ u.cyc ∧ u.regs = s.regs) ∧
     (s.obs.calPend = [] → exec .sharedStepBoundary s = .next s)) ∧
  (∀ (s : State) (m : Master) (v : W) (t : Tile) (fg : BitVec 3) (fa : BitVec 16), s.canon →
     (s.sqRight m = true → s.g aRstaddr PM_RSTADDR.TILE = t.val → s.g aRstaddr PM_RSTADDR.OFFSET = 0x4400 →
       (s.pst t.val = 4 ∨ s.pst t.val = 7 → s.gb (aMbist t.val) TL_MBIST.BUSY = false → bitOf v 0 = true →
         ∃ u, exec (.tlMbistStart m v) s = .next u ∧ u.gb (aMbist t.val) TL_MBIST.BUSY = true ∧ u.gb (aMbist t.val) TL_MBIST.DONE = false ∧
           (u.agent t.val).bist = some (fld v 1 3) ∧ (bitOf v 1 = true → (u.router t.val 0).inv = []) ∧ (bitOf v 2 = true → (u.router t.val 1).inv = [])) ∧
       (s.pst t.val ≠ 4 → s.pst t.val ≠ 7 → exec (.tlMbistStart m v) s = .next ((s.pb (aPmTile t.val) PM_TILE.REJ true).raise 993))) ∧
     (s.sqRight m = false → exec (.tlMbistStart m v) s = .next s) ∧
     (∀ g, (s.agent t.val).bist = some g → ∃ u, exec (.mbistDone (some t) fg fa) s = .next u ∧ u.gb (aMbist t.val) TL_MBIST.BUSY = false ∧
       u.gb (aMbist t.val) TL_MBIST.DONE = true ∧ u.g (aMbist t.val) TL_MBIST.FAILGRP = Nat.land g fg.toNat % 8 ∧
       (u.gb (aMbist t.val) TL_MBIST.FAIL = true ↔ Nat.land g fg.toNat ≠ 0) ∧ (u.agent t.val).bist = none) ∧
     (bitOf s.tap.mb 8 = true → bitOf s.tap.mb 9 = false → ∃ u, exec (.mbistDone none fg fa) s = .next u ∧ bitOf u.tap.mb 8 = false ∧ bitOf u.tap.mb 9 = true ∧
       (bitOf u.tap.mb 10 = true ↔ fg ≠ 0) ∧ u.regs = s.regs))

/-- Router inputs and outputs (R75, R77, R85 to R92, R449): a flit with a readable sideband enters its VC buffer, unless that is full, and a header with its lookahead; at a local input it takes a credit of its originator, and waits without one; the tail of an initiator's posted request is answered OK then, and leaves its in-flight counter (R108, R235); one whose lookahead fails is routed by this router and counted; at a closed input the flit is lost; an unreadable sideband takes the link down. A credit counts up to four, at an output and at the originator of a local input, and one of bad parity takes the link down. A flint of bad parity is dropped, and a good one at its own tile, or for a node outside the grid, wakes an IDLE tile and goes no further; at any other tile it wakes as well and leaves in the next cycle by the output of its packet's route, unless that is a local port, or its link is in REINIT or TEST (R447); of two for one output in a cycle the one of the lower input leaves. That the originator's credit is taken when its flit arrives is the model's choice (notes/assumptions/100.md); so is what an unreadable sideband does at a local input (20.md). -/
def Obligations.FlitsCreditsAndFlints : Prop :=
  ∀ (s : State) (t : Tile) (pl : Plane) (port : RPort) (f : RawFlit),
    let i := t.val
    let l := pl.val
    let o := port.val
    let far : Option (Nat × Nat) := if o < 4 then some (neighbour i o, opposite o) else none
    (s.inputOpen i l o = false → exec (.flitArrival t pl port f) s = .next (s.popWire i l o none).recheck) ∧
    (s.inputOpen i l o = true → sbDecode f.sb f.sbc = .bad →
      (s.mayArrive i l o none = true → exec (.flitArrival t pl port f) s = .next (((s.popWire i l o none).wake i true).takeDown i l o far).recheck) ∧
      (s.mayArrive i l o none = false → exec (.flitArrival t pl port f) s = .next s.recheck)) ∧
    (∀ sb lane, s.inputOpen i l o = true → sbDecode f.sb f.sbc = .ok sb lane →
      4 ≤ ((s.router i l).vc o (fld sb 0 3)).buf.length ∨ s.mayArrive i l o (some (fld sb 0 3)) = false → exec (.flitArrival t pl port f) s = .next s.recheck) ∧
    (∀ sb, s.inputOpen i l o = true → sbDecode f.sb f.sbc = .ok sb none → ((s.router i l).vc o (fld sb 0 3)).buf.length < 4 →
      s.mayArrive i l o (some (fld sb 0 3)) = true →
      exec (.flitArrival t pl port f) s = .next (((s.popWire i l o (some (fld sb 0 3))).wake i true).storeFlit i l o f sb).recheck) ∧
    (∀ vc rest, 4 ≤ o → extract (fun (x : RawFlit) => fld x.sb 0 3 == vc) (tget [] (s.router i l).inw o) = some (f, rest) →
      (s.mayArrive i l o (some vc) = true ↔ 0 < (s.router i l).lcredit o vc) ∧
      let u := s.setRouter i l ({ s.router i l with inw := tput [] (s.router i l).inw o rest }.setLcredit o vc ((s.router i l).lcredit o vc - 1))
      let n := s.ni i (o - 4)
      let tail : Prop := l = 0 ∧ o < 7 ∧ (fld f.sb 3 2 = ftTail ∨ fld f.sb 3 2 = ftHeadTail)
      (¬ tail → s.popWire i l o (some vc) = u) ∧
      (tail → (n.going.find? (fun g => 2 * g.cls.toNat == vc) = none → s.popWire i l o (some vc) = u) ∧
        ∀ g gs, extract (fun (g : NiGo) => 2 * g.cls.toNat == vc) n.going = some (g, gs) →
          let ok := if g.owed then n.sresp ++ [⟨g.mtag, Resp.OK, [], false, false, true, none⟩] else n.sresp
          let left := u.setNi i (o - 4) { n with going := gs, sresp := ok }
          (g.posted = true → g.dbl = false → s.popWire i l o (some vc) = left.puDown (puIndex i (o - 4)) g.stratum) ∧
          (g.posted = false ∨ g.dbl = true → s.popWire i l o (some vc) = left))) ∧
    (∀ sb : BitVec 8, fld sb 3 2 = ftHead ∨ fld sb 3 2 = ftHeadTail → rsDecode (rsWord f.pay f.chk) = .clean →
      let v := fld sb 0 3
      let x := (s.router i l).vc o v
      let s1 := if RawFlit.lookaheadOk f then s else s.rcount i l TL_RSTAT.LAREPAIR
      let s2 := if l = 0 then s1.notePower i (hdrOf f.pay) else s1
      let flit : Flit := ⟨f.pay, f.chk, BitVec.ofNat 2 (fld sb 3 2), bitOf sb 5, false,
        if RawFlit.lookaheadOk f then f.lar.toNat else s.routeHere i l (bitOf sb 5).toNat o (hdrOf f.pay).dest⟩
      s.storeFlit i l o f sb = (s2.setRouter i l ((s.router i l).setVc o v { x with discard := false, buf := x.buf ++ [flit] })).settle i l) ∧
    (∀ (vc : BitVec 3) (crv : Bool), s.pst i ≠ 5 → s.pst i ≠ 6 →
      let good := Bool.xor crv (parity vc)
      let s1 := if crv then s.popCredit i l o vc.toNat else s
      let s2 := match extract (fun x => x == (o, vc.toNat)) (s.router i l).crOut with
        | some (_, rest) => if crv then s.setRouter i l { s.router i l with crOut := rest } else s
        | none => s
      ((o < 4 → s.linkState i l o = 0 ∨ s.linkState i l o = 3) →
        (crv = true → exec (.creditReturn t pl (.out port) crv vc good) s =
          .next ((s1.setRouter i l ((s1.router i l).setCredit o vc.toNat (min 4 ((s1.router i l).credit o vc.toNat + 1)))).settle i l)) ∧
        (crv = false → exec (.creditReturn t pl (.out port) crv vc good) s = .next s) ∧
        exec (.creditReturn t pl (.out port) crv vc (!good)) s = .next (s1.takeDown i l o (if o < 4 then some (i, o) else none))) ∧
      (4 ≤ o →
        (crv = true → exec (.creditReturn t pl (.input port) crv vc good) s =
          .next (s2.setRouter i l ((s2.router i l).setLcredit o vc.toNat (min 4 ((s2.router i l).lcredit o vc.toNat + 1))))) ∧
        (crv = false → exec (.creditReturn t pl (.input port) crv vc good) s = .next s) ∧
        exec (.creditReturn t pl (.input port) crv vc (!good)) s = .next (s2.takeDown i l o none)) ∧
      (o < 4 → ∀ crp, exec (.creditReturn t pl (.input port) crv vc crp) s = .next s)) ∧
    (∀ (dest : BitVec 8) (str : Bool),
      exec (.flint t pl port dest str (!flpOf dest str)) s = .next s ∧
      (s.pst i = 5 ∨ s.pst i = 6 → exec (.flint t pl port dest str (flpOf dest str)) s = .next s) ∧
      (s.pst i ≠ 5 → s.pst i ≠ 6 → nodeInGrid dest = false ∨ nodeTile dest = i →
        exec (.flint t pl port dest str (flpOf dest str)) s = .next (s.wake i false)) ∧
      (s.pst i ≠ 5 → s.pst i ≠ 6 → nodeInGrid dest = true → nodeTile dest ≠ i →
        let u := s.wake i false
        let x := u.routeHere i l str.toNat o (epAddr (nodeTile dest) 0)
        let r := u.router i l
        let got := exec (.flint t pl port dest str (flpOf dest str)) s
        (4 ≤ x ∨ u.linkState i l x = 4 ∨ u.linkState i l x = 1 → got = .next u) ∧
        (x < 4 → u.linkState i l x ≠ 4 → u.linkState i l x ≠ 1 →
          (∀ g, tget none r.flints x = some g → g.cyc = s.cyc → g.inp ≤ o → got = .next u) ∧
          ((∀ g, tget none r.flints x = some g → g.cyc ≠ s.cyc ∨ o < g.inp) →
            got = .next (u.setRouter i l { r with flints := tput none r.flints x (some ⟨s.cyc, o, dest, str⟩) })))))

/-- Injection and ejection (R47, R58, R69, R103, R108, R111, R135, R455, R464): where its core runs, a source injects the first packet of the class commanded for which there is room: an initiator its next request, with a TAG that is free, which the port keeps until its tail has left: a posted one is answered OK and leaves its counter then, not here; an NI of another kind, an agent, a sink, the sequencer, the event controller and the traffic manager the first of their queues; a tile's trace queue its oldest record, in class TCLASS alone, as a WR to the trace endpoint. A packet that its receiver cannot take yet stays, and those behind it on its VC with it; one that passes every check is taken as a request or a response by the receiver at that output; one that is discarded, for its header, its CRC, its poison or its DEST, is counted, with the output's event at most once in a management cycle. -/
def Obligations.InjectionAndEjection : Prop :=
  ∀ (s : State) (cls : BitVec 2) (tag : BitVec 12) (k : Pkt) (rest : List Pkt) (t : Tile) (p : LPort),
    let i := t.val
    let e := s.build.cfgep
    let d := s.build.dbep
    let flits (u : State) : State := { u with pm := { u.pm with niflits := u.pm.niflits + 1 + k.data.length } }
    (∀ src, s.coreRuns (s.srcTile src) = false → exec (.injectHeader src cls tag) s = .next s.recheck) ∧
    (∀ n r, s.coreRuns i = true → s.kind i p.val = .initiator → s.nextReq i p.val = some n → (s.ni i p.val).injq[n]? = some r → r.cls = cls →
      let s1 := s.account i p.val n r tag
      let sent (u : State) : State := u.place i 0 (4 + p.val) (reqPkt i p.val r tag)
      let count (u : State) : State := { u with pm := { u.pm with niflits := u.pm.niflits + 1 + r.data.length } }
      (qopPosted r.op = false → (s.ni i p.val).tagFree tag = true → exec (.injectHeader (.ni t p) cls tag) s = .next (count (sent s1)).recheck) ∧
      (qopPosted r.op = false → (s.ni i p.val).tagFree tag = false → exec (.injectHeader (.ni t p) cls tag) s = .next s.recheck) ∧
      (qopPosted r.op = true → exec (.injectHeader (.ni t p) cls tag) s = .next (count (sent s1)).recheck) ∧
      (s.canon → (s1.ni i p.val).going = (s.ni i p.val).going ++ [⟨r.seq, r.cls, r.q.mtag, r.stratum, qopPosted r.op, r.op == Qop.DOORBELL, qopPosted r.op⟩] ∧
        (s1.ni i p.val).sresp = (s.ni i p.val).sresp ∧ (s1.ni i p.val).injq = (s.ni i p.val).injq.eraseIdx n ∧ s1.regs = s.regs)) ∧
    (s.coreRuns i = true → s.kind i p.val ≠ .initiator → s.firstOf (s.ni i p.val).rspq i (4 + p.val) cls true = some (k, rest) →
      exec (.injectHeader (.ni t p) cls tag) s =
        .next (flits ((s.setNi i p.val { s.ni i p.val with rspq := rest }).place i 1 (4 + p.val) { k with stratum := s.inj i })).recheck) ∧
    (s.coreRuns i = true → s.firstOf (s.agent i).outq i 7 cls false = some (k, rest) →
      exec (.injectHeader (.agent t) cls tag) s = .next ((s.setAgent i { s.agent i with outq := rest }).place i (pktPlane k) 7
        { k with stratum := s.agentStratum i (pktPlane k) }).recheck) ∧
    (s.coreRuns i = true → s.firstOf (s.agent i).sinkq i 7 cls false = some (k, rest) →
      exec (.injectHeader (.sink t) cls tag) s =
        .next ((s.setAgent i { s.agent i with sinkq := rest }).place i 1 7 { k with stratum := s.agentStratum i 1 }).recheck) ∧
    (s.coreRuns (epTile e) = true → s.firstOf s.seq.outq (epTile e) (4 + epPort e) cls false = some (k, rest) →
      exec (.injectHeader .cfgep cls tag) s = .next ({ s with seq := { s.seq with outq := rest } }.place (epTile e) (pktPlane k) (4 + epPort e)
        { k with stratum := s.seqStratum (pktPlane k) }).recheck) ∧
    (s.coreRuns (epTile d) = true → s.firstOf s.evc.outq (epTile d) (4 + epPort d) cls false = some (k, rest) →
      exec (.injectHeader .evc cls tag) s = .next ({ s with evc := { s.evc with outq := rest } }.place (epTile d) 1 (4 + epPort d)
        { k with stratum := s.agentStratum (epTile d) 1 }).recheck) ∧
    (∀ rec_ recs, s.coreRuns i = true → (s.agent i).traceq = rec_ :: recs →
      (cls.toNat = s.g aLcfg OBS_LCFG.TCLASS → s.roomAt i 0 7 (2 * cls.toNat) = true →
        exec (.injectHeader (.trace t) cls tag) s = .next ((s.setAgent i { s.agent i with traceq := recs }).place i 0 7
          { s.tracePkt i cls tag rec_ with stratum := s.agentStratum i 0 }).nextFree.recheck) ∧
      (cls.toNat ≠ s.g aLcfg OBS_LCFG.TCLASS → exec (.injectHeader (.trace t) cls tag) s = .next s.recheck)) ∧
    (∀ q : QpId, s.coreRuns (epTile (s.tmEp q.val)) = true → exec (.injectHeader (.qp q) cls tag) s = .next (s.injectTm q.val cls).recheck) ∧
    (∀ x : EsId, s.coreRuns (epTile (s.tmEp (16 + x.val))) = true → exec (.injectHeader (.sp x) cls tag) s = .next (s.injectTm (16 + x.val) cls).recheck) ∧
    (∀ (pl : Plane) (out : RPort) (fs : List RawFlit), 4 ≤ out.val → fs ≠ [] → s.coreRuns i = true →
      let j := ejectPkt fs
      let r := s.recvAt i out.val pl.val
      let s1 := s.leaveOutput i pl.val out.val j.vc
      let full := s.recvFull i out.val pl.val r (hdrOf j.hdr) || (s.frontHdr i pl.val out.val j.vc).any (s.recvFull i out.val pl.val r)
      let ev (f : Fd) : State := (s1.ejectCount i out.val r f).discardEvent i pl.val out.val
      (j.hdrBad = false → full = true → exec (.packetEjection t pl out fs) s = .next s) ∧
      (full = false → verdict j (epAddr i (out.val - 4)) = .good →
        (pl.val = 0 → exec (.packetEjection t pl out fs) s = .next (s1.takeReq i out.val r j.pkt)) ∧
        (pl.val = 1 → cmdValid 1 j.pkt.cmd j.pkt.dfc.toNat = true → exec (.packetEjection t pl out fs) s = .next (s1.takeResp i out.val r j.pkt))) ∧
      (j.hdrBad = true → exec (.packetEjection t pl out fs) s = .next (ev TL_NIERR.CRCERR)) ∧
      (full = false → verdict j (epAddr i (out.val - 4)) = .misrouted → exec (.packetEjection t pl out fs) s = .next (ev TL_NIERR.MISROUTE)) ∧
      (∀ f, full = false → pl.val = 0 → answerOf j.pkt.cmd = none →
        verdict j (epAddr i (out.val - 4)) = .poisoned ∧ f = TL_NIERR.POISONED ∨ verdict j (epAddr i (out.val - 4)) = .crcFailed ∧ f = TL_NIERR.CRCERR →
        exec (.packetEjection t pl out fs) s = .next (ev f)) ∧
      (∀ u : State, tget 0 u.evc.once (2 ^ 12 + (i * 16 + pl.val * 8 + out.val)) = u.mgtCycle + 1 → u.discardEvent i pl.val out.val = u) ∧
      (∀ u : State, tget 0 u.evc.once (2 ^ 12 + (i * 16 + pl.val * 8 + out.val)) ≠ u.mgtCycle + 1 →
        u.discardEvent i pl.val out.val = (u.setOnce (2 ^ 12 + (i * 16 + pl.val * 8 + out.val)) (u.mgtCycle + 1)).raiseTile i (out.val - 4)))

/-- Acceptance of a request (R104 to R110, R135, R227, R235, R237): a port that is not ready accepts none; a reserved QOP, a count of beats that does not fit, a guarantee that the port does not own, an address that no window holds are answered DECERR, and a refusal of the protection unit PROT with its violation recorded; an allowed request is queued under the tile's stratum with the attributes of its rule and counted in flight. The D beats complete a write, and answer one that was refused whatever their count; the first answer leaves on S and frees its entry. At an endpoint in reset, not reconnected or without its clock, and at one of an OFF tile (R369), nothing transfers. A port whose disable has just completed with ENABLE set stays DISABLED for one cycle, which passes before the transfer (the model's choice: log entry 98). -/
def Obligations.RequestsAreAccepted : Prop :=
  ∀ (s : State) (t : Tile) (p : LPort) (q : QReq),
    let i := t.val
    let j := p.val
    let n := s.ni i j
    let ops : List (BitVec 4 × Instr) :=
      [(Qop.READ, .read t p q), (Qop.WRITE, .write t p q), (Qop.WRITE_NP, .writeNp t p q), (Qop.ATOMIC, .atomic t p q),
       (Qop.MESSAGE, .message t p q), (Qop.DOORBELL, .doorbell t p q), (Qop.CELL, .cell t p q), (Qop.ENQUEUE, .enqueue t p q)]
    let o := s.niOpen i j
    let w := o.niEnter i j 1
    let act := w.g (aPuCtl (puIndex i j)) PU_CTL.ACT
    let req (op : BitVec 4) (refuse : Option (BitVec 4)) (dest : BitVec 10) (cache order : Nat) : NiReq :=
      { seq := (w.ni i j).nextSeq, op := op, q := q, stratum := w.inj i, dest := dest, pdom := BitVec.ofNat 4 (w.puDom (puIndex i j)), cache := BitVec.ofNat 2 cache,
        order := BitVec.ofNat 2 order, data := [], dbe := 0, tstamp := w.stamp, refuse := refuse, hold := false }
    let s1 := w.wake i true
    let refused (op : BitVec 4) : Host.Outcome State Fault Refusal := .next (s1.setNi i j ((s1.ni i j).queue (req op (some Resp.DECERR) 0 0 0)))
    (o.qReady i j = false → ∀ x ∈ ops, exec x.2 s = .next o) ∧
    (∀ c, o.qReady i j = true → q.rsv = some c → ∀ x ∈ ops, exec x.2 s = refused (8 + c.zeroExtend 4)) ∧
    (o.qReady i j = true → q.rsv = none →
      (∀ x ∈ ops,
        (beatsOk x.1 q = false ∨ w.guaranteeOk i j q = false ∨ (x.1 ≠ Qop.DOORBELL ∧ w.decodeAddr i j q.addr q.len = none) → exec x.2 s = refused x.1) ∧
        (∀ d c r, beatsOk x.1 q = true → w.guaranteeOk i j q = true → x.1 ≠ Qop.DOORBELL → w.decodeAddr i j q.addr q.len = some d →
          w.puCheck (puIndex i j) (w.inj i).toNat act x.1 q.addr q.len = .allow c r →
          let s2 := s1.puUp (puIndex i j) (w.inj i)
          let r := req x.1 none d c r
          exec x.2 s = .next (s2.setNi i j ((s2.ni i j).queue { r with hold := (s2.ni i j).mustHold r }))) ∧
        (∀ d k r b, beatsOk x.1 q = true → w.guaranteeOk i j q = true → x.1 ≠ Qop.DOORBELL → w.decodeAddr i j q.addr q.len = some d →
          w.puCheck (puIndex i j) (w.inj i).toNat act x.1 q.addr q.len = .refuse k r b →
          let s2 := s1.violation (puIndex i j) (w.inj i).toNat act x.1 q.addr q.mtag k r b
          exec x.2 s = .next (s2.setNi i j ((s2.ni i j).queue (req x.1 (some Resp.PROT) 0 0 0))))) ∧
      (beatsOk Qop.DOORBELL q = true → w.guaranteeOk i j q = true →
        let r := req Qop.DOORBELL none w.build.dbep 0 0
        let s2 := s1.violation (puIndex i j) (w.inj i).toNat act Qop.DOORBELL q.addr q.mtag vUnowned 0x3F 0
        (255 < fld q.addr 0 10 → exec (.doorbell t p q) s = refused Qop.DOORBELL) ∧
        (fld q.addr 0 10 ≤ 255 → 7 < w.puDom (puIndex i j) →
          exec (.doorbell t p q) s = .next (s2.setNi i j ((s2.ni i j).queue (req Qop.DOORBELL (some Resp.PROT) 0 0 0)))) ∧
        (fld q.addr 0 10 ≤ 255 → w.puDom (puIndex i j) ≤ 7 →
          exec (.doorbell t p q) s = .next (s1.setNi i j ((s1.ni i j).queue { r with hold := (s1.ni i j).mustHold r }))))) ∧
    (∀ (beats : List Line) (be : BitVec 64),
      let v := s.niEnter i j beats.length
      let m := v.ni i j
      (s.dReady i j beats.length = false → exec (.dlastBeat t p beats be) s = .next s) ∧
      (∀ r, s.dReady i j beats.length = true → m.dwait = some r →
        (beats.length = r.q.beats.toNat → r.refuse = none → exec (.dlastBeat t p beats be) s =
          .next (v.setNi i j { m with dwait := none, injq := m.injq ++ [{ r with data := dataFlits r.op r.q.atop r.q.len.toNat be beats, dbe := be }] })) ∧
        (beats.length ≠ r.q.beats.toNat → r.refuse = none → exec (.dlastBeat t p beats be) s = .next (v.setNi i j m)) ∧
        (∀ c, r.refuse = some c → exec (.dlastBeat t p beats be) s =
          .next (v.setNi i j { m with dwait := none, sresp := m.sresp ++ [localAns r c] })))) ∧
    (s.pst i = 5 ∨ s.pst i = 6 ∨ n.epLow = true ∨ n.epUp = false ∨ n.clkStop = true →
      exec (.responseLeavesOnS t p) s = .next s.recheck ∧ ∀ x ∈ ops, exec x.2 s = .next o) ∧
    (∀ a rest, s.pst i ≠ 5 → s.pst i ≠ 6 → n.epLow = false → n.epUp = true → n.clkStop = false → n.sresp = a :: rest →
      exec (.responseLeavesOnS t p) s = .next ((s.setNi i j { n with sresp := rest }).puLeave (puIndex i j) a.pu).recheck)

/-- Responses at an initiator (R108, R116, R117, R127): the response that stands first, a WACK or any other as commanded, ends the request of its TAG: it is passed to the master with its code, reserved codes read as DECERR, and data only with OK; of a request lost to a reset, or of none, it is only counted in LATE. A response timer that runs ends its request with TIMEOUT and holds the TAG out of use for 16 times as long, also that of a request which a forced disable abandoned; the hold's end returns it. -/
def Obligations.ResponsesReachTheMaster : Prop :=
  ∀ (s : State) (t : Tile) (p : LPort) (k : Pkt) (rest : List Pkt) (tag : BitVec 12),
    let i := t.val
    let j := p.val
    let n := s.ni i j
    s.kind i j = .initiator → s.canon →
    (n.rx = k :: rest →
      let cmd : Instr := if k.cmd = Cmd.WACK then .wack t p else .rdata t p
      let other : Instr := if k.cmd = Cmd.WACK then .rdata t p else .wack t p
      exec other s = .next s.recheck ∧
      (∀ o outs, extract (fun (o : NiOut) => o.tag == k.tag) n.outs = some (o, outs) →
        (o.lost = false →
          let code := respRead k.resp
          exec cmd s = .next (s.setNi i j { n with rx := rest, outs := outs, sresp := n.sresp ++ [⟨o.mtag, code, if code = Resp.OK then k.data else [], true, true, true, some o.stratum⟩] }).recheck) ∧
        (o.lost = true → exec cmd s =
          .next (((s.setNi i j { n with rx := rest, outs := outs }).puDown (puIndex i j) o.stratum).late i j).recheck)) ∧
      (extract (fun (o : NiOut) => o.tag == k.tag) n.outs = none → exec cmd s =
        .next ((s.setNi i j { n with rx := rest, held := n.held.filter (fun h => h.1 != k.tag), abandoned := n.abandoned.filter (fun a => a.1 != k.tag) }).late i j).recheck)) ∧
    (∀ o outs, 0 < s.rto i j → extract (fun (o : NiOut) => o.tag == tag) n.outs = some (o, outs) → o.lost = false →
      let s1 := s.until (o.at_ + s.rto i j * unit16)
      exec (.responseTimeout t p tag) s = .next (s1.setNi i j { n with outs := outs, held := n.held ++ [(tag, s1.cyc + 16 * s.rto i j * unit16)], sresp := n.sresp ++ [⟨o.mtag, Resp.TIMEOUT, [], false, true, true, some o.stratum⟩] }).recheck) ∧
    (∀ o outs, 0 < s.rto i j → extract (fun (o : NiOut) => o.tag == tag) n.outs = some (o, outs) → o.lost = true →
      let s1 := s.until (o.at_ + s.rto i j * unit16)
      exec (.responseTimeout t p tag) s = .next ((s1.setNi i j { n with outs := outs, held := n.held ++ [(tag, s1.cyc + 16 * s.rto i j * unit16)] }).puDown
        (puIndex i j) o.stratum).recheck) ∧
    (∀ a as, 0 < s.rto i j → extract (fun (o : NiOut) => o.tag == tag) n.outs = none → extract (fun (a : BitVec 12 × Nat) => a.1 == tag) n.abandoned = some (a, as) →
      let s1 := s.until (a.2 + s.rto i j * unit16)
      exec (.responseTimeout t p tag) s =
        .next (s1.setNi i j { n with abandoned := as, held := n.held ++ [(tag, s1.cyc + 16 * s.rto i j * unit16)] }).recheck) ∧
    (s.rto i j = 0 → exec (.responseTimeout t p tag) s = .next s.recheck) ∧
    (∀ h hs, extract (fun (h : BitVec 12 × Nat) => h.1 == tag) n.held = some (h, hs) →
      exec (.tagHoldExpiry t p tag) s = .next ((s.until h.2).setNi i j { n with held := hs })) ∧
    (extract (fun (h : BitVec 12 × Nat) => h.1 == tag) n.held = none → exec (.tagHoldExpiry t p tag) s = .next s)

/-- Requests at a target or memory NI, and messages (R56, R60, R115, R118, R124, R125, R127, R128): the request that stands first is presented under a free tag, or turned away with a code where it has an answer and dropped where it has none; QVALID is raised for the one that stands first of those not taken, and the timer runs from then; the endpoint takes the presented ones in order; its answer, or the timer's TIMEOUT, is sent to the requester; an answer after the TIMEOUT only counts LATE. A message enters its mailbox and is answered OK, RETRY where it is full, DECERR where it is not enabled; the entry that stands on Q is the one delivered, and mailboxes take their turn there. A request that arrives at a port that is not ENABLED, or during the reset of a target's or memory's endpoint, is turned away on arrival (DEDUCED, notes/assumptions/153.md). At an endpoint in reset, not reconnected or without its clock, and at one of an OFF tile (R369), nothing transfers; while the tile's core does not run, an answer enters the crossing and wakes the tile, and none is taken once sixteen beats stand there (R382). A port whose disable has just completed with ENABLE set stays DISABLED for one cycle, which passes before the command (the model's choice: log entry 98). -/
def Obligations.TargetsPresentAndAnswer : Prop :=
  ∀ (s : State) (t : Tile) (p : LPort) (k : Pkt) (rest : List Pkt) (mtag : BitVec 8) (old : W),
    let i := t.val
    let j := p.val
    let n := s.ni i j
    let np := (answerOf k.cmd).isSome
    let cmds : List (BitVec 6 × Option W × Instr) :=
      [(Cmd.RD, none, .rd t p mtag), (Cmd.WR, none, .wr t p mtag), (Cmd.WRN, none, .wrn t p mtag), (Cmd.ATM, some old, .atm t p mtag old),
       (Cmd.PKT, none, .pkt t p mtag)]
    let shut : Prop := s.pst i = 5 ∨ s.pst i = 6 ∨ n.epLow = true ∨ n.epUp = false ∨ n.clkStop = true
    (s.slaveKind i j = true → n.rx = k :: rest → ∀ x ∈ cmds,
      let o := s.niOpen i j
      (k.cmd ≠ x.1 → exec x.2.2 s = .next o) ∧
      (k.cmd = x.1 → ∀ code, o.turnAway i j k = some code →
        let s1 := o.setNi i j { n with rx := rest }
        exec x.2.2 s = .next (if np then s1.niAnswer i j k code 0 [] else s1.drop i j)) ∧
      (k.cmd = x.1 → o.turnAway i j k = none → shut → exec x.2.2 s = .next o) ∧
      (k.cmd = x.1 → o.turnAway i j k = none → ¬ shut → (∀ y ∈ n.pres, y.mtag ≠ mtag) →
        let qaddr : BitVec 48 := if s.kind i j = .memory then (k.addr.extractLsb' 0 32).zeroExtend 48 else k.addr
        exec x.2.2 s = .next (o.setNi i j { n with rx := rest, pres := qRaise o.cyc (n.pres ++
          [⟨mtag, k, qaddr, np, false, false, x.2.1, if x.1 = Cmd.ATM then atmStore k old else none, none⟩]) }))) ∧
    (∀ (c : Nat) (x : Pres) (xs : List Pres), (x.taken = false → qRaise c (x :: xs) = { x with at_ := some (x.at_.getD c) } :: xs) ∧
      (x.taken = true → qRaise c (x :: xs) = x :: qRaise c xs)) ∧
    (shut → exec (.targetQTransfer t p mtag) s = .next s ∧ (∀ code data, exec (.targetResponse t p mtag code data) s = .next s) ∧
      exec (.mailboxDelivery t p) s = .next s) ∧
    (s.slaveKind i j = true → ¬ shut → ∀ x, n.pres.find? (fun x => !x.taken) = some x → x.mtag = mtag →
      (x.np = true → exec (.targetQTransfer t p mtag) s =
        .next (s.setNi i j { n with pres := qRaise s.cyc (replaceFirst (fun y => y.mtag == mtag && !y.taken) (fun y => { y with taken := true }) n.pres) })) ∧
      (x.np = false → exec (.targetQTransfer t p mtag) s = .next (s.setNi i j { n with pres := qRaise s.cyc (n.pres.filter (fun y => y.mtag != mtag)) }))) ∧
    (∀ (code : BitVec 4) (data : List Line), s.coreRuns i = false → 16 < n.xin + max 1 data.length →
      exec (.targetResponse t p mtag code data) s = .next s) ∧
    (s.slaveKind i j = true → ¬ shut → ∀ (code : BitVec 4) (data : List Line) x xs,
      s.coreRuns i = true ∨ n.xin + max 1 data.length ≤ 16 →
      extract (fun (x : Pres) => x.mtag == mtag && x.taken) n.pres = some (x, xs) →
      let u := (s.niEnter i j (max 1 data.length)).wake i true
      let left := u.setNi i j { u.ni i j with pres := xs }
      (x.dead = true → exec (.targetResponse t p mtag code data) s = .next (left.late i j)) ∧
      (x.dead = false → respRead code ≠ Resp.OK → exec (.targetResponse t p mtag code data) s =
        .next (left.niAnswer i j x.pkt (respRead code) x.pkt.lenm1 [])) ∧
      (x.dead = false → code = Resp.OK → data.length = flitsFor (x.pkt.lenm1.toNat + 1) → exec (.targetResponse t p mtag code data) s =
        .next (left.niAnswer i j x.pkt Resp.OK x.pkt.lenm1 (answerData x data)))) ∧
    (s.canon → s.coreRuns i = false → ∀ b, ((s.niEnter i j b).ni i j).xin = n.xin + b) ∧
    (s.coreRuns i = true → ∀ b, s.niEnter i j b = s) ∧
    (s.slaveKind i j = true → let o := s.niOpen i j
      (∀ code, o.niState i j ≠ niEnabled ∨ (s.ni i j).epLow = true → o.turnAway i j k = some code →
        s.arriveRx i j k = if np then o.niAnswer i j k code 0 [] else o.drop i j) ∧
      (o.niState i j ≠ niEnabled ∨ (s.ni i j).epLow = true → (o.turnAway i j k).isSome = true) ∧
      (o.niState i j = niEnabled → (s.ni i j).epLow = false → s.arriveRx i j k = o.setNi i j { n with rx := n.rx ++ [k] })) ∧
    (s.slaveKind i j = true → 0 < s.rto i j → ∀ x, n.pres.find? (fun x => x.mtag == mtag && x.np && !x.dead && x.at_.isSome) = some x →
      exec (.targetTimeout t p mtag) s = .next (((s.until (x.at_.getD 0 + s.rto i j * unit16)).setNi i j
        { n with pres := replaceFirst (fun y => y.mtag == mtag && y.np && !y.dead) (fun y => { y with dead := true }) n.pres }).niAnswer i j x.pkt Resp.TIMEOUT 0 [])) ∧
    (s.kind i j = .message → n.rx = k :: rest →
      let m := fld k.addr 0 4
      let o := s.niOpen i j
      let s1 := o.setNi i j { n with rx := rest }
      (o.niState i j ≠ niEnabled ∨ fld k.addr 4 44 ≠ 0 ∨ s.gb (aNimbox i j m) TL_NIMBOX.EN = false →
        exec (.msg t p) s = .next (s1.niAnswer i j k Resp.DECERR 0 [])) ∧
      (o.niState i j = niEnabled → fld k.addr 4 44 = 0 → s.gb (aNimbox i j m) TL_NIMBOX.EN = true →
        (s.mboxDepth i j m ≤ n.mboxCount m ∨ 256 ≤ n.mbox.length → exec (.msg t p) s = .next (s1.niAnswer i j k Resp.RETRY 0 [])) ∧
        (n.mboxCount m < s.mboxDepth i j m → n.mbox.length < 256 →
          let s2 := (o.setNi i j ({ n with rx := rest, mbox := n.mbox ++ [⟨m, k⟩] } : Ni).mboxShow).niAnswer i j k Resp.OK 0 []
          exec (.msg t p) s = .next (if n.mboxCount m = 0 ∧ s.gb (aNimbox i j m) TL_NIMBOX.EVT = true then s2.raiseTile i j else s2)))) ∧
    (s.kind i j = .message → ¬ shut → ∀ m x xs, n.mboxQ = some m ∨ n.mboxQ = none ∧ n.nextBox = some m →
      extract (fun (e : MboxEntry) => e.box == m) n.mbox = some (x, xs) →
      let left : Ni := { n with mbox := xs, mboxLast := m }
      exec (.mailboxDelivery t p) s = .next (s.setNi i j { left with mboxQ := left.nextBox }))

/-- Control of a port (R123, R127 to R129): the endpoint's reset flushes its crossing and answers, drops or marks what was under way by the kind of the port, at a target or memory NI what waits before it too (each by the order of the codes of R62: DEDUCED, notes/assumptions/153.md); its release asks to reconnect; a port is disabled through DISABLING and enabled from DISABLED, from the cycle after ENABLE was set or the disable completed; a disable completes when nothing is outstanding, or is forced when ABTO has passed, which ends every request of the port: nothing waits to be injected or presented, and a posted one whose flits stood on the wires is answered ABORTED; a FLIP's slot banks switch at a wrap of the slot tables. -/
def Obligations.PortControl : Prop :=
  ∀ (s : State) (t : Tile) (p : LPort) (force : Bool), s.canon →
    let i := t.val
    let j := p.val
    let n := s.ni i j
    let o := aNicfg i j
    (n.epLow = true → exec (.endpointResetAssert t p) s = .next s.recheck) ∧
    (n.epLow = false → s.kind i j = .message → exec (.endpointResetAssert t p) s =
      .next ((((s.flushDomain i).setNi i j { n with epLow := true, epUp := false, mbox := [], mboxQ := none }).drop i j n.mbox.length).recheck)) ∧
    (n.epLow = false → s.slaveKind i j = true → exec (.endpointResetAssert t p) s =
      let u := ((s.flushDomain i).setNi i j { n with epLow := true, epUp := false, pres := [] }).losePres i j n.pres
      let away (v : State) (k : Pkt) : State :=
        if (answerOf k.cmd).isSome then v.niAnswer i j k ((u.turnAway i j k).getD Resp.TIMEOUT) 0 [] else v.drop i j
      .next ((n.rx.foldl away (u.setNi i j { u.ni i j with rx := [] })).recheck)) ∧
    (n.epLow = false → s.kind i j = .initiator → ∃ u : State, exec (.endpointResetAssert t p) s = .next u.recheck ∧
      (u.ni i j).epLow = true ∧ (u.ni i j).injq = [] ∧ (u.ni i j).sresp = [] ∧ (u.ni i j).dwait = none ∧ (∀ x ∈ (u.ni i j).outs, x.lost = true) ∧
      (u.ni i j).going.length = n.going.length ∧ (∀ g ∈ (u.ni i j).going, g.owed = false)) ∧
    exec (.endpointResetRelease t p) s = .next (s.setNi i j { n with epLow := false }) ∧
    (s.kind i j ≠ .none → s.kind i j ≠ .engine →
      (s.niState i j = niEnabled → ∃ u, exec (.portDisable t p force) s = .next u ∧ u.niState i j = niDisabling ∧ u.gb o TL_NICFG.ENABLE = false ∧
        u.gb o TL_NICFG.FORCE = force ∧ u.ni i j = { n with disAt := s.cyc } ∧ u.qReady i j = false) ∧
      (s.niState i j ≠ niEnabled → exec (.portDisable t p force) s = .next ((s.pb o TL_NICFG.ENABLE false).pb o TL_NICFG.FORCE force)) ∧
      (s.niState i j = niDisabled → s.gb o TL_NICFG.ENABLE = false → ∃ u, exec (.portEnable t p) s = .next u ∧ u.niState i j = niDisabled ∧
        State.niState { u with cyc := s.cyc + 1 } i j = niEnabled ∧ u.gb o TL_NICFG.ENABLE = true ∧ u.ni i j = { n with disAt := s.cyc } ∧
        (∀ a, a ≠ o → u.rd a = s.rd a)) ∧
      (s.gb o TL_NICFG.ENABLE = true → exec (.portEnable t p) s = .next (s.pb o TL_NICFG.ENABLE true)) ∧
      (s.niState i j = niDisabling → ∃ u, exec (.portEnable t p) s = .next u ∧ u.niState i j = niDisabling ∧ u.gb o TL_NICFG.ENABLE = true)) ∧
    (s.niState i j = niDisabling → s.outstd i j = 0 → n.mbox = [] →
      let u := (s.raiseTile i j).p o TL_NICFG.STATE niDisabled
      exec (.disableComplete t p) s = .next (u.setNi i j { u.ni i j with disAt := u.cyc })) ∧
    (s.outstd i j ≠ 0 → exec (.disableComplete t p) s = .next s) ∧
    (s.niState i j = niDisabling → s.gb o TL_NICFG.FORCE = true → exec (.abortTimeout t p) s =
      .next (((s.until (n.disAt + s.g o TL_NICFG.ABTO * unit16)).niAbort i j).nowDisabled i j).recheck) ∧
    (s.kind i j = .initiator → let u := s.niAbort i j
      (u.ni i j).injq = [] ∧ (u.ni i j).outs = [] ∧ (u.ni i j).dwait = none ∧ (∀ g ∈ (u.ni i j).going, g.owed = false) ∧
      ∀ g ∈ n.going, g.owed = true → ⟨g.mtag, Resp.ABORTED, [], false, false, true, none⟩ ∈ (u.ni i j).sresp) ∧
    (s.slaveKind i j = true → let u := s.niAbort i j
      (u.ni i j).rx = [] ∧ (∀ x ∈ (u.ni i j).pres, x.dead = true) ∧
      (u.ni i j).rspq.length = n.rspq.length + (n.pres.filter (fun x => x.np && !x.dead)).length + (n.rx.filter (fun k => (answerOf k.cmd).isSome)).length) ∧
    (s.gb o TL_NICFG.FORCE = false → exec (.abortTimeout t p) s = .next s.recheck) ∧
    (s.nis.any (fun kv => kv.2.slotOld) = false → exec .slotBankSwitch s = .next s) ∧
    (s.nis.any (fun kv => kv.2.slotOld) = true → ∃ u, exec .slotBankSwitch s = .next u ∧ s.switchWrap ≤ u.cyc ∧ u.regs = s.regs ∧
      (n.slotOld = true → (u.ni i j).slotBank = s.inj i ∧ (u.ni i j).slotOld = false) ∧ (n.slotOld = false → u.ni i j = n))

/-- The buffer manager (R161 to R164): an allocation answers as many cells as it could take, the rest all ones, with event 833, at most once in a management cycle, when they are fewer than asked; a free pushes every cell named and answers a WRN; INIT takes the configuration over with every data cell free and every pool empty, refuses INIT alone while a packet is held, and its end sets READY with event 832. The cells that an allocation takes are data cells, no more than asked, and the pool holds that many more, never above MAXHELD. An ENQ (R165, R167 to R169, R179): malformed, or bound for a queue that no scheduler owns or that is not enabled, it is answered DECERR; otherwise OK; a packet that is admitted joins the queue as its last record, in the scheduler's store where there is room and nothing of the queue stands in memory (the model's reading: notes/assumptions/47.md), with TAIL and CELLS moved on; a packet that is dropped, by its hard policer or at step 3, frees every cell it names, an extension cell's once that has been read, and counts in DROPS. While the QP has no TAG left for one more request, its ENQs wait (R59; the model's reading: notes/assumptions/139.md). -/
def Obligations.BufferAndEnqueue : Prop :=
  ((∀ (s : State) (q : QpId) (picks : List Nat) (k : Pkt) (rest : List Pkt),
     (extract (fun (k : Pkt) => k.cmd == Cmd.RD) (s.tmRx q.val) = some (k, rest) →
       let n := (k.lenm1.toNat + 1) / 4
       ∀ u cps, (s.setTmRx q.val rest).allocCells (fld k.addr 8 5) n picks = some (u, cps) →
         let a := u.tmAnswer q.val k Resp.OK k.lenm1 (linesOf (cps ++ List.replicate (n - cps.length) 0xFFFFFFFF))
         exec (.allocate q picks) s = .next (if cps.length < n then a.oncePer 833 (fun a => a.raiseTm q.val 833) else a)) ∧
     (∀ f (u : State), (tget 0 u.evc.once 833 = u.mgtCycle + 1 → u.oncePer 833 f = u) ∧
       (tget 0 u.evc.once 833 ≠ u.mgtCycle + 1 → u.oncePer 833 f = f (u.setOnce 833 (u.mgtCycle + 1)))) ∧
     (extract (fun (k : Pkt) => k.cmd == Cmd.WR || k.cmd == Cmd.WRN) (s.tmRx q.val) = some (k, rest) →
       exec (.freeCells q) s = .next (((s.setTmRx q.val rest).freeAll (fld k.addr 8 5) (freePtrs k)).tmAnswer q.val k Resp.OK 0 []))) ∧
   (∀ (s : State) (pool n : Nat) (picks : List Nat) (u : State) (cps : List Nat), s.regsOk → s.allocCells pool n picks = some (u, cps) →
     cps.length ≤ n ∧ (∀ c ∈ cps, s.cpData c = true) ∧ u.g (aPoolq pool) TM_POOLQ.HELD = s.g (aPoolq pool) TM_POOLQ.HELD + cps.length ∧
     (cps ≠ [] → u.g (aPoolq pool) TM_POOLQ.HELD ≤ s.g (aPoolq pool) TM_POOLQ.MAXHELD)) ∧
   (∀ (s : State) (m : Master) (v : W),
     (s.sqRight m = false → exec (.pbcfgInit m v) s = .next s) ∧
     (s.sqRight m = true → bitOf v 63 = false → exec (.pbcfgInit m v) s = .next (s.wr aPbcfg (v &&& maskOf .sq rowsTM_PBCFG))) ∧
     (s.sqRight m = true → bitOf v 63 = true → s.tmEmpty = false → exec (.pbcfgInit m v) s =
       .next (((s.wr aPbcfg (v &&& maskOf .sq rowsTM_PBCFG)).pb aBmstat TM_BMSTAT.CFGREJ true).raiseTm 0 837)) ∧
     (s.sqRight m = true → bitOf v 63 = true → s.tmEmpty = true → s.regsOk → ∃ u, exec (.pbcfgInit m v) s = .next u ∧
       u.tm.cfg = v &&& maskOf .sq rowsTM_PBCFG ∧ u.tm.alloc = [] ∧ u.tm.initBusy = true ∧
       (∀ p, p < 32 → u.g (aPoolq p) TM_POOLQ.HELD = 0) ∧ (∀ cp, u.cpData cp = true → u.onList cp = true)) ∧
     (s.tm.initBusy = true → exec .initComplete s =
       .next (({ s with tm := { s.tm with initBusy := false } }.pb aBmstat TM_BMSTAT.READY true).raiseTm 0 832)) ∧
     (s.tm.initBusy = false → exec .initComplete s = .next s))) ∧
  ((∀ (s : State) (qp : QpId) (cls : BitVec 2) (k : Pkt) (rest : List Pkt),
     (s.qpTagFree qp.val = false → exec (.enq qp cls) s = .next s) ∧
     (extract (fun (k : Pkt) => k.cmd == Cmd.ENQ && k.cls == cls) (s.tmRx qp.val) = some (k, rest) → s.qpTagFree qp.val = true →
     let s1 := s.setTmRx qp.val rest
     let r := s1.ftLookup qp.val k.fkey (enqLen k) (enqLearn k)
     let q := match r.2 with
       | some i => if r.1.bitAt (aFt i 2) 61 then fld (r.1.rd (aFt i 2)) 0 16 else k.qid.toNat
       | none => k.qid.toNat
     (s.enqWellFormed k = false → exec (.enq qp cls) s = .next (s1.tmAnswer qp.val k Resp.DECERR 0 [])) ∧
     (s.enqWellFormed k = true → r.1.ownerOf q = none ∨ r.1.gb (aQdesc q 0) TM_QDESC0.EN = false →
       exec (.enq qp cls) s = .next (r.1.tmAnswer qp.val k Resp.DECERR 0 [])) ∧
     (∀ es, s.enqWellFormed k = true → r.1.ownerOf q = some es → r.1.gb (aQdesc q 0) TM_QDESC0.EN = true →
       let l := r.1.lenAt es (enqLen k)
       let m := { r.1 with pm := { r.1.pm with cells := r.1.pm.cells + enqCells k } }.enqMeter es q l (enqColor k)
       let pol := m.1.policerOf es q
       let full := m.1.admissionDrops q (cellsOf (enqCells k))
       (r.1.qmap (r.1.treeBank es) q TM_QMAP.POLICE = 0 → m.2 = enqColor k ∧ pol = none) ∧
       (pol = none → full = false →
         exec (.enq qp cls) s = .next ((m.1.enqueueRec qp.val es q (enqRec k q m.2 r.2)).tmAnswer qp.val k Resp.OK 0 [])) ∧
       (∀ i, pol = some i → l * mtUnit ≤ m.1.polTok i → full = false →
         exec (.enq qp cls) s = .next (((m.1.setPol i (m.1.polTok i - l * mtUnit)).enqueueRec qp.val es q (enqRec k q m.2 r.2)).tmAnswer qp.val k Resp.OK 0 [])) ∧
       (∀ i, pol = some i → m.1.polTok i < l * mtUnit →
         exec (.enq qp cls) s = .next ((((m.1.sat (aPolb i) TM_POLB.DROPPED).dropCells qp.val es q k).dropAt qp.val q).tmAnswer qp.val k Resp.OK 0 [])) ∧
       (m.1.policerDrops pol l = false → full = true →
         exec (.enq qp cls) s = .next (((m.1.dropCells qp.val es q k).dropAt qp.val q).tmAnswer qp.val k Resp.OK 0 []))))) ∧
   (∀ (s : State) (port es q : Nat) (k : Pkt),
     (enqCells k ≤ 17 → s.dropCells port es q k = s.freeAll (enqPool k) (enqCp0 k :: enqSlots k)) ∧
     (17 < enqCells k → let u := s.dropCells port es q k
       u.regs = s.regs ∧ u.tm.lists = s.tm.lists ∧ ∃ tag, u.tm.xdrops = s.tm.xdrops ++ [⟨port, tag, enqPool k, enqCp0 k :: enqSlots k, enqCells k - 16⟩])) ∧
   (∀ (s : State) (port es q : Nat) (r : Rec), s.canon → (s.queue q).recs ≠ [] ∨ q < 65536 ∧ es < 32 →
     let x := s.queue q
     let direct := x.recs.all (fun e => e.at_ != .memory) && s.storeRoom es q
     let u := s.enqueueRec port es q r
     (u.queue q).recs = x.recs ++ [⟨r, if direct then .store else .memory, s.g (aQdesc q 2) TM_QDESC2.TAIL⟩] ∧
     u.g (aQdesc q 2) TM_QDESC2.TAIL = (s.g (aQdesc q 2) TM_QDESC2.TAIL + 1) % 2 ^ 24 ∧
     u.g (aQdesc q 2) TM_QDESC2.HEAD = s.g (aQdesc q 2) TM_QDESC2.HEAD ∧
     u.g (aQdesc q 3) TM_QDESC3.CELLS = (s.g (aQdesc q 3) TM_QDESC3.CELLS + cellsOf r.ncells) % 2 ^ 30))

/-- The flow table (R178 to R183): the learn engine drops a key that is there, writes one into the first free slot of its buckets, moves entries where they are full and a path is found, and counts FULL with event 834 where none is; a key that it inserted is found. The age clock counts; the scanner invalidates exactly the idle entries of its next bucket. A write of an entry by a master with the right takes its writable bits, and COUNT follows its valid bit; one to a slot of the path chosen stops the learn, and ABORT counts it: a move whose first write is done is brought to its end, and the key is not inserted. A move takes two cycles: in the first the entry stands in both slots, with its copy unseen by the lookups of that cycle; in the second the slot it leaves becomes invalid, and takes the new key where it was the last. That the key is written in that same cycle, and the order in which slots are looked at, are the model's choices (notes/assumptions/57.md, 15.md). -/
def Obligations.FlowTableLearnsAndAges : Prop :=
  (∀ (s : State) (key : BitVec 128) (len : Nat) (rest : List (BitVec 128 × Nat)), s.ft.cur = none → s.ft.learnq = (key, len) :: rest →
    let s1 := { s with ft := { s.ft with learnq := rest } }
    ((s.ftFind key).isSome = true → exec .learnInsert s = .next s1) ∧
    (∀ i, s.ftFind key = none → (s.candidates key).find? (fun i => !s.ftV i) = some i → exec .learnInsert s = .next (s1.ftInsert i key len)) ∧
    (∀ p, s.ftFind key = none → (s.candidates key).find? (fun i => !s.ftV i) = none → s.ftPath key = some p →
      exec .learnInsert s = .next (s1.learnStep ⟨key, len, p, p, none⟩)) ∧
    (s.ftFind key = none → (s.candidates key).find? (fun i => !s.ftV i) = none → s.ftPath key = none →
      exec .learnInsert s = .next ((s1.sat aFtCnt FT_CNT.FULL).raiseTm 0 834))) ∧
  (∀ (s : State) (l : Learn), s.ft.cur = some l → exec .learnInsert s = .next (s.learnStep l)) ∧
  (∀ (s : State) (l : Learn) (a b : Nat) (rest : List Nat), s.regsOk → s.ft.cur = some l → l.path.reverse = b :: a :: rest → a ≠ b → a < 131072 → b < 131072 →
    (l.half = none → ∃ u, exec .learnInsert s = .next u ∧ u.ftV a = s.ftV a ∧ u.ftV b = s.ftV a ∧ u.ftKey b = s.ftKey a ∧ u.ftUnseen b = true ∧
      u.ft = { s.ft with cur := some { l with half := some s.cyc } }) ∧
    (∀ c, l.half = some c → rest ≠ [] → ∃ u, exec .learnInsert s = .next u ∧ u.ftV a = false ∧ u.ftV b = s.ftV b ∧ u.ftKey b = s.ftKey b ∧
      u.ft = { s.ft with cur := some { l with path := (a :: rest).reverse, half := none } }) ∧
    (∀ c, l.half = some c → rest = [] → ∃ u, exec .learnInsert s = .next u ∧ u.ftV a = true ∧ u.ftKey a = l.key ∧ u.ftV b = s.ftV b ∧
      u.ftKey b = s.ftKey b ∧ u.ft = { s.ft with cur := none })) ∧
  (∀ (s : State) (key : BitVec 128) (len i : Nat), s.regsOk → s.ft.cur = none → s.ftFind key = none → (s.candidates key).find? (fun i => !s.ftV i) = some i →
    (s.ftInsert i key len).ftFind key = some i) ∧
  (∀ s : State, exec .ageClockTick s = .next { s with ft := { s.ft with age := s.ft.age + 1 } }) ∧
  (∀ s : State, s.gb aFtCfg FT_CFG.AGEEN = false → exec .ageScan s = .next s) ∧
  (∀ s : State, s.regsOk → s.gb aFtCfg FT_CFG.AGEEN = true → ∃ u, exec .ageScan s = .next u ∧ u.ft = { s.ft with scan := (s.ft.scan + 1) % 16384 } ∧
    ∀ i, i < 131072 → u.ftV i = (s.ftV i && !((bucketSlots (s.ft.scan / 8192) (s.ft.scan % 8192)).contains i && s.ftIdle i)) ∧ u.ftKey i = s.ftKey i) ∧
  (∀ (s : State) (m : Master) (w : Fin 524288) (v : W),
    (s.sqRight m = false → exec (.ftEntryWrite m w v) s = .next s) ∧
    (s.sqRight m = true → s.regsOk → s.ft.cur = none → ∃ u, exec (.ftEntryWrite m w v) s = .next u ∧
      u.rd (aFt (w.val / 4) (w.val % 4)) = v &&& maskOf .sq (rowsFtEntry (w.val % 4)) ∧ s.writesOnly u [aFt (w.val / 4) (w.val % 4), aFtStat] ∧
      (u.ftV (w.val / 4) = s.ftV (w.val / 4) → u.g aFtStat FT_STAT.COUNT = s.g aFtStat FT_STAT.COUNT) ∧
      (s.ftV (w.val / 4) = false → u.ftV (w.val / 4) = true → u.g aFtStat FT_STAT.COUNT = (s.g aFtStat FT_STAT.COUNT + 1) % 2 ^ 18) ∧
      (s.ftV (w.val / 4) = true → u.ftV (w.val / 4) = false → u.g aFtStat FT_STAT.COUNT = s.g aFtStat FT_STAT.COUNT - 1)) ∧
    (∀ l, s.sqRight m = true → s.regsOk → s.ft.cur = some l → l.half = none → l.slots.contains (w.val / 4) = true →
      ∃ u, exec (.ftEntryWrite m w v) s = .next u ∧ u.ft = { s.ft with cur := none } ∧
        u.g aFtCnt FT_CNT.ABORT = satSum FT_CNT.ABORT.w (s.g aFtCnt FT_CNT.ABORT) 1) ∧
    (∀ l c a b rest, s.sqRight m = true → s.regsOk → s.ft.cur = some l → l.half = some c → l.path.reverse = b :: a :: rest → a ≠ b → a < 131072 → b < 131072 →
      l.slots.contains (w.val / 4) = true →
      ∃ u, exec (.ftEntryWrite m w v) s = .next u ∧ u.ft = { s.ft with cur := none } ∧
        u.g aFtCnt FT_CNT.ABORT = satSum FT_CNT.ABORT.w (s.g aFtCnt FT_CNT.ABORT) 1 ∧
        (w.val / 4 ≠ a → u.ftV a = false) ∧ (w.val / 4 ≠ b → u.ftV b = s.ftV b ∧ u.ftKey b = s.ftKey b)))

/-- A scheduler (R169, R174 to R177, R196, R199, R217): a scheduler that is not enabled decides nothing, but for the switch of its tree, which each decision makes first (DEDUCED, notes/assumptions/53.md); an enabled one tries its classes from 7 down to 0, after the switch of its tree; a charge to a shaper leaves the tokens that the other decisions of its cycle test (log entry 7); the queue that its group picks is eligible, and its deficit covers the packet. A read of a record goes out for the first that stands in memory; an answer reaches the read of its tag; a packet is delivered when every read of it has returned, to its two endpoints in turn with DUAL, and its cells are freed once its last delivery has left, also before an older packet's of another class; a pending gate list starts at its time. -/
def Obligations.SchedulersDecideReadAndDeliver : Prop :=
  (∀ (s : State) (k : EsId) (qid : BitVec 16),
    (let u := (s.decides k.val).switchTree k.val;
      (s.treeBank k.val = bitOf s.tm.flipTree k.val → u = s.decides k.val) ∧
      (u.gb (aEscfg k.val) TM_ESCFG.EN = false ∨ u.lrate k.val = 0 ∨ u.pTok k.val < 0 ∨ 64 ≤ u.dispCount k.val → exec (.dequeueDecision k) s = .next u) ∧
      (u.gb (aEscfg k.val) TM_ESCFG.EN = true → u.lrate k.val ≠ 0 → 0 ≤ u.pTok k.val → u.dispCount k.val < 64 →
        exec (.dequeueDecision k) s = .next (u.classes k.val [7, 6, 5, 4, 3, 2, 1, 0]))) ∧
    (s.canon → ∀ i l, (s.chargeSh i l).shTok i = s.shTok i - (l * shUnit : Nat) ∧ (s.chargeSh i l).shStart i = s.shStart i) ∧
    (s.tm.dcyc ≠ s.cyc → ∀ i, (s.decides k.val).shStart i = s.shTok i) ∧
    (∀ e, (s.queue qid.toNat).recs.find? (fun e => e.at_ == .memory) = some e → s.ownerOf qid.toNat = some k.val → s.storeRoom k.val qid.toNat = true →
      s.bufUsed k.val < 512 → (∀ w ∈ s.tm.wrns, ¬ (w.qid = qid.toNat ∧ w.idx = e.idx)) →
      ∃ u, exec (.recordRead k qid) s = .next u ∧ (∃ r ∈ u.recReads k.val, r.qid = qid.toNat ∧ r.idx = e.idx) ∧ u.regs = s.regs ∧ u.routers = s.routers) ∧
    ((s.queue qid.toNat).recs.find? (fun e => e.at_ == .memory) = none → exec (.recordRead k qid) s = .next s) ∧
    (∀ rid resp data p rest, extract (fun (p : Pkt) => p.tag.toNat == rid && p.resp == resp && p.data == data) (s.tmRx (16 + k.val)) = some (p, rest) →
      exec (.cellReadResponse k rid resp data) s =
        .next (((s.setTmRx (16 + k.val) rest).spAnswer k.val rid (decide (resp = Resp.OK)) data).issueReads k.val)) ∧
    (s.nextDelivery k.val = none → exec (.delivery k) s = .next s) ∧
    (∀ i x, s.nextDelivery k.val = some i → (s.disp k.val)[i]? = some x →
      (x.issued = false ∨ x.tags ≠ [] → exec (.delivery k) s = .next s) ∧
      (x.issued = true → x.tags = [] → s.gb (aEsout k.val) TM_ESOUT.DUAL = true →
        let second := bitOf s.tm.alt k.val
        let dest := BitVec.ofNat 10 (s.g (aEsout k.val) (if second then TM_ESOUT.DEST1 else TM_ESOUT.DEST0))
        let ws := (List.range x.reads.length).filterMap (fun j => (x.reads[j]?).map (s.deliveryWr k.val dest x j))
        exec (.delivery k) s = .next ((ws.foldl (fun (u : State) w => u.tmSend (16 + k.val) w)
          { s with tm := { s.tm with alt := putBit s.tm.alt k.val (!second) } }).setDisp k.val ((s.disp k.val).set i { x with delivered := true }))) ∧
      (x.issued = true → x.tags = [] → s.gb (aEsout k.val) TM_ESOUT.DUAL = false →
        let dest := BitVec.ofNat 10 (s.g (aEsout k.val) TM_ESOUT.DEST0)
        let ws := (List.range x.reads.length).filterMap (fun j => (x.reads[j]?).map (s.deliveryWr k.val dest x j))
        exec (.delivery k) s = .next ((ws.foldl (fun s w => s.tmSend (16 + k.val) w) s).setDisp k.val ((s.disp k.val).set i { x with delivered := true })))) ∧
    (let waits (x : Sel) : Prop := ∃ p ∈ tget [] s.tm.outq (16 + k.val), p.cmd = Cmd.WR ∧ fld p.addr 36 12 = x.seq
     (∀ x before after, s.disp k.val = before ++ x :: after → x.delivered = true → ¬ waits x → (∀ y ∈ before, y.delivered = true → waits y) →
       exec (.lastDeliveryInjected k) s =
         .next (((s.setDisp k.val (before ++ after)).freeAll x.rec_.pool (x.cells ++ (recExt x.rec_).toList)).issueReads k.val)) ∧
     ((∀ y ∈ s.disp k.val, y.delivered = true → waits y) → exec (.lastDeliveryInjected k) s = .next s)) ∧
    ((s.gate k.val).pend = none → exec (.gateListStart k) s = .next s) ∧
    (∀ st, (s.gate k.val).pend = some st → s.canon → ∃ u, exec (.gateListStart k) s = .next u ∧
      u.gate k.val = ⟨!(s.gate k.val).bank, st, none⟩ ∧ s.cyc + s.cyclesTo st ≤ u.cyc)) ∧
  (∀ (s : State) (k g q : Nat) (l : List Nat) (u : State), s.canon → s.drrPick k g l = (u, some q) →
    q ∈ l ∧ s.queueEligible k q = true ∧ (u.queue q).turn = true ∧
    (∀ e, (s.queue q).recs.head? = some e → s.lenAt k e.rec_.len ≤ (u.queue q).dc) ∧ u.regs = s.regs)

/-- Configuration of the traffic manager by a master with the right (R171, R172, R206, R209, R210): a shaper keeps what it accrued, and loses a debt only with FORGIVE; a meter's tokens above a new size are cut to it, and a reset fills its buckets; a policer's reset fills its bucket; a block of queues that is busy, or a scheduler's thirty-third, and the ring of a queue that is in use, are refused with CFGREJ and event 837; RBASE reads as it was written (the model's choice, notes/assumptions/146.md). Without the right nothing is written. -/
def Obligations.TrafficManagerConfiguration : Prop :=
  ∀ (s : State) (m : Master) (v : W),
    (s.sqRight m = false → ∀ i j k l (qid : BitVec 16) (w : Fin 4),
      exec (.shaperConfigWrite m i v) s = .next s ∧ exec (.meterConfigWrite m j w v) s = .next s ∧ exec (.meterReset m j) s = .next s ∧
      exec (.policerReset m k) s = .next s ∧ exec (.qpartWrite m l v) s = .next s ∧ exec (.qdescWrite m qid w v) s = .next s) ∧
    (s.sqRight m = true →
      (∀ i : Fin 8192, s.canon →
        ∃ u, exec (.shaperConfigWrite m i v) s = .next u ∧ u.rd (aShpcfg i.val) = v &&& maskOf .sq rowsTM_SHPCFG ∧
          (let t := min (s.shTok i.val) ((fld v 32 24 * shUnit : Nat) : Int)
           u.shTok i.val = if bitOf v 63 = true then max 0 t else t) ∧
          (∀ j, j ≠ i.val → u.shTok j = s.shTok j) ∧ (∀ o, o ≠ aShpcfg i.val → u.rd o = s.rd o) ∧
          u = { s with regs := u.regs, tm := { s.tm with sh := u.tm.sh, owed := u.tm.owed } }) ∧
      (∀ (j : Fin 16384), exec (.meterReset m j) s = .next (s.setMtr j.val (s.cbs j.val) (s.xbs j.val)) ∧
        exec (.meterConfigWrite m j 0 v) s = .next (s.wr (aMtr j.val 0) v) ∧
        exec (.meterConfigWrite m j 2 v) s = .next s ∧
        (let u := (s.p (aMtr j.val 3) TM_MTRD.AWARE (fld v 1 1)).p (aMtr j.val 3) TM_MTRD.MODE (fld v 0 1);
          exec (.meterConfigWrite m j 3 v) s = .next (if bitOf v 2 then u.setMtr j.val (u.cbs j.val) (u.xbs j.val) else u)) ∧
        (s.canon →
          ∃ u, exec (.meterConfigWrite m j 1 v) s = .next u ∧ u.rd (aMtr j.val 1) = v ∧
            (u.mtrTok j.val).1 ≤ fld v 0 32 * mtUnit ∧ (u.mtrTok j.val).2 ≤ fld v 32 32 * mtUnit ∧
            (∀ i, i ≠ j.val → u.mtrTok i = s.mtrTok i) ∧ (∀ o, o ≠ aMtr j.val 1 → u.rd o = s.rd o) ∧
            u = { s with regs := u.regs, tm := { s.tm with mtr := u.tm.mtr } })) ∧
      (∀ k : Fin 256, exec (.policerReset m k) s =
        .next { s with tm := { s.tm with pol := tput (0, 0) s.tm.pol k.val (s.g (aPola k.val) TM_POLA.BURST * mtUnit, s.runNow) } }) ∧
      (∀ l : Fin 1024, s.blockBusy l.val = true → v &&& maskOf .sq rowsTM_QPART ≠ s.rd (aQpart l.val) →
        exec (.qpartWrite m l v) s = .next ((s.pb aBmstat TM_BMSTAT.CFGREJ true).raiseTm 0 837)) ∧
      (∀ l : Fin 1024, bitOf v 5 = true → 32 ≤ ((List.range 1024).filter (fun j => j != l.val && s.gb (aQpart j) TM_QPART.V &&
          s.g (aQpart j) TM_QPART.ES == fld v 0 5)).length →
        exec (.qpartWrite m l v) s = .next ((s.pb aBmstat TM_BMSTAT.CFGREJ true).raiseTm 0 837)) ∧
      (∀ l : Fin 1024, s.blockBusy l.val = false ∨ v &&& maskOf .sq rowsTM_QPART = s.rd (aQpart l.val) →
        bitOf v 5 = false ∨ ((List.range 1024).filter (fun j => j != l.val && s.gb (aQpart j) TM_QPART.V && s.g (aQpart j) TM_QPART.ES == fld v 0 5)).length < 32 →
        exec (.qpartWrite m l v) s = .next (s.wr (aQpart l.val) (v &&& maskOf .sq rowsTM_QPART))) ∧
      (∀ qid : BitVec 16, exec (.qdescWrite m qid 1 v) s = .next (s.wr (aQdesc qid.toNat 1) (v &&& maskOf .sq rowsTM_QDESC1)) ∧
        exec (.qdescWrite m qid 2 v) s = .next (s.p (aQdesc qid.toNat 2) TM_QDESC2.DROPS (fld v 48 16)) ∧
        exec (.qdescWrite m qid 3 v) s = .next s ∧
        (let old := s.rd (aQdesc qid.toNat 0);
          let new := v &&& maskOf .sq rowsTM_QDESC0;
          let sameRing : Prop := fld old 56 5 = fld new 56 5 ∧ fld old 0 31 = fld new 0 31;
          let inUse := bitOf old 63 || !(s.queue qid.toNat).recs.isEmpty;
          (sameRing ∨ inUse = false → exec (.qdescWrite m qid 0 v) s = .next (s.wr (aQdesc qid.toNat 0) new)) ∧
          (¬ sameRing → inUse = true → exec (.qdescWrite m qid 0 v) s =
            .next (((s.wr (aQdesc qid.toNat 0) (setFld (setFld new 56 5 (fld old 56 5)) 0 31 (fld old 0 31))).pb aBmstat TM_BMSTAT.CFGREJ true).raiseTm 0 837)) ∧
          (¬ sameRing → inUse = true → s.canon → ∃ u, exec (.qdescWrite m qid 0 v) s = .next u ∧
            u.g (aQdesc qid.toNat 0) TM_QDESC0.RSZ = s.g (aQdesc qid.toNat 0) TM_QDESC0.RSZ ∧
            u.g (aQdesc qid.toNat 0) TM_QDESC0.RBASE = s.g (aQdesc qid.toNat 0) TM_QDESC0.RBASE ∧
            u.gb (aQdesc qid.toNat 0) TM_QDESC0.EN = bitOf v 63 ∧ u.gb aBmstat TM_BMSTAT.CFGREJ = true ∧ (∀ o, o ≠ aQdesc qid.toNat 0 → o ≠ aBmstat → u.rd o = s.rd o)))))

/-- What a protection unit lets pass (R225, R227 to R229): each byte of an allowed access lies in a page whose lowest-numbered covering rule grants the operation, or in none that a rule covers while PRIV is set; a unit of no domain below 8 allows nothing. -/
def Obligations.AllowedAccessesArePermitted : Prop :=
  ∀ (s : State) (i b st : Nat) (op : BitVec 4) (addr : BitVec 48) (len : BitVec 8) (c o : Nat),
    s.puCheck i b st op addr len = .allow c o →
    s.puDom i ≤ 7 ∧ ∀ n, n ≤ len.toNat →
      let page := (addr.toNat + n) / 4096
      (∃ r, r < 32 ∧ ruleCovers (s.puRule i b st r) page = true ∧ (∀ r', r' < r → ruleCovers (s.puRule i b st r') page = false) ∧
        fld (s.puRule i b st r).1 (permBit op).lo 1 = 1) ∨
      ((∀ r, r < 32 → ruleCovers (s.puRule i b st r) page = false) ∧
        s.g (aPuCtl i) (if st = 0 then PU_CTL.PRIV0 else PU_CTL.PRIV1) ≠ 0)

/-- Writes of registers (R9, R10, R35, R36, R134, R237, R239, R240): a write off the 8-byte grid, with no strobe, to a tile that cannot be reached, by a master that is not active, or while the management domain does not run, has no effect (that one with no strobe is refused nowhere is the model's choice: notes/assumptions/26.md); any other is applied by its target. So a write that changes ACT takes effect at once also where the endpoint's side of the unit stands, and the value crosses later (R233, R387; that only its answer waits is the model's reading: notes/assumptions/125.md). A master that has the right to a register but may not write there, as the loader outside BOOT and the sequencer's block, changes nothing. A write of a protection unit's control by a master that does not own the unit is refused with OWNREJ and event 904, which leaves from the unit's tile; one that owns it writes the writable bits; clearing a violation clears VALID and VCNT, and nothing else (the model's choice: notes/assumptions/135.md). By the access codes a write takes the writable bits under its strobes, clears the W1C bits written as 1, and leaves every other bit. -/
def Obligations.RegisterWritesFollowTheCodes : Prop :=
  ∀ (s : State) (m : Master) (t : Tile) (p : LPort) (off : BitVec 26) (v : W) (strb : BitVec 8),
    let o := off.toNat
    let i := puIndex t.val p.val
    let rej : Host.Outcome State Fault Refusal := .next (((s.pb aPuErr PU_ERR.OWNREJ true).sat aPuErr PU_ERR.REJCNT).raiseFrom (i / 3) 904)
    (o % 8 ≠ 0 → exec (.registerWrite m off v strb) s = .next s) ∧
    (strb = 0 → exec (.registerWrite m off v strb) s = .next s) ∧
    (s.masterActs m = false → exec (.registerWrite m off v strb) s = .next s) ∧
    (s.pm.mstate ≠ .running → s.masterActs m = false) ∧
    (baseTl ≤ o → o < endTl → s.reachable ((o - baseTl) / 0x10000) = false → exec (.registerWrite m off v strb) s = .next s) ∧
    (m = .bl → blActs o = false → exec (.registerWrite m off v strb) s = .next s) ∧
    (o % 8 = 0 → o < baseTl ∨ endTl ≤ o ∨ s.reachable ((o - baseTl) / 0x10000) = true →
      exec (.registerWrite m off v strb) s = .next (s.writeReg m o v strb).1) ∧
    (s.sqRight m = false → baseTl ≤ o → (s.writeReg m o v strb).1 = s) ∧
    (s.sqRight m = true → (rowsAt s.build (aPuCtl i)).isEmpty = false →
      (s.puOwned m i = false → exec (.puCtlWrite m t p v) s = rej ∧ exec (.violationClear m t p) s = rej) ∧
      (s.puOwned m i = true →
        exec (.puCtlWrite m t p v) s = .next (s.plainWrite (aPuCtl i) v (BitVec.allOnes 64)) ∧
        exec (.violationClear m t p) s = .next ((s.pb (aVrec0 i) PU_VREC0.VALID false).p (aVrec1 i) PU_VREC1.VCNT 0))) ∧
    (s.sqRight m = false → exec (.puCtlWrite m t p v) s = .next s ∧ exec (.violationClear m t p) s = .next s) ∧
    (∀ (rs : List Fd) (old mask : W) (b : Nat), b < 64 →
      let w := codeWrite rs old v mask
      (bitOf mask b = false → bitOf w b = bitOf old b) ∧
      (bitOf mask b = true → bitOf (maskOf .w1c rs) b = false → bitOf (maskOf .rw rs) b = true ∨ bitOf (maskOf .sq rs) b = true → bitOf w b = bitOf v b) ∧
      (bitOf mask b = true → bitOf (maskOf .w1c rs) b = true → bitOf (maskOf .rw rs) b = false → bitOf (maskOf .sq rs) b = false →
        bitOf w b = (bitOf old b && !bitOf v b)) ∧
      (bitOf (maskOf .w1c rs) b = false → bitOf (maskOf .rw rs) b = false → bitOf (maskOf .sq rs) b = false → bitOf w b = bitOf old b))
end

