-- ==== Sys2Proof/Laws/Tab.lean ====
section
/-! SUPPORT. Sparse tables: reading after writing, and the canonical form that every write keeps. -/
namespace Sys2Proof.Machine
variable {α : Type} [DecidableEq α]

theorem okAbove_mono {d : Nat → α} {t : Tab α} {a b : Nat} (h : a ≤ b) (ht : Tab.okAbove d b t = true) : Tab.okAbove d a t = true := by
  cases t with
  | nil => rfl
  | cons x t =>
    obtain ⟨j, v⟩ := x
    simp only [Tab.okAbove, Bool.and_eq_true, decide_eq_true_eq] at ht ⊢
    exact ⟨⟨by omega, ht.1.2⟩, ht.2⟩

theorem tget_below {d : Nat → α} {x : α} {t : Tab α} {b k : Nat} (ht : Tab.okAbove d b t = true) (h : k < b) : tget x t k = x := by
  induction t generalizing b with
  | nil => rfl
  | cons y t ih =>
    obtain ⟨j, v⟩ := y
    simp only [Tab.okAbove, Bool.and_eq_true, decide_eq_true_eq] at ht
    rw [tget, if_neg (by omega)]
    exact ih ht.2 (by omega)

theorem okAbove_terase {d : Nat → α} {t : Tab α} {b k : Nat} (ht : Tab.okAbove d b t = true) : Tab.okAbove d b (terase t k) = true := by
  induction t generalizing b with
  | nil => rfl
  | cons y t ih =>
    obtain ⟨j, v⟩ := y
    have h := ht
    simp only [Tab.okAbove, Bool.and_eq_true, decide_eq_true_eq] at h
    rw [terase]
    split
    · exact okAbove_mono (by omega) h.2
    · split
      · exact ht
      · simp only [Tab.okAbove, Bool.and_eq_true, decide_eq_true_eq]
        exact ⟨h.1, ih h.2⟩

theorem okAbove_tins {d : Nat → α} {t : Tab α} {b k : Nat} {v : α} (ht : Tab.okAbove d b t = true) (hb : b ≤ k) (hv : v ≠ d k) :
    Tab.okAbove d b (tins t k v) = true := by
  induction t generalizing b with
  | nil => simpa [tins, Tab.okAbove] using ⟨hb, hv⟩
  | cons y t ih =>
    obtain ⟨j, x⟩ := y
    have h := ht
    simp only [Tab.okAbove, Bool.and_eq_true, decide_eq_true_eq] at h
    rw [tins]
    split
    · simp only [Tab.okAbove, Bool.and_eq_true, decide_eq_true_eq]
      exact ⟨⟨hb, hv⟩, ⟨by omega, h.1.2⟩, h.2⟩
    · split
      · rename_i hk
        subst hk
        simp only [Tab.okAbove, Bool.and_eq_true, decide_eq_true_eq]
        exact ⟨⟨hb, hv⟩, h.2⟩
      · simp only [Tab.okAbove, Bool.and_eq_true, decide_eq_true_eq]
        exact ⟨h.1, ih h.2 (by omega)⟩

/-- A write keeps the canonical form. -/
theorem wf_tput {d : Nat → α} {t : Tab α} (k : Nat) (v : α) (ht : t.wf d = true) : Tab.wf d (tput (d k) t k v) = true := by
  unfold Tab.wf at *
  unfold tput
  split
  · exact okAbove_terase ht
  · exact okAbove_tins ht (Nat.zero_le _) (by assumption)

/-- Removing entries keeps the canonical form. -/
theorem okAbove_filter {d : Nat → α} {t : Tab α} {b : Nat} (p : Nat × α → Bool) (ht : Tab.okAbove d b t = true) :
    Tab.okAbove d b (t.filter p) = true := by
  induction t generalizing b with
  | nil => rfl
  | cons y t ih =>
    obtain ⟨j, v⟩ := y
    have h := ht
    simp only [Tab.okAbove, Bool.and_eq_true, decide_eq_true_eq] at h
    rw [List.filter_cons]
    split
    · simp only [Tab.okAbove, Bool.and_eq_true, decide_eq_true_eq]
      exact ⟨h.1, ih h.2⟩
    · exact okAbove_mono (by omega) (ih h.2)

theorem wf_filter {d : Nat → α} {t : Tab α} (p : Nat × α → Bool) (ht : t.wf d = true) : Tab.wf d (t.filter p) = true := okAbove_filter p ht

/-- New values at the same keys, those that read as an unlisted key left out. -/
theorem okAbove_map {β : Type} [DecidableEq β] {d : Nat → α} {e : β} (f : Nat → α → β) {t : Tab α} {b : Nat} (ht : Tab.okAbove d b t = true) :
    Tab.okAbove (fun _ => e) b ((t.map (fun kv => (kv.1, f kv.1 kv.2))).filter (fun kv => kv.2 != e)) = true := by
  induction t generalizing b with
  | nil => rfl
  | cons a t ih =>
    simp only [Tab.okAbove, Bool.and_eq_true, decide_eq_true_eq] at ht
    have k := ih ht.2
    rw [List.map_cons, List.filter_cons]
    split
    · rename_i hne
      simp only [Tab.okAbove, Bool.and_eq_true, decide_eq_true_eq]
      exact ⟨⟨ht.1.1, by simpa using hne⟩, k⟩
    · exact okAbove_mono (by omega) k

theorem wf_map {β : Type} [DecidableEq β] {d : Nat → α} {e : β} (f : α → β) {t : Tab α} (ht : t.wf d = true) :
    Tab.wf (fun _ => e) ((t.map (fun kv => (kv.1, f kv.2))).filter (fun kv => kv.2 != e)) = true := okAbove_map (fun _ => f) ht

theorem wf_mapKey {β : Type} [DecidableEq β] {d : Nat → α} {e : β} (f : Nat → α → β) {t : Tab α} (ht : t.wf d = true) :
    Tab.wf (fun _ => e) ((t.map (fun kv => (kv.1, f kv.1 kv.2))).filter (fun kv => kv.2 != e)) = true := okAbove_map f ht

/-- A table made from consecutive keys. -/
theorem okAbove_range {e : α} (f : Nat → α) (n b : Nat) :
    Tab.okAbove (fun _ => e) b (((List.range' b n).map (fun i => (i, f i))).filter (fun kv => kv.2 != e)) = true := by
  induction n generalizing b with
  | zero => rfl
  | succ n ih =>
    rw [List.range'_succ, List.map_cons, List.filter_cons]
    split
    · rename_i hne
      simp only [Tab.okAbove, Bool.and_eq_true, decide_eq_true_eq]
      exact ⟨⟨Nat.le_refl _, by simpa using hne⟩, ih (b + 1)⟩
    · exact okAbove_mono (by omega) (ih (b + 1))

theorem wf_range {e : α} (f : Nat → α) (n : Nat) :
    Tab.wf (fun _ => e) (((List.range n).map (fun i => (i, f i))).filter (fun kv => kv.2 != e)) = true := by
  rw [List.range_eq_range']; exact okAbove_range f n 0

theorem wf_nil (d : Nat → α) : Tab.wf d [] = true := rfl

theorem tget_terase_ne {x : α} {t : Tab α} {k i : Nat} (h : i ≠ k) : tget x (terase t k) i = tget x t i := by
  induction t with
  | nil => rfl
  | cons y t ih =>
    obtain ⟨j, v⟩ := y
    simp only [terase, tget]
    split
    · split
      · omega
      · rfl
    · split
      · rfl
      · rw [tget, ih]

theorem tget_terase {d : Nat → α} {x : α} {t : Tab α} {b k : Nat} (ht : Tab.okAbove d b t = true) : tget x (terase t k) k = x := by
  induction t generalizing b with
  | nil => rfl
  | cons y t ih =>
    obtain ⟨j, v⟩ := y
    simp only [Tab.okAbove, Bool.and_eq_true, decide_eq_true_eq] at ht
    rw [terase]
    split
    · exact tget_below ht.2 (by omega)
    · split
      · rw [tget, if_neg (by omega)]
        exact tget_below ht.2 (by omega)
      · rw [tget, if_neg (by omega)]
        exact ih ht.2

theorem tget_tins_ne {x v : α} {t : Tab α} {k i : Nat} (h : i ≠ k) : tget x (tins t k v) i = tget x t i := by
  induction t with
  | nil => simp [tins, tget, Ne.symm h]
  | cons y t ih =>
    obtain ⟨j, w⟩ := y
    simp only [tins]
    split
    · rw [tget, if_neg (Ne.symm h)]
    · split
      · rename_i hk
        subst hk
        rw [tget, tget, if_neg (Ne.symm h), if_neg (Ne.symm h)]
      · rw [tget, tget, ih]

theorem tget_tins {x v : α} {t : Tab α} {k : Nat} : tget x (tins t k v) k = v := by
  induction t with
  | nil => simp [tins, tget]
  | cons y t ih =>
    obtain ⟨j, w⟩ := y
    simp only [tins]
    split
    · simp [tget]
    · split
      · simp [tget]
      · rw [tget, if_neg (by omega), ih]

/-- A key reads what was written. -/
theorem tget_tput {d : Nat → α} {t : Tab α} (k : Nat) (v : α) (ht : t.wf d = true) : tget (d k) (tput (d k) t k v) k = v := by
  unfold tput
  split
  · rename_i h
    subst h
    exact tget_terase ht
  · exact tget_tins

/-- Another key reads as before. -/
theorem tget_tput_ne {x d : α} {t : Tab α} {k i : Nat} (v : α) (h : i ≠ k) : tget x (tput d t k v) i = tget x t i := by
  unfold tput
  split
  · exact tget_terase_ne h
  · exact tget_tins_ne h

end Sys2Proof.Machine
end

