-- ==== Sys2Proof/Laws/State.lean ====
section
/-! SUPPORT. Small laws of the state: what each update leaves alone, and what each reads as afterwards. -/
namespace Sys2Proof.Machine

@[simp] theorem State.wr_pending (s : State) (o : Nat) (v : W) : (s.wr o v).pending = s.pending := rfl
@[simp] theorem State.wr_cyc (s : State) (o : Nat) (v : W) : (s.wr o v).cyc = s.cyc := rfl
@[simp] theorem State.wr_rst0 (s : State) (o : Nat) (v : W) : (s.wr o v).rst0 = s.rst0 := rfl
@[simp] theorem State.wr_bas0 (s : State) (o : Nat) (v : W) : (s.wr o v).bas0 = s.bas0 := rfl
@[simp] theorem State.wr_porstLow (s : State) (o : Nat) (v : W) : (s.wr o v).porstLow = s.porstLow := rfl
@[simp] theorem State.wr_rstLow (s : State) (o : Nat) (v : W) : (s.wr o v).rstLow = s.rstLow := rfl
@[simp] theorem State.wr_build (s : State) (o : Nat) (v : W) : (s.wr o v).build = s.build := rfl
@[simp] theorem State.wr_micro (s : State) (o : Nat) (v : W) : (s.wr o v).micro = s.micro := rfl
@[simp] theorem State.wr_tb (s : State) (o : Nat) (v : W) : (s.wr o v).tb = s.tb := rfl
@[simp] theorem State.wr_routers (s : State) (o : Nat) (v : W) : (s.wr o v).routers = s.routers := rfl
@[simp] theorem State.wr_links (s : State) (o : Nat) (v : W) : (s.wr o v).links = s.links := rfl
@[simp] theorem State.wr_nis (s : State) (o : Nat) (v : W) : (s.wr o v).nis = s.nis := rfl
@[simp] theorem State.wr_agents (s : State) (o : Nat) (v : W) : (s.wr o v).agents = s.agents := rfl
@[simp] theorem State.wr_evc (s : State) (o : Nat) (v : W) : (s.wr o v).evc = s.evc := rfl
@[simp] theorem State.wr_seq (s : State) (o : Nat) (v : W) : (s.wr o v).seq = s.seq := rfl
@[simp] theorem State.wr_xports (s : State) (o : Nat) (v : W) : (s.wr o v).xports = s.xports := rfl
@[simp] theorem State.wr_hosts (s : State) (o : Nat) (v : W) : (s.wr o v).hosts = s.hosts := rfl
@[simp] theorem State.wr_pm (s : State) (o : Nat) (v : W) : (s.wr o v).pm = s.pm := rfl
@[simp] theorem State.wr_tm (s : State) (o : Nat) (v : W) : (s.wr o v).tm = s.tm := rfl
@[simp] theorem State.wr_ft (s : State) (o : Nat) (v : W) : (s.wr o v).ft = s.ft := rfl
@[simp] theorem State.wr_boot (s : State) (o : Nat) (v : W) : (s.wr o v).boot = s.boot := rfl
@[simp] theorem State.wr_tap (s : State) (o : Nat) (v : W) : (s.wr o v).tap = s.tap := rfl
@[simp] theorem State.wr_chn (s : State) (o : Nat) (v : W) : (s.wr o v).chn = s.chn := rfl
@[simp] theorem State.wr_obs (s : State) (o : Nat) (v : W) : (s.wr o v).obs = s.obs := rfl
@[simp] theorem State.wr_free (s : State) (o : Nat) (v : W) : (s.wr o v).free = s.free := rfl

@[simp] theorem State.resetRegs_pending (s : State) (f : Nat → Bool) : (s.resetRegs f).pending = s.pending := rfl
@[simp] theorem State.resetRegs_cyc (s : State) (f : Nat → Bool) : (s.resetRegs f).cyc = s.cyc := rfl
@[simp] theorem State.resetRegs_rst0 (s : State) (f : Nat → Bool) : (s.resetRegs f).rst0 = s.rst0 := rfl
@[simp] theorem State.resetRegs_bas0 (s : State) (f : Nat → Bool) : (s.resetRegs f).bas0 = s.bas0 := rfl
@[simp] theorem State.resetRegs_porstLow (s : State) (f : Nat → Bool) : (s.resetRegs f).porstLow = s.porstLow := rfl
@[simp] theorem State.resetRegs_rstLow (s : State) (f : Nat → Bool) : (s.resetRegs f).rstLow = s.rstLow := rfl
@[simp] theorem State.resetRegs_build (s : State) (f : Nat → Bool) : (s.resetRegs f).build = s.build := rfl
@[simp] theorem State.resetRegs_micro (s : State) (f : Nat → Bool) : (s.resetRegs f).micro = s.micro := rfl
@[simp] theorem State.resetRegs_tb (s : State) (f : Nat → Bool) : (s.resetRegs f).tb = s.tb := rfl
@[simp] theorem State.resetRegs_routers (s : State) (f : Nat → Bool) : (s.resetRegs f).routers = s.routers := rfl
@[simp] theorem State.resetRegs_links (s : State) (f : Nat → Bool) : (s.resetRegs f).links = s.links := rfl
@[simp] theorem State.resetRegs_nis (s : State) (f : Nat → Bool) : (s.resetRegs f).nis = s.nis := rfl
@[simp] theorem State.resetRegs_agents (s : State) (f : Nat → Bool) : (s.resetRegs f).agents = s.agents := rfl
@[simp] theorem State.resetRegs_evc (s : State) (f : Nat → Bool) : (s.resetRegs f).evc = s.evc := rfl
@[simp] theorem State.resetRegs_seq (s : State) (f : Nat → Bool) : (s.resetRegs f).seq = s.seq := rfl
@[simp] theorem State.resetRegs_xports (s : State) (f : Nat → Bool) : (s.resetRegs f).xports = s.xports := rfl
@[simp] theorem State.resetRegs_hosts (s : State) (f : Nat → Bool) : (s.resetRegs f).hosts = s.hosts := rfl
@[simp] theorem State.resetRegs_pm (s : State) (f : Nat → Bool) : (s.resetRegs f).pm = s.pm := rfl
@[simp] theorem State.resetRegs_tm (s : State) (f : Nat → Bool) : (s.resetRegs f).tm = s.tm := rfl
@[simp] theorem State.resetRegs_ft (s : State) (f : Nat → Bool) : (s.resetRegs f).ft = s.ft := rfl
@[simp] theorem State.resetRegs_boot (s : State) (f : Nat → Bool) : (s.resetRegs f).boot = s.boot := rfl
@[simp] theorem State.resetRegs_tap (s : State) (f : Nat → Bool) : (s.resetRegs f).tap = s.tap := rfl
@[simp] theorem State.resetRegs_chn (s : State) (f : Nat → Bool) : (s.resetRegs f).chn = s.chn := rfl
@[simp] theorem State.resetRegs_obs (s : State) (f : Nat → Bool) : (s.resetRegs f).obs = s.obs := rfl
@[simp] theorem State.resetRegs_free (s : State) (f : Nat → Bool) : (s.resetRegs f).free = s.free := rfl

@[simp] theorem State.setRouter_pending (s : State) (t pl : Nat) (x : Router) : (s.setRouter t pl x).pending = s.pending := rfl
@[simp] theorem State.setRouter_cyc (s : State) (t pl : Nat) (x : Router) : (s.setRouter t pl x).cyc = s.cyc := rfl
@[simp] theorem State.setRouter_rst0 (s : State) (t pl : Nat) (x : Router) : (s.setRouter t pl x).rst0 = s.rst0 := rfl
@[simp] theorem State.setRouter_bas0 (s : State) (t pl : Nat) (x : Router) : (s.setRouter t pl x).bas0 = s.bas0 := rfl
@[simp] theorem State.setRouter_porstLow (s : State) (t pl : Nat) (x : Router) : (s.setRouter t pl x).porstLow = s.porstLow := rfl
@[simp] theorem State.setRouter_rstLow (s : State) (t pl : Nat) (x : Router) : (s.setRouter t pl x).rstLow = s.rstLow := rfl
@[simp] theorem State.setRouter_build (s : State) (t pl : Nat) (x : Router) : (s.setRouter t pl x).build = s.build := rfl
@[simp] theorem State.setRouter_regs (s : State) (t pl : Nat) (x : Router) : (s.setRouter t pl x).regs = s.regs := rfl
@[simp] theorem State.setRouter_micro (s : State) (t pl : Nat) (x : Router) : (s.setRouter t pl x).micro = s.micro := rfl
@[simp] theorem State.setRouter_tb (s : State) (t pl : Nat) (x : Router) : (s.setRouter t pl x).tb = s.tb := rfl
@[simp] theorem State.setRouter_links (s : State) (t pl : Nat) (x : Router) : (s.setRouter t pl x).links = s.links := rfl
@[simp] theorem State.setRouter_nis (s : State) (t pl : Nat) (x : Router) : (s.setRouter t pl x).nis = s.nis := rfl
@[simp] theorem State.setRouter_agents (s : State) (t pl : Nat) (x : Router) : (s.setRouter t pl x).agents = s.agents := rfl
@[simp] theorem State.setRouter_evc (s : State) (t pl : Nat) (x : Router) : (s.setRouter t pl x).evc = s.evc := rfl
@[simp] theorem State.setRouter_seq (s : State) (t pl : Nat) (x : Router) : (s.setRouter t pl x).seq = s.seq := rfl
@[simp] theorem State.setRouter_xports (s : State) (t pl : Nat) (x : Router) : (s.setRouter t pl x).xports = s.xports := rfl
@[simp] theorem State.setRouter_hosts (s : State) (t pl : Nat) (x : Router) : (s.setRouter t pl x).hosts = s.hosts := rfl
@[simp] theorem State.setRouter_pm (s : State) (t pl : Nat) (x : Router) : (s.setRouter t pl x).pm = s.pm := rfl
@[simp] theorem State.setRouter_tm (s : State) (t pl : Nat) (x : Router) : (s.setRouter t pl x).tm = s.tm := rfl
@[simp] theorem State.setRouter_ft (s : State) (t pl : Nat) (x : Router) : (s.setRouter t pl x).ft = s.ft := rfl
@[simp] theorem State.setRouter_boot (s : State) (t pl : Nat) (x : Router) : (s.setRouter t pl x).boot = s.boot := rfl
@[simp] theorem State.setRouter_tap (s : State) (t pl : Nat) (x : Router) : (s.setRouter t pl x).tap = s.tap := rfl
@[simp] theorem State.setRouter_chn (s : State) (t pl : Nat) (x : Router) : (s.setRouter t pl x).chn = s.chn := rfl
@[simp] theorem State.setRouter_obs (s : State) (t pl : Nat) (x : Router) : (s.setRouter t pl x).obs = s.obs := rfl
@[simp] theorem State.setRouter_free (s : State) (t pl : Nat) (x : Router) : (s.setRouter t pl x).free = s.free := rfl

@[simp] theorem State.setLink_pending (s : State) (t pl d : Nat) (x : LinkX) : (s.setLink t pl d x).pending = s.pending := rfl
@[simp] theorem State.setLink_cyc (s : State) (t pl d : Nat) (x : LinkX) : (s.setLink t pl d x).cyc = s.cyc := rfl
@[simp] theorem State.setLink_rst0 (s : State) (t pl d : Nat) (x : LinkX) : (s.setLink t pl d x).rst0 = s.rst0 := rfl
@[simp] theorem State.setLink_bas0 (s : State) (t pl d : Nat) (x : LinkX) : (s.setLink t pl d x).bas0 = s.bas0 := rfl
@[simp] theorem State.setLink_porstLow (s : State) (t pl d : Nat) (x : LinkX) : (s.setLink t pl d x).porstLow = s.porstLow := rfl
@[simp] theorem State.setLink_rstLow (s : State) (t pl d : Nat) (x : LinkX) : (s.setLink t pl d x).rstLow = s.rstLow := rfl
@[simp] theorem State.setLink_build (s : State) (t pl d : Nat) (x : LinkX) : (s.setLink t pl d x).build = s.build := rfl
@[simp] theorem State.setLink_regs (s : State) (t pl d : Nat) (x : LinkX) : (s.setLink t pl d x).regs = s.regs := rfl
@[simp] theorem State.setLink_micro (s : State) (t pl d : Nat) (x : LinkX) : (s.setLink t pl d x).micro = s.micro := rfl
@[simp] theorem State.setLink_tb (s : State) (t pl d : Nat) (x : LinkX) : (s.setLink t pl d x).tb = s.tb := rfl
@[simp] theorem State.setLink_routers (s : State) (t pl d : Nat) (x : LinkX) : (s.setLink t pl d x).routers = s.routers := rfl
@[simp] theorem State.setLink_nis (s : State) (t pl d : Nat) (x : LinkX) : (s.setLink t pl d x).nis = s.nis := rfl
@[simp] theorem State.setLink_agents (s : State) (t pl d : Nat) (x : LinkX) : (s.setLink t pl d x).agents = s.agents := rfl
@[simp] theorem State.setLink_evc (s : State) (t pl d : Nat) (x : LinkX) : (s.setLink t pl d x).evc = s.evc := rfl
@[simp] theorem State.setLink_seq (s : State) (t pl d : Nat) (x : LinkX) : (s.setLink t pl d x).seq = s.seq := rfl
@[simp] theorem State.setLink_xports (s : State) (t pl d : Nat) (x : LinkX) : (s.setLink t pl d x).xports = s.xports := rfl
@[simp] theorem State.setLink_hosts (s : State) (t pl d : Nat) (x : LinkX) : (s.setLink t pl d x).hosts = s.hosts := rfl
@[simp] theorem State.setLink_pm (s : State) (t pl d : Nat) (x : LinkX) : (s.setLink t pl d x).pm = s.pm := rfl
@[simp] theorem State.setLink_tm (s : State) (t pl d : Nat) (x : LinkX) : (s.setLink t pl d x).tm = s.tm := rfl
@[simp] theorem State.setLink_ft (s : State) (t pl d : Nat) (x : LinkX) : (s.setLink t pl d x).ft = s.ft := rfl
@[simp] theorem State.setLink_boot (s : State) (t pl d : Nat) (x : LinkX) : (s.setLink t pl d x).boot = s.boot := rfl
@[simp] theorem State.setLink_tap (s : State) (t pl d : Nat) (x : LinkX) : (s.setLink t pl d x).tap = s.tap := rfl
@[simp] theorem State.setLink_chn (s : State) (t pl d : Nat) (x : LinkX) : (s.setLink t pl d x).chn = s.chn := rfl
@[simp] theorem State.setLink_obs (s : State) (t pl d : Nat) (x : LinkX) : (s.setLink t pl d x).obs = s.obs := rfl
@[simp] theorem State.setLink_free (s : State) (t pl d : Nat) (x : LinkX) : (s.setLink t pl d x).free = s.free := rfl

@[simp] theorem State.setNi_pending (s : State) (t p : Nat) (x : Ni) : (s.setNi t p x).pending = s.pending := rfl
@[simp] theorem State.setNi_cyc (s : State) (t p : Nat) (x : Ni) : (s.setNi t p x).cyc = s.cyc := rfl
@[simp] theorem State.setNi_rst0 (s : State) (t p : Nat) (x : Ni) : (s.setNi t p x).rst0 = s.rst0 := rfl
@[simp] theorem State.setNi_bas0 (s : State) (t p : Nat) (x : Ni) : (s.setNi t p x).bas0 = s.bas0 := rfl
@[simp] theorem State.setNi_porstLow (s : State) (t p : Nat) (x : Ni) : (s.setNi t p x).porstLow = s.porstLow := rfl
@[simp] theorem State.setNi_rstLow (s : State) (t p : Nat) (x : Ni) : (s.setNi t p x).rstLow = s.rstLow := rfl
@[simp] theorem State.setNi_build (s : State) (t p : Nat) (x : Ni) : (s.setNi t p x).build = s.build := rfl
@[simp] theorem State.setNi_regs (s : State) (t p : Nat) (x : Ni) : (s.setNi t p x).regs = s.regs := rfl
@[simp] theorem State.setNi_micro (s : State) (t p : Nat) (x : Ni) : (s.setNi t p x).micro = s.micro := rfl
@[simp] theorem State.setNi_tb (s : State) (t p : Nat) (x : Ni) : (s.setNi t p x).tb = s.tb := rfl
@[simp] theorem State.setNi_routers (s : State) (t p : Nat) (x : Ni) : (s.setNi t p x).routers = s.routers := rfl
@[simp] theorem State.setNi_links (s : State) (t p : Nat) (x : Ni) : (s.setNi t p x).links = s.links := rfl
@[simp] theorem State.setNi_agents (s : State) (t p : Nat) (x : Ni) : (s.setNi t p x).agents = s.agents := rfl
@[simp] theorem State.setNi_evc (s : State) (t p : Nat) (x : Ni) : (s.setNi t p x).evc = s.evc := rfl
@[simp] theorem State.setNi_seq (s : State) (t p : Nat) (x : Ni) : (s.setNi t p x).seq = s.seq := rfl
@[simp] theorem State.setNi_xports (s : State) (t p : Nat) (x : Ni) : (s.setNi t p x).xports = s.xports := rfl
@[simp] theorem State.setNi_hosts (s : State) (t p : Nat) (x : Ni) : (s.setNi t p x).hosts = s.hosts := rfl
@[simp] theorem State.setNi_pm (s : State) (t p : Nat) (x : Ni) : (s.setNi t p x).pm = s.pm := rfl
@[simp] theorem State.setNi_tm (s : State) (t p : Nat) (x : Ni) : (s.setNi t p x).tm = s.tm := rfl
@[simp] theorem State.setNi_ft (s : State) (t p : Nat) (x : Ni) : (s.setNi t p x).ft = s.ft := rfl
@[simp] theorem State.setNi_boot (s : State) (t p : Nat) (x : Ni) : (s.setNi t p x).boot = s.boot := rfl
@[simp] theorem State.setNi_tap (s : State) (t p : Nat) (x : Ni) : (s.setNi t p x).tap = s.tap := rfl
@[simp] theorem State.setNi_chn (s : State) (t p : Nat) (x : Ni) : (s.setNi t p x).chn = s.chn := rfl
@[simp] theorem State.setNi_obs (s : State) (t p : Nat) (x : Ni) : (s.setNi t p x).obs = s.obs := rfl
@[simp] theorem State.setNi_free (s : State) (t p : Nat) (x : Ni) : (s.setNi t p x).free = s.free := rfl

@[simp] theorem State.setAgent_pending (s : State) (t : Nat) (x : Agent) : (s.setAgent t x).pending = s.pending := rfl
@[simp] theorem State.setAgent_cyc (s : State) (t : Nat) (x : Agent) : (s.setAgent t x).cyc = s.cyc := rfl
@[simp] theorem State.setAgent_rst0 (s : State) (t : Nat) (x : Agent) : (s.setAgent t x).rst0 = s.rst0 := rfl
@[simp] theorem State.setAgent_bas0 (s : State) (t : Nat) (x : Agent) : (s.setAgent t x).bas0 = s.bas0 := rfl
@[simp] theorem State.setAgent_porstLow (s : State) (t : Nat) (x : Agent) : (s.setAgent t x).porstLow = s.porstLow := rfl
@[simp] theorem State.setAgent_rstLow (s : State) (t : Nat) (x : Agent) : (s.setAgent t x).rstLow = s.rstLow := rfl
@[simp] theorem State.setAgent_build (s : State) (t : Nat) (x : Agent) : (s.setAgent t x).build = s.build := rfl
@[simp] theorem State.setAgent_regs (s : State) (t : Nat) (x : Agent) : (s.setAgent t x).regs = s.regs := rfl
@[simp] theorem State.setAgent_micro (s : State) (t : Nat) (x : Agent) : (s.setAgent t x).micro = s.micro := rfl
@[simp] theorem State.setAgent_tb (s : State) (t : Nat) (x : Agent) : (s.setAgent t x).tb = s.tb := rfl
@[simp] theorem State.setAgent_routers (s : State) (t : Nat) (x : Agent) : (s.setAgent t x).routers = s.routers := rfl
@[simp] theorem State.setAgent_links (s : State) (t : Nat) (x : Agent) : (s.setAgent t x).links = s.links := rfl
@[simp] theorem State.setAgent_nis (s : State) (t : Nat) (x : Agent) : (s.setAgent t x).nis = s.nis := rfl
@[simp] theorem State.setAgent_evc (s : State) (t : Nat) (x : Agent) : (s.setAgent t x).evc = s.evc := rfl
@[simp] theorem State.setAgent_seq (s : State) (t : Nat) (x : Agent) : (s.setAgent t x).seq = s.seq := rfl
@[simp] theorem State.setAgent_xports (s : State) (t : Nat) (x : Agent) : (s.setAgent t x).xports = s.xports := rfl
@[simp] theorem State.setAgent_hosts (s : State) (t : Nat) (x : Agent) : (s.setAgent t x).hosts = s.hosts := rfl
@[simp] theorem State.setAgent_pm (s : State) (t : Nat) (x : Agent) : (s.setAgent t x).pm = s.pm := rfl
@[simp] theorem State.setAgent_tm (s : State) (t : Nat) (x : Agent) : (s.setAgent t x).tm = s.tm := rfl
@[simp] theorem State.setAgent_ft (s : State) (t : Nat) (x : Agent) : (s.setAgent t x).ft = s.ft := rfl
@[simp] theorem State.setAgent_boot (s : State) (t : Nat) (x : Agent) : (s.setAgent t x).boot = s.boot := rfl
@[simp] theorem State.setAgent_tap (s : State) (t : Nat) (x : Agent) : (s.setAgent t x).tap = s.tap := rfl
@[simp] theorem State.setAgent_chn (s : State) (t : Nat) (x : Agent) : (s.setAgent t x).chn = s.chn := rfl
@[simp] theorem State.setAgent_obs (s : State) (t : Nat) (x : Agent) : (s.setAgent t x).obs = s.obs := rfl
@[simp] theorem State.setAgent_free (s : State) (t : Nat) (x : Agent) : (s.setAgent t x).free = s.free := rfl

@[simp] theorem State.setXport_pending (s : State) (j : Nat) (x : XPort) : (s.setXport j x).pending = s.pending := rfl
@[simp] theorem State.setXport_cyc (s : State) (j : Nat) (x : XPort) : (s.setXport j x).cyc = s.cyc := rfl
@[simp] theorem State.setXport_rst0 (s : State) (j : Nat) (x : XPort) : (s.setXport j x).rst0 = s.rst0 := rfl
@[simp] theorem State.setXport_bas0 (s : State) (j : Nat) (x : XPort) : (s.setXport j x).bas0 = s.bas0 := rfl
@[simp] theorem State.setXport_porstLow (s : State) (j : Nat) (x : XPort) : (s.setXport j x).porstLow = s.porstLow := rfl
@[simp] theorem State.setXport_rstLow (s : State) (j : Nat) (x : XPort) : (s.setXport j x).rstLow = s.rstLow := rfl
@[simp] theorem State.setXport_build (s : State) (j : Nat) (x : XPort) : (s.setXport j x).build = s.build := rfl
@[simp] theorem State.setXport_regs (s : State) (j : Nat) (x : XPort) : (s.setXport j x).regs = s.regs := rfl
@[simp] theorem State.setXport_micro (s : State) (j : Nat) (x : XPort) : (s.setXport j x).micro = s.micro := rfl
@[simp] theorem State.setXport_tb (s : State) (j : Nat) (x : XPort) : (s.setXport j x).tb = s.tb := rfl
@[simp] theorem State.setXport_routers (s : State) (j : Nat) (x : XPort) : (s.setXport j x).routers = s.routers := rfl
@[simp] theorem State.setXport_links (s : State) (j : Nat) (x : XPort) : (s.setXport j x).links = s.links := rfl
@[simp] theorem State.setXport_nis (s : State) (j : Nat) (x : XPort) : (s.setXport j x).nis = s.nis := rfl
@[simp] theorem State.setXport_agents (s : State) (j : Nat) (x : XPort) : (s.setXport j x).agents = s.agents := rfl
@[simp] theorem State.setXport_evc (s : State) (j : Nat) (x : XPort) : (s.setXport j x).evc = s.evc := rfl
@[simp] theorem State.setXport_seq (s : State) (j : Nat) (x : XPort) : (s.setXport j x).seq = s.seq := rfl
@[simp] theorem State.setXport_hosts (s : State) (j : Nat) (x : XPort) : (s.setXport j x).hosts = s.hosts := rfl
@[simp] theorem State.setXport_pm (s : State) (j : Nat) (x : XPort) : (s.setXport j x).pm = s.pm := rfl
@[simp] theorem State.setXport_tm (s : State) (j : Nat) (x : XPort) : (s.setXport j x).tm = s.tm := rfl
@[simp] theorem State.setXport_ft (s : State) (j : Nat) (x : XPort) : (s.setXport j x).ft = s.ft := rfl
@[simp] theorem State.setXport_boot (s : State) (j : Nat) (x : XPort) : (s.setXport j x).boot = s.boot := rfl
@[simp] theorem State.setXport_tap (s : State) (j : Nat) (x : XPort) : (s.setXport j x).tap = s.tap := rfl
@[simp] theorem State.setXport_chn (s : State) (j : Nat) (x : XPort) : (s.setXport j x).chn = s.chn := rfl
@[simp] theorem State.setXport_obs (s : State) (j : Nat) (x : XPort) : (s.setXport j x).obs = s.obs := rfl
@[simp] theorem State.setXport_free (s : State) (j : Nat) (x : XPort) : (s.setXport j x).free = s.free := rfl

@[simp] theorem State.setHost_pending (s : State) (h : Nat) (x : XHost) : (s.setHost h x).pending = s.pending := rfl
@[simp] theorem State.setHost_cyc (s : State) (h : Nat) (x : XHost) : (s.setHost h x).cyc = s.cyc := rfl
@[simp] theorem State.setHost_rst0 (s : State) (h : Nat) (x : XHost) : (s.setHost h x).rst0 = s.rst0 := rfl
@[simp] theorem State.setHost_bas0 (s : State) (h : Nat) (x : XHost) : (s.setHost h x).bas0 = s.bas0 := rfl
@[simp] theorem State.setHost_porstLow (s : State) (h : Nat) (x : XHost) : (s.setHost h x).porstLow = s.porstLow := rfl
@[simp] theorem State.setHost_rstLow (s : State) (h : Nat) (x : XHost) : (s.setHost h x).rstLow = s.rstLow := rfl
@[simp] theorem State.setHost_build (s : State) (h : Nat) (x : XHost) : (s.setHost h x).build = s.build := rfl
@[simp] theorem State.setHost_regs (s : State) (h : Nat) (x : XHost) : (s.setHost h x).regs = s.regs := rfl
@[simp] theorem State.setHost_micro (s : State) (h : Nat) (x : XHost) : (s.setHost h x).micro = s.micro := rfl
@[simp] theorem State.setHost_tb (s : State) (h : Nat) (x : XHost) : (s.setHost h x).tb = s.tb := rfl
@[simp] theorem State.setHost_routers (s : State) (h : Nat) (x : XHost) : (s.setHost h x).routers = s.routers := rfl
@[simp] theorem State.setHost_links (s : State) (h : Nat) (x : XHost) : (s.setHost h x).links = s.links := rfl
@[simp] theorem State.setHost_nis (s : State) (h : Nat) (x : XHost) : (s.setHost h x).nis = s.nis := rfl
@[simp] theorem State.setHost_agents (s : State) (h : Nat) (x : XHost) : (s.setHost h x).agents = s.agents := rfl
@[simp] theorem State.setHost_evc (s : State) (h : Nat) (x : XHost) : (s.setHost h x).evc = s.evc := rfl
@[simp] theorem State.setHost_seq (s : State) (h : Nat) (x : XHost) : (s.setHost h x).seq = s.seq := rfl
@[simp] theorem State.setHost_xports (s : State) (h : Nat) (x : XHost) : (s.setHost h x).xports = s.xports := rfl
@[simp] theorem State.setHost_pm (s : State) (h : Nat) (x : XHost) : (s.setHost h x).pm = s.pm := rfl
@[simp] theorem State.setHost_tm (s : State) (h : Nat) (x : XHost) : (s.setHost h x).tm = s.tm := rfl
@[simp] theorem State.setHost_ft (s : State) (h : Nat) (x : XHost) : (s.setHost h x).ft = s.ft := rfl
@[simp] theorem State.setHost_boot (s : State) (h : Nat) (x : XHost) : (s.setHost h x).boot = s.boot := rfl
@[simp] theorem State.setHost_tap (s : State) (h : Nat) (x : XHost) : (s.setHost h x).tap = s.tap := rfl
@[simp] theorem State.setHost_chn (s : State) (h : Nat) (x : XHost) : (s.setHost h x).chn = s.chn := rfl
@[simp] theorem State.setHost_obs (s : State) (h : Nat) (x : XHost) : (s.setHost h x).obs = s.obs := rfl
@[simp] theorem State.setHost_free (s : State) (h : Nat) (x : XHost) : (s.setHost h x).free = s.free := rfl

@[simp] theorem State.setQueue_pending (s : State) (q : Nat) (x : Queue) : (s.setQueue q x).pending = s.pending := rfl
@[simp] theorem State.setQueue_cyc (s : State) (q : Nat) (x : Queue) : (s.setQueue q x).cyc = s.cyc := rfl
@[simp] theorem State.setQueue_rst0 (s : State) (q : Nat) (x : Queue) : (s.setQueue q x).rst0 = s.rst0 := rfl
@[simp] theorem State.setQueue_bas0 (s : State) (q : Nat) (x : Queue) : (s.setQueue q x).bas0 = s.bas0 := rfl
@[simp] theorem State.setQueue_porstLow (s : State) (q : Nat) (x : Queue) : (s.setQueue q x).porstLow = s.porstLow := rfl
@[simp] theorem State.setQueue_rstLow (s : State) (q : Nat) (x : Queue) : (s.setQueue q x).rstLow = s.rstLow := rfl
@[simp] theorem State.setQueue_build (s : State) (q : Nat) (x : Queue) : (s.setQueue q x).build = s.build := rfl
@[simp] theorem State.setQueue_regs (s : State) (q : Nat) (x : Queue) : (s.setQueue q x).regs = s.regs := rfl
@[simp] theorem State.setQueue_micro (s : State) (q : Nat) (x : Queue) : (s.setQueue q x).micro = s.micro := rfl
@[simp] theorem State.setQueue_tb (s : State) (q : Nat) (x : Queue) : (s.setQueue q x).tb = s.tb := rfl
@[simp] theorem State.setQueue_routers (s : State) (q : Nat) (x : Queue) : (s.setQueue q x).routers = s.routers := rfl
@[simp] theorem State.setQueue_links (s : State) (q : Nat) (x : Queue) : (s.setQueue q x).links = s.links := rfl
@[simp] theorem State.setQueue_nis (s : State) (q : Nat) (x : Queue) : (s.setQueue q x).nis = s.nis := rfl
@[simp] theorem State.setQueue_agents (s : State) (q : Nat) (x : Queue) : (s.setQueue q x).agents = s.agents := rfl
@[simp] theorem State.setQueue_evc (s : State) (q : Nat) (x : Queue) : (s.setQueue q x).evc = s.evc := rfl
@[simp] theorem State.setQueue_seq (s : State) (q : Nat) (x : Queue) : (s.setQueue q x).seq = s.seq := rfl
@[simp] theorem State.setQueue_xports (s : State) (q : Nat) (x : Queue) : (s.setQueue q x).xports = s.xports := rfl
@[simp] theorem State.setQueue_hosts (s : State) (q : Nat) (x : Queue) : (s.setQueue q x).hosts = s.hosts := rfl
@[simp] theorem State.setQueue_pm (s : State) (q : Nat) (x : Queue) : (s.setQueue q x).pm = s.pm := rfl
@[simp] theorem State.setQueue_ft (s : State) (q : Nat) (x : Queue) : (s.setQueue q x).ft = s.ft := rfl
@[simp] theorem State.setQueue_boot (s : State) (q : Nat) (x : Queue) : (s.setQueue q x).boot = s.boot := rfl
@[simp] theorem State.setQueue_tap (s : State) (q : Nat) (x : Queue) : (s.setQueue q x).tap = s.tap := rfl
@[simp] theorem State.setQueue_chn (s : State) (q : Nat) (x : Queue) : (s.setQueue q x).chn = s.chn := rfl
@[simp] theorem State.setQueue_obs (s : State) (q : Nat) (x : Queue) : (s.setQueue q x).obs = s.obs := rfl
@[simp] theorem State.setQueue_free (s : State) (q : Nat) (x : Queue) : (s.setQueue q x).free = s.free := rfl

@[simp] theorem State.setCtx_pending (s : State) (c : CtxId) (x : Ctx) : (s.setCtx c x).pending = s.pending := rfl
@[simp] theorem State.setCtx_cyc (s : State) (c : CtxId) (x : Ctx) : (s.setCtx c x).cyc = s.cyc := rfl
@[simp] theorem State.setCtx_rst0 (s : State) (c : CtxId) (x : Ctx) : (s.setCtx c x).rst0 = s.rst0 := rfl
@[simp] theorem State.setCtx_bas0 (s : State) (c : CtxId) (x : Ctx) : (s.setCtx c x).bas0 = s.bas0 := rfl
@[simp] theorem State.setCtx_porstLow (s : State) (c : CtxId) (x : Ctx) : (s.setCtx c x).porstLow = s.porstLow := rfl
@[simp] theorem State.setCtx_rstLow (s : State) (c : CtxId) (x : Ctx) : (s.setCtx c x).rstLow = s.rstLow := rfl
@[simp] theorem State.setCtx_build (s : State) (c : CtxId) (x : Ctx) : (s.setCtx c x).build = s.build := rfl
@[simp] theorem State.setCtx_regs (s : State) (c : CtxId) (x : Ctx) : (s.setCtx c x).regs = s.regs := rfl
@[simp] theorem State.setCtx_micro (s : State) (c : CtxId) (x : Ctx) : (s.setCtx c x).micro = s.micro := rfl
@[simp] theorem State.setCtx_tb (s : State) (c : CtxId) (x : Ctx) : (s.setCtx c x).tb = s.tb := rfl
@[simp] theorem State.setCtx_routers (s : State) (c : CtxId) (x : Ctx) : (s.setCtx c x).routers = s.routers := rfl
@[simp] theorem State.setCtx_links (s : State) (c : CtxId) (x : Ctx) : (s.setCtx c x).links = s.links := rfl
@[simp] theorem State.setCtx_nis (s : State) (c : CtxId) (x : Ctx) : (s.setCtx c x).nis = s.nis := rfl
@[simp] theorem State.setCtx_agents (s : State) (c : CtxId) (x : Ctx) : (s.setCtx c x).agents = s.agents := rfl
@[simp] theorem State.setCtx_evc (s : State) (c : CtxId) (x : Ctx) : (s.setCtx c x).evc = s.evc := rfl
@[simp] theorem State.setCtx_xports (s : State) (c : CtxId) (x : Ctx) : (s.setCtx c x).xports = s.xports := rfl
@[simp] theorem State.setCtx_hosts (s : State) (c : CtxId) (x : Ctx) : (s.setCtx c x).hosts = s.hosts := rfl
@[simp] theorem State.setCtx_pm (s : State) (c : CtxId) (x : Ctx) : (s.setCtx c x).pm = s.pm := rfl
@[simp] theorem State.setCtx_tm (s : State) (c : CtxId) (x : Ctx) : (s.setCtx c x).tm = s.tm := rfl
@[simp] theorem State.setCtx_ft (s : State) (c : CtxId) (x : Ctx) : (s.setCtx c x).ft = s.ft := rfl
@[simp] theorem State.setCtx_boot (s : State) (c : CtxId) (x : Ctx) : (s.setCtx c x).boot = s.boot := rfl
@[simp] theorem State.setCtx_tap (s : State) (c : CtxId) (x : Ctx) : (s.setCtx c x).tap = s.tap := rfl
@[simp] theorem State.setCtx_chn (s : State) (c : CtxId) (x : Ctx) : (s.setCtx c x).chn = s.chn := rfl
@[simp] theorem State.setCtx_obs (s : State) (c : CtxId) (x : Ctx) : (s.setCtx c x).obs = s.obs := rfl
@[simp] theorem State.setCtx_free (s : State) (c : CtxId) (x : Ctx) : (s.setCtx c x).free = s.free := rfl

@[simp] theorem State.setSaved_pending (s : State) (r : Nat) (j : Option Job) : (s.setSaved r j).pending = s.pending := rfl
@[simp] theorem State.setSaved_cyc (s : State) (r : Nat) (j : Option Job) : (s.setSaved r j).cyc = s.cyc := rfl
@[simp] theorem State.setSaved_rst0 (s : State) (r : Nat) (j : Option Job) : (s.setSaved r j).rst0 = s.rst0 := rfl
@[simp] theorem State.setSaved_bas0 (s : State) (r : Nat) (j : Option Job) : (s.setSaved r j).bas0 = s.bas0 := rfl
@[simp] theorem State.setSaved_porstLow (s : State) (r : Nat) (j : Option Job) : (s.setSaved r j).porstLow = s.porstLow := rfl
@[simp] theorem State.setSaved_rstLow (s : State) (r : Nat) (j : Option Job) : (s.setSaved r j).rstLow = s.rstLow := rfl
@[simp] theorem State.setSaved_build (s : State) (r : Nat) (j : Option Job) : (s.setSaved r j).build = s.build := rfl
@[simp] theorem State.setSaved_regs (s : State) (r : Nat) (j : Option Job) : (s.setSaved r j).regs = s.regs := rfl
@[simp] theorem State.setSaved_micro (s : State) (r : Nat) (j : Option Job) : (s.setSaved r j).micro = s.micro := rfl
@[simp] theorem State.setSaved_tb (s : State) (r : Nat) (j : Option Job) : (s.setSaved r j).tb = s.tb := rfl
@[simp] theorem State.setSaved_routers (s : State) (r : Nat) (j : Option Job) : (s.setSaved r j).routers = s.routers := rfl
@[simp] theorem State.setSaved_links (s : State) (r : Nat) (j : Option Job) : (s.setSaved r j).links = s.links := rfl
@[simp] theorem State.setSaved_nis (s : State) (r : Nat) (j : Option Job) : (s.setSaved r j).nis = s.nis := rfl
@[simp] theorem State.setSaved_agents (s : State) (r : Nat) (j : Option Job) : (s.setSaved r j).agents = s.agents := rfl
@[simp] theorem State.setSaved_evc (s : State) (r : Nat) (j : Option Job) : (s.setSaved r j).evc = s.evc := rfl
@[simp] theorem State.setSaved_xports (s : State) (r : Nat) (j : Option Job) : (s.setSaved r j).xports = s.xports := rfl
@[simp] theorem State.setSaved_hosts (s : State) (r : Nat) (j : Option Job) : (s.setSaved r j).hosts = s.hosts := rfl
@[simp] theorem State.setSaved_pm (s : State) (r : Nat) (j : Option Job) : (s.setSaved r j).pm = s.pm := rfl
@[simp] theorem State.setSaved_tm (s : State) (r : Nat) (j : Option Job) : (s.setSaved r j).tm = s.tm := rfl
@[simp] theorem State.setSaved_ft (s : State) (r : Nat) (j : Option Job) : (s.setSaved r j).ft = s.ft := rfl
@[simp] theorem State.setSaved_boot (s : State) (r : Nat) (j : Option Job) : (s.setSaved r j).boot = s.boot := rfl
@[simp] theorem State.setSaved_tap (s : State) (r : Nat) (j : Option Job) : (s.setSaved r j).tap = s.tap := rfl
@[simp] theorem State.setSaved_chn (s : State) (r : Nat) (j : Option Job) : (s.setSaved r j).chn = s.chn := rfl
@[simp] theorem State.setSaved_obs (s : State) (r : Nat) (j : Option Job) : (s.setSaved r j).obs = s.obs := rfl
@[simp] theorem State.setSaved_free (s : State) (r : Nat) (j : Option Job) : (s.setSaved r j).free = s.free := rfl

@[simp] theorem State.until_pending (s : State) (c : Nat) : (s.until c).pending = s.pending := rfl
@[simp] theorem State.until_rst0 (s : State) (c : Nat) : (s.until c).rst0 = s.rst0 := rfl
@[simp] theorem State.until_bas0 (s : State) (c : Nat) : (s.until c).bas0 = s.bas0 := rfl
@[simp] theorem State.until_porstLow (s : State) (c : Nat) : (s.until c).porstLow = s.porstLow := rfl
@[simp] theorem State.until_rstLow (s : State) (c : Nat) : (s.until c).rstLow = s.rstLow := rfl
@[simp] theorem State.until_build (s : State) (c : Nat) : (s.until c).build = s.build := rfl
@[simp] theorem State.until_regs (s : State) (c : Nat) : (s.until c).regs = s.regs := rfl
@[simp] theorem State.until_micro (s : State) (c : Nat) : (s.until c).micro = s.micro := rfl
@[simp] theorem State.until_tb (s : State) (c : Nat) : (s.until c).tb = s.tb := rfl
@[simp] theorem State.until_routers (s : State) (c : Nat) : (s.until c).routers = s.routers := rfl
@[simp] theorem State.until_links (s : State) (c : Nat) : (s.until c).links = s.links := rfl
@[simp] theorem State.until_nis (s : State) (c : Nat) : (s.until c).nis = s.nis := rfl
@[simp] theorem State.until_agents (s : State) (c : Nat) : (s.until c).agents = s.agents := rfl
@[simp] theorem State.until_evc (s : State) (c : Nat) : (s.until c).evc = s.evc := rfl
@[simp] theorem State.until_seq (s : State) (c : Nat) : (s.until c).seq = s.seq := rfl
@[simp] theorem State.until_xports (s : State) (c : Nat) : (s.until c).xports = s.xports := rfl
@[simp] theorem State.until_hosts (s : State) (c : Nat) : (s.until c).hosts = s.hosts := rfl
@[simp] theorem State.until_pm (s : State) (c : Nat) : (s.until c).pm = s.pm := rfl
@[simp] theorem State.until_tm (s : State) (c : Nat) : (s.until c).tm = s.tm := rfl
@[simp] theorem State.until_ft (s : State) (c : Nat) : (s.until c).ft = s.ft := rfl
@[simp] theorem State.until_boot (s : State) (c : Nat) : (s.until c).boot = s.boot := rfl
@[simp] theorem State.until_tap (s : State) (c : Nat) : (s.until c).tap = s.tap := rfl
@[simp] theorem State.until_chn (s : State) (c : Nat) : (s.until c).chn = s.chn := rfl
@[simp] theorem State.until_obs (s : State) (c : Nat) : (s.until c).obs = s.obs := rfl
@[simp] theorem State.until_free (s : State) (c : Nat) : (s.until c).free = s.free := rfl

@[simp] theorem State.nextFree_pending (s : State) : (s.nextFree).pending = s.pending := rfl
@[simp] theorem State.nextFree_cyc (s : State) : (s.nextFree).cyc = s.cyc := rfl
@[simp] theorem State.nextFree_rst0 (s : State) : (s.nextFree).rst0 = s.rst0 := rfl
@[simp] theorem State.nextFree_bas0 (s : State) : (s.nextFree).bas0 = s.bas0 := rfl
@[simp] theorem State.nextFree_porstLow (s : State) : (s.nextFree).porstLow = s.porstLow := rfl
@[simp] theorem State.nextFree_rstLow (s : State) : (s.nextFree).rstLow = s.rstLow := rfl
@[simp] theorem State.nextFree_build (s : State) : (s.nextFree).build = s.build := rfl
@[simp] theorem State.nextFree_regs (s : State) : (s.nextFree).regs = s.regs := rfl
@[simp] theorem State.nextFree_micro (s : State) : (s.nextFree).micro = s.micro := rfl
@[simp] theorem State.nextFree_tb (s : State) : (s.nextFree).tb = s.tb := rfl
@[simp] theorem State.nextFree_routers (s : State) : (s.nextFree).routers = s.routers := rfl
@[simp] theorem State.nextFree_links (s : State) : (s.nextFree).links = s.links := rfl
@[simp] theorem State.nextFree_nis (s : State) : (s.nextFree).nis = s.nis := rfl
@[simp] theorem State.nextFree_agents (s : State) : (s.nextFree).agents = s.agents := rfl
@[simp] theorem State.nextFree_evc (s : State) : (s.nextFree).evc = s.evc := rfl
@[simp] theorem State.nextFree_seq (s : State) : (s.nextFree).seq = s.seq := rfl
@[simp] theorem State.nextFree_xports (s : State) : (s.nextFree).xports = s.xports := rfl
@[simp] theorem State.nextFree_hosts (s : State) : (s.nextFree).hosts = s.hosts := rfl
@[simp] theorem State.nextFree_pm (s : State) : (s.nextFree).pm = s.pm := rfl
@[simp] theorem State.nextFree_tm (s : State) : (s.nextFree).tm = s.tm := rfl
@[simp] theorem State.nextFree_ft (s : State) : (s.nextFree).ft = s.ft := rfl
@[simp] theorem State.nextFree_boot (s : State) : (s.nextFree).boot = s.boot := rfl
@[simp] theorem State.nextFree_tap (s : State) : (s.nextFree).tap = s.tap := rfl
@[simp] theorem State.nextFree_chn (s : State) : (s.nextFree).chn = s.chn := rfl
@[simp] theorem State.nextFree_obs (s : State) : (s.nextFree).obs = s.obs := rfl

@[simp] theorem State.raise_pending (s : State) (e : Nat) : (s.raise e).pending = s.pending := rfl
@[simp] theorem State.raise_cyc (s : State) (e : Nat) : (s.raise e).cyc = s.cyc := rfl
@[simp] theorem State.raise_rst0 (s : State) (e : Nat) : (s.raise e).rst0 = s.rst0 := rfl
@[simp] theorem State.raise_bas0 (s : State) (e : Nat) : (s.raise e).bas0 = s.bas0 := rfl
@[simp] theorem State.raise_porstLow (s : State) (e : Nat) : (s.raise e).porstLow = s.porstLow := rfl
@[simp] theorem State.raise_rstLow (s : State) (e : Nat) : (s.raise e).rstLow = s.rstLow := rfl
@[simp] theorem State.raise_build (s : State) (e : Nat) : (s.raise e).build = s.build := rfl
@[simp] theorem State.raise_regs (s : State) (e : Nat) : (s.raise e).regs = s.regs := rfl
@[simp] theorem State.raise_micro (s : State) (e : Nat) : (s.raise e).micro = s.micro := rfl
@[simp] theorem State.raise_tb (s : State) (e : Nat) : (s.raise e).tb = s.tb := rfl
@[simp] theorem State.raise_routers (s : State) (e : Nat) : (s.raise e).routers = s.routers := rfl
@[simp] theorem State.raise_links (s : State) (e : Nat) : (s.raise e).links = s.links := rfl
@[simp] theorem State.raise_nis (s : State) (e : Nat) : (s.raise e).nis = s.nis := rfl
@[simp] theorem State.raise_agents (s : State) (e : Nat) : (s.raise e).agents = s.agents := rfl
@[simp] theorem State.raise_seq (s : State) (e : Nat) : (s.raise e).seq = s.seq := rfl
@[simp] theorem State.raise_xports (s : State) (e : Nat) : (s.raise e).xports = s.xports := rfl
@[simp] theorem State.raise_hosts (s : State) (e : Nat) : (s.raise e).hosts = s.hosts := rfl
@[simp] theorem State.raise_pm (s : State) (e : Nat) : (s.raise e).pm = s.pm := rfl
@[simp] theorem State.raise_tm (s : State) (e : Nat) : (s.raise e).tm = s.tm := rfl
@[simp] theorem State.raise_ft (s : State) (e : Nat) : (s.raise e).ft = s.ft := rfl
@[simp] theorem State.raise_boot (s : State) (e : Nat) : (s.raise e).boot = s.boot := rfl
@[simp] theorem State.raise_tap (s : State) (e : Nat) : (s.raise e).tap = s.tap := rfl
@[simp] theorem State.raise_chn (s : State) (e : Nat) : (s.raise e).chn = s.chn := rfl
@[simp] theorem State.raise_obs (s : State) (e : Nat) : (s.raise e).obs = s.obs := rfl
@[simp] theorem State.raise_free (s : State) (e : Nat) : (s.raise e).free = s.free := rfl

@[simp] theorem State.setTmOut_pending (s : State) (q : Nat) (l : List Pkt) : (s.setTmOut q l).pending = s.pending := rfl
@[simp] theorem State.setTmOut_cyc (s : State) (q : Nat) (l : List Pkt) : (s.setTmOut q l).cyc = s.cyc := rfl
@[simp] theorem State.setTmOut_rst0 (s : State) (q : Nat) (l : List Pkt) : (s.setTmOut q l).rst0 = s.rst0 := rfl
@[simp] theorem State.setTmOut_bas0 (s : State) (q : Nat) (l : List Pkt) : (s.setTmOut q l).bas0 = s.bas0 := rfl
@[simp] theorem State.setTmOut_porstLow (s : State) (q : Nat) (l : List Pkt) : (s.setTmOut q l).porstLow = s.porstLow := rfl
@[simp] theorem State.setTmOut_rstLow (s : State) (q : Nat) (l : List Pkt) : (s.setTmOut q l).rstLow = s.rstLow := rfl
@[simp] theorem State.setTmOut_build (s : State) (q : Nat) (l : List Pkt) : (s.setTmOut q l).build = s.build := rfl
@[simp] theorem State.setTmOut_regs (s : State) (q : Nat) (l : List Pkt) : (s.setTmOut q l).regs = s.regs := rfl
@[simp] theorem State.setTmOut_micro (s : State) (q : Nat) (l : List Pkt) : (s.setTmOut q l).micro = s.micro := rfl
@[simp] theorem State.setTmOut_tb (s : State) (q : Nat) (l : List Pkt) : (s.setTmOut q l).tb = s.tb := rfl
@[simp] theorem State.setTmOut_routers (s : State) (q : Nat) (l : List Pkt) : (s.setTmOut q l).routers = s.routers := rfl
@[simp] theorem State.setTmOut_links (s : State) (q : Nat) (l : List Pkt) : (s.setTmOut q l).links = s.links := rfl
@[simp] theorem State.setTmOut_nis (s : State) (q : Nat) (l : List Pkt) : (s.setTmOut q l).nis = s.nis := rfl
@[simp] theorem State.setTmOut_agents (s : State) (q : Nat) (l : List Pkt) : (s.setTmOut q l).agents = s.agents := rfl
@[simp] theorem State.setTmOut_evc (s : State) (q : Nat) (l : List Pkt) : (s.setTmOut q l).evc = s.evc := rfl
@[simp] theorem State.setTmOut_seq (s : State) (q : Nat) (l : List Pkt) : (s.setTmOut q l).seq = s.seq := rfl
@[simp] theorem State.setTmOut_xports (s : State) (q : Nat) (l : List Pkt) : (s.setTmOut q l).xports = s.xports := rfl
@[simp] theorem State.setTmOut_hosts (s : State) (q : Nat) (l : List Pkt) : (s.setTmOut q l).hosts = s.hosts := rfl
@[simp] theorem State.setTmOut_pm (s : State) (q : Nat) (l : List Pkt) : (s.setTmOut q l).pm = s.pm := rfl
@[simp] theorem State.setTmOut_ft (s : State) (q : Nat) (l : List Pkt) : (s.setTmOut q l).ft = s.ft := rfl
@[simp] theorem State.setTmOut_boot (s : State) (q : Nat) (l : List Pkt) : (s.setTmOut q l).boot = s.boot := rfl
@[simp] theorem State.setTmOut_tap (s : State) (q : Nat) (l : List Pkt) : (s.setTmOut q l).tap = s.tap := rfl
@[simp] theorem State.setTmOut_chn (s : State) (q : Nat) (l : List Pkt) : (s.setTmOut q l).chn = s.chn := rfl
@[simp] theorem State.setTmOut_obs (s : State) (q : Nat) (l : List Pkt) : (s.setTmOut q l).obs = s.obs := rfl
@[simp] theorem State.setTmOut_free (s : State) (q : Nat) (l : List Pkt) : (s.setTmOut q l).free = s.free := rfl

@[simp] theorem State.setTmRx_pending (s : State) (q : Nat) (l : List Pkt) : (s.setTmRx q l).pending = s.pending := rfl
@[simp] theorem State.setTmRx_cyc (s : State) (q : Nat) (l : List Pkt) : (s.setTmRx q l).cyc = s.cyc := rfl
@[simp] theorem State.setTmRx_rst0 (s : State) (q : Nat) (l : List Pkt) : (s.setTmRx q l).rst0 = s.rst0 := rfl
@[simp] theorem State.setTmRx_bas0 (s : State) (q : Nat) (l : List Pkt) : (s.setTmRx q l).bas0 = s.bas0 := rfl
@[simp] theorem State.setTmRx_porstLow (s : State) (q : Nat) (l : List Pkt) : (s.setTmRx q l).porstLow = s.porstLow := rfl
@[simp] theorem State.setTmRx_rstLow (s : State) (q : Nat) (l : List Pkt) : (s.setTmRx q l).rstLow = s.rstLow := rfl
@[simp] theorem State.setTmRx_build (s : State) (q : Nat) (l : List Pkt) : (s.setTmRx q l).build = s.build := rfl
@[simp] theorem State.setTmRx_regs (s : State) (q : Nat) (l : List Pkt) : (s.setTmRx q l).regs = s.regs := rfl
@[simp] theorem State.setTmRx_micro (s : State) (q : Nat) (l : List Pkt) : (s.setTmRx q l).micro = s.micro := rfl
@[simp] theorem State.setTmRx_tb (s : State) (q : Nat) (l : List Pkt) : (s.setTmRx q l).tb = s.tb := rfl
@[simp] theorem State.setTmRx_routers (s : State) (q : Nat) (l : List Pkt) : (s.setTmRx q l).routers = s.routers := rfl
@[simp] theorem State.setTmRx_links (s : State) (q : Nat) (l : List Pkt) : (s.setTmRx q l).links = s.links := rfl
@[simp] theorem State.setTmRx_nis (s : State) (q : Nat) (l : List Pkt) : (s.setTmRx q l).nis = s.nis := rfl
@[simp] theorem State.setTmRx_agents (s : State) (q : Nat) (l : List Pkt) : (s.setTmRx q l).agents = s.agents := rfl
@[simp] theorem State.setTmRx_evc (s : State) (q : Nat) (l : List Pkt) : (s.setTmRx q l).evc = s.evc := rfl
@[simp] theorem State.setTmRx_seq (s : State) (q : Nat) (l : List Pkt) : (s.setTmRx q l).seq = s.seq := rfl
@[simp] theorem State.setTmRx_xports (s : State) (q : Nat) (l : List Pkt) : (s.setTmRx q l).xports = s.xports := rfl
@[simp] theorem State.setTmRx_hosts (s : State) (q : Nat) (l : List Pkt) : (s.setTmRx q l).hosts = s.hosts := rfl
@[simp] theorem State.setTmRx_pm (s : State) (q : Nat) (l : List Pkt) : (s.setTmRx q l).pm = s.pm := rfl
@[simp] theorem State.setTmRx_ft (s : State) (q : Nat) (l : List Pkt) : (s.setTmRx q l).ft = s.ft := rfl
@[simp] theorem State.setTmRx_boot (s : State) (q : Nat) (l : List Pkt) : (s.setTmRx q l).boot = s.boot := rfl
@[simp] theorem State.setTmRx_tap (s : State) (q : Nat) (l : List Pkt) : (s.setTmRx q l).tap = s.tap := rfl
@[simp] theorem State.setTmRx_chn (s : State) (q : Nat) (l : List Pkt) : (s.setTmRx q l).chn = s.chn := rfl
@[simp] theorem State.setTmRx_obs (s : State) (q : Nat) (l : List Pkt) : (s.setTmRx q l).obs = s.obs := rfl
@[simp] theorem State.setTmRx_free (s : State) (q : Nat) (l : List Pkt) : (s.setTmRx q l).free = s.free := rfl

@[simp] theorem State.setCt_pending (s : State) (k : Nat) (c : Ct) : (s.setCt k c).pending = s.pending := rfl
@[simp] theorem State.setCt_cyc (s : State) (k : Nat) (c : Ct) : (s.setCt k c).cyc = s.cyc := rfl
@[simp] theorem State.setCt_rst0 (s : State) (k : Nat) (c : Ct) : (s.setCt k c).rst0 = s.rst0 := rfl
@[simp] theorem State.setCt_bas0 (s : State) (k : Nat) (c : Ct) : (s.setCt k c).bas0 = s.bas0 := rfl
@[simp] theorem State.setCt_porstLow (s : State) (k : Nat) (c : Ct) : (s.setCt k c).porstLow = s.porstLow := rfl
@[simp] theorem State.setCt_rstLow (s : State) (k : Nat) (c : Ct) : (s.setCt k c).rstLow = s.rstLow := rfl
@[simp] theorem State.setCt_build (s : State) (k : Nat) (c : Ct) : (s.setCt k c).build = s.build := rfl
@[simp] theorem State.setCt_regs (s : State) (k : Nat) (c : Ct) : (s.setCt k c).regs = s.regs := rfl
@[simp] theorem State.setCt_micro (s : State) (k : Nat) (c : Ct) : (s.setCt k c).micro = s.micro := rfl
@[simp] theorem State.setCt_tb (s : State) (k : Nat) (c : Ct) : (s.setCt k c).tb = s.tb := rfl
@[simp] theorem State.setCt_routers (s : State) (k : Nat) (c : Ct) : (s.setCt k c).routers = s.routers := rfl
@[simp] theorem State.setCt_links (s : State) (k : Nat) (c : Ct) : (s.setCt k c).links = s.links := rfl
@[simp] theorem State.setCt_nis (s : State) (k : Nat) (c : Ct) : (s.setCt k c).nis = s.nis := rfl
@[simp] theorem State.setCt_agents (s : State) (k : Nat) (c : Ct) : (s.setCt k c).agents = s.agents := rfl
@[simp] theorem State.setCt_evc (s : State) (k : Nat) (c : Ct) : (s.setCt k c).evc = s.evc := rfl
@[simp] theorem State.setCt_seq (s : State) (k : Nat) (c : Ct) : (s.setCt k c).seq = s.seq := rfl
@[simp] theorem State.setCt_xports (s : State) (k : Nat) (c : Ct) : (s.setCt k c).xports = s.xports := rfl
@[simp] theorem State.setCt_hosts (s : State) (k : Nat) (c : Ct) : (s.setCt k c).hosts = s.hosts := rfl
@[simp] theorem State.setCt_tm (s : State) (k : Nat) (c : Ct) : (s.setCt k c).tm = s.tm := rfl
@[simp] theorem State.setCt_ft (s : State) (k : Nat) (c : Ct) : (s.setCt k c).ft = s.ft := rfl
@[simp] theorem State.setCt_boot (s : State) (k : Nat) (c : Ct) : (s.setCt k c).boot = s.boot := rfl
@[simp] theorem State.setCt_tap (s : State) (k : Nat) (c : Ct) : (s.setCt k c).tap = s.tap := rfl
@[simp] theorem State.setCt_chn (s : State) (k : Nat) (c : Ct) : (s.setCt k c).chn = s.chn := rfl
@[simp] theorem State.setCt_obs (s : State) (k : Nat) (c : Ct) : (s.setCt k c).obs = s.obs := rfl
@[simp] theorem State.setCt_free (s : State) (k : Nat) (c : Ct) : (s.setCt k c).free = s.free := rfl

@[simp] theorem State.setOnce_pending (s : State) (k n : Nat) : (s.setOnce k n).pending = s.pending := rfl
@[simp] theorem State.setOnce_cyc (s : State) (k n : Nat) : (s.setOnce k n).cyc = s.cyc := rfl
@[simp] theorem State.setOnce_rst0 (s : State) (k n : Nat) : (s.setOnce k n).rst0 = s.rst0 := rfl
@[simp] theorem State.setOnce_bas0 (s : State) (k n : Nat) : (s.setOnce k n).bas0 = s.bas0 := rfl
@[simp] theorem State.setOnce_porstLow (s : State) (k n : Nat) : (s.setOnce k n).porstLow = s.porstLow := rfl
@[simp] theorem State.setOnce_rstLow (s : State) (k n : Nat) : (s.setOnce k n).rstLow = s.rstLow := rfl
@[simp] theorem State.setOnce_build (s : State) (k n : Nat) : (s.setOnce k n).build = s.build := rfl
@[simp] theorem State.setOnce_regs (s : State) (k n : Nat) : (s.setOnce k n).regs = s.regs := rfl
@[simp] theorem State.setOnce_micro (s : State) (k n : Nat) : (s.setOnce k n).micro = s.micro := rfl
@[simp] theorem State.setOnce_tb (s : State) (k n : Nat) : (s.setOnce k n).tb = s.tb := rfl
@[simp] theorem State.setOnce_routers (s : State) (k n : Nat) : (s.setOnce k n).routers = s.routers := rfl
@[simp] theorem State.setOnce_links (s : State) (k n : Nat) : (s.setOnce k n).links = s.links := rfl
@[simp] theorem State.setOnce_nis (s : State) (k n : Nat) : (s.setOnce k n).nis = s.nis := rfl
@[simp] theorem State.setOnce_agents (s : State) (k n : Nat) : (s.setOnce k n).agents = s.agents := rfl
@[simp] theorem State.setOnce_seq (s : State) (k n : Nat) : (s.setOnce k n).seq = s.seq := rfl
@[simp] theorem State.setOnce_xports (s : State) (k n : Nat) : (s.setOnce k n).xports = s.xports := rfl
@[simp] theorem State.setOnce_hosts (s : State) (k n : Nat) : (s.setOnce k n).hosts = s.hosts := rfl
@[simp] theorem State.setOnce_pm (s : State) (k n : Nat) : (s.setOnce k n).pm = s.pm := rfl
@[simp] theorem State.setOnce_tm (s : State) (k n : Nat) : (s.setOnce k n).tm = s.tm := rfl
@[simp] theorem State.setOnce_ft (s : State) (k n : Nat) : (s.setOnce k n).ft = s.ft := rfl
@[simp] theorem State.setOnce_boot (s : State) (k n : Nat) : (s.setOnce k n).boot = s.boot := rfl
@[simp] theorem State.setOnce_tap (s : State) (k n : Nat) : (s.setOnce k n).tap = s.tap := rfl
@[simp] theorem State.setOnce_chn (s : State) (k n : Nat) : (s.setOnce k n).chn = s.chn := rfl
@[simp] theorem State.setOnce_obs (s : State) (k n : Nat) : (s.setOnce k n).obs = s.obs := rfl
@[simp] theorem State.setOnce_free (s : State) (k n : Nat) : (s.setOnce k n).free = s.free := rfl

@[simp] theorem State.setLeaseEnd_pending (s : State) (l e : Nat) : (s.setLeaseEnd l e).pending = s.pending := rfl
@[simp] theorem State.setLeaseEnd_cyc (s : State) (l e : Nat) : (s.setLeaseEnd l e).cyc = s.cyc := rfl
@[simp] theorem State.setLeaseEnd_rst0 (s : State) (l e : Nat) : (s.setLeaseEnd l e).rst0 = s.rst0 := rfl
@[simp] theorem State.setLeaseEnd_bas0 (s : State) (l e : Nat) : (s.setLeaseEnd l e).bas0 = s.bas0 := rfl
@[simp] theorem State.setLeaseEnd_porstLow (s : State) (l e : Nat) : (s.setLeaseEnd l e).porstLow = s.porstLow := rfl
@[simp] theorem State.setLeaseEnd_rstLow (s : State) (l e : Nat) : (s.setLeaseEnd l e).rstLow = s.rstLow := rfl
@[simp] theorem State.setLeaseEnd_build (s : State) (l e : Nat) : (s.setLeaseEnd l e).build = s.build := rfl
@[simp] theorem State.setLeaseEnd_regs (s : State) (l e : Nat) : (s.setLeaseEnd l e).regs = s.regs := rfl
@[simp] theorem State.setLeaseEnd_micro (s : State) (l e : Nat) : (s.setLeaseEnd l e).micro = s.micro := rfl
@[simp] theorem State.setLeaseEnd_tb (s : State) (l e : Nat) : (s.setLeaseEnd l e).tb = s.tb := rfl
@[simp] theorem State.setLeaseEnd_routers (s : State) (l e : Nat) : (s.setLeaseEnd l e).routers = s.routers := rfl
@[simp] theorem State.setLeaseEnd_links (s : State) (l e : Nat) : (s.setLeaseEnd l e).links = s.links := rfl
@[simp] theorem State.setLeaseEnd_nis (s : State) (l e : Nat) : (s.setLeaseEnd l e).nis = s.nis := rfl
@[simp] theorem State.setLeaseEnd_agents (s : State) (l e : Nat) : (s.setLeaseEnd l e).agents = s.agents := rfl
@[simp] theorem State.setLeaseEnd_evc (s : State) (l e : Nat) : (s.setLeaseEnd l e).evc = s.evc := rfl
@[simp] theorem State.setLeaseEnd_xports (s : State) (l e : Nat) : (s.setLeaseEnd l e).xports = s.xports := rfl
@[simp] theorem State.setLeaseEnd_hosts (s : State) (l e : Nat) : (s.setLeaseEnd l e).hosts = s.hosts := rfl
@[simp] theorem State.setLeaseEnd_pm (s : State) (l e : Nat) : (s.setLeaseEnd l e).pm = s.pm := rfl
@[simp] theorem State.setLeaseEnd_tm (s : State) (l e : Nat) : (s.setLeaseEnd l e).tm = s.tm := rfl
@[simp] theorem State.setLeaseEnd_ft (s : State) (l e : Nat) : (s.setLeaseEnd l e).ft = s.ft := rfl
@[simp] theorem State.setLeaseEnd_boot (s : State) (l e : Nat) : (s.setLeaseEnd l e).boot = s.boot := rfl
@[simp] theorem State.setLeaseEnd_tap (s : State) (l e : Nat) : (s.setLeaseEnd l e).tap = s.tap := rfl
@[simp] theorem State.setLeaseEnd_chn (s : State) (l e : Nat) : (s.setLeaseEnd l e).chn = s.chn := rfl
@[simp] theorem State.setLeaseEnd_obs (s : State) (l e : Nat) : (s.setLeaseEnd l e).obs = s.obs := rfl
@[simp] theorem State.setLeaseEnd_free (s : State) (l e : Nat) : (s.setLeaseEnd l e).free = s.free := rfl

@[simp] theorem State.p_pending (s : State) (o : Nat) (f : Fd) (x : Nat) : (s.p o f x).pending = s.pending := rfl
@[simp] theorem State.p_cyc (s : State) (o : Nat) (f : Fd) (x : Nat) : (s.p o f x).cyc = s.cyc := rfl
@[simp] theorem State.p_rst0 (s : State) (o : Nat) (f : Fd) (x : Nat) : (s.p o f x).rst0 = s.rst0 := rfl
@[simp] theorem State.p_bas0 (s : State) (o : Nat) (f : Fd) (x : Nat) : (s.p o f x).bas0 = s.bas0 := rfl
@[simp] theorem State.p_porstLow (s : State) (o : Nat) (f : Fd) (x : Nat) : (s.p o f x).porstLow = s.porstLow := rfl
@[simp] theorem State.p_rstLow (s : State) (o : Nat) (f : Fd) (x : Nat) : (s.p o f x).rstLow = s.rstLow := rfl
@[simp] theorem State.p_build (s : State) (o : Nat) (f : Fd) (x : Nat) : (s.p o f x).build = s.build := rfl
@[simp] theorem State.p_micro (s : State) (o : Nat) (f : Fd) (x : Nat) : (s.p o f x).micro = s.micro := rfl
@[simp] theorem State.p_tb (s : State) (o : Nat) (f : Fd) (x : Nat) : (s.p o f x).tb = s.tb := rfl
@[simp] theorem State.p_routers (s : State) (o : Nat) (f : Fd) (x : Nat) : (s.p o f x).routers = s.routers := rfl
@[simp] theorem State.p_links (s : State) (o : Nat) (f : Fd) (x : Nat) : (s.p o f x).links = s.links := rfl
@[simp] theorem State.p_nis (s : State) (o : Nat) (f : Fd) (x : Nat) : (s.p o f x).nis = s.nis := rfl
@[simp] theorem State.p_agents (s : State) (o : Nat) (f : Fd) (x : Nat) : (s.p o f x).agents = s.agents := rfl
@[simp] theorem State.p_evc (s : State) (o : Nat) (f : Fd) (x : Nat) : (s.p o f x).evc = s.evc := rfl
@[simp] theorem State.p_seq (s : State) (o : Nat) (f : Fd) (x : Nat) : (s.p o f x).seq = s.seq := rfl
@[simp] theorem State.p_xports (s : State) (o : Nat) (f : Fd) (x : Nat) : (s.p o f x).xports = s.xports := rfl
@[simp] theorem State.p_hosts (s : State) (o : Nat) (f : Fd) (x : Nat) : (s.p o f x).hosts = s.hosts := rfl
@[simp] theorem State.p_pm (s : State) (o : Nat) (f : Fd) (x : Nat) : (s.p o f x).pm = s.pm := rfl
@[simp] theorem State.p_tm (s : State) (o : Nat) (f : Fd) (x : Nat) : (s.p o f x).tm = s.tm := rfl
@[simp] theorem State.p_ft (s : State) (o : Nat) (f : Fd) (x : Nat) : (s.p o f x).ft = s.ft := rfl
@[simp] theorem State.p_boot (s : State) (o : Nat) (f : Fd) (x : Nat) : (s.p o f x).boot = s.boot := rfl
@[simp] theorem State.p_tap (s : State) (o : Nat) (f : Fd) (x : Nat) : (s.p o f x).tap = s.tap := rfl
@[simp] theorem State.p_chn (s : State) (o : Nat) (f : Fd) (x : Nat) : (s.p o f x).chn = s.chn := rfl
@[simp] theorem State.p_obs (s : State) (o : Nat) (f : Fd) (x : Nat) : (s.p o f x).obs = s.obs := rfl
@[simp] theorem State.p_free (s : State) (o : Nat) (f : Fd) (x : Nat) : (s.p o f x).free = s.free := rfl

@[simp] theorem State.pb_pending (s : State) (o : Nat) (f : Fd) (b : Bool) : (s.pb o f b).pending = s.pending := rfl
@[simp] theorem State.pb_cyc (s : State) (o : Nat) (f : Fd) (b : Bool) : (s.pb o f b).cyc = s.cyc := rfl
@[simp] theorem State.pb_rst0 (s : State) (o : Nat) (f : Fd) (b : Bool) : (s.pb o f b).rst0 = s.rst0 := rfl
@[simp] theorem State.pb_bas0 (s : State) (o : Nat) (f : Fd) (b : Bool) : (s.pb o f b).bas0 = s.bas0 := rfl
@[simp] theorem State.pb_porstLow (s : State) (o : Nat) (f : Fd) (b : Bool) : (s.pb o f b).porstLow = s.porstLow := rfl
@[simp] theorem State.pb_rstLow (s : State) (o : Nat) (f : Fd) (b : Bool) : (s.pb o f b).rstLow = s.rstLow := rfl
@[simp] theorem State.pb_build (s : State) (o : Nat) (f : Fd) (b : Bool) : (s.pb o f b).build = s.build := rfl
@[simp] theorem State.pb_micro (s : State) (o : Nat) (f : Fd) (b : Bool) : (s.pb o f b).micro = s.micro := rfl
@[simp] theorem State.pb_tb (s : State) (o : Nat) (f : Fd) (b : Bool) : (s.pb o f b).tb = s.tb := rfl
@[simp] theorem State.pb_routers (s : State) (o : Nat) (f : Fd) (b : Bool) : (s.pb o f b).routers = s.routers := rfl
@[simp] theorem State.pb_links (s : State) (o : Nat) (f : Fd) (b : Bool) : (s.pb o f b).links = s.links := rfl
@[simp] theorem State.pb_nis (s : State) (o : Nat) (f : Fd) (b : Bool) : (s.pb o f b).nis = s.nis := rfl
@[simp] theorem State.pb_agents (s : State) (o : Nat) (f : Fd) (b : Bool) : (s.pb o f b).agents = s.agents := rfl
@[simp] theorem State.pb_evc (s : State) (o : Nat) (f : Fd) (b : Bool) : (s.pb o f b).evc = s.evc := rfl
@[simp] theorem State.pb_seq (s : State) (o : Nat) (f : Fd) (b : Bool) : (s.pb o f b).seq = s.seq := rfl
@[simp] theorem State.pb_xports (s : State) (o : Nat) (f : Fd) (b : Bool) : (s.pb o f b).xports = s.xports := rfl
@[simp] theorem State.pb_hosts (s : State) (o : Nat) (f : Fd) (b : Bool) : (s.pb o f b).hosts = s.hosts := rfl
@[simp] theorem State.pb_pm (s : State) (o : Nat) (f : Fd) (b : Bool) : (s.pb o f b).pm = s.pm := rfl
@[simp] theorem State.pb_tm (s : State) (o : Nat) (f : Fd) (b : Bool) : (s.pb o f b).tm = s.tm := rfl
@[simp] theorem State.pb_ft (s : State) (o : Nat) (f : Fd) (b : Bool) : (s.pb o f b).ft = s.ft := rfl
@[simp] theorem State.pb_boot (s : State) (o : Nat) (f : Fd) (b : Bool) : (s.pb o f b).boot = s.boot := rfl
@[simp] theorem State.pb_tap (s : State) (o : Nat) (f : Fd) (b : Bool) : (s.pb o f b).tap = s.tap := rfl
@[simp] theorem State.pb_chn (s : State) (o : Nat) (f : Fd) (b : Bool) : (s.pb o f b).chn = s.chn := rfl
@[simp] theorem State.pb_obs (s : State) (o : Nat) (f : Fd) (b : Bool) : (s.pb o f b).obs = s.obs := rfl
@[simp] theorem State.pb_free (s : State) (o : Nat) (f : Fd) (b : Bool) : (s.pb o f b).free = s.free := rfl

@[simp] theorem State.sat_pending (s : State) (o : Nat) (f : Fd) (k : Nat) : (s.sat o f k).pending = s.pending := rfl
@[simp] theorem State.sat_cyc (s : State) (o : Nat) (f : Fd) (k : Nat) : (s.sat o f k).cyc = s.cyc := rfl
@[simp] theorem State.sat_rst0 (s : State) (o : Nat) (f : Fd) (k : Nat) : (s.sat o f k).rst0 = s.rst0 := rfl
@[simp] theorem State.sat_bas0 (s : State) (o : Nat) (f : Fd) (k : Nat) : (s.sat o f k).bas0 = s.bas0 := rfl
@[simp] theorem State.sat_porstLow (s : State) (o : Nat) (f : Fd) (k : Nat) : (s.sat o f k).porstLow = s.porstLow := rfl
@[simp] theorem State.sat_rstLow (s : State) (o : Nat) (f : Fd) (k : Nat) : (s.sat o f k).rstLow = s.rstLow := rfl
@[simp] theorem State.sat_build (s : State) (o : Nat) (f : Fd) (k : Nat) : (s.sat o f k).build = s.build := rfl
@[simp] theorem State.sat_micro (s : State) (o : Nat) (f : Fd) (k : Nat) : (s.sat o f k).micro = s.micro := rfl
@[simp] theorem State.sat_tb (s : State) (o : Nat) (f : Fd) (k : Nat) : (s.sat o f k).tb = s.tb := rfl
@[simp] theorem State.sat_routers (s : State) (o : Nat) (f : Fd) (k : Nat) : (s.sat o f k).routers = s.routers := rfl
@[simp] theorem State.sat_links (s : State) (o : Nat) (f : Fd) (k : Nat) : (s.sat o f k).links = s.links := rfl
@[simp] theorem State.sat_nis (s : State) (o : Nat) (f : Fd) (k : Nat) : (s.sat o f k).nis = s.nis := rfl
@[simp] theorem State.sat_agents (s : State) (o : Nat) (f : Fd) (k : Nat) : (s.sat o f k).agents = s.agents := rfl
@[simp] theorem State.sat_evc (s : State) (o : Nat) (f : Fd) (k : Nat) : (s.sat o f k).evc = s.evc := rfl
@[simp] theorem State.sat_seq (s : State) (o : Nat) (f : Fd) (k : Nat) : (s.sat o f k).seq = s.seq := rfl
@[simp] theorem State.sat_xports (s : State) (o : Nat) (f : Fd) (k : Nat) : (s.sat o f k).xports = s.xports := rfl
@[simp] theorem State.sat_hosts (s : State) (o : Nat) (f : Fd) (k : Nat) : (s.sat o f k).hosts = s.hosts := rfl
@[simp] theorem State.sat_pm (s : State) (o : Nat) (f : Fd) (k : Nat) : (s.sat o f k).pm = s.pm := rfl
@[simp] theorem State.sat_tm (s : State) (o : Nat) (f : Fd) (k : Nat) : (s.sat o f k).tm = s.tm := rfl
@[simp] theorem State.sat_ft (s : State) (o : Nat) (f : Fd) (k : Nat) : (s.sat o f k).ft = s.ft := rfl
@[simp] theorem State.sat_boot (s : State) (o : Nat) (f : Fd) (k : Nat) : (s.sat o f k).boot = s.boot := rfl
@[simp] theorem State.sat_tap (s : State) (o : Nat) (f : Fd) (k : Nat) : (s.sat o f k).tap = s.tap := rfl
@[simp] theorem State.sat_chn (s : State) (o : Nat) (f : Fd) (k : Nat) : (s.sat o f k).chn = s.chn := rfl
@[simp] theorem State.sat_obs (s : State) (o : Nat) (f : Fd) (k : Nat) : (s.sat o f k).obs = s.obs := rfl
@[simp] theorem State.sat_free (s : State) (o : Nat) (f : Fd) (k : Nat) : (s.sat o f k).free = s.free := rfl

@[simp] theorem State.bump_pending (s : State) (o : Nat) (f : Fd) (k : Nat) : (s.bump o f k).pending = s.pending := rfl
@[simp] theorem State.bump_cyc (s : State) (o : Nat) (f : Fd) (k : Nat) : (s.bump o f k).cyc = s.cyc := rfl
@[simp] theorem State.bump_rst0 (s : State) (o : Nat) (f : Fd) (k : Nat) : (s.bump o f k).rst0 = s.rst0 := rfl
@[simp] theorem State.bump_bas0 (s : State) (o : Nat) (f : Fd) (k : Nat) : (s.bump o f k).bas0 = s.bas0 := rfl
@[simp] theorem State.bump_porstLow (s : State) (o : Nat) (f : Fd) (k : Nat) : (s.bump o f k).porstLow = s.porstLow := rfl
@[simp] theorem State.bump_rstLow (s : State) (o : Nat) (f : Fd) (k : Nat) : (s.bump o f k).rstLow = s.rstLow := rfl
@[simp] theorem State.bump_build (s : State) (o : Nat) (f : Fd) (k : Nat) : (s.bump o f k).build = s.build := rfl
@[simp] theorem State.bump_micro (s : State) (o : Nat) (f : Fd) (k : Nat) : (s.bump o f k).micro = s.micro := rfl
@[simp] theorem State.bump_tb (s : State) (o : Nat) (f : Fd) (k : Nat) : (s.bump o f k).tb = s.tb := rfl
@[simp] theorem State.bump_routers (s : State) (o : Nat) (f : Fd) (k : Nat) : (s.bump o f k).routers = s.routers := rfl
@[simp] theorem State.bump_links (s : State) (o : Nat) (f : Fd) (k : Nat) : (s.bump o f k).links = s.links := rfl
@[simp] theorem State.bump_nis (s : State) (o : Nat) (f : Fd) (k : Nat) : (s.bump o f k).nis = s.nis := rfl
@[simp] theorem State.bump_agents (s : State) (o : Nat) (f : Fd) (k : Nat) : (s.bump o f k).agents = s.agents := rfl
@[simp] theorem State.bump_evc (s : State) (o : Nat) (f : Fd) (k : Nat) : (s.bump o f k).evc = s.evc := rfl
@[simp] theorem State.bump_seq (s : State) (o : Nat) (f : Fd) (k : Nat) : (s.bump o f k).seq = s.seq := rfl
@[simp] theorem State.bump_xports (s : State) (o : Nat) (f : Fd) (k : Nat) : (s.bump o f k).xports = s.xports := rfl
@[simp] theorem State.bump_hosts (s : State) (o : Nat) (f : Fd) (k : Nat) : (s.bump o f k).hosts = s.hosts := rfl
@[simp] theorem State.bump_pm (s : State) (o : Nat) (f : Fd) (k : Nat) : (s.bump o f k).pm = s.pm := rfl
@[simp] theorem State.bump_tm (s : State) (o : Nat) (f : Fd) (k : Nat) : (s.bump o f k).tm = s.tm := rfl
@[simp] theorem State.bump_ft (s : State) (o : Nat) (f : Fd) (k : Nat) : (s.bump o f k).ft = s.ft := rfl
@[simp] theorem State.bump_boot (s : State) (o : Nat) (f : Fd) (k : Nat) : (s.bump o f k).boot = s.boot := rfl
@[simp] theorem State.bump_tap (s : State) (o : Nat) (f : Fd) (k : Nat) : (s.bump o f k).tap = s.tap := rfl
@[simp] theorem State.bump_chn (s : State) (o : Nat) (f : Fd) (k : Nat) : (s.bump o f k).chn = s.chn := rfl
@[simp] theorem State.bump_obs (s : State) (o : Nat) (f : Fd) (k : Nat) : (s.bump o f k).obs = s.obs := rfl
@[simp] theorem State.bump_free (s : State) (o : Nat) (f : Fd) (k : Nat) : (s.bump o f k).free = s.free := rfl

@[simp] theorem State.putBitAt_pending (s : State) (o i : Nat) (b : Bool) : (s.putBitAt o i b).pending = s.pending := rfl
@[simp] theorem State.putBitAt_cyc (s : State) (o i : Nat) (b : Bool) : (s.putBitAt o i b).cyc = s.cyc := rfl
@[simp] theorem State.putBitAt_rst0 (s : State) (o i : Nat) (b : Bool) : (s.putBitAt o i b).rst0 = s.rst0 := rfl
@[simp] theorem State.putBitAt_bas0 (s : State) (o i : Nat) (b : Bool) : (s.putBitAt o i b).bas0 = s.bas0 := rfl
@[simp] theorem State.putBitAt_porstLow (s : State) (o i : Nat) (b : Bool) : (s.putBitAt o i b).porstLow = s.porstLow := rfl
@[simp] theorem State.putBitAt_rstLow (s : State) (o i : Nat) (b : Bool) : (s.putBitAt o i b).rstLow = s.rstLow := rfl
@[simp] theorem State.putBitAt_build (s : State) (o i : Nat) (b : Bool) : (s.putBitAt o i b).build = s.build := rfl
@[simp] theorem State.putBitAt_micro (s : State) (o i : Nat) (b : Bool) : (s.putBitAt o i b).micro = s.micro := rfl
@[simp] theorem State.putBitAt_tb (s : State) (o i : Nat) (b : Bool) : (s.putBitAt o i b).tb = s.tb := rfl
@[simp] theorem State.putBitAt_routers (s : State) (o i : Nat) (b : Bool) : (s.putBitAt o i b).routers = s.routers := rfl
@[simp] theorem State.putBitAt_links (s : State) (o i : Nat) (b : Bool) : (s.putBitAt o i b).links = s.links := rfl
@[simp] theorem State.putBitAt_nis (s : State) (o i : Nat) (b : Bool) : (s.putBitAt o i b).nis = s.nis := rfl
@[simp] theorem State.putBitAt_agents (s : State) (o i : Nat) (b : Bool) : (s.putBitAt o i b).agents = s.agents := rfl
@[simp] theorem State.putBitAt_evc (s : State) (o i : Nat) (b : Bool) : (s.putBitAt o i b).evc = s.evc := rfl
@[simp] theorem State.putBitAt_seq (s : State) (o i : Nat) (b : Bool) : (s.putBitAt o i b).seq = s.seq := rfl
@[simp] theorem State.putBitAt_xports (s : State) (o i : Nat) (b : Bool) : (s.putBitAt o i b).xports = s.xports := rfl
@[simp] theorem State.putBitAt_hosts (s : State) (o i : Nat) (b : Bool) : (s.putBitAt o i b).hosts = s.hosts := rfl
@[simp] theorem State.putBitAt_pm (s : State) (o i : Nat) (b : Bool) : (s.putBitAt o i b).pm = s.pm := rfl
@[simp] theorem State.putBitAt_tm (s : State) (o i : Nat) (b : Bool) : (s.putBitAt o i b).tm = s.tm := rfl
@[simp] theorem State.putBitAt_ft (s : State) (o i : Nat) (b : Bool) : (s.putBitAt o i b).ft = s.ft := rfl
@[simp] theorem State.putBitAt_boot (s : State) (o i : Nat) (b : Bool) : (s.putBitAt o i b).boot = s.boot := rfl
@[simp] theorem State.putBitAt_tap (s : State) (o i : Nat) (b : Bool) : (s.putBitAt o i b).tap = s.tap := rfl
@[simp] theorem State.putBitAt_chn (s : State) (o i : Nat) (b : Bool) : (s.putBitAt o i b).chn = s.chn := rfl
@[simp] theorem State.putBitAt_obs (s : State) (o i : Nat) (b : Bool) : (s.putBitAt o i b).obs = s.obs := rfl
@[simp] theorem State.putBitAt_free (s : State) (o i : Nat) (b : Bool) : (s.putBitAt o i b).free = s.free := rfl

-- Registers.

theorem State.rd_wr (s : State) (o : Nat) (v : W) (h : s.regsOk) : (s.wr o v).rd o = v := by
  exact tget_tput (d := fun k => resetVal s.build k) o v h

theorem State.rd_wr_ne (s : State) {o i : Nat} (v : W) (h : i ≠ o) : (s.wr o v).rd i = s.rd i := tget_tput_ne v h

theorem State.regsOk_wr {s : State} (h : s.regsOk) (o : Nat) (v : W) : (s.wr o v).regsOk := wf_tput (d := fun k => resetVal s.build k) o v h

theorem State.regsOk_of {s t : State} (h : s.regsOk) (h1 : t.regs = s.regs) (h2 : t.build = s.build) : t.regsOk := by
  unfold State.regsOk at *; rw [h1, h2]; exact h

theorem State.rd_of {s t : State} (h1 : t.regs = s.regs) (h2 : t.build = s.build) (o : Nat) : t.rd o = s.rd o := by
  unfold State.rd; rw [h1, h2]

theorem State.g_of {s t : State} (h1 : t.regs = s.regs) (h2 : t.build = s.build) (o : Nat) (f : Fd) : t.g o f = s.g o f := by
  unfold State.g; rw [State.rd_of h1 h2]

@[simp] theorem State.rd_setRouter (s : State) (t pl : Nat) (x : Router) (o : Nat) : (s.setRouter t pl x).rd o = s.rd o := rfl
@[simp] theorem State.rd_setLink (s : State) (t pl d : Nat) (x : LinkX) (o : Nat) : (s.setLink t pl d x).rd o = s.rd o := rfl
@[simp] theorem State.rd_setNi (s : State) (t p : Nat) (x : Ni) (o : Nat) : (s.setNi t p x).rd o = s.rd o := rfl
@[simp] theorem State.rd_setAgent (s : State) (t : Nat) (x : Agent) (o : Nat) : (s.setAgent t x).rd o = s.rd o := rfl
@[simp] theorem State.rd_setXport (s : State) (j : Nat) (x : XPort) (o : Nat) : (s.setXport j x).rd o = s.rd o := rfl
@[simp] theorem State.rd_setHost (s : State) (h : Nat) (x : XHost) (o : Nat) : (s.setHost h x).rd o = s.rd o := rfl
@[simp] theorem State.rd_setQueue (s : State) (q : Nat) (x : Queue) (o : Nat) : (s.setQueue q x).rd o = s.rd o := rfl
@[simp] theorem State.rd_setCtx (s : State) (c : CtxId) (x : Ctx) (o : Nat) : (s.setCtx c x).rd o = s.rd o := rfl
@[simp] theorem State.rd_raise (s : State) (e o : Nat) : (s.raise e).rd o = s.rd o := rfl

-- Fields.

/-- A field reads what was put into it. -/
theorem fld_setFld {n : Nat} (v : BitVec n) (lo w x : Nat) (h : lo + w ≤ n) : fld (setFld v lo w x) lo w = x % 2 ^ w := by
  have e : (setFld v lo w x).extractLsb' lo w = BitVec.ofNat w x := by
    apply BitVec.eq_of_getLsbD_eq
    intro i hi
    simp only [setFld, BitVec.getLsbD_extractLsb', hi, decide_true, Bool.true_and, BitVec.getLsbD_or, BitVec.getLsbD_and, BitVec.getLsbD_not,
      BitVec.getLsbD_shiftLeft, BitVec.getLsbD_ofNat]
    have h1 : lo + i < n := by omega
    have h2 : i < n := by omega
    have h3 : ¬ lo + i < lo := by omega
    simp [h1, h2, h3, hi, Nat.testBit_two_pow_sub_one, Nat.testBit_mod_two_pow]
  unfold fld
  rw [e, BitVec.toNat_ofNat]

/-- Putting one field leaves a field that does not overlap it alone. -/
theorem fld_setFld_ne {n : Nat} (v : BitVec n) (lo w x lo' w' : Nat) (h : lo' + w' ≤ lo ∨ lo + w ≤ lo') :
    fld (setFld v lo w x) lo' w' = fld v lo' w' := by
  have e : (setFld v lo w x).extractLsb' lo' w' = v.extractLsb' lo' w' := by
    apply BitVec.eq_of_getLsbD_eq
    intro i hi
    simp only [setFld, BitVec.getLsbD_extractLsb', hi, decide_true, Bool.true_and, BitVec.getLsbD_or, BitVec.getLsbD_and, BitVec.getLsbD_not,
      BitVec.getLsbD_shiftLeft, BitVec.getLsbD_ofNat]
    by_cases hn : lo' + i < n
    · rcases h with h | h
      · have : lo' + i < lo := by omega
        simp [hn, this]
      · have h1 : ¬ lo' + i < lo := by omega
        have h2 : ¬ lo' + i - lo < w := by omega
        simp [hn, h1, h2, Nat.testBit_two_pow_sub_one, Nat.testBit_mod_two_pow]
    · have : v.getLsbD (lo' + i) = false := BitVec.getLsbD_of_ge _ _ (by omega)
      simp [hn, this]
  unfold fld
  rw [e]

theorem State.g_p (s : State) (o : Nat) (f : Fd) (x : Nat) (h : s.regsOk) (hf : f.lo + f.w ≤ 64) : (s.p o f x).g o f = x % 2 ^ f.w := by
  unfold State.g State.p
  rw [State.rd_wr _ _ _ h, fld_setFld _ _ _ _ hf]

theorem State.g_p_ne (s : State) {o i : Nat} (f f' : Fd) (x : Nat) (h : i ≠ o) : (s.p o f x).g i f' = s.g i f' := by
  unfold State.g State.p
  rw [State.rd_wr_ne _ _ h]

theorem State.g_p_other (s : State) (o : Nat) (f f' : Fd) (x : Nat) (h : s.regsOk) (hf : f'.lo + f'.w ≤ f.lo ∨ f.lo + f.w ≤ f'.lo) :
    (s.p o f x).g o f' = s.g o f' := by
  unfold State.g State.p
  rw [State.rd_wr _ _ _ h, fld_setFld_ne _ _ _ _ _ _ hf]

theorem State.regsOk_p {s : State} (h : s.regsOk) (o : Nat) (f : Fd) (x : Nat) : (s.p o f x).regsOk := State.regsOk_wr h _ _

-- Components.

@[simp] theorem State.ctx_setCtx (s : State) (c : CtxId) (x : Ctx) : (s.setCtx c x).ctx c = x := by
  simp [State.ctx, State.setCtx]

theorem State.ctx_setCtx_ne (s : State) {c d : CtxId} (x : Ctx) (h : d ≠ c) : (s.setCtx c x).ctx d = s.ctx d := by
  have : c.val ≠ d.val := fun k => h (Fin.ext k.symm)
  simp [State.ctx, State.setCtx, this]

theorem State.setCtx_setCtx (s : State) (c : CtxId) (x y : Ctx) : (s.setCtx c x).setCtx c y = s.setCtx c y := by
  simp [State.setCtx]

theorem State.ni_setNi (s : State) (t p : Nat) (x : Ni) (h : s.canon) : (s.setNi t p x).ni t p = x :=
  tget_tput (d := fun _ => Ni.reset) _ x h.nis
theorem State.agent_setAgent (s : State) (t : Nat) (x : Agent) (h : s.canon) : (s.setAgent t x).agent t = x :=
  tget_tput (d := fun _ => Agent.reset) _ x h.agents
theorem State.router_setRouter (s : State) (t pl : Nat) (x : Router) (h : s.canon) : (s.setRouter t pl x).router t pl = x :=
  tget_tput (d := fun _ => Router.reset) _ x h.routers
theorem State.link_setLink (s : State) (t pl d : Nat) (x : LinkX) (h : s.canon) : (s.setLink t pl d x).link t pl d = x :=
  tget_tput (d := fun _ => LinkX.reset) _ x h.links
theorem State.host_setHost (s : State) (j : Nat) (x : XHost) (h : s.canon) : (s.setHost j x).host j = x :=
  tget_tput (d := fun _ => XHost.reset) _ x h.hosts
theorem State.xport_setXport (s : State) (j : Nat) (x : XPort) (h : s.canon) : (s.setXport j x).xport j = x :=
  tget_tput (d := fun _ => XPort.reset) _ x h.xports

end Sys2Proof.Machine
end

