-- ==== Sys2Proof/Laws/Issue.lean ====
section
/-! SUPPORT. What every Bonov instruction shares: its issue, its end, and the look at the other contexts that follows it. -/
namespace Sys2Proof.Machine

/-- An instruction that nothing stops acts on the state in which it is the current one. -/
theorem State.issue_runs {s : State} {c : CtxId} {op : Nat} {j : Job} {w : BitVec 32} (h : s.atInstr c op j w)
    (act : State → Job → BitVec 32 → State) : s.issue c op act = (act (s.issued c j w) { j with lastPc := j.pc } w).recheck := by
  obtain ⟨h1, h2, h3, h4, h5, h6, h7, h8, h9⟩ := h
  have h2' : ¬ j.len ≤ j.pc.toNat := by omega
  have hf : s.fetched c j = s.issued c j w := by unfold State.fetched State.issued; rw [h3]
  unfold State.issue
  simp only [h1, h2', h3, h4, h5, h6, h7, h8, h9, hf, if_false, Bool.and_false, Bool.false_eq_true, Bool.true_eq_false, or_self, ne_eq, not_true_eq_false]

@[simp] theorem State.ctx_issued (s : State) (c : CtxId) (j : Job) (w : BitVec 32) :
    (s.issued c j w).ctx c = { s.ctx c with word := w, job := some { j with lastPc := j.pc } } := by
  simp [State.issued]

/-- An instruction's end, where the context's job need not end with it. -/
theorem State.doneAt_eq {s : State} {c : CtxId} {j : Job} (hj : (s.ctx c).job = some j) (hd : (s.ctx c).due = none) (pc : BitVec 12) (f : Job → Job) :
    s.doneAt c pc f = s.retired c (f j) pc := by
  unfold State.doneAt State.boundary State.putJob State.retired
  simp only [hj, State.ctx_setCtx, hd]

theorem State.done_eq {s : State} {c : CtxId} {j : Job} (hj : (s.ctx c).job = some j) (hd : (s.ctx c).due = none) (f : Job → Job) :
    s.done c f = s.retired c (f j) (j.pc + 1) := by
  unfold State.done
  simp only [State.doneAt_eq hj hd, hj, Option.map_some, Option.getD_some]

theorem State.doneRd_eq {s : State} {c : CtxId} {j : Job} (hj : (s.ctx c).job = some j) (hd : (s.ctx c).due = none) (v : W) :
    s.doneRd c v = s.retired c (j.set (iRd (s.ctx c).word) v) (j.pc + 1) := State.done_eq hj hd _

theorem State.doneCode_eq {s : State} {c : CtxId} {j : Job} (hj : (s.ctx c).job = some j) (hd : (s.ctx c).due = none) (n : Nat) :
    s.doneCode c n = s.retired c (j.set (iRd (s.ctx c).word) (BitVec.ofNat 64 n)) (j.pc + 1) := State.doneRd_eq hj hd _

end Sys2Proof.Machine
end

