-- ==== Sys2Proof/Laws/Keeps.lean ====
section
/-! SUPPORT. What every operation keeps: the queue of commands, the parameter set, and the canonical form of the tables. -/
namespace Sys2Proof.Machine

/-- t has the queue and the parameter set of s, and its tables are in canonical form when those of s are. -/
structure Keeps (s t : State) : Prop where
  pending : t.pending = s.pending
  build : t.build = s.build
  canon : s.canon → t.canon

theorem Keeps.refl (s : State) : Keeps s s := ⟨rfl, rfl, id⟩
theorem Keeps.trans {a b c : State} (h : Keeps a b) (k : Keeps b c) : Keeps a c :=
  ⟨k.pending.trans h.pending, k.build.trans h.build, fun x => k.canon (h.canon x)⟩

/-- A step over a list keeps what each of its steps keeps. -/
theorem Keeps.foldl {α : Type} {f : State → α → State} (hf : ∀ s a, Keeps s (f s a)) (l : List α) (s : State) : Keeps s (l.foldl f s) := by
  induction l generalizing s with
  | nil => exact Keeps.refl s
  | cons a l ih => exact (hf s a).trans (ih _)

theorem Keeps.foldl_from {α : Type} {f : State → α → State} {r s : State} (h : Keeps r s) (hf : ∀ s a, Keeps r s → Keeps r (f s a)) (l : List α) :
    Keeps r (l.foldl f s) := by
  induction l generalizing s with
  | nil => exact h
  | cons a l ih => exact ih (hf s a h)

/-- The tables that stand inside a part of the block. -/
abbrev State.rest (s : State) :=
  (s.evc.stks, s.evc.wakes, s.evc.once, s.seq.saved, s.seq.leaseEnd, s.tm.lists, s.tm.lastCh, s.tm.qs,
   s.tm.drr, s.tm.stag, s.tm.vt, s.tm.sh, s.tm.ptok, s.tm.mtr, s.tm.pol, s.tm.gates,
   s.tm.disp, s.tm.recReads, s.tm.owed, s.tm.rx, s.tm.outq, s.tm.spFrame, s.obs.seqs, s.obs.sampCnt,
   s.obs.post, s.pm.cts, s.tap.fuses)

theorem Evc.canon.of_eq {x y : Evc} (c : x.canon) (h0 : y.stks = x.stks) (h1 : y.wakes = x.wakes) (h2 : y.once = x.once) : y.canon := by
  constructor
  · rw [h0]; exact c.stks
  · rw [h1]; exact c.wakes
  · rw [h2]; exact c.once

theorem Seq.canon.of_eq {x y : Seq} (c : x.canon) (h0 : y.saved = x.saved) (h1 : y.leaseEnd = x.leaseEnd) : y.canon := by
  constructor
  · rw [h0]; exact c.saved
  · rw [h1]; exact c.leaseEnd

theorem Tm.canon.of_eq {x y : Tm} (c : x.canon) (h0 : y.lists = x.lists) (h1 : y.lastCh = x.lastCh) (h2 : y.qs = x.qs) (h3 : y.drr = x.drr) (h4 : y.stag = x.stag) (h5 : y.vt = x.vt) (h6 : y.sh = x.sh) (h7 : y.ptok = x.ptok) (h8 : y.mtr = x.mtr) (h9 : y.pol = x.pol) (h10 : y.gates = x.gates) (h11 : y.disp = x.disp) (h12 : y.recReads = x.recReads) (h13 : y.owed = x.owed) (h14 : y.rx = x.rx) (h15 : y.outq = x.outq) (h16 : y.spFrame = x.spFrame) : y.canon := by
  constructor
  · rw [h0]; exact c.lists
  · rw [h1]; exact c.lastCh
  · rw [h2]; exact c.qs
  · rw [h3]; exact c.drr
  · rw [h4]; exact c.stag
  · rw [h5]; exact c.vt
  · rw [h6]; exact c.sh
  · rw [h7]; exact c.ptok
  · rw [h8]; exact c.mtr
  · rw [h9]; exact c.pol
  · rw [h10]; exact c.gates
  · rw [h11]; exact c.disp
  · rw [h12]; exact c.recReads
  · rw [h13]; exact c.owed
  · rw [h14]; exact c.rx
  · rw [h15]; exact c.outq
  · rw [h16]; exact c.spFrame

theorem Obs.canon.of_eq {x y : Obs} (c : x.canon) (h0 : y.seqs = x.seqs) (h1 : y.sampCnt = x.sampCnt) (h2 : y.post = x.post) : y.canon := by
  constructor
  · rw [h0]; exact c.seqs
  · rw [h1]; exact c.sampCnt
  · rw [h2]; exact c.post

/-- Parts of the state that are no table and neither the queue nor the parameter set may change. -/
theorem Keeps.of_eq {s t : State} (h1 : t.pending = s.pending) (h2 : t.build = s.build) (h3 : t.regs = s.regs) (h4 : t.micro = s.micro)
    (h5 : t.routers = s.routers) (h6 : t.links = s.links) (h7 : t.nis = s.nis) (h8 : t.agents = s.agents) (h9 : t.xports = s.xports)
    (h10 : t.hosts = s.hosts) (hr : t.rest = s.rest) : Keeps s t := by
  refine ⟨h1, h2, fun c => ?_⟩
  simp only [State.rest, Prod.mk.injEq] at hr
  obtain ⟨evc0, evc1, evc2, seq0, seq1, tm0, tm1, tm2, tm3, tm4, tm5, tm6, tm7, tm8, tm9, tm10, tm11, tm12, tm13, tm14, tm15, tm16, obs0, obs1, obs2, pm0, tap0⟩ := hr
  constructor
  · unfold State.regsOk; rw [h2, h3]; exact c.regs
  · rw [h4]; exact c.micro
  · rw [h5]; exact c.routers
  · rw [h6]; exact c.links
  · rw [h7]; exact c.nis
  · rw [h8]; exact c.agents
  · rw [h9]; exact c.xports
  · rw [h10]; exact c.hosts
  · exact c.evc.of_eq evc0 evc1 evc2
  · exact c.seq.of_eq seq0 seq1
  · rw [pm0]; exact c.pm
  · exact c.tm.of_eq tm0 tm1 tm2 tm3 tm4 tm5 tm6 tm7 tm8 tm9 tm10 tm11 tm12 tm13 tm14 tm15 tm16
  · rw [tap0]; exact c.tap
  · exact c.obs.of_eq obs0 obs1 obs2

theorem Keeps.wr {r s : State} (h : Keeps r s) (o : Nat) (v : W) : Keeps r (s.wr o v) :=
  ⟨h.pending, h.build, fun c => let k := h.canon c; { k with regs := wf_tput o v k.regs }⟩
theorem Keeps.resetRegs {r s : State} (h : Keeps r s) (f : Nat → Bool) : Keeps r (s.resetRegs f) :=
  ⟨h.pending, h.build, fun c => let k := h.canon c; { k with regs := wf_filter _ k.regs }⟩
theorem Keeps.setRouter {r s : State} (h : Keeps r s) (t pl : Nat) (x : Router) : Keeps r (s.setRouter t pl x) :=
  ⟨h.pending, h.build, fun c => let k := h.canon c; { k with routers := wf_tput (d := fun _ => Router.reset) _ x k.routers }⟩
theorem Keeps.setLink {r s : State} (h : Keeps r s) (t pl d : Nat) (x : LinkX) : Keeps r (s.setLink t pl d x) :=
  ⟨h.pending, h.build, fun c => let k := h.canon c; { k with links := wf_tput (d := fun _ => LinkX.reset) _ x k.links }⟩
theorem Keeps.setNi {r s : State} (h : Keeps r s) (t p : Nat) (x : Ni) : Keeps r (s.setNi t p x) :=
  ⟨h.pending, h.build, fun c => let k := h.canon c; { k with nis := wf_tput (d := fun _ => Ni.reset) _ x k.nis }⟩
theorem Keeps.setAgent {r s : State} (h : Keeps r s) (t : Nat) (x : Agent) : Keeps r (s.setAgent t x) :=
  ⟨h.pending, h.build, fun c => let k := h.canon c; { k with agents := wf_tput (d := fun _ => Agent.reset) _ x k.agents }⟩
theorem Keeps.setXport {r s : State} (h : Keeps r s) (j : Nat) (x : XPort) : Keeps r (s.setXport j x) :=
  ⟨h.pending, h.build, fun c => let k := h.canon c; { k with xports := wf_tput (d := fun _ => XPort.reset) _ x k.xports }⟩
theorem Keeps.setHost {r s : State} (h : Keeps r s) (t : Nat) (x : XHost) : Keeps r (s.setHost t x) :=
  ⟨h.pending, h.build, fun c => let k := h.canon c; { k with hosts := wf_tput (d := fun _ => XHost.reset) _ x k.hosts }⟩

/-- A part that keeps its tables' form may change. -/
theorem Keeps.evc {r s : State} (h : Keeps r s) (x : Evc) (hx : s.evc.canon → x.canon) : Keeps r { s with evc := x } :=
  ⟨h.pending, h.build, fun c => let k := h.canon c; { k with evc := hx k.evc }⟩
theorem Keeps.seq {r s : State} (h : Keeps r s) (x : Seq) (hx : s.seq.canon → x.canon) : Keeps r { s with seq := x } :=
  ⟨h.pending, h.build, fun c => let k := h.canon c; { k with seq := hx k.seq }⟩
theorem Keeps.pm {r s : State} (h : Keeps r s) (x : Pm) (hx : Tab.wf (fun _ => (⟨false, 0, 0⟩ : Ct)) s.pm.cts = true → Tab.wf (fun _ => (⟨false, 0, 0⟩ : Ct)) x.cts = true) :
    Keeps r { s with pm := x } :=
  ⟨h.pending, h.build, fun c => let k := h.canon c; { k with pm := hx k.pm }⟩
theorem Keeps.tm {r s : State} (h : Keeps r s) (x : Tm) (hx : s.tm.canon → x.canon) : Keeps r { s with tm := x } :=
  ⟨h.pending, h.build, fun c => let k := h.canon c; { k with tm := hx k.tm }⟩
theorem Keeps.tap {r s : State} (h : Keeps r s) (x : Tap) (hx : Tab.wf (fun _ => 0) s.tap.fuses = true → Tab.wf (fun _ => 0) x.fuses = true) :
    Keeps r { s with tap := x } :=
  ⟨h.pending, h.build, fun c => let k := h.canon c; { k with tap := hx k.tap }⟩
theorem Keeps.obs {r s : State} (h : Keeps r s) (x : Obs) (hx : s.obs.canon → x.canon) : Keeps r { s with obs := x } :=
  ⟨h.pending, h.build, fun c => let k := h.canon c; { k with obs := hx k.obs }⟩

theorem Keeps.hosts {r s : State} (h : Keeps r s) (x : Tab XHost) (hx : r.canon → Tab.wf (fun _ => XHost.reset) x = true) :
    Keeps r { s with hosts := x } :=
  ⟨h.pending, h.build, fun c => { h.canon c with hosts := hx c }⟩

/-- Everything else may change. -/
theorem Keeps.upd {r s : State} (h : Keeps r s) {xcyc xrst0 xbas0 : Nat} {xporstLow xrstLow : Bool} {xtb : TimeBase} {xevc : Evc} {xseq : Seq} {xpm : Pm} {xtm : Tm} {xft : Flow} {xboot : Boot} {xtap : Tap} {xchn : Chain} {xobs : Obs} {xfree : Nat}
    (hr : State.rest { s with evc := xevc, seq := xseq, pm := xpm, tm := xtm, tap := xtap, obs := xobs } = s.rest) :
    Keeps r { s with cyc := xcyc, rst0 := xrst0, bas0 := xbas0, porstLow := xporstLow, rstLow := xrstLow, tb := xtb, evc := xevc, seq := xseq, pm := xpm, tm := xtm, ft := xft, boot := xboot, tap := xtap, chn := xchn, obs := xobs, free := xfree } :=
  h.trans (Keeps.of_eq rfl rfl rfl rfl rfl rfl rfl rfl rfl rfl hr)

theorem Keeps.ite {r a b : State} {p : Prop} [Decidable p] (ha : Keeps r a) (hb : Keeps r b) : Keeps r (if p then a else b) := by
  split
  · exact ha
  · exact hb

theorem Keeps.ite_fst {α : Type} {r : State} {a b : State × α} {p : Prop} [Decidable p] (ha : Keeps r a.1) (hb : Keeps r b.1) :
    Keeps r (if p then a else b).1 := by
  split
  · exact ha
  · exact hb

theorem Keeps.pair {α : Type} {r s : State} {x : α} (h : Keeps r s) : Keeps r (s, x).1 := h

/-- What an answer keeps, where it is a next state. -/
def KeepsR (r : State) : Res → Prop
  | .next t => Keeps r t
  | _ => True

end Sys2Proof.Machine
end

