-- ==== Sys2Proof/Laws/KeepsTm.lean ====
section
/-! SUPPORT. One lemma per operation of the shared operations, the event controller, time, the traffic manager and the flow engines: it keeps the queue of commands, the parameter set and the canonical form of the tables. -/
set_option maxRecDepth 4000
namespace Sys2Proof.Machine

theorem keeps_State_p {r : State} {s : State} {o : Nat} {f : Fd} {x : Nat} (h : Keeps r s) : Keeps r (State.p s o f x) := by
  unfold State.p
  with_reducible repeat' first | exact h | apply Keeps.wr

theorem keeps_State_pb {r : State} {s : State} {o : Nat} {f : Fd} {b : Bool} (h : Keeps r s) : Keeps r (State.pb s o f b) := by
  unfold State.pb
  with_reducible repeat' first | exact h | apply keeps_State_p

theorem keeps_State_sat {r : State} {s : State} {o : Nat} {f : Fd} {n : Nat} (h : Keeps r s) : Keeps r (State.sat s o f n) := by
  unfold State.sat
  with_reducible repeat' first | exact h | apply keeps_State_p

theorem keeps_State_bump {r : State} {s : State} {o : Nat} {f : Fd} {n : Nat} (h : Keeps r s) : Keeps r (State.bump s o f n) := by
  unfold State.bump
  with_reducible repeat' first | exact h | apply keeps_State_p

theorem keeps_State_putBitAt {r : State} {s : State} {o : Nat} {i : Nat} {b : Bool} (h : Keeps r s) : Keeps r (State.putBitAt s o i b) := by
  unfold State.putBitAt
  with_reducible repeat' first | exact h | apply Keeps.wr

theorem keeps_State_setQueue {r : State} {s : State} {q : Nat} {x : Queue} (h : Keeps r s) : Keeps r (State.setQueue s q x) := by
  unfold State.setQueue
  exact h.tm _ (fun c => { c with qs := wf_tput (d := fun _ => Queue.reset) _ _ c.qs })

theorem keeps_State_setCtx {r : State} {s : State} {c : CtxId} {x : Ctx} (h : Keeps r s) : Keeps r (State.setCtx s c x) := by
  unfold State.setCtx
  with_reducible repeat' first | exact h | (refine Keeps.upd ?_ rfl; exact h)

theorem keeps_State_until {r : State} {s : State} {c : Nat} (h : Keeps r s) : Keeps r (State.until s c) := by
  unfold State.until
  with_reducible repeat' first | exact h | (refine Keeps.upd ?_ rfl; exact h)

theorem keeps_State_nextFree {r : State} {s : State} (h : Keeps r s) : Keeps r (State.nextFree s) := by
  unfold State.nextFree
  with_reducible repeat' first | exact h | (refine Keeps.upd ?_ rfl; exact h)

theorem keeps_State_wake {r : State} {s : State} {t : Nat} {fromSleep : Bool} (h : Keeps r s) : Keeps r (State.wake s t fromSleep) := by
  unfold State.wake
  with_reducible repeat' first | exact h | apply Keeps.setAgent | apply Keeps.ite

theorem keeps_State_agentSend {r : State} {s : State} {t : Nat} {k : Pkt} (h : Keeps r s) : Keeps r (State.agentSend s t k) := by
  unfold State.agentSend
  with_reducible repeat' first | exact h | apply keeps_State_wake | apply Keeps.setAgent

theorem keeps_State_evcSend {r : State} {s : State} {k : Pkt} (h : Keeps r s) : Keeps r (State.evcSend s k) := by
  unfold State.evcSend
  with_reducible repeat' first | exact h | apply keeps_State_wake | (refine Keeps.upd ?_ rfl; exact h)

theorem keeps_State_raiseFrom {r : State} {s : State} {t : Nat} {src : Nat} (h : Keeps r s) : Keeps r (State.raiseFrom s t src) := by
  unfold State.raiseFrom
  with_reducible repeat' first | exact h | apply keeps_State_wake | apply Keeps.setAgent | apply keeps_State_agentSend | apply Keeps.ite

theorem keeps_State_raiseTile {r : State} {s : State} {t : Nat} {p : Nat} (h : Keeps r s) : Keeps r (State.raiseTile s t p) := by
  unfold State.raiseTile
  with_reducible repeat' first | exact h | apply keeps_State_raiseFrom

theorem keeps_State_raise {r : State} {s : State} {ev : Nat} (h : Keeps r s) : Keeps r (State.raise s ev) := by
  unfold State.raise
  with_reducible repeat' first | exact h | (refine Keeps.upd ?_ rfl; exact h)

theorem keeps_State_wakeMgmt {r : State} {s : State} (h : Keeps r s) : Keeps r (State.wakeMgmt s) := by
  unfold State.wakeMgmt
  with_reducible repeat' first | exact h | apply Keeps.ite | (refine Keeps.upd ?_ rfl; first | exact h | apply Keeps.ite)

theorem keeps_State_raiseChain {r : State} {s : State} {ev : Nat} (h : Keeps r s) : Keeps r (State.raiseChain s ev) := by
  unfold State.raiseChain
  with_reducible repeat' first | exact h | apply keeps_State_wakeMgmt | apply keeps_State_raise

theorem keeps_State_setOnce {r : State} {s : State} {key : Nat} {n : Nat} (h : Keeps r s) : Keeps r (State.setOnce s key n) := by
  unfold State.setOnce
  exact h.evc _ (fun c => { c with once := wf_tput (d := fun _ => 0) _ _ c.once })

theorem keeps_State_oncePer {r : State} {s : State} {key : Nat} {f : State → State} (hf : ∀ (r : State) (a0 : State), Keeps r a0 → Keeps r (f a0)) (h : Keeps r s) : Keeps r (State.oncePer s key f) := by
  unfold State.oncePer
  split
  · exact h
  · exact hf _ _ (keeps_State_setOnce h)

theorem keeps_State_setTmOut {r : State} {s : State} {port : Nat} {l : List Pkt} (h : Keeps r s) : Keeps r (State.setTmOut s port l) := by
  unfold State.setTmOut
  exact h.tm _ (fun c => { c with outq := wf_tput (d := fun _ => []) _ _ c.outq })

theorem keeps_State_tmSend {r : State} {s : State} {port : Nat} {k : Pkt} (h : Keeps r s) : Keeps r (State.tmSend s port k) := by
  unfold State.tmSend
  with_reducible repeat' first | exact h | apply keeps_State_wake | apply keeps_State_setTmOut | (refine Keeps.upd ?_ rfl; exact h)

theorem keeps_State_raiseTm {r : State} {s : State} {port : Nat} {ev : Nat} (h : Keeps r s) : Keeps r (State.raiseTm s port ev) := by
  unfold State.raiseTm
  with_reducible repeat' first | exact h | apply keeps_State_tmSend

theorem keeps_State_setCt {r : State} {s : State} {key : Nat} {c : Ct} (h : Keeps r s) : Keeps r (State.setCt s key c) := by
  unfold State.setCt
  exact h.pm _ (fun c => wf_tput (d := fun _ => (⟨false, 0, 0⟩ : Ct)) _ _ c)

theorem keeps_State_ctPulse {r : State} {s : State} {key : Nat} {d : Nat} (h : Keeps r s) : Keeps r (State.ctPulse s key d) := by
  unfold State.ctPulse
  dsimp only
  split
  · exact keeps_State_setCt h
  · split
    · exact keeps_State_setCt h
    · exact keeps_State_oncePer (hf := fun _ _ k => keeps_State_raise k) (keeps_State_sat (keeps_State_pb h))

theorem keeps_State_raiseBasalt {r : State} {s : State} {ev : Nat} (h : Keeps r s) : Keeps r (State.raiseBasalt s ev) := by
  unfold State.raiseBasalt
  with_reducible repeat' first | exact h | apply keeps_State_ctPulse | apply keeps_State_wakeMgmt | apply keeps_State_raise | apply Keeps.ite

theorem keeps_State_setWakes {r : State} {s : State} {t : Nat} {n : Nat} (h : Keeps r s) : Keeps r (State.setWakes s t n) := by
  unfold State.setWakes
  exact h.evc _ (fun c => { c with wakes := wf_tput (d := fun _ => 0) _ _ c.wakes })

theorem keeps_State_ctHold {r : State} {s : State} {key : Nat} (h : Keeps r s) : Keeps r (State.ctHold s key) := by
  unfold State.ctHold
  with_reducible repeat' first | intro _ | exact h | assumption | apply keeps_State_setCt | apply Keeps.foldl_from | apply Keeps.ite | apply Keeps.ite_fst | (refine Keeps.upd ?_ rfl; first | exact h | assumption | apply keeps_State_setCt | apply Keeps.foldl_from | apply Keeps.ite | apply Keeps.ite_fst) | split | (dsimp only)

theorem keeps_State_ctTripEnd {r : State} {s : State} {key : Nat} (h : Keeps r s) : Keeps r (State.ctTripEnd s key) := by
  unfold State.ctTripEnd
  with_reducible repeat' first | intro _ | exact h | assumption | apply keeps_State_setCt | apply Keeps.foldl_from | apply Keeps.ite | apply Keeps.ite_fst | (refine Keeps.upd ?_ rfl; first | exact h | assumption | apply keeps_State_setCt | apply Keeps.foldl_from | apply Keeps.ite | apply Keeps.ite_fst) | split | (dsimp only)

theorem keeps_State_wakePulse {r : State} {s : State} {t : Nat} (h : Keeps r s) : Keeps r (State.wakePulse s t) := by
  unfold State.wakePulse
  with_reducible repeat' first | exact h | apply keeps_State_ctPulse | apply keeps_State_ctHold | apply keeps_State_setWakes | apply Keeps.ite | (refine Keeps.upd ?_ rfl; first | exact h | apply keeps_State_ctPulse | apply keeps_State_ctHold | apply keeps_State_setWakes | apply Keeps.ite)

theorem keeps_State_setPend {r : State} {s : State} {i : Nat} {b : Bool} (h : Keeps r s) : Keeps r (State.setPend s i b) := by
  unfold State.setPend
  with_reducible repeat' first | exact h | apply keeps_State_putBitAt

theorem keeps_State_setActive {r : State} {s : State} {i : Nat} {b : Bool} (h : Keeps r s) : Keeps r (State.setActive s i b) := by
  unfold State.setActive
  with_reducible repeat' first | exact h | apply keeps_State_putBitAt

theorem keeps_State_setLevel {r : State} {s : State} {i : Nat} {b : Bool} (h : Keeps r s) : Keeps r (State.setLevel s i b) := by
  unfold State.setLevel
  with_reducible repeat' first | exact h | apply keeps_State_putBitAt

theorem keeps_State_setStack {r : State} {s : State} {t : Nat} {l : List (Nat × Nat)} (h : Keeps r s) : Keeps r (State.setStack s t l) := by
  unfold State.setStack
  exact h.evc _ (fun c => { c with stks := wf_tput (d := fun _ => []) _ _ c.stks })

theorem keeps_State_levelPend {r : State} {s : State} (h : Keeps r s) : Keeps r (State.levelPend s) := by
  unfold State.levelPend
  with_reducible repeat' first | intro _ | exact h | assumption | apply keeps_State_setPend | apply Keeps.foldl_from | split

theorem keeps_State_evcCycle {r : State} {s : State} (h : Keeps r s) : Keeps r (State.evcCycle s) := by
  unfold State.evcCycle
  with_reducible repeat' first | intro _ | exact h | assumption | apply keeps_State_levelPend | apply keeps_State_wakePulse | apply Keeps.foldl_from | apply Keeps.ite | (refine Keeps.upd ?_ rfl; first | exact h | assumption | apply keeps_State_levelPend | apply keeps_State_wakePulse | apply Keeps.foldl_from | apply Keeps.ite) | split | (dsimp only)

theorem keeps_State_icxWake {r : State} {s : State} {i : Nat} (h : Keeps r s) : Keeps r (State.icxWake s i) := by
  unfold State.icxWake
  with_reducible repeat' first | intro _ | exact h | assumption | apply keeps_State_wakePulse | apply Keeps.foldl_from | split

theorem keeps_State_edgeIn {r : State} {s : State} {i : Nat} (h : Keeps r s) : Keeps r (State.edgeIn s i) := by
  unfold State.edgeIn
  with_reducible repeat' first | exact h | apply keeps_State_bump | apply keeps_State_sat | apply keeps_State_setPend | apply Keeps.ite

theorem keeps_State_levelIn {r : State} {s : State} {i : Nat} {b : Bool} (h : Keeps r s) : Keeps r (State.levelIn s i b) := by
  unfold State.levelIn
  with_reducible repeat' first | exact h | apply keeps_State_setLevel | apply keeps_State_bump | apply keeps_State_setPend | apply Keeps.ite

theorem keeps_State_evcDecerr {r : State} {s : State} {k : Pkt} (h : Keeps r s) : Keeps r (State.evcDecerr s k) := by
  unfold State.evcDecerr
  with_reducible repeat' first | exact h | apply keeps_State_evcSend | split

theorem keeps_State_popDbl {r : State} {s : State} (h : Keeps r s) : Keeps r (State.popDbl s) := by
  unfold State.popDbl
  with_reducible repeat' first | exact h | (refine Keeps.upd ?_ rfl; exact h)

theorem keeps_State_dblIn {r : State} {s : State} {k : Pkt} (h : Keeps r s) : Keeps r (State.dblIn s k) := by
  unfold State.dblIn
  with_reducible repeat' first | exact h | apply keeps_State_evcDecerr | apply keeps_State_sat | apply keeps_State_evcCycle | apply keeps_State_icxWake | apply keeps_State_edgeIn | apply keeps_State_levelIn | split

theorem keeps_execDbl {r : State} {s : State} (h : Keeps r s) : KeepsR r (execDbl s) := by
  unfold execDbl
  dsimp only [KeepsR]
  with_reducible repeat' first | exact h | apply keeps_State_dblIn | apply keeps_State_popDbl | split

theorem keeps_execInternalEvent {r : State} {src : BitVec 10} {s : State} (h : Keeps r s) : KeepsR r (execInternalEvent src s) := by
  unfold execInternalEvent
  dsimp only [KeepsR]
  with_reducible repeat' first | exact h | apply keeps_State_sat | apply keeps_State_evcCycle | apply keeps_State_edgeIn | (refine Keeps.upd ?_ rfl; first | exact h | apply keeps_State_sat | apply keeps_State_evcCycle | apply keeps_State_edgeIn) | split

theorem keeps_State_claim {r : State} {s : State} {t : Nat} (h : Keeps r s) : Keeps r (State.claim s t).1 := by
  unfold State.claim
  with_reducible repeat' first | exact h | apply keeps_State_p | apply keeps_State_setPend | apply keeps_State_setActive | apply keeps_State_setStack | apply keeps_State_evcCycle | (refine Keeps.upd ?_ rfl; first | exact h | apply keeps_State_p | apply keeps_State_setPend | apply keeps_State_setActive | apply keeps_State_setStack | apply keeps_State_evcCycle) | split
theorem keeps_State_claim_eq {r : State} {s : State} {t : Nat}  {out : State} {b} (h : Keeps r s) (eq1 : State.claim s t = (out, b)) : Keeps r out := by
  have k := keeps_State_claim (s := s) (t := t)  (h := h)
  rw [eq1] at k
  exact k

theorem keeps_State_complete {r : State} {s : State} {t : Nat} {i : Nat} (h : Keeps r s) : Keeps r (State.complete s t i) := by
  unfold State.complete
  with_reducible repeat' first | exact h | apply keeps_State_evcCycle | apply keeps_State_setActive | apply keeps_State_setStack | apply keeps_State_sat | apply Keeps.ite

theorem keeps_State_answerHost {r : State} {s : State} {h0 : Nat} {a : HAns} (h : Keeps r s) : Keeps r (State.answerHost s h0 a) := by
  unfold State.answerHost
  with_reducible repeat' first | exact h | apply Keeps.setHost

theorem keeps_execEvcClaim {r : State} {h0 : HostId} {t : TgtId} {s : State} (h : Keeps r s) : KeepsR r (execEvcClaim h0 t s) := by
  unfold execEvcClaim
  dsimp only [KeepsR]
  with_reducible repeat' first | exact h | apply keeps_State_answerHost | apply keeps_State_claim | (refine keeps_State_claim_eq ?_ (by assumption)) | apply Keeps.ite

theorem keeps_execEvcComplete {r : State} {m : Master} {t : TgtId} {id : BitVec 10} {s : State} (h : Keeps r s) : KeepsR r (execEvcComplete m t id s) := by
  unfold execEvcComplete
  dsimp only [KeepsR]
  with_reducible repeat' first | exact h | apply keeps_State_complete | apply Keeps.ite

theorem keeps_State_setPendWord {r : State} {s : State} {m : Master} {k : Nat} {v : W} (h : Keeps r s) : Keeps r (State.setPendWord s m k v) := by
  unfold State.setPendWord
  with_reducible repeat' first | intro _ | exact h | assumption | apply Keeps.wr | apply keeps_State_evcCycle | apply keeps_State_icxWake | apply Keeps.foldl_from

theorem keeps_State_clrPendWord {r : State} {s : State} {m : Master} {k : Nat} {v : W} (h : Keeps r s) : Keeps r (State.clrPendWord s m k v) := by
  unfold State.clrPendWord
  with_reducible repeat' first | exact h | apply keeps_State_evcCycle | apply Keeps.wr

theorem keeps_State_enSetWord {r : State} {s : State} {m : Master} {t : Nat} {k : Nat} {v : W} (h : Keeps r s) : Keeps r (State.enSetWord s m t k v) := by
  unfold State.enSetWord
  with_reducible repeat' first | exact h | apply keeps_State_evcCycle | apply Keeps.wr | apply Keeps.ite

theorem keeps_State_enClrWord {r : State} {s : State} {m : Master} {t : Nat} {k : Nat} {v : W} (h : Keeps r s) : Keeps r (State.enClrWord s m t k v) := by
  unfold State.enClrWord
  with_reducible repeat' first | exact h | apply keeps_State_evcCycle | apply Keeps.wr | apply Keeps.ite

theorem keeps_State_threshWrite {r : State} {s : State} {m : Master} {t : Nat} {v : BitVec 8} (h : Keeps r s) : Keeps r (State.threshWrite s m t v) := by
  unfold State.threshWrite
  with_reducible repeat' first | exact h | apply keeps_State_evcCycle | apply keeps_State_pb | apply Keeps.wr | apply Keeps.ite

theorem keeps_State_prisplitWrite {r : State} {s : State} {m : Master} {v : Nat} (h : Keeps r s) : Keeps r (State.prisplitWrite s m v) := by
  unfold State.prisplitWrite
  with_reducible repeat' first | exact h | apply keeps_State_evcCycle | apply keeps_State_p | apply Keeps.ite

theorem keeps_execEvcSetpend {r : State} {m : Master} {k : Fin 16} {v : W} {s : State} (h : Keeps r s) : KeepsR r (execEvcSetpend m k v s) := by
  unfold execEvcSetpend
  dsimp only [KeepsR]
  with_reducible repeat' first | exact h | apply keeps_State_setPendWord

theorem keeps_execEvcClrpend {r : State} {m : Master} {k : Fin 16} {v : W} {s : State} (h : Keeps r s) : KeepsR r (execEvcClrpend m k v s) := by
  unfold execEvcClrpend
  dsimp only [KeepsR]
  with_reducible repeat' first | exact h | apply keeps_State_clrPendWord

theorem keeps_execEvcEnset {r : State} {m : Master} {t : TgtId} {k : Fin 16} {v : W} {s : State} (h : Keeps r s) : KeepsR r (execEvcEnset m t k v s) := by
  unfold execEvcEnset
  dsimp only [KeepsR]
  with_reducible repeat' first | exact h | apply keeps_State_enSetWord

theorem keeps_execEvcEnclr {r : State} {m : Master} {t : TgtId} {k : Fin 16} {v : W} {s : State} (h : Keeps r s) : KeepsR r (execEvcEnclr m t k v s) := by
  unfold execEvcEnclr
  dsimp only [KeepsR]
  with_reducible repeat' first | exact h | apply keeps_State_enClrWord

theorem keeps_execEvcThresh {r : State} {m : Master} {t : TgtId} {v : BitVec 8} {s : State} (h : Keeps r s) : KeepsR r (execEvcThresh m t v s) := by
  unfold execEvcThresh
  dsimp only [KeepsR]
  with_reducible repeat' first | exact h | apply keeps_State_threshWrite

theorem keeps_execPrisplitWrite {r : State} {m : Master} {v : BitVec 3} {s : State} (h : Keeps r s) : KeepsR r (execPrisplitWrite m v s) := by
  unfold execPrisplitWrite
  dsimp only [KeepsR]
  with_reducible repeat' first | exact h | apply keeps_State_prisplitWrite

theorem keeps_State_latchIn {r : State} {s : State} {k : Pkt} (h : Keeps r s) : Keeps r (State.latchIn s k) := by
  unfold State.latchIn
  with_reducible repeat' first | exact h | apply keeps_State_evcDecerr | apply keeps_State_icxWake | (refine Keeps.upd ?_ rfl; first | exact h | apply keeps_State_evcDecerr | apply keeps_State_icxWake) | split

theorem keeps_execLatchDoorbell {r : State} {s : State} (h : Keeps r s) : KeepsR r (execLatchDoorbell s) := by
  unfold execLatchDoorbell
  dsimp only [KeepsR]
  with_reducible repeat' first | exact h | apply keeps_State_latchIn | apply keeps_State_popDbl | apply keeps_State_wakeMgmt | (refine Keeps.upd ?_ rfl; first | exact h | apply keeps_State_latchIn | apply keeps_State_popDbl | apply keeps_State_wakeMgmt) | split

theorem keeps_execMgmtWake {r : State} {s : State} (h : Keeps r s) : KeepsR r (execMgmtWake s) := by
  unfold execMgmtWake
  dsimp only [KeepsR]
  with_reducible repeat' first | exact h | apply Keeps.ite | (refine Keeps.upd ?_ rfl; first | exact h | apply Keeps.ite)

theorem keeps_State_loseThresh {r : State} {s : State} (h : Keeps r s) : Keeps r (State.loseThresh s) := by
  unfold State.loseThresh
  with_reducible repeat' first | intro _ | exact h | assumption | apply keeps_State_pb | apply Keeps.wr | apply Keeps.foldl_from | split

theorem keeps_State_mergeLatch {r : State} {s : State} (h : Keeps r s) : Keeps r (State.mergeLatch s) := by
  unfold State.mergeLatch
  with_reducible repeat' first | intro _ | exact h | assumption | apply keeps_State_edgeIn | apply keeps_State_levelIn | apply keeps_State_sat | apply Keeps.foldl_from | apply Keeps.ite | (refine Keeps.upd ?_ rfl; first | exact h | assumption | apply keeps_State_edgeIn | apply keeps_State_levelIn | apply keeps_State_sat | apply Keeps.foldl_from | apply Keeps.ite) | split | (dsimp only)

theorem keeps_State_mgmtRuns {r : State} {s : State} (h : Keeps r s) : Keeps r (State.mgmtRuns s) := by
  have k := keeps_State_mergeLatch (h := keeps_State_loseThresh (h := h))
  unfold State.mgmtRuns
  dsimp only
  generalize s.loseThresh.mergeLatch = z at k ⊢
  refine keeps_State_evcCycle (h := ?_)
  have k2 : Keeps r { z with pm := { z.pm with mstate := .running } } := k.upd rfl
  exact k2.hosts _ (fun c => wf_map (e := XHost.reset) (fun (x : XHost) => { x with xin := 0 }) (h.canon c).hosts)

theorem keeps_State_evcHostReset {r : State} {s : State} {h0 : Nat} (h : Keeps r s) : Keeps r (State.evcHostReset s h0) := by
  unfold State.evcHostReset
  with_reducible repeat' first | intro _ | exact h | assumption | apply keeps_State_setActive | apply Keeps.wr | apply keeps_State_setStack | apply Keeps.foldl_from | apply Keeps.ite | (refine Keeps.upd ?_ rfl; first | exact h | assumption | apply keeps_State_setActive | apply Keeps.wr | apply keeps_State_setStack | apply Keeps.foldl_from | apply Keeps.ite) | split | (dsimp only)

theorem keeps_State_timeChange {r : State} {s : State} {c : TimeChange} (h : Keeps r s) : Keeps r (State.timeChange s c) := by
  unfold State.timeChange
  with_reducible repeat' first | exact h | (refine Keeps.upd ?_ rfl; exact h)

theorem keeps_State_applyChange {r : State} {s : State} {f : Nat} {c : TimeChange} (h : Keeps r s) : Keeps r (State.applyChange s f c) := by
  unfold State.applyChange
  with_reducible repeat' first | exact h | apply keeps_State_pb | apply keeps_State_raise | apply keeps_State_p | (refine Keeps.upd ?_ rfl; first | exact h | apply keeps_State_pb | apply keeps_State_raise | apply keeps_State_p) | split

theorem keeps_State_endSlew {r : State} {s : State} {f : Nat} (h : Keeps r s) : Keeps r (State.endSlew s f) := by
  unfold State.endSlew
  with_reducible repeat' first | exact h | apply keeps_State_raise | (refine Keeps.upd ?_ rfl; exact h)

theorem keeps_State_timeApply {r : State} {s : State} (h : Keeps r s) : Keeps r (State.timeApply s) := by
  unfold State.timeApply
  with_reducible repeat' first | exact h | apply keeps_State_endSlew | apply keeps_State_until | apply keeps_State_applyChange | (refine Keeps.upd ?_ rfl; first | exact h | apply keeps_State_endSlew | apply keeps_State_until | apply keeps_State_applyChange) | split

theorem keeps_State_periodWrite {r : State} {s : State} {m : Master} {v : W} (h : Keeps r s) : Keeps r (State.periodWrite s m v) := by
  unfold State.periodWrite
  with_reducible repeat' first | exact h | apply keeps_State_timeChange | apply Keeps.ite

theorem keeps_execTbPeriodWrite {r : State} {m : Master} {v : W} {s : State} (h : Keeps r s) : KeepsR r (execTbPeriodWrite m v s) := by
  unfold execTbPeriodWrite
  dsimp only [KeepsR]
  with_reducible repeat' first | exact h | apply keeps_State_periodWrite

theorem keeps_State_timeInvalidate {r : State} {s : State} {m : Master} (h : Keeps r s) : Keeps r (State.timeInvalidate s m) := by
  unfold State.timeInvalidate
  with_reducible repeat' first | exact h | apply keeps_State_pb | apply Keeps.ite

theorem keeps_execTimeInvalidate {r : State} {m : Master} {s : State} (h : Keeps r s) : KeepsR r (execTimeInvalidate m s) := by
  unfold execTimeInvalidate
  dsimp only [KeepsR]
  with_reducible repeat' first | exact h | apply keeps_State_timeInvalidate

theorem keeps_State_armPps {r : State} {s : State} {v : Nat} (h : Keeps r s) : Keeps r (State.armPps s v) := by
  unfold State.armPps
  with_reducible repeat' first | exact h | (refine Keeps.upd ?_ rfl; exact h)

theorem keeps_execTodTransfer {r : State} {time : W} {atpps : Bool} {s : State} (h : Keeps r s) : KeepsR r (execTodTransfer time atpps s) := by
  unfold execTodTransfer
  dsimp only [KeepsR]
  with_reducible repeat' first | exact h | apply keeps_State_armPps | apply keeps_State_timeChange | apply Keeps.ite

theorem keeps_execPpsEdge {r : State} {s : State} (h : Keeps r s) : KeepsR r (execPpsEdge s) := by
  unfold execPpsEdge
  dsimp only [KeepsR]
  with_reducible repeat' first | exact h | apply keeps_State_sat | apply keeps_State_pb | apply Keeps.wr | apply keeps_State_timeChange | (refine Keeps.upd ?_ rfl; first | exact h | apply keeps_State_sat | apply keeps_State_pb | apply Keeps.wr | apply keeps_State_timeChange) | split

theorem keeps_execPpsTimeout {r : State} {s : State} (h : Keeps r s) : KeepsR r (execPpsTimeout s) := by
  unfold execPpsTimeout
  dsimp only [KeepsR]
  with_reducible repeat' first | exact h | apply keeps_State_until | apply keeps_State_raise | apply keeps_State_pb | apply Keeps.ite

theorem keeps_State_cfgRej {r : State} {s : State} (h : Keeps r s) : Keeps r (State.cfgRej s) := by
  unfold State.cfgRej
  with_reducible repeat' first | exact h | apply keeps_State_raiseTm | apply keeps_State_pb

theorem keeps_State_setFreeList {r : State} {s : State} {ch : Nat} {l : FreeList} (h : Keeps r s) : Keeps r (State.setFreeList s ch l) := by
  unfold State.setFreeList
  exact h.tm _ (fun c => { c with lists := wf_tput (d := fun _ => FreeList.reset) _ _ c.lists })

theorem keeps_State_freeCell {r : State} {s : State} {pool : Nat} {cp : Nat} (h : Keeps r s) : Keeps r (State.freeCell s pool cp) := by
  unfold State.freeCell
  with_reducible repeat' first | exact h | apply keeps_State_sat | apply keeps_State_setFreeList | apply keeps_State_p | apply Keeps.ite | (refine Keeps.upd ?_ rfl; first | exact h | apply keeps_State_sat | apply keeps_State_setFreeList | apply keeps_State_p | apply Keeps.ite)

theorem keeps_State_freeAll {r : State} {s : State} {pool : Nat} {cps : List Nat} (h : Keeps r s) : Keeps r (State.freeAll s pool cps) := by
  unfold State.freeAll
  with_reducible repeat' first | intro _ | exact h | assumption | apply keeps_State_freeCell | apply Keeps.foldl_from

theorem keeps_State_setLastCh {r : State} {s : State} {pool : Nat} {ch : Nat} (h : Keeps r s) : Keeps r (State.setLastCh s pool ch) := by
  unfold State.setLastCh
  exact h.tm _ (fun c => { c with lastCh := wf_tput (d := fun _ => 63) _ _ c.lastCh })

theorem keeps_State_takeCell {r : State} {s : State} {pool : Nat} {cp : Nat} (h : Keeps r s) : Keeps r (State.takeCell s pool cp) := by
  unfold State.takeCell
  dsimp only
  exact keeps_State_p (h := keeps_State_setLastCh (h := Keeps.ite ((keeps_State_setFreeList h).upd rfl) (keeps_State_setFreeList h)))

theorem keeps_State_allocCells {r : State} {s : State} {pool : Nat} {x2 : Nat} {x3 : List Nat} (h : Keeps r s) : ∀ out, State.allocCells s pool x2 x3 = some out → Keeps r out.1 := by
  induction x2 generalizing s x3 with
  | zero =>
    intro out ht
    unfold State.allocCells at ht
    cases ht; exact h
  | succ n ih =>
    intro out ht
    unfold State.allocCells at ht
    dsimp only at ht
    split at ht
    · cases ht; exact h
    · split at ht
      · cases ht; exact h
      · split at ht
        · split at ht
          · cases ht; exact h
          · cases ht
        · split at ht
          · obtain ⟨o, e, rfl⟩ := Option.map_eq_some_iff.mp ht
            exact (ih (keeps_State_takeCell h) _ e :)
          · cases ht
theorem keeps_State_allocCells_some {r : State} {s : State} {pool : Nat} {x2 : Nat} {x3 : List Nat} {out : State} {b} (h : Keeps r s) (eq1 : State.allocCells s pool x2 x3 = some (out, b)) : Keeps r out := keeps_State_allocCells (s := s) (pool := pool) (x2 := x2) (x3 := x3)  (h := h) _ eq1

theorem keeps_State_setTmRx {r : State} {s : State} {port : Nat} {l : List Pkt} (h : Keeps r s) : Keeps r (State.setTmRx s port l) := by
  unfold State.setTmRx
  exact h.tm _ (fun c => { c with rx := wf_tput (d := fun _ => []) _ _ c.rx })

theorem keeps_State_tmAnswer {r : State} {s : State} {port : Nat} {q : Pkt} {code : BitVec 4} {lenm1 : BitVec 8} {data : List Line} (h : Keeps r s) : Keeps r (State.tmAnswer s port q code lenm1 data) := by
  unfold State.tmAnswer
  with_reducible repeat' first | exact h | apply keeps_State_tmSend | split

theorem keeps_State_allocate {r : State} {s : State} {q : Nat} {picks : List Nat} (h : Keeps r s) : Keeps r (State.allocate s q picks) := by
  unfold State.allocate
  with_reducible repeat' first | intro _ | exact h | assumption | (refine keeps_State_allocCells_some ?_ (by assumption)) | apply keeps_State_setTmRx | apply keeps_State_tmAnswer | apply keeps_State_oncePer | apply keeps_State_raiseTm | apply Keeps.foldl_from | apply Keeps.ite | (refine Keeps.upd ?_ rfl; first | exact h | assumption | (refine keeps_State_allocCells_some ?_ (by assumption)) | apply keeps_State_setTmRx | apply keeps_State_tmAnswer | apply keeps_State_oncePer | apply keeps_State_raiseTm | apply Keeps.foldl_from | apply Keeps.ite) | split | (dsimp only)

theorem keeps_execAllocate {r : State} {q : QpId} {picks : List Nat} {s : State} (h : Keeps r s) : KeepsR r (execAllocate q picks s) := by
  unfold execAllocate
  dsimp only [KeepsR]
  with_reducible repeat' first | exact h | apply keeps_State_allocate

theorem keeps_execFreeCells {r : State} {q : QpId} {s : State} (h : Keeps r s) : KeepsR r (execFreeCells q s) := by
  unfold execFreeCells
  dsimp only [KeepsR]
  with_reducible repeat' first | exact h | apply keeps_State_tmAnswer | apply keeps_State_freeAll | apply keeps_State_setTmRx | split

theorem keeps_State_startInit {r : State} {s : State} (h : Keeps r s) : Keeps r (State.startInit s) := by
  have wf : ∀ (f : Nat → FreeList) (l : List Nat) (t : Tab FreeList), t.wf (fun _ => FreeList.reset) = true →
      Tab.wf (fun _ => FreeList.reset) (l.foldl (fun t c => tput FreeList.reset t c (f c)) t) = true := by
    intro f l
    induction l with
    | nil => exact fun t h => h
    | cons a l ih => exact fun t h => ih _ (wf_tput (d := fun _ => FreeList.reset) a _ h)
  unfold State.startInit
  have k := h.foldl_from (f := fun s p => s.p (aPoolq p) TM_POOLQ.HELD 0) (fun s a k => keeps_State_p (h := k)) (List.range 32)
  generalize (List.range 32).foldl (fun s p => s.p (aPoolq p) TM_POOLQ.HELD 0) s = z at k ⊢
  have k2 := Keeps.tm k { z.tm with cfg := z.rd aPbcfg, alloc := [], built := true, initBusy := true, lastCh := [] }
    (fun c => { c with lastCh := wf_nil _ })
  exact Keeps.tm k2 _ (fun c => { c with lists := wf _ _ _ (wf_nil _) })

theorem keeps_State_pbcfgWrite {r : State} {s : State} {v : W} (h : Keeps r s) : Keeps r (State.pbcfgWrite s v) := by
  unfold State.pbcfgWrite
  with_reducible repeat' first | intro _ | exact h | assumption | apply Keeps.wr | apply keeps_State_startInit | apply keeps_State_cfgRej | apply Keeps.foldl_from | apply Keeps.ite | (refine Keeps.upd ?_ rfl; first | exact h | assumption | apply Keeps.wr | apply keeps_State_startInit | apply keeps_State_cfgRej | apply Keeps.foldl_from | apply Keeps.ite) | split | (dsimp only)

theorem keeps_execPbcfgInit {r : State} {m : Master} {v : W} {s : State} (h : Keeps r s) : KeepsR r (execPbcfgInit m v s) := by
  unfold execPbcfgInit
  dsimp only [KeepsR]
  with_reducible repeat' first | exact h | apply keeps_State_pbcfgWrite | apply Keeps.ite

theorem keeps_execInitComplete {r : State} {s : State} (h : Keeps r s) : KeepsR r (execInitComplete s) := by
  unfold execInitComplete
  dsimp only [KeepsR]
  with_reducible repeat' first | exact h | apply keeps_State_raiseTm | apply keeps_State_pb | apply Keeps.ite | (refine Keeps.upd ?_ rfl; first | exact h | apply keeps_State_raiseTm | apply keeps_State_pb | apply Keeps.ite)

theorem keeps_State_treeErr {r : State} {s : State} {k : Nat} (h : Keeps r s) : Keeps r (State.treeErr s k) := by
  unfold State.treeErr
  with_reducible repeat' first | exact h | apply keeps_State_raiseTm | apply keeps_State_pb

theorem keeps_State_setSh {r : State} {s : State} {i : Nat} {t : Int} (h : Keeps r s) : Keeps r (State.setSh s i t) := by
  unfold State.setSh
  exact h.tm _ (fun c => { c with sh := wf_tput (d := fun _ => (0, 0)) _ _ c.sh })

theorem keeps_State_setPtok {r : State} {s : State} {k : Nat} {t : Int} (h : Keeps r s) : Keeps r (State.setPtok s k t) := by
  unfold State.setPtok
  exact h.tm _ (fun c => { c with ptok := wf_tput (d := fun _ => (0, 0)) _ _ c.ptok })

theorem keeps_State_setOwed {r : State} {s : State} {i : Nat} {n : Nat} (h : Keeps r s) : Keeps r (State.setOwed s i n) := by
  unfold State.setOwed
  exact h.tm _ (fun c => { c with owed := wf_tput (d := fun _ => 0) _ _ c.owed })

theorem keeps_State_chargeSh {r : State} {s : State} {i : Nat} {l : Nat} (h : Keeps r s) : Keeps r (State.chargeSh s i l) := by
  unfold State.chargeSh
  with_reducible repeat' first | exact h | apply keeps_State_setOwed | apply keeps_State_setSh

theorem keeps_State_decides {r : State} {s : State} {k : Nat} (h : Keeps r s) : Keeps r (State.decides s k) := by
  unfold State.decides
  split
  · exact h.upd rfl
  · exact h.tm _ (fun c => { c with owed := wf_nil _ })

theorem keeps_State_chargePort {r : State} {s : State} {k : Nat} {l : Nat} (h : Keeps r s) : Keeps r (State.chargePort s k l) := by
  unfold State.chargePort
  with_reducible repeat' first | exact h | apply keeps_State_setPtok

theorem keeps_State_shaperWrite {r : State} {s : State} {i : Nat} {v : W} (h : Keeps r s) : Keeps r (State.shaperWrite s i v) := by
  unfold State.shaperWrite
  with_reducible repeat' first | exact h | apply keeps_State_setSh | apply Keeps.wr | apply keeps_State_setOwed

theorem keeps_execShaperConfigWrite {r : State} {m : Master} {i : Fin 8192} {v : W} {s : State} (h : Keeps r s) : KeepsR r (execShaperConfigWrite m i v s) := by
  unfold execShaperConfigWrite
  dsimp only [KeepsR]
  with_reducible repeat' first | exact h | apply keeps_State_shaperWrite | apply Keeps.ite

theorem keeps_State_putMtr {r : State} {s : State} {i : Nat} {z : Nat × Nat × Nat} (h : Keeps r s) : Keeps r (State.putMtr s i z) := by
  unfold State.putMtr
  exact h.tm _ (fun c => { c with mtr := wf_tput (d := fun _ => (0, 0, 0)) _ _ c.mtr })

theorem keeps_State_setMtr {r : State} {s : State} {i : Nat} {tc : Nat} {te : Nat} (h : Keeps r s) : Keeps r (State.setMtr s i tc te) := by
  unfold State.setMtr
  with_reducible repeat' first | exact h | apply keeps_State_putMtr | (refine Keeps.upd ?_ rfl; exact h)

theorem keeps_State_meterReset {r : State} {s : State} {i : Nat} (h : Keeps r s) : Keeps r (State.meterReset s i) := by
  unfold State.meterReset
  with_reducible repeat' first | exact h | apply keeps_State_setMtr

theorem keeps_State_meterWrite {r : State} {s : State} {i : Nat} {w : Nat} {v : W} (h : Keeps r s) : Keeps r (State.meterWrite s i w v) := by
  unfold State.meterWrite
  with_reducible repeat' first | exact h | apply Keeps.wr | apply keeps_State_putMtr | apply keeps_State_p | apply keeps_State_meterReset | (refine Keeps.upd ?_ rfl; first | exact h | apply Keeps.wr | apply keeps_State_putMtr | apply keeps_State_p | apply keeps_State_meterReset) | split

theorem keeps_execMeterConfigWrite {r : State} {m : Master} {i : Fin 16384} {word : Fin 4} {v : W} {s : State} (h : Keeps r s) : KeepsR r (execMeterConfigWrite m i word v s) := by
  unfold execMeterConfigWrite
  dsimp only [KeepsR]
  with_reducible repeat' first | exact h | apply keeps_State_meterWrite | apply Keeps.ite

theorem keeps_execMeterReset {r : State} {m : Master} {i : Fin 16384} {s : State} (h : Keeps r s) : KeepsR r (execMeterReset m i s) := by
  unfold execMeterReset
  dsimp only [KeepsR]
  with_reducible repeat' first | exact h | apply keeps_State_meterReset | apply Keeps.ite

theorem keeps_State_meter {r : State} {s : State} {i : Nat} {l : Nat} {pre : Nat} (h : Keeps r s) : Keeps r (State.meter s i l pre).1 := by
  unfold State.meter
  with_reducible repeat' first | exact h | apply keeps_State_setMtr | apply keeps_State_bump
theorem keeps_State_meter_eq {r : State} {s : State} {i : Nat} {l : Nat} {pre : Nat}  {out : State} {b} (h : Keeps r s) (eq1 : State.meter s i l pre = (out, b)) : Keeps r out := by
  have k := keeps_State_meter (s := s) (i := i) (l := l) (pre := pre)  (h := h)
  rw [eq1] at k
  exact k

theorem keeps_State_setPol {r : State} {s : State} {i : Nat} {t : Nat} (h : Keeps r s) : Keeps r (State.setPol s i t) := by
  unfold State.setPol
  exact h.tm _ (fun c => { c with pol := wf_tput (d := fun _ => (0, 0)) _ _ c.pol })

theorem keeps_State_polWrite {r : State} {s : State} {i : Nat} {v : W} (h : Keeps r s) : Keeps r (State.polWrite s i v) := by
  unfold State.polWrite
  with_reducible repeat' first | exact h | apply Keeps.wr | apply keeps_State_setPol

theorem keeps_State_polReset {r : State} {s : State} {i : Nat} (h : Keeps r s) : Keeps r (State.polReset s i) := by
  unfold State.polReset
  with_reducible repeat' first | exact h | apply keeps_State_setPol

theorem keeps_execPolicerReset {r : State} {m : Master} {i : Fin 256} {s : State} (h : Keeps r s) : KeepsR r (execPolicerReset m i s) := by
  unfold execPolicerReset
  dsimp only [KeepsR]
  with_reducible repeat' first | exact h | apply keeps_State_polReset | apply Keeps.ite

theorem keeps_State_qpartWrite {r : State} {s : State} {i : Nat} {v : W} (h : Keeps r s) : Keeps r (State.qpartWrite s i v) := by
  unfold State.qpartWrite
  with_reducible repeat' first | exact h | apply keeps_State_cfgRej | apply Keeps.wr | apply Keeps.ite

theorem keeps_execQpartWrite {r : State} {m : Master} {i : Fin 1024} {v : W} {s : State} (h : Keeps r s) : KeepsR r (execQpartWrite m i v s) := by
  unfold execQpartWrite
  dsimp only [KeepsR]
  with_reducible repeat' first | exact h | apply keeps_State_qpartWrite | apply Keeps.ite

theorem keeps_State_qdescWrite {r : State} {s : State} {q : Nat} {w : Nat} {v : W} (h : Keeps r s) : Keeps r (State.qdescWrite s q w v) := by
  unfold State.qdescWrite
  with_reducible repeat' first | exact h | assumption | apply Keeps.wr | apply keeps_State_cfgRej | apply keeps_State_p | split | (dsimp only)

theorem keeps_execQdescWrite {r : State} {m : Master} {qid : BitVec 16} {word : Fin 4} {v : W} {s : State} (h : Keeps r s) : KeepsR r (execQdescWrite m qid word v s) := by
  unfold execQdescWrite
  dsimp only [KeepsR]
  with_reducible repeat' first | exact h | apply keeps_State_qdescWrite | apply Keeps.ite

theorem keeps_State_ftCount {r : State} {s : State} {up : Bool} (h : Keeps r s) : Keeps r (State.ftCount s up) := by
  unfold State.ftCount
  with_reducible repeat' first | exact h | apply keeps_State_p

theorem keeps_State_ftHit {r : State} {s : State} {i : Nat} {len : Nat} (h : Keeps r s) : Keeps r (State.ftHit s i len) := by
  unfold State.ftHit
  with_reducible repeat' first | exact h | apply Keeps.wr

theorem keeps_State_ftLookup {r : State} {s : State} {port : Nat} {key : BitVec 128} {len : Nat} {learn : Bool} (h : Keeps r s) : Keeps r (State.ftLookup s port key len learn).1 := by
  unfold State.ftLookup
  with_reducible repeat' first | exact h | apply keeps_State_ftHit | apply keeps_State_raiseTm | apply keeps_State_sat | (refine Keeps.upd ?_ rfl; first | exact h | apply keeps_State_ftHit | apply keeps_State_raiseTm | apply keeps_State_sat) | split
theorem keeps_State_ftLookup_eq {r : State} {s : State} {port : Nat} {key : BitVec 128} {len : Nat} {learn : Bool}  {out : State} {b} (h : Keeps r s) (eq1 : State.ftLookup s port key len learn = (out, b)) : Keeps r out := by
  have k := keeps_State_ftLookup (s := s) (port := port) (key := key) (len := len) (learn := learn)  (h := h)
  rw [eq1] at k
  exact k

theorem keeps_State_ftInsert {r : State} {s : State} {i : Nat} {key : BitVec 128} {len : Nat} (h : Keeps r s) : Keeps r (State.ftInsert s i key len) := by
  unfold State.ftInsert
  with_reducible repeat' first | exact h | apply keeps_State_ftCount | apply Keeps.wr

theorem keeps_State_ftCopy {r : State} {s : State} {a : Nat} {b : Nat} (h : Keeps r s) : Keeps r (State.ftCopy s a b) := by
  unfold State.ftCopy
  with_reducible repeat' first | intro _ | exact h | assumption | apply keeps_State_putBitAt | apply Keeps.wr | apply keeps_State_ftCount | apply Keeps.foldl_from | apply Keeps.ite | (refine Keeps.upd ?_ rfl; first | exact h | assumption | apply keeps_State_putBitAt | apply Keeps.wr | apply keeps_State_ftCount | apply Keeps.foldl_from | apply Keeps.ite) | split | (dsimp only)

theorem keeps_State_ftDrop {r : State} {s : State} {i : Nat} (h : Keeps r s) : Keeps r (State.ftDrop s i) := by
  unfold State.ftDrop
  with_reducible repeat' first | exact h | apply keeps_State_ftCount | apply keeps_State_putBitAt | apply Keeps.ite

theorem keeps_State_ftSettle {r : State} {s : State} {a : Nat} {b : Nat} (h : Keeps r s) : Keeps r (State.ftSettle s a b) := by
  unfold State.ftSettle
  with_reducible repeat' first | exact h | apply keeps_State_putBitAt | apply keeps_State_ftDrop

theorem keeps_State_learnStep {r : State} {s : State} {l : Learn} (h : Keeps r s) : Keeps r (State.learnStep s l) := by
  unfold State.learnStep
  with_reducible repeat' first | exact h | apply keeps_State_ftCopy | apply keeps_State_ftSettle | apply keeps_State_ftInsert | (refine Keeps.upd ?_ rfl; first | exact h | apply keeps_State_ftCopy | apply keeps_State_ftSettle | apply keeps_State_ftInsert) | split

theorem keeps_State_learnKey {r : State} {s : State} {key : BitVec 128} {len : Nat} (h : Keeps r s) : Keeps r (State.learnKey s key len) := by
  unfold State.learnKey
  with_reducible repeat' first | exact h | apply keeps_State_ftInsert | apply keeps_State_learnStep | apply keeps_State_raiseTm | apply keeps_State_sat | split

theorem keeps_execLearnInsert {r : State} {s : State} (h : Keeps r s) : KeepsR r (execLearnInsert s) := by
  unfold execLearnInsert
  dsimp only [KeepsR]
  with_reducible repeat' first | exact h | apply keeps_State_learnStep | apply keeps_State_learnKey | (refine Keeps.upd ?_ rfl; first | exact h | apply keeps_State_learnStep | apply keeps_State_learnKey) | split

theorem keeps_execAgeClockTick {r : State} {s : State} (h : Keeps r s) : KeepsR r (execAgeClockTick s) := by
  unfold execAgeClockTick
  dsimp only [KeepsR]
  with_reducible repeat' first | exact h | (refine Keeps.upd ?_ rfl; exact h)

theorem keeps_execAgeScan {r : State} {s : State} (h : Keeps r s) : KeepsR r (execAgeScan s) := by
  unfold execAgeScan
  dsimp only [KeepsR]
  with_reducible repeat' first | intro _ | exact h | assumption | apply keeps_State_bump | apply keeps_State_ftDrop | apply Keeps.foldl_from | apply Keeps.ite | (refine Keeps.upd ?_ rfl; first | exact h | assumption | apply keeps_State_bump | apply keeps_State_ftDrop | apply Keeps.foldl_from | apply Keeps.ite) | split | (dsimp only)

theorem keeps_State_endMove {r : State} {s : State} (h : Keeps r s) : Keeps r (State.endMove s) := by
  unfold State.endMove
  with_reducible repeat' first | exact h | apply keeps_State_learnStep | split

theorem keeps_State_stopLearn {r : State} {s : State} {l : Learn} (h : Keeps r s) : Keeps r (State.stopLearn s l) := by
  unfold State.stopLearn
  with_reducible repeat' first | exact h | apply keeps_State_sat | apply keeps_State_ftSettle | (refine Keeps.upd ?_ rfl; first | exact h | apply keeps_State_sat | apply keeps_State_ftSettle) | split

theorem keeps_State_ftWrite {r : State} {s : State} {i : Nat} {w : Nat} {v : W} (h : Keeps r s) : Keeps r (State.ftWrite s i w v) := by
  unfold State.ftWrite
  with_reducible repeat' first | exact h | apply keeps_State_stopLearn | apply keeps_State_endMove | apply Keeps.wr | apply keeps_State_ftCount | apply Keeps.ite | (refine Keeps.upd ?_ rfl; first | exact h | apply keeps_State_stopLearn | apply keeps_State_endMove | apply Keeps.wr | apply keeps_State_ftCount | apply Keeps.ite) | split

theorem keeps_execFtEntryWrite {r : State} {m : Master} {word : Fin 524288} {v : W} {s : State} (h : Keeps r s) : KeepsR r (execFtEntryWrite m word v s) := by
  unfold execFtEntryWrite
  dsimp only [KeepsR]
  with_reducible repeat' first | exact h | apply keeps_State_ftWrite | apply Keeps.ite

theorem keeps_State_sample {r : State} {s : State} {port : Nat} {q : Nat} {kind : Nat} {delay : Nat} (h : Keeps r s) : Keeps r (State.sample s port q kind delay) := by
  unfold State.sample
  with_reducible repeat' first | exact h | apply keeps_State_raiseTm | apply keeps_State_sat | apply Keeps.wr | apply keeps_State_p | apply keeps_State_setQueue | apply Keeps.ite | (refine Keeps.upd ?_ rfl; first | exact h | apply keeps_State_raiseTm | apply keeps_State_sat | apply Keeps.wr | apply keeps_State_p | apply keeps_State_setQueue | apply Keeps.ite)

theorem keeps_State_dropAt {r : State} {s : State} {port : Nat} {q : Nat} (h : Keeps r s) : Keeps r (State.dropAt s port q) := by
  unfold State.dropAt
  with_reducible repeat' first | exact h | apply keeps_State_sample | apply keeps_State_sat

theorem keeps_State_setDrr {r : State} {s : State} {k : Nat} {g : Nat} {l : List Nat} (h : Keeps r s) : Keeps r (State.setDrr s k g l) := by
  unfold State.setDrr
  exact h.tm _ (fun c => { c with drr := wf_tput (d := fun _ => []) _ _ c.drr })

theorem keeps_State_wakeGroup {r : State} {s : State} {k : Nat} {g : Nat} {b : Bool} (h : Keeps r s) : Keeps r (State.wakeGroup s k g b) := by
  unfold State.wakeGroup
  exact h.tm _ (fun c => { c with stag := wf_tput (d := fun _ => 0) _ _ c.stag })

theorem keeps_State_toTail {r : State} {s : State} {k : Nat} {q : Nat} {b : Bool} (h : Keeps r s) : Keeps r (State.toTail s k q b) := by
  unfold State.toTail
  with_reducible repeat' first | exact h | apply keeps_State_setQueue | apply keeps_State_setDrr

theorem keeps_State_joinGroup {r : State} {s : State} {k : Nat} {q : Nat} {b : Bool} (h : Keeps r s) : Keeps r (State.joinGroup s k q b) := by
  unfold State.joinGroup
  with_reducible repeat' first | exact h | apply keeps_State_toTail | apply keeps_State_wakeGroup | apply Keeps.ite

theorem keeps_State_leaveGroup {r : State} {s : State} {k : Nat} {q : Nat} {b : Bool} (h : Keeps r s) : Keeps r (State.leaveGroup s k q b) := by
  unfold State.leaveGroup
  with_reducible repeat' first | exact h | apply keeps_State_setDrr | apply keeps_State_setQueue

theorem keeps_State_queueWakes {r : State} {s : State} {k : Nat} {q : Nat} (h : Keeps r s) : Keeps r (State.queueWakes s k q) := by
  unfold State.queueWakes
  with_reducible repeat' first | exact h | apply keeps_State_joinGroup | apply keeps_State_treeErr | apply Keeps.ite

theorem keeps_State_writeRecord {r : State} {s : State} {port : Nat} {k : Nat} {q : Nat} {idx : Nat} {r0 : Rec} (h : Keeps r s) : Keeps r (State.writeRecord s port k q idx r0) := by
  unfold State.writeRecord
  with_reducible repeat' first | exact h | apply keeps_State_tmSend | (refine Keeps.upd ?_ rfl; exact h)

theorem keeps_State_enqueueRec {r : State} {s : State} {port : Nat} {k : Nat} {q : Nat} {r0 : Rec} (h : Keeps r s) : Keeps r (State.enqueueRec s port k q r0) := by
  unfold State.enqueueRec
  with_reducible repeat' first | exact h | apply keeps_State_bump | apply keeps_State_setQueue | apply keeps_State_queueWakes | apply keeps_State_writeRecord | apply Keeps.ite

theorem keeps_State_polMis {r : State} {s : State} {es : Nat} (h : Keeps r s) : Keeps r (State.polMis s es) := by
  unfold State.polMis
  with_reducible repeat' first | intro _ | exact h | assumption | apply keeps_State_oncePer | apply keeps_State_pb | apply keeps_State_raiseTm | apply Keeps.foldl_from

theorem keeps_State_enqMeter {r : State} {s : State} {es : Nat} {q : Nat} {l : Nat} {pre : Nat} (h : Keeps r s) : Keeps r (State.enqMeter s es q l pre).1 := by
  unfold State.enqMeter
  with_reducible repeat' first | exact h | assumption | apply keeps_State_meter | (refine keeps_State_meter_eq ?_ (by assumption)) | apply keeps_State_polMis | split | (dsimp only)
theorem keeps_State_enqMeter_eq {r : State} {s : State} {es : Nat} {q : Nat} {l : Nat} {pre : Nat}  {out : State} {b} (h : Keeps r s) (eq1 : State.enqMeter s es q l pre = (out, b)) : Keeps r out := by
  have k := keeps_State_enqMeter (s := s) (es := es) (q := q) (l := l) (pre := pre)  (h := h)
  rw [eq1] at k
  exact k

theorem keeps_State_dropCells {r : State} {s : State} {port : Nat} {es : Nat} {q : Nat} {k : Pkt} (h : Keeps r s) : Keeps r (State.dropCells s port es q k) := by
  unfold State.dropCells
  with_reducible repeat' first | exact h | apply keeps_State_freeAll | apply keeps_State_tmSend | apply Keeps.ite | (refine Keeps.upd ?_ rfl; first | exact h | apply keeps_State_freeAll | apply keeps_State_tmSend | apply Keeps.ite)

theorem keeps_State_extAnswer {r : State} {s : State} {port : Nat} {a : Pkt} (h : Keeps r s) : Keeps r (State.extAnswer s port a) := by
  unfold State.extAnswer
  with_reducible repeat' first | exact h | apply keeps_State_freeAll | (refine Keeps.upd ?_ rfl; first | exact h | apply keeps_State_freeAll) | split

theorem keeps_State_enqAdmit {r : State} {s : State} {port : Nat} {es : Nat} {q : Nat} {k : Pkt} {hit : Option Nat} (h : Keeps r s) : Keeps r (State.enqAdmit s port es q k hit) := by
  unfold State.enqAdmit
  with_reducible repeat' first | exact h | apply keeps_State_enqMeter | (refine keeps_State_enqMeter_eq ?_ (by assumption)) | apply keeps_State_sat | apply keeps_State_tmAnswer | apply keeps_State_dropAt | apply keeps_State_dropCells | apply keeps_State_setPol | apply keeps_State_enqueueRec | apply Keeps.ite | (refine Keeps.upd ?_ rfl; first | exact h | apply keeps_State_enqMeter | (refine keeps_State_enqMeter_eq ?_ (by assumption)) | apply keeps_State_sat | apply keeps_State_tmAnswer | apply keeps_State_dropAt | apply keeps_State_dropCells | apply keeps_State_setPol | apply keeps_State_enqueueRec | apply Keeps.ite) | split

theorem keeps_State_enq {r : State} {s : State} {port : Nat} {cls : BitVec 2} (h : Keeps r s) : Keeps r (State.enq s port cls) := by
  unfold State.enq
  with_reducible repeat' first | exact h | assumption | apply keeps_State_setTmRx | apply keeps_State_tmAnswer | apply keeps_State_ftLookup | (refine keeps_State_ftLookup_eq ?_ (by assumption)) | apply keeps_State_enqAdmit | split | (dsimp only)

theorem keeps_execEnq {r : State} {q : QpId} {cls : BitVec 2} {s : State} (h : Keeps r s) : KeepsR r (execEnq q cls s) := by
  unfold execEnq
  dsimp only [KeepsR]
  with_reducible repeat' first | exact h | apply keeps_State_enq

theorem keeps_State_setGate {r : State} {s : State} {k : Nat} {g : Gate} (h : Keeps r s) : Keeps r (State.setGate s k g) := by
  unfold State.setGate
  exact h.tm _ (fun c => { c with gates := wf_tput (d := fun _ => Gate.reset) _ _ c.gates })

theorem keeps_State_drrPick {r : State} {s : State} {k0 : Nat} {g : Nat} {x3 : List Nat} (h : Keeps r s) : Keeps r (State.drrPick s k0 g x3).1 := by
  induction x3 generalizing s with
  | nil => exact h
  | cons q rest ih =>
    unfold State.drrPick
    dsimp only
    split
    · exact ih h
    · apply Keeps.ite_fst
      · exact keeps_State_setQueue (h := h)
      · exact ih (keeps_State_setDrr (h := keeps_State_setQueue (h := h)))
theorem keeps_State_drrPick_eq {r : State} {s : State} {k0 : Nat} {g : Nat} {x3 : List Nat}  {out : State} {b} (h : Keeps r s) (eq1 : State.drrPick s k0 g x3 = (out, b)) : Keeps r out := by
  have k := keeps_State_drrPick (s := s) (k0 := k0) (g := g) (x3 := x3)  (h := h)
  rw [eq1] at k
  exact k

theorem keeps_State_drrCharge {r : State} {s : State} {k : Nat} {q : Nat} {l : Nat} (h : Keeps r s) : Keeps r (State.drrCharge s k q l) := by
  unfold State.drrCharge
  with_reducible repeat' first | exact h | apply keeps_State_leaveGroup | apply keeps_State_setQueue | apply Keeps.ite

theorem keeps_State_sfqCharge {r : State} {s : State} {k : Nat} {c : Nat} {g : Nat} {l : Nat} (h : Keeps r s) : Keeps r (State.sfqCharge s k c g l) := by
  unfold State.sfqCharge
  exact h.tm _ (fun c => { c with vt := wf_tput (d := fun _ => 0) _ _ c.vt, stag := wf_tput (d := fun _ => 0) _ _ c.stag })

theorem keeps_State_takeHead {r : State} {s : State} {q : Nat} {e0 : QRec} (h : Keeps r s) : Keeps r (State.takeHead s q e0).1 := by
  unfold State.takeHead
  with_reducible repeat' first | exact h | apply keeps_State_setQueue | apply keeps_State_bump | apply keeps_State_p
theorem keeps_State_takeHead_eq {r : State} {s : State} {q : Nat} {e0 : QRec}  {out : State} {b} (h : Keeps r s) (eq1 : State.takeHead s q e0 = (out, b)) : Keeps r out := by
  have k := keeps_State_takeHead (s := s) (q := q) (e0 := e0)  (h := h)
  rw [eq1] at k
  exact k

theorem keeps_State_setDisp {r : State} {s : State} {k : Nat} {l : List Sel} (h : Keeps r s) : Keeps r (State.setDisp s k l) := by
  unfold State.setDisp
  exact h.tm _ (fun c => { c with disp := wf_tput (d := fun _ => []) _ _ c.disp })

theorem keeps_State_setRecReads {r : State} {s : State} {k : Nat} {l : List RecRead} (h : Keeps r s) : Keeps r (State.setRecReads s k l) := by
  unfold State.setRecReads
  exact h.tm _ (fun c => { c with recReads := wf_tput (d := fun _ => []) _ _ c.recReads })

theorem keeps_State_sendRead {r : State} {s : State} {k0 : Nat} {cls : BitVec 2} {dest : BitVec 10} {addr : BitVec 48} {n : Nat} (h : Keeps r s) : Keeps r (State.sendRead s k0 cls dest addr n).1 := by
  unfold State.sendRead
  with_reducible repeat' first | exact h | apply keeps_State_tmSend | (refine Keeps.upd ?_ rfl; exact h)
theorem keeps_State_sendRead_eq {r : State} {s : State} {k0 : Nat} {cls : BitVec 2} {dest : BitVec 10} {addr : BitVec 48} {n : Nat}  {out : State} {b} (h : Keeps r s) (eq1 : State.sendRead s k0 cls dest addr n = (out, b)) : Keeps r out := by
  have k := keeps_State_sendRead (s := s) (k0 := k0) (cls := cls) (dest := dest) (addr := addr) (n := n)  (h := h)
  rw [eq1] at k
  exact k

theorem keeps_State_issueOne {r : State} {s : State} {k0 : Nat} {i : Nat} (h : Keeps r s) : ∀ out, State.issueOne s k0 i = some out → Keeps r out := by
  intro out ht
  unfold State.issueOne at ht
  dsimp only at ht
  split at ht
  · cases ht
  · split at ht
    · cases ht
    · split at ht
      · cases ht
        exact keeps_State_setDisp (h := keeps_State_sendRead (h := h))
      · split at ht
        · cases ht
        · split at ht
          · cases ht
          · cases ht
            exact keeps_State_setDisp (h := keeps_State_sendRead (h := h))
theorem keeps_State_issueOne_some {r : State} {s : State} {k0 : Nat} {i : Nat} {out : State} (h : Keeps r s) (eq1 : State.issueOne s k0 i = some out) : Keeps r out := keeps_State_issueOne (s := s) (k0 := k0) (i := i)  (h := h) _ eq1

theorem keeps_State_issueFor {r : State} {s : State} {k : Nat} {i : Nat} {x3 : Nat} (h : Keeps r s) : Keeps r (State.issueFor s k i x3) := by
  induction x3 generalizing s with
  | zero => exact h
  | succ n ih =>
    unfold State.issueFor
    split
    · exact ih (keeps_State_issueOne_some h (by assumption))
    · exact h

theorem keeps_State_issueReads {r : State} {s : State} {k : Nat} (h : Keeps r s) : Keeps r (State.issueReads s k) := by
  unfold State.issueReads
  with_reducible repeat' first | intro _ | exact h | assumption | apply keeps_State_issueFor | apply Keeps.foldl_from

theorem keeps_State_discard {r : State} {s : State} {k : Nat} {q : Nat} {e : QRec} (h : Keeps r s) : Keeps r (State.discard s k q e) := by
  unfold State.discard
  with_reducible repeat' first | exact h | apply keeps_State_sat | apply keeps_State_takeHead | (refine keeps_State_takeHead_eq ?_ (by assumption)) | apply keeps_State_freeAll | apply keeps_State_drrCharge | apply keeps_State_issueReads | apply keeps_State_setDisp | split

theorem keeps_State_selectPkt {r : State} {s : State} {k : Nat} {c : Nat} {g : Nat} {q : Nat} {e : QRec} (h : Keeps r s) : Keeps r (State.selectPkt s k c g q e) := by
  unfold State.selectPkt
  with_reducible repeat' first | intro _ | exact h | assumption | apply keeps_State_takeHead | (refine keeps_State_takeHead_eq ?_ (by assumption)) | apply keeps_State_drrCharge | apply keeps_State_sfqCharge | apply keeps_State_chargePort | apply keeps_State_chargeSh | apply keeps_State_sample | apply keeps_State_bump | apply keeps_State_issueReads | apply keeps_State_setDisp | apply Keeps.foldl_from | split

theorem keeps_State_serve {r : State} {s : State} {k : Nat} {c : Nat} {g : Nat} {q : Nat} (h : Keeps r s) : Keeps r (State.serve s k c g q) := by
  unfold State.serve
  with_reducible repeat' first | exact h | apply keeps_State_discard | apply keeps_State_selectPkt | split

theorem keeps_State_classes {r : State} {s : State} {k : Nat} {x2 : List Nat} (h : Keeps r s) : Keeps r (State.classes s k x2) := by
  induction x2 generalizing s with
  | nil => exact h
  | cons c rest ih =>
    unfold State.classes
    split
    · exact ih h
    · split
      · exact ih h
      · rename_i g _; have k := keeps_State_drrPick (k0 := k) (g := g) (x3 := s.drrList k g) h
        dsimp only
        split
        · exact k
        · exact keeps_State_serve k

theorem keeps_State_leaveOld {r : State} {s : State} {k : Nat} {old : Bool} {new : Bool} {q : Nat} (h : Keeps r s) : Keeps r (State.leaveOld s k old new q) := by
  unfold State.leaveOld
  with_reducible repeat' first | exact h | apply keeps_State_leaveGroup | apply Keeps.ite

theorem keeps_State_joinNew {r : State} {s : State} {k : Nat} {new : Bool} {q : Nat} (h : Keeps r s) : Keeps r (State.joinNew s k new q) := by
  unfold State.joinNew
  with_reducible repeat' first | exact h | apply keeps_State_treeErr | apply keeps_State_toTail | apply Keeps.ite

theorem keeps_State_switchGroups {r : State} {s : State} {k : Nat} {old : Bool} {new : Bool} {was : List Nat} {gs : List Nat} (h : Keeps r s) : Keeps r (State.switchGroups s k old new was gs) := by
  unfold State.switchGroups
  with_reducible repeat' first | intro _ | exact h | assumption | apply keeps_State_wakeGroup | apply Keeps.foldl_from | split

theorem keeps_State_switchTree {r : State} {s : State} {k : Nat} (h : Keeps r s) : Keeps r (State.switchTree s k) := by
  unfold State.switchTree
  with_reducible repeat' first | intro _ | exact h | assumption | apply keeps_State_joinNew | apply keeps_State_leaveOld | apply keeps_State_switchGroups | apply Keeps.foldl_from | apply Keeps.ite | (refine Keeps.upd ?_ rfl; first | exact h | assumption | apply keeps_State_joinNew | apply keeps_State_leaveOld | apply keeps_State_switchGroups | apply Keeps.foldl_from | apply Keeps.ite) | split | (dsimp only)

theorem keeps_State_dequeue {r : State} {s : State} {k : Nat} (h : Keeps r s) : Keeps r (State.dequeue s k) := by
  unfold State.dequeue
  with_reducible repeat' first | exact h | apply keeps_State_switchTree | apply keeps_State_decides | apply keeps_State_classes | apply Keeps.ite

theorem keeps_execDequeueDecision {r : State} {k : EsId} {s : State} (h : Keeps r s) : KeepsR r (execDequeueDecision k s) := by
  unfold execDequeueDecision
  dsimp only [KeepsR]
  with_reducible repeat' first | exact h | apply keeps_State_dequeue

theorem keeps_State_schedFlip {r : State} {s : State} {k : Nat} {str : Bool} (h : Keeps r s) : Keeps r (State.schedFlip s k str) := by
  unfold State.schedFlip
  with_reducible repeat' first | exact h | apply keeps_State_setGate | apply keeps_State_raiseTm | apply keeps_State_pb | apply Keeps.ite | (refine Keeps.upd ?_ rfl; first | exact h | apply keeps_State_setGate | apply keeps_State_raiseTm | apply keeps_State_pb | apply Keeps.ite)

theorem keeps_execGateListStart {r : State} {k : EsId} {s : State} (h : Keeps r s) : KeepsR r (execGateListStart k s) := by
  unfold execGateListStart
  dsimp only [KeepsR]
  with_reducible repeat' first | exact h | apply keeps_State_setGate | apply keeps_State_until | apply keeps_State_raiseTm | apply keeps_State_pb | split

theorem keeps_State_recordRead {r : State} {s : State} {k : Nat} {q : Nat} (h : Keeps r s) : Keeps r (State.recordRead s k q) := by
  unfold State.recordRead
  with_reducible repeat' first | exact h | apply keeps_State_sendRead | (refine keeps_State_sendRead_eq ?_ (by assumption)) | apply keeps_State_setQueue | apply keeps_State_setRecReads | split

theorem keeps_execRecordRead {r : State} {k : EsId} {qid : BitVec 16} {s : State} (h : Keeps r s) : KeepsR r (execRecordRead k qid s) := by
  unfold execRecordRead
  dsimp only [KeepsR]
  with_reducible repeat' first | exact h | apply keeps_State_recordRead

theorem keeps_State_ringLost {r : State} {s : State} {k : Nat} {q : Nat} (h : Keeps r s) : Keeps r (State.ringLost s k q) := by
  unfold State.ringLost
  with_reducible repeat' first | exact h | apply keeps_State_leaveGroup | apply keeps_State_pb | apply keeps_State_setQueue | apply keeps_State_p | apply keeps_State_sample | apply keeps_State_sat | apply keeps_State_raiseTm | apply Keeps.ite

theorem keeps_State_recordAnswer {r : State} {s : State} {k : Nat} {r0 : RecRead} {ok : Bool} {data : List Line} (h : Keeps r s) : Keeps r (State.recordAnswer s k r0 ok data) := by
  unfold State.recordAnswer
  with_reducible repeat' first | exact h | apply keeps_State_setRecReads | apply keeps_State_setQueue | apply keeps_State_ringLost | apply Keeps.ite

theorem keeps_State_pktFails {r : State} {s : State} {k : Nat} {i : Nat} {x : Sel} (h : Keeps r s) : Keeps r (State.pktFails s k i x) := by
  unfold State.pktFails
  with_reducible repeat' first | exact h | apply keeps_State_setDisp | apply keeps_State_freeAll | apply keeps_State_raiseTm | apply keeps_State_dropAt | apply Keeps.ite

theorem keeps_State_dropDone {r : State} {s : State} {k : Nat} (h : Keeps r s) : Keeps r (State.dropDone s k) := by
  unfold State.dropDone
  with_reducible repeat' first | exact h | apply keeps_State_setDisp

theorem keeps_State_cellAnswer {r : State} {s : State} {k : Nat} {i : Nat} {x : Sel} {rid : Nat} {ok : Bool} {data : List Line} (h : Keeps r s) : Keeps r (State.cellAnswer s k i x rid ok data) := by
  unfold State.cellAnswer
  with_reducible repeat' first | exact h | apply keeps_State_dropDone | apply keeps_State_pktFails | apply keeps_State_freeAll | apply keeps_State_setDisp | apply Keeps.ite

theorem keeps_State_spAnswer {r : State} {s : State} {k : Nat} {rid : Nat} {ok : Bool} {data : List Line} (h : Keeps r s) : Keeps r (State.spAnswer s k rid ok data) := by
  unfold State.spAnswer
  with_reducible repeat' first | exact h | apply keeps_State_recordAnswer | apply keeps_State_cellAnswer | split

theorem keeps_execCellReadResponse {r : State} {k : EsId} {rid : Nat} {resp : BitVec 4} {data : List Line} {s : State} (h : Keeps r s) : KeepsR r (execCellReadResponse k rid resp data s) := by
  unfold execCellReadResponse
  dsimp only [KeepsR]
  with_reducible repeat' first | exact h | apply keeps_State_issueReads | apply keeps_State_spAnswer | apply keeps_State_setTmRx | split

theorem keeps_State_deliver {r : State} {s : State} {k : Nat} (h : Keeps r s) : Keeps r (State.deliver s k) := by
  unfold State.deliver
  with_reducible repeat' first | intro _ | exact h | assumption | apply keeps_State_setDisp | apply keeps_State_tmSend | apply Keeps.foldl_from | apply Keeps.ite | (refine Keeps.upd ?_ rfl; first | exact h | assumption | apply keeps_State_setDisp | apply keeps_State_tmSend | apply Keeps.foldl_from | apply Keeps.ite) | split | (dsimp only)

theorem keeps_execDelivery {r : State} {k : EsId} {s : State} (h : Keeps r s) : KeepsR r (execDelivery k s) := by
  unfold execDelivery
  dsimp only [KeepsR]
  with_reducible repeat' first | exact h | apply keeps_State_deliver

theorem keeps_State_lastInjected {r : State} {s : State} {k : Nat} (h : Keeps r s) : Keeps r (State.lastInjected s k) := by
  unfold State.lastInjected
  with_reducible repeat' first | exact h | apply keeps_State_issueReads | apply keeps_State_freeAll | apply keeps_State_setDisp | split

theorem keeps_execLastDeliveryInjected {r : State} {k : EsId} {s : State} (h : Keeps r s) : KeepsR r (execLastDeliveryInjected k s) := by
  unfold execLastDeliveryInjected
  dsimp only [KeepsR]
  with_reducible repeat' first | exact h | apply keeps_State_lastInjected

end Sys2Proof.Machine
end

