-- ==== Sys2Proof/Laws/KeepsNet.lean ====
section
/-! SUPPORT. One lemma per operation of the routers, network interfaces, links and fabric: it keeps the queue of commands, the parameter set and the canonical form of the tables. -/
set_option maxRecDepth 4000
namespace Sys2Proof.Machine

theorem keeps_State_flintAt {r : State} {s : State} {t : Nat} {pl : Nat} {port : Nat} {dest : BitVec 8} {str : Bool} (h : Keeps r s) : Keeps r (State.flintAt s t pl port dest str) := by
  unfold State.flintAt
  with_reducible repeat' first | exact h | apply keeps_State_wake | apply Keeps.setRouter | apply Keeps.ite

theorem keeps_State_probeAdd {r : State} {s : State} {p : Nat} {i : Nat} {n : Nat} (h : Keeps r s) : Keeps r (State.probeAdd s p i n) := by
  unfold State.probeAdd
  with_reducible repeat' first | exact h | apply Keeps.wr

theorem keeps_State_setSamp {r : State} {s : State} {p : Nat} {n : Nat} (h : Keeps r s) : Keeps r (State.setSamp s p n) := by
  unfold State.setSamp
  exact h.obs _ (fun c => { c with sampCnt := wf_tput (d := fun _ => 0) _ _ c.sampCnt })

theorem keeps_State_setTrSeq {r : State} {s : State} {p : Nat} {n : Nat} (h : Keeps r s) : Keeps r (State.setTrSeq s p n) := by
  unfold State.setTrSeq
  exact h.obs _ (fun c => { c with seqs := wf_tput (d := fun _ => 0) _ _ c.seqs })

theorem keeps_State_probeHeader {r : State} {s : State} {t : Nat} {k : Pkt} {stratum : Bool} {vc : Nat} {hdr : Line} {p : Nat} (h : Keeps r s) : Keeps r (State.probeHeader s t k stratum vc hdr p) := by
  unfold State.probeHeader
  with_reducible repeat' first | exact h | assumption | apply keeps_State_probeAdd | apply keeps_State_setSamp | apply keeps_State_setTrSeq | apply Keeps.setAgent | (refine Keeps.upd ?_ rfl; first | exact h | assumption | apply keeps_State_probeAdd | apply keeps_State_setSamp | apply keeps_State_setTrSeq | apply Keeps.setAgent) | split | (dsimp only)

theorem keeps_State_probeFlit {r : State} {s : State} {t : Nat} {ps : List (Nat × Nat)} (h : Keeps r s) : Keeps r (State.probeFlit s t ps) := by
  unfold State.probeFlit
  with_reducible repeat' first | intro _ | exact h | assumption | apply keeps_State_probeAdd | apply Keeps.foldl_from

theorem keeps_State_rcount {r : State} {s : State} {t : Nat} {pl : Nat} {f : Fd} (h : Keeps r s) : Keeps r (State.rcount s t pl f) := by
  unfold State.rcount
  with_reducible repeat' first | exact h | apply keeps_State_sat

theorem keeps_State_sinkHeader {r : State} {s : State} {t : Nat} {pl : Nat} {k : Pkt} {unroutable : Bool} (h : Keeps r s) : Keeps r (State.sinkHeader s t pl k unroutable) := by
  unfold State.sinkHeader
  with_reducible repeat' first | exact h | assumption | apply keeps_State_rcount | apply Keeps.setAgent | split | (dsimp only)

theorem keeps_State_sinkStep {r : State} {s : State} {t : Nat} {pl : Nat} {port : Nat} {v : Nat} (h : Keeps r s) : Keeps r (State.sinkStep s t pl port v) := by
  unfold State.sinkStep
  with_reducible repeat' first | intro _ | exact h | assumption | apply Keeps.setRouter | apply keeps_State_probeHeader | apply keeps_State_sinkHeader | apply keeps_State_probeFlit | apply Keeps.foldl_from | apply Keeps.ite | (refine Keeps.upd ?_ rfl; first | exact h | assumption | apply Keeps.setRouter | apply keeps_State_probeHeader | apply keeps_State_sinkHeader | apply keeps_State_probeFlit | apply Keeps.foldl_from | apply Keeps.ite) | split | (dsimp only)

theorem keeps_State_traverse {r : State} {s : State} {t : Nat} {pl : Nat} {port : Nat} {v : Nat} {o : Nat} {w : Nat} (h : Keeps r s) : Keeps r (State.traverse s t pl port v o w) := by
  unfold State.traverse
  with_reducible repeat' first | intro _ | exact h | assumption | apply Keeps.setRouter | apply keeps_State_probeFlit | apply keeps_State_probeHeader | apply Keeps.foldl_from | apply Keeps.ite | (refine Keeps.upd ?_ rfl; first | exact h | assumption | apply Keeps.setRouter | apply keeps_State_probeFlit | apply keeps_State_probeHeader | apply Keeps.foldl_from | apply Keeps.ite) | split | (dsimp only)

theorem keeps_State_stalls {r : State} {s : State} (h : Keeps r s) : Keeps r (State.stalls s) := by
  unfold State.stalls
  with_reducible repeat' first | intro _ | exact h | assumption | apply keeps_State_probeAdd | apply Keeps.foldl_from

theorem keeps_State_routerCycle {r : State} {s : State} {t : Nat} {pl : Nat} (h : Keeps r s) : ∀ out, State.routerCycle s t pl = some out → Keeps r out := by
  intro out ht
  unfold State.routerCycle at ht
  dsimp only at ht
  split at ht
  · cases ht
    exact keeps_State_sinkStep (h := h)
  · split at ht
    · cases ht
    · cases ht
      exact h.foldl_from (fun s a k => keeps_State_traverse (h := k)) _
theorem keeps_State_routerCycle_some {r : State} {s : State} {t : Nat} {pl : Nat} {out : State} (h : Keeps r s) (eq1 : State.routerCycle s t pl = some out) : Keeps r out := keeps_State_routerCycle (s := s) (t := t) (pl := pl)  (h := h) _ eq1

theorem keeps_State_settleN {r : State} {x0 : Nat} {x1 : State} {x2 : Nat} {x3 : Nat} (h : Keeps r x1) : Keeps r (State.settleN x0 x1 x2 x3) := by
  induction x0 generalizing x1 with
  | zero => exact h
  | succ n ih =>
    unfold State.settleN
    split
    · exact ih (keeps_State_routerCycle_some h (by assumption))
    · exact h

theorem keeps_State_settle {r : State} {s : State} {t : Nat} {pl : Nat} (h : Keeps r s) : Keeps r (State.settle s t pl) := by
  unfold State.settle
  with_reducible repeat' first | exact h | apply keeps_State_settleN | apply Keeps.ite

theorem keeps_State_completeInput {r : State} {s : State} {t : Nat} {pl : Nat} {port : Nat} (h : Keeps r s) : Keeps r (State.completeInput s t pl port) := by
  unfold State.completeInput
  with_reducible repeat' first | intro _ | exact h | assumption | apply Keeps.setRouter | apply Keeps.foldl_from | apply Keeps.ite | (refine Keeps.upd ?_ rfl; first | exact h | assumption | apply Keeps.setRouter | apply Keeps.foldl_from | apply Keeps.ite) | split | (dsimp only)

theorem keeps_State_cutOutput {r : State} {s : State} {t : Nat} {pl : Nat} {d : Nat} (h : Keeps r s) : Keeps r (State.cutOutput s t pl d) := by
  unfold State.cutOutput
  with_reducible repeat' first | intro _ | exact h | assumption | apply Keeps.setRouter | apply Keeps.foldl_from | apply Keeps.ite | (refine Keeps.upd ?_ rfl; first | exact h | assumption | apply Keeps.setRouter | apply Keeps.foldl_from | apply Keeps.ite) | split | (dsimp only)

theorem keeps_State_setLinkState {r : State} {s : State} {t : Nat} {pl : Nat} {d : Nat} {st : Nat} (h : Keeps r s) : Keeps r (State.setLinkState s t pl d st) := by
  unfold State.setLinkState
  with_reducible repeat' first | exact h | apply keeps_State_p

theorem keeps_State_linkDownNow {r : State} {s : State} {t : Nat} {pl : Nat} {d : Nat} (h : Keeps r s) : Keeps r (State.linkDownNow s t pl d) := by
  unfold State.linkDownNow
  with_reducible repeat' first | exact h | apply keeps_State_setLinkState | apply keeps_State_completeInput | apply keeps_State_cutOutput | apply Keeps.setLink | apply keeps_State_settle

theorem keeps_State_routerEvent {r : State} {s : State} {t : Nat} (h : Keeps r s) : Keeps r (State.routerEvent s t) := by
  unfold State.routerEvent
  with_reducible repeat' first | intro _ | exact h | assumption | apply keeps_State_oncePer | apply keeps_State_raiseTile | apply Keeps.foldl_from

theorem keeps_State_takeDown {r : State} {s : State} {t : Nat} {pl : Nat} {port : Nat} {link : Option (Nat × Nat)} (h : Keeps r s) : Keeps r (State.takeDown s t pl port link) := by
  unfold State.takeDown
  with_reducible repeat' first | exact h | apply keeps_State_sat | apply keeps_State_routerEvent | apply keeps_State_linkDownNow | split

theorem keeps_State_violation {r : State} {s : State} {i : Nat} {b : Nat} {st : Nat} {op : BitVec 4} {addr : BitVec 48} {mtag : BitVec 8} {kind : Nat} {rule : Nat} {off : Nat} (h : Keeps r s) : Keeps r (State.violation s i b st op addr mtag kind rule off) := by
  unfold State.violation
  with_reducible repeat' first | intro _ | exact h | assumption | apply keeps_State_sat | apply keeps_State_oncePer | apply Keeps.wr | apply keeps_State_raiseFrom | apply Keeps.foldl_from | split

theorem keeps_State_puUp {r : State} {s : State} {i : Nat} {b : Bool} (h : Keeps r s) : Keeps r (State.puUp s i b) := by
  unfold State.puUp
  with_reducible repeat' first | exact h | apply keeps_State_p

theorem keeps_State_puDown {r : State} {s : State} {i : Nat} {b : Bool} (h : Keeps r s) : Keeps r (State.puDown s i b) := by
  unfold State.puDown
  with_reducible repeat' first | exact h | apply keeps_State_p

theorem keeps_State_puLeave {r : State} {s : State} {i : Nat} {b : Option Bool} (h : Keeps r s) : Keeps r (State.puLeave s i b) := by
  unfold State.puLeave
  with_reducible repeat' first | exact h | apply keeps_State_puDown | split

theorem keeps_State_clearViolation {r : State} {s : State} {i : Nat} (h : Keeps r s) : Keeps r (State.clearViolation s i) := by
  unfold State.clearViolation
  with_reducible repeat' first | exact h | apply keeps_State_p | apply keeps_State_pb

theorem keeps_State_niOpen {r : State} {s : State} {t : Nat} {p : Nat} (h : Keeps r s) : Keeps r (State.niOpen s t p) := by
  unfold State.niOpen
  with_reducible repeat' first | exact h | apply keeps_State_until | apply Keeps.ite

theorem keeps_State_niEnter {r : State} {s : State} {t : Nat} {p : Nat} {k : Nat} (h : Keeps r s) : Keeps r (State.niEnter s t p k) := by
  unfold State.niEnter
  with_reducible repeat' first | exact h | apply Keeps.setNi | apply Keeps.ite

theorem keeps_State_qAccept {r : State} {s : State} {t : Nat} {p : Nat} {op : BitVec 4} {q : QReq} (h : Keeps r s) : Keeps r (State.qAccept s t p op q) := by
  unfold State.qAccept
  with_reducible repeat' first | exact h | assumption | apply keeps_State_niEnter | apply keeps_State_wake | apply Keeps.setNi | apply keeps_State_violation | apply keeps_State_puUp | split | (dsimp only)

theorem keeps_State_qTransfer {r : State} {s : State} {t : Nat} {p : Nat} {op : BitVec 4} {q : QReq} (h : Keeps r s) : Keeps r (State.qTransfer s t p op q) := by
  unfold State.qTransfer
  with_reducible repeat' first | exact h | assumption | apply keeps_State_qAccept | apply keeps_State_niOpen | split | (dsimp only)

theorem keeps_execRead {r : State} {t : Tile} {p : LPort} {q : QReq} {s : State} (h : Keeps r s) : KeepsR r (execRead t p q s) := by
  unfold execRead
  dsimp only [KeepsR]
  with_reducible repeat' first | exact h | apply keeps_State_qTransfer

theorem keeps_execWrite {r : State} {t : Tile} {p : LPort} {q : QReq} {s : State} (h : Keeps r s) : KeepsR r (execWrite t p q s) := by
  unfold execWrite
  dsimp only [KeepsR]
  with_reducible repeat' first | exact h | apply keeps_State_qTransfer

theorem keeps_execWriteNp {r : State} {t : Tile} {p : LPort} {q : QReq} {s : State} (h : Keeps r s) : KeepsR r (execWriteNp t p q s) := by
  unfold execWriteNp
  dsimp only [KeepsR]
  with_reducible repeat' first | exact h | apply keeps_State_qTransfer

theorem keeps_execAtomic {r : State} {t : Tile} {p : LPort} {q : QReq} {s : State} (h : Keeps r s) : KeepsR r (execAtomic t p q s) := by
  unfold execAtomic
  dsimp only [KeepsR]
  with_reducible repeat' first | exact h | apply keeps_State_qTransfer

theorem keeps_execMessage {r : State} {t : Tile} {p : LPort} {q : QReq} {s : State} (h : Keeps r s) : KeepsR r (execMessage t p q s) := by
  unfold execMessage
  dsimp only [KeepsR]
  with_reducible repeat' first | exact h | apply keeps_State_qTransfer

theorem keeps_execDoorbell {r : State} {t : Tile} {p : LPort} {q : QReq} {s : State} (h : Keeps r s) : KeepsR r (execDoorbell t p q s) := by
  unfold execDoorbell
  dsimp only [KeepsR]
  with_reducible repeat' first | exact h | apply keeps_State_qTransfer

theorem keeps_execCell {r : State} {t : Tile} {p : LPort} {q : QReq} {s : State} (h : Keeps r s) : KeepsR r (execCell t p q s) := by
  unfold execCell
  dsimp only [KeepsR]
  with_reducible repeat' first | exact h | apply keeps_State_qTransfer

theorem keeps_execEnqueue {r : State} {t : Tile} {p : LPort} {q : QReq} {s : State} (h : Keeps r s) : KeepsR r (execEnqueue t p q s) := by
  unfold execEnqueue
  dsimp only [KeepsR]
  with_reducible repeat' first | exact h | apply keeps_State_qTransfer

theorem keeps_execDlastBeat {r : State} {t : Tile} {p : LPort} {beats : List Line} {dbe : BitVec 64} {s : State} (h : Keeps r s) : KeepsR r (execDlastBeat t p beats dbe s) := by
  unfold execDlastBeat
  dsimp only [KeepsR]
  with_reducible repeat' first | exact h | apply keeps_State_niEnter | apply Keeps.setNi | apply Keeps.ite

theorem keeps_State_leaveS {r : State} {s : State} {t : Nat} {p : Nat} (h : Keeps r s) : Keeps r (State.leaveS s t p) := by
  unfold State.leaveS
  with_reducible repeat' first | exact h | assumption | apply keeps_State_puLeave | apply Keeps.setNi | split | (dsimp only)

theorem keeps_State_setSpares {r : State} {s : State} {t : Nat} {pl : Nat} {e : Nat} {d : Nat} {m : List (Nat × Nat)} (h : Keeps r s) : Keeps r (State.setSpares s t pl e d m) := by
  unfold State.setSpares
  with_reducible repeat' first | intro _ | exact h | assumption | apply Keeps.wr | apply Keeps.foldl_from

theorem keeps_State_repairEnd {r : State} {s : State} {t : Nat} {pl : Nat} {e : Nat} {d : Nat} {p : Nat} (h : Keeps r s) : Keeps r (State.repairEnd s t pl e d p) := by
  unfold State.repairEnd
  with_reducible repeat' first | exact h | apply keeps_State_setSpares | apply keeps_State_p | apply keeps_State_pb | apply Keeps.ite

theorem keeps_State_repairLink {r : State} {s : State} {t : Nat} {pl : Nat} {d : Nat} {p : Nat} (h : Keeps r s) : Keeps r (State.repairLink s t pl d p) := by
  unfold State.repairLink
  with_reducible repeat' first | exact h | apply keeps_State_repairEnd | apply keeps_State_raiseTile | apply Keeps.ite

theorem keeps_State_lpeerOut {r : State} {s : State} {t : Nat} {pl : Nat} {d : Nat} {p : Nat} {ka : Nat} {tag : BitVec 12} (h : Keeps r s) : Keeps r (State.lpeerOut s t pl d p ka tag) := by
  unfold State.lpeerOut
  with_reducible repeat' first | exact h | apply Keeps.setLink | apply keeps_State_agentSend

theorem keeps_State_sendLpeer {r : State} {s : State} {t : Nat} {pl : Nat} {d : Nat} {p : Nat} (h : Keeps r s) : Keeps r (State.sendLpeer s t pl d p) := by
  unfold State.sendLpeer
  with_reducible repeat' first | exact h | apply Keeps.setLink | apply keeps_State_lpeerOut | apply keeps_State_pb | split

theorem keeps_State_requestRepair {r : State} {s : State} {t : Nat} {pl : Nat} {d : Nat} {p : Nat} (h : Keeps r s) : Keeps r (State.requestRepair s t pl d p) := by
  unfold State.requestRepair
  with_reducible repeat' first | exact h | assumption | apply Keeps.setLink | apply keeps_State_sendLpeer | split | (dsimp only)

theorem keeps_State_nextRepair {r : State} {s : State} {t : Nat} {pl : Nat} {d : Nat} (h : Keeps r s) : Keeps r (State.nextRepair s t pl d) := by
  unfold State.nextRepair
  with_reducible repeat' first | exact h | assumption | apply keeps_State_sendLpeer | apply Keeps.setLink | split | (dsimp only)

theorem keeps_State_peerAnswer {r : State} {s : State} {u : Nat} {k : Pkt} (h : Keeps r s) : Keeps r (State.peerAnswer s u k) := by
  unfold State.peerAnswer
  with_reducible repeat' first | exact h | assumption | apply Keeps.setLink | apply keeps_State_sendLpeer | apply keeps_State_nextRepair | split | (dsimp only)

theorem keeps_State_laneError {r : State} {s : State} {t : Nat} {pl : Nat} {port : Nat} {lane : Nat} (h : Keeps r s) : Keeps r (State.laneError s t pl port lane) := by
  unfold State.laneError
  with_reducible repeat' first | exact h | apply keeps_State_sat | apply Keeps.setLink | apply keeps_State_requestRepair | apply Keeps.ite

theorem keeps_State_newCalls {r : State} {s : State} {old : State} (h : Keeps r s) : Keeps r (State.newCalls s old) := by
  unfold State.newCalls
  refine h.foldl_from (fun s a k => ?_) _
  exact k.foldl_from (fun s b k => keeps_State_requestRepair k) _

theorem keeps_State_laneErrors {r : State} {s : State} {t : Nat} {pl : Nat} {port : Nat} {lanes : List Nat} (h : Keeps r s) : Keeps r (State.laneErrors s t pl port lanes) := by
  unfold State.laneErrors
  with_reducible repeat' first | intro _ | exact h | assumption | apply keeps_State_laneError | apply Keeps.foldl_from | split

theorem keeps_State_startTraining {r : State} {s : State} {t : Nat} {pl : Nat} {d : Nat} (h : Keeps r s) : Keeps r (State.startTraining s t pl d) := by
  unfold State.startTraining
  with_reducible repeat' first | exact h | apply Keeps.setLink | apply keeps_State_setLinkState

theorem keeps_State_niAnswer {r : State} {s : State} {t : Nat} {p : Nat} {q : Pkt} {code : BitVec 4} {lenm1 : BitVec 8} {data : List Line} (h : Keeps r s) : Keeps r (State.niAnswer s t p q code lenm1 data) := by
  unfold State.niAnswer
  with_reducible repeat' first | exact h | apply keeps_State_wake | apply Keeps.setNi | split

theorem keeps_State_agentAnswer {r : State} {s : State} {t : Nat} {q : Pkt} {code : BitVec 4} {lenm1 : BitVec 8} {data : List Line} {aux : (BitVec 32)} (h : Keeps r s) : Keeps r (State.agentAnswer s t q code lenm1 data aux) := by
  unfold State.agentAnswer
  with_reducible repeat' first | exact h | apply keeps_State_agentSend | split

theorem keeps_State_noteHold {r : State} {s : State} {t : Nat} {k : Pkt} (h : Keeps r s) : Keeps r (State.noteHold s t k) := by
  unfold State.noteHold
  with_reducible repeat' first | exact h | apply Keeps.setAgent

theorem keeps_State_forgetPower {r : State} {s : State} {t : Nat} {k : Pkt} (h : Keeps r s) : Keeps r (State.forgetPower s t k) := by
  unfold State.forgetPower
  with_reducible repeat' first | exact h | apply Keeps.setAgent

theorem keeps_State_agentRefuse {r : State} {s : State} {t : Nat} {k : Pkt} {code : BitVec 4} (h : Keeps r s) : Keeps r (State.agentRefuse s t k code) := by
  unfold State.agentRefuse
  with_reducible repeat' first | exact h | apply keeps_State_forgetPower | apply keeps_State_agentAnswer | apply Keeps.ite

theorem keeps_State_ejectCount {r : State} {s : State} {t : Nat} {o : Nat} {r0 : Recv} {f : Fd} (h : Keeps r s) : Keeps r (State.ejectCount s t o r0 f) := by
  unfold State.ejectCount
  with_reducible repeat' first | exact h | apply keeps_State_sat | split

theorem keeps_State_refuse {r : State} {s : State} {t : Nat} {o : Nat} {r0 : Recv} {k : Pkt} {code : BitVec 4} (h : Keeps r s) : Keeps r (State.refuse s t o r0 k code) := by
  unfold State.refuse
  with_reducible repeat' first | exact h | apply keeps_State_agentRefuse | apply keeps_State_niAnswer | apply keeps_State_evcSend | apply keeps_State_tmSend | split

theorem keeps_State_recordWritten {r : State} {s : State} {port : Nat} {tag : Nat} (h : Keeps r s) : Keeps r (State.recordWritten s port tag) := by
  unfold State.recordWritten
  with_reducible repeat' first | exact h | (refine Keeps.upd ?_ rfl; exact h)

theorem keeps_State_takeResp {r : State} {s : State} {t : Nat} {o : Nat} {r0 : Recv} {k : Pkt} (h : Keeps r s) : Keeps r (State.takeResp s t o r0 k) := by
  unfold State.takeResp
  with_reducible repeat' first | exact h | apply Keeps.setNi | apply keeps_State_sat | apply keeps_State_wakeMgmt | apply Keeps.setAgent | apply keeps_State_peerAnswer | apply keeps_State_extAnswer | apply keeps_State_recordWritten | apply keeps_State_setTmRx | (refine Keeps.upd ?_ rfl; first | exact h | apply Keeps.setNi | apply keeps_State_sat | apply keeps_State_wakeMgmt | apply Keeps.setAgent | apply keeps_State_peerAnswer | apply keeps_State_extAnswer | apply keeps_State_recordWritten | apply keeps_State_setTmRx) | split

theorem keeps_State_drop {r : State} {s : State} {t : Nat} {p : Nat} {n : Nat} (h : Keeps r s) : Keeps r (State.drop s t p n) := by
  unfold State.drop
  with_reducible repeat' first | exact h | apply keeps_State_sat

theorem keeps_State_turnedAway {r : State} {s : State} {t : Nat} {p : Nat} {k : Pkt} {code : BitVec 4} (h : Keeps r s) : Keeps r (State.turnedAway s t p k code) := by
  unfold State.turnedAway
  with_reducible repeat' first | intro _ | exact h | assumption | apply keeps_State_niAnswer | apply keeps_State_drop | apply Keeps.foldl_from | apply Keeps.ite | apply Keeps.ite_fst | (refine Keeps.upd ?_ rfl; first | exact h | assumption | apply keeps_State_niAnswer | apply keeps_State_drop | apply Keeps.foldl_from | apply Keeps.ite | apply Keeps.ite_fst) | split | (dsimp only)

theorem keeps_State_rxAway {r : State} {s : State} {t : Nat} {p : Nat} {code : Pkt → BitVec 4} (h : Keeps r s) : Keeps r (State.rxAway s t p code) := by
  unfold State.rxAway
  with_reducible repeat' first | intro _ | exact h | assumption | apply keeps_State_turnedAway | apply Keeps.setNi | apply Keeps.foldl_from | apply Keeps.ite | apply Keeps.ite_fst | (refine Keeps.upd ?_ rfl; first | exact h | assumption | apply keeps_State_turnedAway | apply Keeps.setNi | apply Keeps.foldl_from | apply Keeps.ite | apply Keeps.ite_fst) | split | (dsimp only)

theorem keeps_State_arriveRx {r : State} {s0 : State} {t : Nat} {p : Nat} {k : Pkt} (h : Keeps r s0) : Keeps r (State.arriveRx s0 t p k) := by
  unfold State.arriveRx
  with_reducible repeat' first | intro _ | exact h | assumption | apply keeps_State_niOpen | apply keeps_State_turnedAway | apply Keeps.setNi | apply Keeps.foldl_from | apply Keeps.ite | apply Keeps.ite_fst | (refine Keeps.upd ?_ rfl; first | exact h | assumption | apply keeps_State_niOpen | apply keeps_State_turnedAway | apply Keeps.setNi | apply Keeps.foldl_from | apply Keeps.ite | apply Keeps.ite_fst) | split | (dsimp only)

theorem keeps_State_takeReq {r : State} {s : State} {t : Nat} {o : Nat} {r0 : Recv} {k : Pkt} (h : Keeps r s) : Keeps r (State.takeReq s t o r0 k) := by
  unfold State.takeReq
  with_reducible repeat' first | exact h | apply keeps_State_sat | apply keeps_State_arriveRx | apply keeps_State_niAnswer | apply keeps_State_noteHold | apply Keeps.setAgent | apply keeps_State_agentRefuse | apply keeps_State_setTmRx | apply keeps_State_refuse | apply keeps_State_wakeMgmt | apply Keeps.ite | (refine Keeps.upd ?_ rfl; first | exact h | apply keeps_State_sat | apply keeps_State_arriveRx | apply keeps_State_niAnswer | apply keeps_State_noteHold | apply Keeps.setAgent | apply keeps_State_agentRefuse | apply keeps_State_setTmRx | apply keeps_State_refuse | apply keeps_State_wakeMgmt | apply Keeps.ite) | split

theorem keeps_State_discardEvent {r : State} {s : State} {t : Nat} {pl : Nat} {o : Nat} (h : Keeps r s) : Keeps r (State.discardEvent s t pl o) := by
  unfold State.discardEvent
  with_reducible repeat' first | intro _ | exact h | assumption | apply keeps_State_oncePer | apply keeps_State_raiseTile | apply Keeps.foldl_from

theorem keeps_State_ejected {r : State} {s : State} {t : Nat} {pl : Nat} {o : Nat} {r0 : Recv} {e : Ejected} (h : Keeps r s) : Keeps r (State.ejected s t pl o r0 e) := by
  unfold State.ejected
  with_reducible repeat' first | exact h | assumption | apply keeps_State_ejectCount | apply keeps_State_takeResp | apply keeps_State_refuse | apply keeps_State_discardEvent | apply keeps_State_takeReq | apply keeps_State_sat | split | (dsimp only)

theorem keeps_State_leaveOutput {r : State} {s : State} {t : Nat} {pl : Nat} {o : Nat} {vc : Nat} (h : Keeps r s) : Keeps r (State.leaveOutput s t pl o vc) := by
  unfold State.leaveOutput
  with_reducible repeat' first | exact h | apply Keeps.setRouter

theorem keeps_State_ejection {r : State} {s : State} {t : Nat} {pl : Nat} {o : Nat} {flits : List RawFlit} (h : Keeps r s) : Keeps r (State.ejection s t pl o flits) := by
  unfold State.ejection
  with_reducible repeat' first | exact h | apply keeps_State_ejected | apply keeps_State_leaveOutput | apply Keeps.ite

theorem keeps_execPacketEjection {r : State} {t : Tile} {pl : Plane} {out : RPort} {flits : List RawFlit} {s : State} (h : Keeps r s) : KeepsR r (execPacketEjection t pl out flits s) := by
  unfold execPacketEjection
  dsimp only [KeepsR]
  with_reducible repeat' first | exact h | apply keeps_State_ejection

theorem keeps_State_late {r : State} {s : State} {t : Nat} {p : Nat} (h : Keeps r s) : Keeps r (State.late s t p) := by
  unfold State.late
  with_reducible repeat' first | exact h | apply keeps_State_sat

theorem keeps_State_niResponse {r : State} {s : State} {t : Nat} {p : Nat} {k : Pkt} (h : Keeps r s) : Keeps r (State.niResponse s t p k) := by
  unfold State.niResponse
  with_reducible repeat' first | exact h | assumption | apply keeps_State_late | apply keeps_State_puDown | apply Keeps.setNi | split | (dsimp only)

theorem keeps_State_respIn {r : State} {s : State} {t : Nat} {p : Nat} {want : Pkt → Bool} (h : Keeps r s) : Keeps r (State.respIn s t p want) := by
  unfold State.respIn
  split
  · exact h
  · split
    · rename_i k s' e
      refine keeps_State_niResponse (h := ?_)
      unfold State.takeRx at e
      split at e
      · split at e
        · cases e; exact h.setNi ..
        · cases e
      · cases e
    · exact h

theorem keeps_State_rdataIn {r : State} {s : State} {t : Nat} {p : Nat} (h : Keeps r s) : Keeps r (State.rdataIn s t p) := by
  unfold State.rdataIn
  with_reducible repeat' first | exact h | apply keeps_State_respIn

theorem keeps_State_wackIn {r : State} {s : State} {t : Nat} {p : Nat} (h : Keeps r s) : Keeps r (State.wackIn s t p) := by
  unfold State.wackIn
  with_reducible repeat' first | exact h | apply keeps_State_respIn

theorem keeps_State_responseTimeout {r : State} {s : State} {t : Nat} {p : Nat} {tag : BitVec 12} (h : Keeps r s) : Keeps r (State.responseTimeout s t p tag) := by
  unfold State.responseTimeout
  with_reducible repeat' first | exact h | assumption | apply keeps_State_until | apply keeps_State_puDown | apply Keeps.setNi | split | (dsimp only)

theorem keeps_execTagHoldExpiry {r : State} {t : Tile} {p : LPort} {tag : BitVec 12} {s : State} (h : Keeps r s) : KeepsR r (execTagHoldExpiry t p tag s) := by
  unfold execTagHoldExpiry
  dsimp only [KeepsR]
  with_reducible repeat' first | exact h | apply Keeps.setNi | apply keeps_State_until | split

theorem keeps_State_present1 {r : State} {s0 : State} {t : Nat} {p : Nat} {cmd : BitVec 6} {mtag : BitVec 8} {old : Option W} (h : Keeps r s0) : Keeps r (State.present1 s0 t p cmd mtag old) := by
  unfold State.present1
  with_reducible repeat' first | exact h | assumption | apply keeps_State_niOpen | apply keeps_State_turnedAway | apply Keeps.setNi | split | (dsimp only)

theorem keeps_execRd {r : State} {t : Tile} {p : LPort} {mtag : BitVec 8} {s : State} (h : Keeps r s) : KeepsR r (execRd t p mtag s) := by
  unfold execRd
  dsimp only [KeepsR]
  with_reducible repeat' first | exact h | apply keeps_State_present1 | apply Keeps.ite

theorem keeps_execWr {r : State} {t : Tile} {p : LPort} {mtag : BitVec 8} {s : State} (h : Keeps r s) : KeepsR r (execWr t p mtag s) := by
  unfold execWr
  dsimp only [KeepsR]
  with_reducible repeat' first | exact h | apply keeps_State_present1 | apply Keeps.ite

theorem keeps_execWrn {r : State} {t : Tile} {p : LPort} {mtag : BitVec 8} {s : State} (h : Keeps r s) : KeepsR r (execWrn t p mtag s) := by
  unfold execWrn
  dsimp only [KeepsR]
  with_reducible repeat' first | exact h | apply keeps_State_present1 | apply Keeps.ite

theorem keeps_execAtm {r : State} {t : Tile} {p : LPort} {mtag : BitVec 8} {old : W} {s : State} (h : Keeps r s) : KeepsR r (execAtm t p mtag old s) := by
  unfold execAtm
  dsimp only [KeepsR]
  with_reducible repeat' first | exact h | apply keeps_State_present1 | apply Keeps.ite

theorem keeps_execPkt {r : State} {t : Tile} {p : LPort} {mtag : BitVec 8} {s : State} (h : Keeps r s) : KeepsR r (execPkt t p mtag s) := by
  unfold execPkt
  dsimp only [KeepsR]
  with_reducible repeat' first | exact h | apply keeps_State_present1 | apply Keeps.ite

theorem keeps_State_qTaken {r : State} {s : State} {t : Nat} {p : Nat} {mtag : BitVec 8} (h : Keeps r s) : Keeps r (State.qTaken s t p mtag) := by
  unfold State.qTaken
  with_reducible repeat' first | exact h | assumption | apply Keeps.setNi | split | (dsimp only)

theorem keeps_execTargetQTransfer {r : State} {t : Tile} {p : LPort} {mtag : BitVec 8} {s : State} (h : Keeps r s) : KeepsR r (execTargetQTransfer t p mtag s) := by
  unfold execTargetQTransfer
  dsimp only [KeepsR]
  with_reducible repeat' first | exact h | apply keeps_State_qTaken

theorem keeps_State_targetAnswer {r : State} {s : State} {t : Nat} {p : Nat} {mtag : BitVec 8} {code : BitVec 4} {data : List Line} (h : Keeps r s) : Keeps r (State.targetAnswer s t p mtag code data) := by
  unfold State.targetAnswer
  with_reducible repeat' first | exact h | assumption | apply keeps_State_wake | apply keeps_State_niEnter | apply keeps_State_late | apply Keeps.setNi | apply keeps_State_niAnswer | split | (dsimp only)

theorem keeps_execTargetResponse {r : State} {t : Tile} {p : LPort} {mtag : BitVec 8} {code : BitVec 4} {data : List Line} {s : State} (h : Keeps r s) : KeepsR r (execTargetResponse t p mtag code data s) := by
  unfold execTargetResponse
  dsimp only [KeepsR]
  with_reducible repeat' first | exact h | apply keeps_State_targetAnswer

theorem keeps_execTargetTimeout {r : State} {t : Tile} {p : LPort} {mtag : BitVec 8} {s : State} (h : Keeps r s) : KeepsR r (execTargetTimeout t p mtag s) := by
  unfold execTargetTimeout
  dsimp only [KeepsR]
  with_reducible repeat' first | exact h | apply keeps_State_until | apply keeps_State_niAnswer | apply Keeps.setNi | split

theorem keeps_State_msgIn {r : State} {s0 : State} {t : Nat} {p : Nat} (h : Keeps r s0) : Keeps r (State.msgIn s0 t p) := by
  unfold State.msgIn
  with_reducible repeat' first | exact h | assumption | apply keeps_State_niOpen | apply Keeps.setNi | apply keeps_State_niAnswer | apply keeps_State_raiseTile | split | (dsimp only)

theorem keeps_execMsg {r : State} {t : Tile} {p : LPort} {s : State} (h : Keeps r s) : KeepsR r (execMsg t p s) := by
  unfold execMsg
  dsimp only [KeepsR]
  with_reducible repeat' first | exact h | apply keeps_State_msgIn | apply Keeps.ite

theorem keeps_execMailboxDelivery {r : State} {t : Tile} {p : LPort} {s : State} (h : Keeps r s) : KeepsR r (execMailboxDelivery t p s) := by
  unfold execMailboxDelivery
  dsimp only [KeepsR]
  with_reducible repeat' first | exact h | apply Keeps.setNi | split

theorem keeps_State_flushDomain {r : State} {s : State} {d : Nat} (h : Keeps r s) : Keeps r (State.flushDomain s d) := by
  unfold State.flushDomain
  with_reducible repeat' first | intro _ | exact h | assumption | apply keeps_State_oncePer | apply keeps_State_bump | apply keeps_State_pb | apply keeps_State_raise | apply Keeps.foldl_from | split

theorem keeps_State_poisonWires {r : State} {s : State} {t : Nat} {p : Nat} (h : Keeps r s) : Keeps r (State.poisonWires s t p) := by
  unfold State.poisonWires
  with_reducible repeat' first | exact h | apply Keeps.setRouter | (refine Keeps.upd ?_ rfl; first | exact h | apply Keeps.setRouter)

theorem keeps_State_puLeaveAll {r : State} {s : State} {i : Nat} {rs : List NiReq} (h : Keeps r s) : Keeps r (State.puLeaveAll s i rs) := by
  unfold State.puLeaveAll
  with_reducible repeat' first | intro _ | exact h | assumption | apply keeps_State_puDown | apply Keeps.foldl_from | split

theorem keeps_State_puLeaveS {r : State} {s : State} {i : Nat} {as : List SResp} (h : Keeps r s) : Keeps r (State.puLeaveS s i as) := by
  unfold State.puLeaveS
  with_reducible repeat' first | intro _ | exact h | assumption | apply keeps_State_puLeave | apply Keeps.foldl_from

theorem keeps_State_losePres {r : State} {s : State} {t : Nat} {p : Nat} {xs : List Pres} (h : Keeps r s) : Keeps r (State.losePres s t p xs) := by
  unfold State.losePres
  with_reducible repeat' first | intro _ | exact h | assumption | apply keeps_State_niAnswer | apply keeps_State_drop | apply Keeps.foldl_from | split

theorem keeps_State_epReset {r : State} {s : State} {t : Nat} {p : Nat} (h : Keeps r s) : Keeps r (State.epReset s t p) := by
  unfold State.epReset
  with_reducible repeat' first | exact h | assumption | apply keeps_State_flushDomain | apply keeps_State_puLeaveS | apply keeps_State_puLeaveAll | apply keeps_State_poisonWires | apply Keeps.setNi | apply keeps_State_drop | apply keeps_State_losePres | apply keeps_State_rxAway | split | (dsimp only)

theorem keeps_execEndpointResetRelease {r : State} {t : Tile} {p : LPort} {s : State} (h : Keeps r s) : KeepsR r (execEndpointResetRelease t p s) := by
  unfold execEndpointResetRelease
  dsimp only [KeepsR]
  with_reducible repeat' first | exact h | apply Keeps.setNi

theorem keeps_State_reconnectEp {r : State} {s : State} {t : Nat} {p : Nat} (h : Keeps r s) : Keeps r (State.reconnectEp s t p) := by
  unfold State.reconnectEp
  with_reducible repeat' first | exact h | apply Keeps.setNi | apply Keeps.ite

theorem keeps_State_nowDisabled {r : State} {s : State} {t : Nat} {p : Nat} (h : Keeps r s) : Keeps r (State.nowDisabled s t p) := by
  unfold State.nowDisabled
  with_reducible repeat' first | exact h | apply keeps_State_p | apply keeps_State_raiseTile | apply Keeps.setNi

theorem keeps_State_niDisable {r : State} {s : State} {t : Nat} {p : Nat} {force : Bool} (h : Keeps r s) : Keeps r (State.niDisable s t p force) := by
  unfold State.niDisable
  with_reducible repeat' first | exact h | apply keeps_State_pb | apply Keeps.setNi | apply keeps_State_p | apply Keeps.ite

theorem keeps_State_niEnable {r : State} {s : State} {t : Nat} {p : Nat} (h : Keeps r s) : Keeps r (State.niEnable s t p) := by
  unfold State.niEnable
  with_reducible repeat' first | exact h | apply keeps_State_pb | apply Keeps.setNi | apply Keeps.ite

theorem keeps_execPortDisable {r : State} {t : Tile} {p : LPort} {force : Bool} {s : State} (h : Keeps r s) : KeepsR r (execPortDisable t p force s) := by
  unfold execPortDisable
  dsimp only [KeepsR]
  with_reducible repeat' first | exact h | apply keeps_State_niDisable

theorem keeps_execPortEnable {r : State} {t : Tile} {p : LPort} {s : State} (h : Keeps r s) : KeepsR r (execPortEnable t p s) := by
  unfold execPortEnable
  dsimp only [KeepsR]
  with_reducible repeat' first | exact h | apply keeps_State_niEnable

theorem keeps_execDisableComplete {r : State} {t : Tile} {p : LPort} {s : State} (h : Keeps r s) : KeepsR r (execDisableComplete t p s) := by
  unfold execDisableComplete
  dsimp only [KeepsR]
  with_reducible repeat' first | exact h | apply keeps_State_nowDisabled | apply Keeps.ite

theorem keeps_State_abortPres {r : State} {s : State} {t : Nat} {p : Nat} {xs : List Pres} (h : Keeps r s) : Keeps r (State.abortPres s t p xs) := by
  unfold State.abortPres
  with_reducible repeat' first | intro _ | exact h | assumption | apply keeps_State_niAnswer | apply Keeps.foldl_from | split

theorem keeps_State_niAbort {r : State} {s : State} {t : Nat} {p : Nat} (h : Keeps r s) : Keeps r (State.niAbort s t p) := by
  unfold State.niAbort
  with_reducible repeat' first | intro _ | exact h | assumption | apply keeps_State_puLeaveAll | apply keeps_State_poisonWires | apply keeps_State_puDown | apply Keeps.setNi | apply keeps_State_drop | apply keeps_State_rxAway | apply keeps_State_abortPres | apply Keeps.foldl_from | split

theorem keeps_State_abortTimeout {r : State} {s : State} {t : Nat} {p : Nat} (h : Keeps r s) : Keeps r (State.abortTimeout s t p) := by
  unfold State.abortTimeout
  with_reducible repeat' first | exact h | apply keeps_State_until | apply keeps_State_nowDisabled | apply keeps_State_niAbort | apply Keeps.ite

theorem keeps_execSlotBankSwitch {r : State} {s : State} (h : Keeps r s) : KeepsR r (execSlotBankSwitch s) := by
  unfold execSlotBankSwitch
  dsimp only [KeepsR]
  with_reducible repeat' first | intro _ | exact h | assumption | apply Keeps.setNi | apply keeps_State_until | apply Keeps.foldl_from | split

theorem keeps_State_place {r : State} {s : State} {t : Nat} {pl : Nat} {port : Nat} {k : Pkt} (h : Keeps r s) : Keeps r (State.place s t pl port k) := by
  unfold State.place
  with_reducible repeat' first | exact h | apply Keeps.setRouter | apply keeps_State_flintAt | apply Keeps.ite

theorem keeps_State_settleTok {r : State} {s : State} {t : Nat} {p : Nat} (h : Keeps r s) : Keeps r (State.settleTok s t p) := by
  unfold State.settleTok
  with_reducible repeat' first | exact h | apply Keeps.setNi

theorem keeps_State_account {r : State} {s : State} {t : Nat} {p : Nat} {idx : Nat} {r0 : NiReq} {tag : BitVec 12} (h : Keeps r s) : Keeps r (State.account s t p idx r0 tag) := by
  unfold State.account
  with_reducible repeat' first | exact h | apply keeps_State_settleTok | apply Keeps.setNi | apply Keeps.ite

theorem keeps_State_injectReq {r : State} {s : State} {t : Nat} {p : Nat} {cls : BitVec 2} {tag : BitVec 12} (h : Keeps r s) : Keeps r (State.injectReq s t p cls tag) := by
  unfold State.injectReq
  with_reducible repeat' first | exact h | apply keeps_State_account | apply keeps_State_place | (refine Keeps.upd ?_ rfl; first | exact h | apply keeps_State_account | apply keeps_State_place) | split

theorem keeps_State_injectResp {r : State} {s : State} {t : Nat} {p : Nat} {cls : BitVec 2} (h : Keeps r s) : Keeps r (State.injectResp s t p cls) := by
  unfold State.injectResp
  with_reducible repeat' first | exact h | apply keeps_State_place | apply Keeps.setNi | (refine Keeps.upd ?_ rfl; first | exact h | apply keeps_State_place | apply Keeps.setNi) | split

theorem keeps_State_injectAgent {r : State} {s : State} {t : Nat} {cls : BitVec 2} (h : Keeps r s) : Keeps r (State.injectAgent s t cls) := by
  unfold State.injectAgent
  with_reducible repeat' first | exact h | apply keeps_State_place | apply Keeps.setAgent | split

theorem keeps_State_injectSink {r : State} {s : State} {t : Nat} {cls : BitVec 2} (h : Keeps r s) : Keeps r (State.injectSink s t cls) := by
  unfold State.injectSink
  with_reducible repeat' first | exact h | apply keeps_State_place | apply Keeps.setAgent | split

theorem keeps_State_injectTrace {r : State} {s : State} {t : Nat} {cls : BitVec 2} {tag : BitVec 12} (h : Keeps r s) : Keeps r (State.injectTrace s t cls tag) := by
  unfold State.injectTrace
  with_reducible repeat' first | exact h | apply keeps_State_nextFree | apply keeps_State_place | apply Keeps.setAgent | split

theorem keeps_State_injectCfg {r : State} {s : State} {cls : BitVec 2} (h : Keeps r s) : Keeps r (State.injectCfg s cls) := by
  unfold State.injectCfg
  with_reducible repeat' first | exact h | assumption | apply keeps_State_place | (refine Keeps.upd ?_ rfl; first | exact h | assumption | apply keeps_State_place) | split | (dsimp only)

theorem keeps_State_injectEvc {r : State} {s : State} {cls : BitVec 2} (h : Keeps r s) : Keeps r (State.injectEvc s cls) := by
  unfold State.injectEvc
  with_reducible repeat' first | exact h | assumption | apply keeps_State_place | (refine Keeps.upd ?_ rfl; first | exact h | assumption | apply keeps_State_place) | split | (dsimp only)

theorem keeps_State_setSpFrame {r : State} {s : State} {port : Nat} {x : Nat × Nat × Nat} (h : Keeps r s) : Keeps r (State.setSpFrame s port x) := by
  unfold State.setSpFrame
  exact h.tm _ (fun c => { c with spFrame := wf_tput (d := fun _ => (0, 0, 0)) _ _ c.spFrame })

theorem keeps_State_injectTm {r : State} {s : State} {port : Nat} {cls : BitVec 2} (h : Keeps r s) : Keeps r (State.injectTm s port cls) := by
  unfold State.injectTm
  with_reducible repeat' first | exact h | apply keeps_State_setSpFrame | apply keeps_State_place | apply keeps_State_setTmOut | apply Keeps.ite | (refine Keeps.upd ?_ rfl; first | exact h | apply keeps_State_setSpFrame | apply keeps_State_place | apply keeps_State_setTmOut | apply Keeps.ite) | split

theorem keeps_State_injectHeader {r : State} {s : State} {src : InjSrc} {cls : BitVec 2} {tag : BitVec 12} (h : Keeps r s) : Keeps r (State.injectHeader s src cls tag) := by
  unfold State.injectHeader
  with_reducible repeat' first | exact h | apply keeps_State_injectReq | apply keeps_State_injectResp | apply keeps_State_injectAgent | apply keeps_State_injectSink | apply keeps_State_injectCfg | apply keeps_State_injectEvc | apply keeps_State_injectTm | apply keeps_State_injectTrace | split

theorem keeps_State_setSt {r : State} {s : State} {t : Nat} {st : Nat} (h : Keeps r s) : Keeps r (State.setSt s t st) := by
  unfold State.setSt
  with_reducible repeat' first | exact h | apply keeps_State_p

theorem keeps_State_flushHeld {r : State} {s : State} {t : Nat} (h : Keeps r s) : Keeps r (State.flushHeld s t) := by
  unfold State.flushHeld
  with_reducible repeat' first | intro _ | exact h | assumption | apply Keeps.setAgent | apply keeps_State_agentSend | apply Keeps.foldl_from

theorem keeps_State_sendHeld {r : State} {s : State} {t : Nat} (h : Keeps r s) : Keeps r (State.sendHeld s t) := by
  unfold State.sendHeld
  with_reducible repeat' first | intro _ | exact h | assumption | apply keeps_State_flushHeld | apply Keeps.foldl_from | split

theorem keeps_State_settleTile {r : State} {s : State} {t : Nat} (h : Keeps r s) : Keeps r (State.settleTile s t) := by
  unfold State.settleTile
  with_reducible repeat' first | exact h | apply keeps_State_settle

theorem keeps_execTileIdleEntry {r : State} {t : Tile} {s : State} (h : Keeps r s) : KeepsR r (execTileIdleEntry t s) := by
  unfold execTileIdleEntry
  dsimp only [KeepsR]
  with_reducible repeat' first | exact h | apply Keeps.setAgent | apply keeps_State_setSt | apply Keeps.ite

theorem keeps_execTileSleepEntry {r : State} {t : Tile} {s : State} (h : Keeps r s) : KeepsR r (execTileSleepEntry t s) := by
  unfold execTileSleepEntry
  dsimp only [KeepsR]
  with_reducible repeat' first | exact h | apply keeps_State_until | apply keeps_State_setSt | apply keeps_State_wake | apply Keeps.ite

theorem keeps_State_drainXin {r : State} {s : State} {t : Nat} (h : Keeps r s) : Keeps r (State.drainXin s t) := by
  unfold State.drainXin
  with_reducible repeat' first | intro _ | exact h | assumption | apply Keeps.setNi | apply Keeps.foldl_from

theorem keeps_State_setSlotBanks {r : State} {s : State} {t : Nat} {b : Bool} (h : Keeps r s) : Keeps r (State.setSlotBanks s t b) := by
  unfold State.setSlotBanks
  with_reducible repeat' first | intro _ | exact h | assumption | apply Keeps.setNi | apply Keeps.foldl_from

theorem keeps_execTileWakeDone {r : State} {t : Tile} {s : State} (h : Keeps r s) : KeepsR r (execTileWakeDone t s) := by
  unfold execTileWakeDone
  dsimp only [KeepsR]
  with_reducible repeat' first | exact h | apply keeps_State_bump | apply keeps_State_drainXin | apply Keeps.setAgent | apply keeps_State_setSt | apply keeps_State_settleTile | apply keeps_State_sendHeld | apply Keeps.ite

theorem keeps_State_minstWrite {r : State} {s : State} {t : Nat} {v : Nat} (h : Keeps r s) : Keeps r (State.minstWrite s t v) := by
  unfold State.minstWrite
  with_reducible repeat' first | exact h | apply keeps_State_p | apply Keeps.setAgent | apply keeps_State_wake | apply Keeps.ite

theorem keeps_execMinstWrite {r : State} {m : Master} {t : Tile} {v : BitVec 2} {s : State} (h : Keeps r s) : KeepsR r (execMinstWrite m t v s) := by
  unfold execMinstWrite
  dsimp only [KeepsR]
  with_reducible repeat' first | exact h | apply keeps_State_minstWrite | apply Keeps.ite

theorem keeps_State_eachLink {r : State} {s : State} {t : Nat} {d : Nat} {f : State → Nat → Nat → Nat → State} (hf : ∀ (r : State) (a0 : State) (a1 : Nat) (a2 : Nat) (a3 : Nat), Keeps r a0 → Keeps r (f a0 a1 a2 a3)) (h : Keeps r s) : Keeps r (State.eachLink s t d f) := by
  unfold State.eachLink
  with_reducible repeat' first | intro _ | exact h | assumption | apply hf | apply Keeps.foldl_from

theorem keeps_State_linksOff {r : State} {s : State} {t : Nat} (h : Keeps r s) : Keeps r (State.linksOff s t) := by
  unfold State.linksOff
  with_reducible repeat' first | intro _ | exact h | assumption | apply keeps_State_eachLink | apply keeps_State_setLinkState | apply Keeps.foldl_from

theorem keeps_State_linksOn {r : State} {s : State} {t : Nat} (h : Keeps r s) : Keeps r (State.linksOn s t) := by
  unfold State.linksOn
  with_reducible repeat' first | intro _ | exact h | assumption | apply keeps_State_eachLink | apply keeps_State_startTraining | apply Keeps.foldl_from | apply Keeps.ite | (refine Keeps.upd ?_ rfl; first | exact h | assumption | apply keeps_State_eachLink | apply keeps_State_startTraining | apply Keeps.foldl_from | apply Keeps.ite) | split | (dsimp only)

theorem keeps_State_pmDone {r : State} {s : State} (h : Keeps r s) : Keeps r (State.pmDone s) := by
  unfold State.pmDone
  with_reducible repeat' first | exact h | apply keeps_State_wakeMgmt | apply keeps_State_raise

theorem keeps_State_pmReject {r : State} {s : State} {t : Nat} (h : Keeps r s) : Keeps r (State.pmReject s t) := by
  unfold State.pmReject
  with_reducible repeat' first | exact h | apply keeps_State_raise | apply keeps_State_pb

theorem keeps_State_setFences {r : State} {s : State} {t : Nat} {b : Bool} (h : Keeps r s) : Keeps r (State.setFences s t b) := by
  unfold State.setFences
  with_reducible repeat' first | intro _ | exact h | assumption | apply keeps_State_putBitAt | apply Keeps.foldl_from

theorem keeps_State_settleAround {r : State} {s : State} {t : Nat} (h : Keeps r s) : Keeps r (State.settleAround s t) := by
  unfold State.settleAround
  with_reducible repeat' first | intro _ | exact h | assumption | apply keeps_State_settleTile | apply Keeps.foldl_from

theorem keeps_State_cmdFence {r : State} {s : State} {t : Nat} (h : Keeps r s) : Keeps r (State.cmdFence s t) := by
  unfold State.cmdFence
  with_reducible repeat' first | exact h | apply keeps_State_bump | apply keeps_State_setSt | apply keeps_State_setFences | apply keeps_State_settleAround | apply keeps_State_settleTile | apply keeps_State_drainXin | apply Keeps.setAgent | apply keeps_State_pmReject | apply Keeps.ite

theorem keeps_State_cmdOff {r : State} {s : State} {t : Nat} (h : Keeps r s) : Keeps r (State.cmdOff s t) := by
  unfold State.cmdOff
  with_reducible repeat' first | exact h | apply keeps_State_pmReject | apply Keeps.ite | (refine Keeps.upd ?_ rfl; first | exact h | apply keeps_State_pmReject | apply Keeps.ite)

theorem keeps_State_cmdOn {r : State} {s : State} {t : Nat} (h : Keeps r s) : Keeps r (State.cmdOn s t) := by
  unfold State.cmdOn
  with_reducible repeat' first | exact h | apply keeps_State_setSt | apply keeps_State_pmReject | apply Keeps.ite

theorem keeps_State_setInj {r : State} {s : State} {t : Nat} {b : Bool} (h : Keeps r s) : Keeps r (State.setInj s t b) := by
  unfold State.setInj
  with_reducible repeat' first | exact h | apply keeps_State_pb

theorem keeps_State_cmdUnfence {r : State} {s : State} {t : Nat} (h : Keeps r s) : Keeps r (State.cmdUnfence s t) := by
  unfold State.cmdUnfence
  with_reducible repeat' first | exact h | apply keeps_State_linksOn | apply keeps_State_setSt | apply keeps_State_setSlotBanks | apply keeps_State_setInj | apply keeps_State_setFences | apply keeps_State_pmDone | apply keeps_State_settleTile | apply keeps_State_sendHeld | apply keeps_State_pmReject | apply Keeps.ite

theorem keeps_State_cmdWake {r : State} {s : State} {t : Nat} (h : Keeps r s) : Keeps r (State.cmdWake s t) := by
  unfold State.cmdWake
  with_reducible repeat' first | exact h | apply keeps_State_wake | apply keeps_State_pmReject | apply Keeps.ite

theorem keeps_State_pmCmd {r : State} {s : State} {t : Nat} {c : Nat} (h : Keeps r s) : Keeps r (State.pmCmd s t c) := by
  unfold State.pmCmd
  with_reducible repeat' first | exact h | apply keeps_State_cmdFence | apply keeps_State_cmdOff | apply keeps_State_cmdOn | apply keeps_State_cmdUnfence | apply keeps_State_cmdWake | split

theorem keeps_execPmFence {r : State} {m : Master} {t : Tile} {s : State} (h : Keeps r s) : KeepsR r (execPmFence m t s) := by
  unfold execPmFence
  dsimp only [KeepsR]
  with_reducible repeat' first | exact h | apply keeps_State_cmdFence | apply Keeps.ite

theorem keeps_execPmOff {r : State} {m : Master} {t : Tile} {s : State} (h : Keeps r s) : KeepsR r (execPmOff m t s) := by
  unfold execPmOff
  dsimp only [KeepsR]
  with_reducible repeat' first | exact h | apply keeps_State_cmdOff | apply Keeps.ite

theorem keeps_execPmOn {r : State} {m : Master} {t : Tile} {s : State} (h : Keeps r s) : KeepsR r (execPmOn m t s) := by
  unfold execPmOn
  dsimp only [KeepsR]
  with_reducible repeat' first | exact h | apply keeps_State_cmdOn | apply Keeps.ite

theorem keeps_execPmUnfence {r : State} {m : Master} {t : Tile} {s : State} (h : Keeps r s) : KeepsR r (execPmUnfence m t s) := by
  unfold execPmUnfence
  dsimp only [KeepsR]
  with_reducible repeat' first | exact h | apply keeps_State_cmdUnfence | apply Keeps.ite

theorem keeps_execPmWake {r : State} {m : Master} {t : Tile} {s : State} (h : Keeps r s) : KeepsR r (execPmWake m t s) := by
  unfold execPmWake
  dsimp only [KeepsR]
  with_reducible repeat' first | exact h | apply keeps_State_cmdWake | apply Keeps.ite

theorem keeps_execFencingComplete {r : State} {t : Tile} {s : State} (h : Keeps r s) : KeepsR r (execFencingComplete t s) := by
  unfold execFencingComplete
  dsimp only [KeepsR]
  with_reducible repeat' first | exact h | apply keeps_State_pmDone | apply keeps_State_setSt | apply Keeps.ite

theorem keeps_State_resetTile {r : State} {s : State} {t : Nat} (h : Keeps r s) : Keeps r (State.resetTile s t) := by
  unfold State.resetTile
  exact ⟨h.pending, h.build, fun c => let k := h.canon c
    { k with
      regs := wf_filter _ k.regs
      routers := wf_filter _ k.routers
      nis := by exact wf_mapKey (e := Ni.reset) (fun j (n : Ni) => if j / 3 = t then n.pins else n) k.nis
      links := wf_filter _ k.links
      agents := wf_tput (d := fun _ => Agent.reset) _ _ k.agents }⟩

theorem keeps_execPowerOffComplete {r : State} {t : Tile} {s : State} (h : Keeps r s) : KeepsR r (execPowerOffComplete t s) := by
  unfold execPowerOffComplete
  dsimp only [KeepsR]
  with_reducible repeat' first | exact h | apply keeps_State_pmDone | apply keeps_State_linksOff | apply keeps_State_setSt | apply keeps_State_resetTile | apply Keeps.ite | (refine Keeps.upd ?_ rfl; first | exact h | apply keeps_State_pmDone | apply keeps_State_linksOff | apply keeps_State_setSt | apply keeps_State_resetTile | apply Keeps.ite)

theorem keeps_execPowerOnComplete {r : State} {t : Tile} {s : State} (h : Keeps r s) : KeepsR r (execPowerOnComplete t s) := by
  unfold execPowerOnComplete
  dsimp only [KeepsR]
  with_reducible repeat' first | exact h | apply keeps_State_pmDone | apply keeps_State_linksOn | apply keeps_State_linksOff | apply keeps_State_setSt | apply keeps_State_setSlotBanks | apply keeps_State_setInj | apply keeps_State_resetTile | apply Keeps.ite

theorem keeps_execGovernorWindow {r : State} {s : State} (h : Keeps r s) : KeepsR r (execGovernorWindow s) := by
  unfold execGovernorWindow
  dsimp only [KeepsR]
  with_reducible repeat' first | exact h | apply keeps_State_until | apply keeps_State_p | apply keeps_State_sat | apply keeps_State_raise | apply Keeps.ite | (refine Keeps.upd ?_ rfl; first | exact h | apply keeps_State_until | apply keeps_State_p | apply keeps_State_sat | apply keeps_State_raise | apply Keeps.ite)

theorem keeps_execCtRoundTripEnd {r : State} {x : CtId} {s : State} (h : Keeps r s) : KeepsR r (execCtRoundTripEnd x s) := by
  unfold execCtRoundTripEnd
  dsimp only [KeepsR]
  with_reducible repeat' first | exact h | apply keeps_State_ctTripEnd | apply Keeps.ite | (refine Keeps.upd ?_ rfl; first | exact h | apply keeps_State_ctTripEnd | apply Keeps.ite)

theorem keeps_State_tailSent {r : State} {s : State} {t : Nat} {p : Nat} {vc : Nat} (h : Keeps r s) : Keeps r (State.tailSent s t p vc) := by
  unfold State.tailSent
  with_reducible repeat' first | intro _ | exact h | assumption | apply Keeps.setNi | apply keeps_State_puDown | apply Keeps.foldl_from | apply Keeps.ite | apply Keeps.ite_fst | (refine Keeps.upd ?_ rfl; first | exact h | assumption | apply Keeps.setNi | apply keeps_State_puDown | apply Keeps.foldl_from | apply Keeps.ite | apply Keeps.ite_fst) | split | (dsimp only)

theorem keeps_State_noteTail {r : State} {s : State} {t : Nat} {pl : Nat} {port : Nat} {f : RawFlit} (h : Keeps r s) : Keeps r (State.noteTail s t pl port f) := by
  unfold State.noteTail
  with_reducible repeat' first | intro _ | exact h | assumption | apply keeps_State_tailSent | apply Keeps.foldl_from | apply Keeps.ite | apply Keeps.ite_fst | (refine Keeps.upd ?_ rfl; first | exact h | assumption | apply keeps_State_tailSent | apply Keeps.foldl_from | apply Keeps.ite | apply Keeps.ite_fst) | split | (dsimp only)

theorem keeps_State_popWire {r : State} {s : State} {t : Nat} {pl : Nat} {port : Nat} {vc : Option Nat} (h : Keeps r s) : Keeps r (State.popWire s t pl port vc) := by
  unfold State.popWire
  with_reducible repeat' first | exact h | assumption | apply Keeps.setRouter | apply keeps_State_noteTail | split | (dsimp only)

theorem keeps_State_flitCode {r : State} {s : State} {t : Nat} {pl : Nat} {port : Nat} {f : RawFlit} {isHdr : Bool} {poison : Bool} (h : Keeps r s) : Keeps r (State.flitCode s t pl port f isHdr poison).1 := by
  unfold State.flitCode
  with_reducible repeat' first | exact h | apply keeps_State_laneErrors | apply keeps_State_sat | apply keeps_State_routerEvent | split
theorem keeps_State_flitCode_eq {r : State} {s : State} {t : Nat} {pl : Nat} {port : Nat} {f : RawFlit} {isHdr : Bool} {poison : Bool}  {out : State} {b} (h : Keeps r s) (eq1 : State.flitCode s t pl port f isHdr poison = (out, b)) : Keeps r out := by
  have k := keeps_State_flitCode (s := s) (t := t) (pl := pl) (port := port) (f := f) (isHdr := isHdr) (poison := poison)  (h := h)
  rw [eq1] at k
  exact k

theorem keeps_State_codeOnly {r : State} {s : State} {t : Nat} {pl : Nat} {port : Nat} {f : RawFlit} {poison : Bool} (h : Keeps r s) : Keeps r (State.codeOnly s t pl port f poison) := by
  unfold State.codeOnly
  with_reducible repeat' first | exact h | apply keeps_State_flitCode | (refine keeps_State_flitCode_eq ?_ (by assumption)) | split

theorem keeps_State_notePower {r : State} {s : State} {t : Nat} {k : Pkt} (h : Keeps r s) : Keeps r (State.notePower s t k) := by
  unfold State.notePower
  with_reducible repeat' first | exact h | apply keeps_State_forgetPower | apply Keeps.setAgent | apply Keeps.ite

theorem keeps_State_storeFlit {r : State} {s : State} {t : Nat} {pl : Nat} {port : Nat} {f : RawFlit} {sb : BitVec 8} (h : Keeps r s) : Keeps r (State.storeFlit s t pl port f sb) := by
  unfold State.storeFlit
  with_reducible repeat' first | exact h | apply keeps_State_codeOnly | apply Keeps.setRouter | apply keeps_State_flitCode | (refine keeps_State_flitCode_eq ?_ (by assumption)) | apply keeps_State_rcount | apply keeps_State_notePower | apply keeps_State_settle | apply Keeps.ite

theorem keeps_State_flitArrival {r : State} {s : State} {t : Nat} {pl : Nat} {port : Nat} {f : RawFlit} (h : Keeps r s) : Keeps r (State.flitArrival s t pl port f) := by
  unfold State.flitArrival
  with_reducible repeat' first | exact h | apply keeps_State_popWire | apply keeps_State_wake | apply keeps_State_takeDown | apply keeps_State_laneErrors | apply keeps_State_sat | apply keeps_State_storeFlit | split

theorem keeps_State_popCredit {r : State} {s : State} {t : Nat} {pl : Nat} {o : Nat} {v : Nat} (h : Keeps r s) : Keeps r (State.popCredit s t pl o v) := by
  unfold State.popCredit
  with_reducible repeat' first | exact h | assumption | apply Keeps.setRouter | split | (dsimp only)

theorem keeps_State_creditReturn {r : State} {s : State} {t : Nat} {pl : Nat} {o : Nat} {crv : Bool} {crvc : BitVec 3} {crp : Bool} (h : Keeps r s) : Keeps r (State.creditReturn s t pl o crv crvc crp) := by
  unfold State.creditReturn
  with_reducible repeat' first | exact h | apply keeps_State_popCredit | apply keeps_State_takeDown | apply keeps_State_settle | apply Keeps.setRouter | apply Keeps.ite

theorem keeps_State_localCredit {r : State} {s : State} {t : Nat} {pl : Nat} {port : Nat} {crv : Bool} {crvc : BitVec 3} {crp : Bool} (h : Keeps r s) : Keeps r (State.localCredit s t pl port crv crvc crp) := by
  unfold State.localCredit
  with_reducible repeat' first | exact h | assumption | apply Keeps.setRouter | apply keeps_State_takeDown | split | (dsimp only)

theorem keeps_execCreditReturn {r : State} {t : Tile} {pl : Plane} {side : CreditSide} {crv : Bool} {crvc : BitVec 3} {crp : Bool} {s : State} (h : Keeps r s) : KeepsR r (execCreditReturn t pl side crv crvc crp s) := by
  unfold execCreditReturn
  dsimp only [KeepsR]
  with_reducible repeat' first | exact h | apply keeps_State_creditReturn | apply keeps_State_localCredit | split

theorem keeps_execFlint {r : State} {t : Tile} {pl : Plane} {port : RPort} {dest : BitVec 8} {str : Bool} {flp : Bool} {s : State} (h : Keeps r s) : KeepsR r (execFlint t pl port dest str flp s) := by
  unfold execFlint
  dsimp only [KeepsR]
  with_reducible repeat' first | exact h | apply keeps_State_flintAt | apply Keeps.ite

theorem keeps_State_agentCrsp {r : State} {s : State} {t : Nat} {k : Pkt} {a : AgAns} (h : Keeps r s) : Keeps r (State.agentCrsp s t k a) := by
  unfold State.agentCrsp
  with_reducible repeat' first | exact h | apply keeps_State_forgetPower | apply keeps_State_agentAnswer

theorem keeps_State_sendCombined {r : State} {s : State} {t : Nat} {x : Spread} (h : Keeps r s) : Keeps r (State.sendCombined s t x) := by
  unfold State.sendCombined
  with_reducible repeat' first | exact h | apply keeps_State_forgetPower | apply keeps_State_agentAnswer

theorem keeps_State_endSpreads {r : State} {s : State} {t : Nat} (h : Keeps r s) : Keeps r (State.endSpreads s t) := by
  unfold State.endSpreads
  with_reducible repeat' first | intro _ | exact h | assumption | apply keeps_State_sendCombined | apply Keeps.setAgent | apply Keeps.foldl_from

theorem keeps_State_agentOwn {r : State} {s0 : State} {t : Nat} {k : Pkt} {a : AgAns} (h : Keeps r s0) : Keeps r (State.agentOwn s0 t k a) := by
  unfold State.agentOwn
  with_reducible repeat' first | exact h | apply Keeps.setAgent | apply keeps_State_agentCrsp | apply keeps_State_endSpreads | apply Keeps.ite

theorem keeps_State_agentStart {r : State} {s : State} {t : Nat} {k : Pkt} {a : Option AgAns} (h : Keeps r s) : Keeps r (State.agentStart s t k a) := by
  unfold State.agentStart
  with_reducible repeat' first | intro _ | exact h | assumption | apply keeps_State_bump | apply Keeps.setAgent | apply keeps_State_agentSend | apply keeps_State_agentOwn | apply Keeps.foldl_from | split

theorem keeps_State_agentRun {r : State} {s : State} {t : Nat} {mine : Pkt → Bool} {act : State → Pkt → State × Option AgAns} (hact : ∀ (r : State) (a0 : State) (a1 : Pkt), Keeps r a0 → Keeps r (act a0 a1).1) (h : Keeps r s) : Keeps r (State.agentRun s t mine act) := by
  unfold State.agentRun
  with_reducible repeat' first | exact h | apply hact | apply Keeps.setAgent | apply keeps_State_agentStart | split

theorem keeps_State_relayAnswer {r : State} {s : State} {t : Nat} {tag : BitVec 12} {src : Nat} {r0 : CrspBody} (h : Keeps r s) : Keeps r (State.relayAnswer s t tag src r0) := by
  unfold State.relayAnswer
  with_reducible repeat' first | exact h | assumption | apply Keeps.setAgent | apply keeps_State_endSpreads | apply keeps_State_pb | split | (dsimp only)

theorem keeps_execRelayAnswer {r : State} {t : Tile} {tag : BitVec 12} {src : Tile} {r0 : CrspBody} {s : State} (h : Keeps r s) : KeepsR r (execRelayAnswer t tag src r0 s) := by
  unfold execRelayAnswer
  dsimp only [KeepsR]
  with_reducible repeat' first | exact h | apply keeps_State_relayAnswer

theorem keeps_execRelayTimeout {r : State} {t : Tile} {tag : BitVec 12} {src : Tile} {s : State} (h : Keeps r s) : KeepsR r (execRelayTimeout t tag src s) := by
  unfold execRelayTimeout
  dsimp only [KeepsR]
  with_reducible repeat' first | exact h | apply keeps_State_pb | apply keeps_State_endSpreads | apply Keeps.setAgent | apply Keeps.ite

theorem keeps_State_setPtr {r : State} {s : State} {o : Nat} {v : Nat} (h : Keeps r s) : Keeps r (State.setPtr s o v) := by
  unfold State.setPtr
  with_reducible repeat' first | exact h | apply keeps_State_p

theorem keeps_State_ringError {r : State} {s : State} {r0 : Nat} (h : Keeps r s) : Keeps r (State.ringError s r0) := by
  unfold State.ringError
  with_reducible repeat' first | exact h | apply keeps_State_raise | apply keeps_State_pb

theorem keeps_State_slotWrite {r : State} {s : State} {m : Master} {r0 : Nat} {slot : Nat} {w : BitVec 32} (h : Keeps r s) : Keeps r (State.slotWrite s m r0 slot w) := by
  unfold State.slotWrite
  with_reducible repeat' first | exact h | apply Keeps.wr | apply Keeps.ite

theorem keeps_execRingSlotWrite {r : State} {m : Master} {r0 : RingId} {slot : BitVec 12} {w : BitVec 32} {s : State} (h : Keeps r s) : KeepsR r (execRingSlotWrite m r0 slot w s) := by
  unfold execRingSlotWrite
  dsimp only [KeepsR]
  with_reducible repeat' first | exact h | apply keeps_State_slotWrite

theorem keeps_State_ringtailWrite {r : State} {s : State} {m : Master} {r0 : Nat} {v : Nat} (h : Keeps r s) : Keeps r (State.ringtailWrite s m r0 v) := by
  unfold State.ringtailWrite
  with_reducible repeat' first | exact h | apply keeps_State_ringError | apply keeps_State_setPtr | apply Keeps.ite

theorem keeps_execRingtailWrite {r : State} {m : Master} {r0 : RingId} {v : BitVec 16} {s : State} (h : Keeps r s) : KeepsR r (execRingtailWrite m r0 v s) := by
  unfold execRingtailWrite
  dsimp only [KeepsR]
  with_reducible repeat' first | exact h | apply keeps_State_ringtailWrite

theorem keeps_State_cplheadWrite {r : State} {s : State} {m : Master} {r0 : Nat} {v : Nat} (h : Keeps r s) : Keeps r (State.cplheadWrite s m r0 v) := by
  unfold State.cplheadWrite
  with_reducible repeat' first | exact h | apply keeps_State_setPtr | apply keeps_State_ringError | apply Keeps.ite

theorem keeps_execCplheadWrite {r : State} {m : Master} {r0 : RingId} {v : BitVec 16} {s : State} (h : Keeps r s) : KeepsR r (execCplheadWrite m r0 v s) := by
  unfold execCplheadWrite
  dsimp only [KeepsR]
  with_reducible repeat' first | exact h | apply keeps_State_cplheadWrite

theorem keeps_State_setSaved {r : State} {s : State} {r0 : Nat} {j : Option Job} (h : Keeps r s) : Keeps r (State.setSaved s r0 j) := by
  unfold State.setSaved
  exact h.seq _ (fun c => { c with saved := wf_tput (d := fun _ => none) _ _ c.saved })

theorem keeps_State_record {r : State} {s : State} {r0 : Nat} {c : CtxId} {jobid : Nat} {status : Nat} {cause : Nat} {pc : Nat} {result : W} {evt : Bool} {insns : Nat} {tserr : Nat} {sref : Nat} (h : Keeps r s) : Keeps r (State.record s r0 c jobid status cause pc result evt insns tserr sref) := by
  unfold State.record
  with_reducible repeat' first | exact h | apply Keeps.wr | apply keeps_State_bump | apply keeps_State_setPtr | apply keeps_State_raise | apply Keeps.ite

theorem keeps_State_endRecord {r : State} {s : State} {c : CtxId} {j : Job} {status : Nat} {cause : Nat} {result : W} (h : Keeps r s) : Keeps r (State.endRecord s c j status cause result) := by
  unfold State.endRecord
  with_reducible repeat' first | exact h | apply keeps_State_record | apply keeps_State_setPtr

theorem keeps_State_endOps {r : State} {s : State} {of : OutCtl → Bool} (h : Keeps r s) : Keeps r (State.endOps s of) := by
  unfold State.endOps
  with_reducible repeat' first | intro _ | exact h | assumption | apply Keeps.foldl_from | apply Keeps.ite | apply Keeps.ite_fst | (refine Keeps.upd ?_ rfl; first | exact h | assumption | apply Keeps.foldl_from | apply Keeps.ite | apply Keeps.ite_fst) | split | (dsimp only)

theorem keeps_State_dropCtl {r : State} {s : State} {id : Nat} (h : Keeps r s) : Keeps r (State.dropCtl s id) := by
  unfold State.dropCtl
  with_reducible repeat' first | exact h | apply keeps_State_endOps | (refine Keeps.upd ?_ rfl; first | exact h | apply keeps_State_endOps)

theorem keeps_State_leaveCtl {r : State} {s : State} {id : Nat} (h : Keeps r s) : Keeps r (State.leaveCtl s id) := by
  unfold State.leaveCtl
  with_reducible repeat' first | intro _ | exact h | assumption | apply keeps_State_endOps | apply Keeps.foldl_from | apply Keeps.ite | apply Keeps.ite_fst | (refine Keeps.upd ?_ rfl; first | exact h | assumption | apply keeps_State_endOps | apply Keeps.foldl_from | apply Keeps.ite | apply Keeps.ite_fst) | split | (dsimp only)

theorem keeps_State_freeCtx {r : State} {s : State} {c : CtxId} (h : Keeps r s) : Keeps r (State.freeCtx s c) := by
  unfold State.freeCtx
  with_reducible repeat' first | exact h | apply keeps_State_setCtx | (refine Keeps.upd ?_ rfl; first | exact h | apply keeps_State_setCtx)

theorem keeps_State_setLeaseEnd {r : State} {s : State} {l : Nat} {e : Nat} (h : Keeps r s) : Keeps r (State.setLeaseEnd s l e) := by
  unfold State.setLeaseEnd
  exact h.seq _ (fun c => { c with leaseEnd := wf_tput (d := fun _ => 0) _ _ c.leaseEnd })

theorem keeps_State_setLease {r : State} {s : State} {l : Nat} {e : Nat} (h : Keeps r s) : Keeps r (State.setLease s l e) := by
  unfold State.setLease
  with_reducible repeat' first | exact h | apply keeps_State_pb | apply keeps_State_setLeaseEnd | (refine Keeps.upd ?_ rfl; exact h)

theorem keeps_State_takeLock {r : State} {s : State} {l : Nat} {ring : Nat} {lease : Nat} (h : Keeps r s) : Keeps r (State.takeLock s l ring lease) := by
  unfold State.takeLock
  with_reducible repeat' first | exact h | apply keeps_State_setLease | apply keeps_State_p

theorem keeps_State_breakSlot {r : State} {s : State} {l : Nat} {ev : Nat} (h : Keeps r s) : Keeps r (State.breakSlot s l ev) := by
  unfold State.breakSlot
  with_reducible repeat' first | exact h | apply keeps_State_raise | apply keeps_State_setLease | apply keeps_State_p

theorem keeps_State_putJob {r : State} {s : State} {c : CtxId} {j : Job} (h : Keeps r s) : Keeps r (State.putJob s c j) := by
  unfold State.putJob
  with_reducible repeat' first | exact h | apply keeps_State_setCtx

theorem keeps_State_grantLock {r : State} {s : State} {l : Nat} (h : Keeps r s) : Keeps r (State.grantLock s l) := by
  unfold State.grantLock
  with_reducible repeat' first | exact h | apply keeps_State_takeLock | apply keeps_State_putJob | (refine Keeps.upd ?_ rfl; first | exact h | apply keeps_State_takeLock | apply keeps_State_putJob) | split

theorem keeps_State_breakLocks {r : State} {s : State} {r0 : Nat} (h : Keeps r s) : Keeps r (State.breakLocks s r0) := by
  unfold State.breakLocks
  with_reducible repeat' first | intro _ | exact h | assumption | apply keeps_State_grantLock | apply keeps_State_breakSlot | apply Keeps.foldl_from

theorem keeps_State_trapWith {r : State} {s : State} {c : CtxId} {cause : Nat} {word : BitVec 32} {detail : Nat} (h : Keeps r s) : Keeps r (State.trapWith s c cause word detail) := by
  unfold State.trapWith
  with_reducible repeat' first | exact h | apply keeps_State_breakLocks | apply keeps_State_freeCtx | apply keeps_State_endRecord | split

theorem keeps_State_trap {r : State} {s : State} {c : CtxId} {cause : Nat} {detail : Nat} (h : Keeps r s) : Keeps r (State.trap s c cause detail) := by
  unfold State.trap
  with_reducible repeat' first | exact h | apply keeps_State_trapWith

theorem keeps_State_abortJob {r : State} {s : State} {c : CtxId} {tail : Nat} (h : Keeps r s) : Keeps r (State.abortJob s c tail) := by
  unfold State.abortJob
  with_reducible repeat' first | exact h | apply keeps_State_breakLocks | apply keeps_State_freeCtx | apply keeps_State_setPtr | apply keeps_State_endRecord | split

theorem keeps_State_mcheckJob {r : State} {s : State} {c : CtxId} {cause : Nat} {result : W} (h : Keeps r s) : Keeps r (State.mcheckJob s c cause result) := by
  unfold State.mcheckJob
  with_reducible repeat' first | exact h | apply keeps_State_breakLocks | apply keeps_State_freeCtx | apply keeps_State_endRecord | split

theorem keeps_State_boundary {r : State} {s : State} {c : CtxId} (h : Keeps r s) : Keeps r (State.boundary s c) := by
  unfold State.boundary
  with_reducible repeat' first | exact h | apply keeps_State_trap | apply keeps_State_abortJob | apply keeps_State_mcheckJob | split

theorem keeps_State_doneAt {r : State} {s : State} {c : CtxId} {pc : BitVec 12} {f : Job → Job} (h : Keeps r s) : Keeps r (State.doneAt s c pc f) := by
  unfold State.doneAt
  with_reducible repeat' first | exact h | apply keeps_State_boundary | apply keeps_State_putJob | split

theorem keeps_State_done {r : State} {s : State} {c : CtxId} {f : Job → Job} (h : Keeps r s) : Keeps r (State.done s c f) := by
  unfold State.done
  with_reducible repeat' first | exact h | apply keeps_State_doneAt

theorem keeps_State_doneRd {r : State} {s : State} {c : CtxId} {v : W} (h : Keeps r s) : Keeps r (State.doneRd s c v) := by
  unfold State.doneRd
  with_reducible repeat' first | exact h | apply keeps_State_done

theorem keeps_State_doneCode {r : State} {s : State} {c : CtxId} {code : Nat} (h : Keeps r s) : Keeps r (State.doneCode s c code) := by
  unfold State.doneCode
  with_reducible repeat' first | exact h | apply keeps_State_doneRd

theorem keeps_State_await {r : State} {s : State} {c : CtxId} {w : Wait} {deadline : Nat} (h : Keeps r s) : Keeps r (State.await s c w deadline) := by
  unfold State.await
  with_reducible repeat' first | exact h | apply keeps_State_setCtx

theorem keeps_State_untilTick {r : State} {s : State} {n : Nat} (h : Keeps r s) : Keeps r (State.untilTick s n) := by
  unfold State.untilTick
  with_reducible repeat' first | exact h | apply keeps_State_until

theorem keeps_State_loadJob {r : State} {s : State} {c : CtxId} {j : Job} (h : Keeps r s) : Keeps r (State.loadJob s c j) := by
  unfold State.loadJob
  with_reducible repeat' first | exact h | apply keeps_State_setCtx

theorem keeps_State_takeJob {r : State} {s : State} {c : CtxId} {r0 : RingId} (h : Keeps r s) : Keeps r (State.takeJob s c r0) := by
  unfold State.takeJob
  with_reducible repeat' first | exact h | assumption | apply keeps_State_loadJob | apply keeps_State_setSaved | apply keeps_State_setPtr | apply keeps_State_record | apply keeps_State_raise | (refine Keeps.upd ?_ rfl; first | exact h | assumption | apply keeps_State_loadJob | apply keeps_State_setSaved | apply keeps_State_setPtr | apply keeps_State_record | apply keeps_State_raise) | split | (dsimp only)

theorem keeps_execJobStart {r : State} {c : CtxId} {s : State} (h : Keeps r s) : KeepsR r (execJobStart c s) := by
  unfold execJobStart
  dsimp only [KeepsR]
  with_reducible repeat' first | exact h | apply keeps_State_takeJob | split

theorem keeps_State_launchCtl {r : State} {s : State} {id : Nat} (h : Keeps r s) : Keeps r (State.launchCtl s id) := by
  unfold State.launchCtl
  with_reducible repeat' first | intro _ | exact h | assumption | apply keeps_State_wake | apply keeps_State_nextFree | apply Keeps.foldl_from | apply Keeps.ite | apply Keeps.ite_fst | (refine Keeps.upd ?_ rfl; first | exact h | assumption | apply keeps_State_wake | apply keeps_State_nextFree | apply Keeps.foldl_from | apply Keeps.ite | apply Keeps.ite_fst) | split | (dsimp only)

theorem keeps_State_launchHeld {r : State} {s : State} (h : Keeps r s) : Keeps r (State.launchHeld s) := by
  unfold State.launchHeld
  with_reducible repeat' first | intro _ | exact h | assumption | apply keeps_State_launchCtl | apply Keeps.foldl_from | apply Keeps.ite | apply Keeps.ite_fst | (refine Keeps.upd ?_ rfl; first | exact h | assumption | apply keeps_State_launchCtl | apply Keeps.foldl_from | apply Keeps.ite | apply Keeps.ite_fst) | split | (dsimp only)

theorem keeps_State_sendCtl {r : State} {s : State} {c : CtxId} {kind : CtlKind} {key : Nat} {eng : Bool} {spread : Nat} {op : Nat} {dest : BitVec 10} {func : Nat} {lenm1 : Nat} {data : Line} {tiles : Nat} {opid : Option (BitVec 16)} (h : Keeps r s) : Keeps r (State.sendCtl s c kind key eng spread op dest func lenm1 data tiles opid) := by
  unfold State.sendCtl
  with_reducible repeat' first | exact h | apply keeps_State_launchCtl | (refine Keeps.upd ?_ rfl; first | exact h | apply keeps_State_launchCtl)

theorem keeps_State_updJob {r : State} {s : State} {key : Nat} {f : Job → Job} (h : Keeps r s) : Keeps r (State.updJob s key f) := by
  unfold State.updJob
  with_reducible repeat' first | intro _ | exact h | assumption | apply keeps_State_setCtx | apply keeps_State_setSaved | apply Keeps.foldl_from | split

theorem keeps_State_accTrap {r : State} {s : State} {c : CtxId} {addr : W} (h : Keeps r s) : Keeps r (State.accTrap s c addr) := by
  unfold State.accTrap
  with_reducible repeat' first | intro _ | exact h | assumption | apply keeps_State_abortJob | apply keeps_State_mcheckJob | apply keeps_State_trap | apply Keeps.foldl_from | apply Keeps.ite | apply Keeps.ite_fst | (refine Keeps.upd ?_ rfl; first | exact h | assumption | apply keeps_State_abortJob | apply keeps_State_mcheckJob | apply keeps_State_trap | apply Keeps.foldl_from | apply Keeps.ite | apply Keeps.ite_fst) | split | (dsimp only)

theorem keeps_State_accAnswer {r : State} {s : State} {c : CtxId} {key : Nat} {code : Nat} {data : W} (h : Keeps r s) : Keeps r (State.accAnswer s c key code data) := by
  unfold State.accAnswer
  with_reducible repeat' first | exact h | assumption | apply keeps_State_setCtx | apply keeps_State_doneRd | apply keeps_State_accTrap | apply keeps_State_done | apply keeps_State_doneCode | split | (dsimp only)

theorem keeps_State_callEnds {r : State} {s : State} {c : CtxId} {l : Bool} {r0 : CrspBody} (h : Keeps r s) : Keeps r (State.callEnds s c l r0) := by
  unfold State.callEnds
  with_reducible repeat' first | exact h | apply keeps_State_done

theorem keeps_State_gatherEnds {r : State} {s : State} {c : CtxId} {v : W} {counts : W} (h : Keeps r s) : Keeps r (State.gatherEnds s c v counts) := by
  unfold State.gatherEnds
  with_reducible repeat' first | exact h | apply keeps_State_done

theorem keeps_State_lockGivesUp {r : State} {s : State} {c : CtxId} (h : Keeps r s) : Keeps r (State.lockGivesUp s c) := by
  unfold State.lockGivesUp
  with_reducible repeat' first | exact h | apply keeps_State_doneCode | (refine Keeps.upd ?_ rfl; exact h)

end Sys2Proof.Machine
end

