-- ==== Sys2Proof/Laws/KeepsRegs.lean ====
section
/-! SUPPORT. One lemma per operation of strata, the chain, register reads and writes, and the management crossbar: it keeps the queue of commands, the parameter set and the canonical form of the tables. -/
set_option maxRecDepth 4000
namespace Sys2Proof.Machine

theorem keeps_State_setPhase {r : State} {s : State} {n : Nat} (h : Keeps r s) : Keeps r (State.setPhase s n) := by
  unfold State.setPhase
  with_reducible repeat' first | exact h | apply keeps_State_p

theorem keeps_State_setWaiting {r : State} {s : State} {n : Nat} (h : Keeps r s) : Keeps r (State.setWaiting s n) := by
  unfold State.setWaiting
  with_reducible repeat' first | exact h | apply keeps_State_p

theorem keeps_State_stepSend {r : State} {s : State} {c : CtxId} {k : StepKind} {n : Nat} {arg : Nat} {spread : Nat} {op : Nat} (h : Keeps r s) : Keeps r (State.stepSend s c k n arg spread op) := by
  unfold State.stepSend
  with_reducible repeat' first | exact h | apply keeps_State_sendCtl | apply keeps_State_setCtx

theorem keeps_State_flipRound {r : State} {s : State} {c : CtxId} {rv : Bool} (h : Keeps r s) : Keeps r (State.flipRound s c rv) := by
  unfold State.flipRound
  with_reducible repeat' first | exact h | apply keeps_State_stepSend | (refine Keeps.upd ?_ rfl; exact h)

theorem keeps_State_flipEnds {r : State} {s : State} {c : CtxId} {n : Nat} (h : Keeps r s) : Keeps r (State.flipEnds s c n) := by
  unfold State.flipEnds
  with_reducible repeat' first | exact h | apply keeps_State_doneCode | apply keeps_State_setWaiting | (refine Keeps.upd ?_ rfl; exact h)

theorem keeps_State_flipCheck {r : State} {s : State} {c : CtxId} (h : Keeps r s) : Keeps r (State.flipCheck s c) := by
  unfold State.flipCheck
  with_reducible repeat' first | exact h | apply keeps_State_flipEnds | split

theorem keeps_State_schedFlipped {r : State} {s : State} {k : Nat} {str : Bool} (h : Keeps r s) : Keeps r (State.schedFlipped s k str) := by
  unfold State.schedFlipped
  with_reducible repeat' first | intro _ | exact h | assumption | apply keeps_State_flipCheck | apply keeps_State_schedFlip | apply Keeps.foldl_from | split

theorem keeps_State_commitFlips {r : State} {s : State} {c : CtxId} {dl : Nat} (h : Keeps r s) : Keeps r (State.commitFlips s c dl) := by
  unfold State.commitFlips
  with_reducible repeat' first | exact h | apply keeps_State_p | apply keeps_State_doneCode | apply keeps_State_pb | apply keeps_State_setPhase | apply keeps_State_flipRound | apply Keeps.ite | (refine Keeps.upd ?_ rfl; first | exact h | apply keeps_State_p | apply keeps_State_doneCode | apply keeps_State_pb | apply keeps_State_setPhase | apply keeps_State_flipRound | apply Keeps.ite)

theorem keeps_State_revertFlips {r : State} {s : State} {c : CtxId} (h : Keeps r s) : Keeps r (State.revertFlips s c) := by
  unfold State.revertFlips
  with_reducible repeat' first | exact h | apply keeps_State_flipRound | apply keeps_State_pb

theorem keeps_State_gatherOld {r : State} {s : State} {c : CtxId} {k : StepKind} (h : Keeps r s) : Keeps r (State.gatherOld s c k) := by
  unfold State.gatherOld
  with_reducible repeat' first | exact h | apply keeps_State_stepSend

theorem keeps_State_sendRelease {r : State} {s : State} {c : CtxId} {rv : Bool} (h : Keeps r s) : Keeps r (State.sendRelease s c rv) := by
  unfold State.sendRelease
  with_reducible repeat' first | exact h | apply keeps_State_stepSend

theorem keeps_State_releaseAgain {r : State} {s : State} {c : CtxId} {rv : Bool} {left : Nat} (h : Keeps r s) : Keeps r (State.releaseAgain s c rv left) := by
  unfold State.releaseAgain
  with_reducible repeat' first | intro _ | exact h | assumption | apply keeps_State_sendCtl | apply keeps_State_gatherOld | apply keeps_State_setWaiting | apply Keeps.foldl_from

theorem keeps_State_allReleased {r : State} {s : State} (h : Keeps r s) : Keeps r (State.allReleased s) := by
  unfold State.allReleased
  with_reducible repeat' first | exact h | apply keeps_State_p | (refine Keeps.upd ?_ rfl; exact h)

theorem keeps_State_drainEnds {r : State} {s : State} {c : CtxId} (h : Keeps r s) : Keeps r (State.drainEnds s c) := by
  unfold State.drainEnds
  refine keeps_State_doneCode (h := ?_)
  have k : Keeps r (((s.setPhase phIdle).bump aStstate SEQ_STSTATE.COMMITS).pb aStstate SEQ_STSTATE.REVERTED false) :=
    keeps_State_pb (h := keeps_State_bump (h := keeps_State_setPhase (h := h)))
  exact ⟨k.pending, k.build, fun c => let k := k.canon c
    { k with
      nis := wf_map (e := Ni.reset) (fun (n : Ni) => { n with hist := n.hist.filter (fun h => h.stratum == _) }) k.nis
      seq := { k.seq with } }⟩

theorem keeps_State_drainGathered {r : State} {s : State} {c : CtxId} {rv : Bool} {x : Comb} (h : Keeps r s) : Keeps r (State.drainGathered s c rv x) := by
  unfold State.drainGathered
  with_reducible repeat' first | exact h | apply keeps_State_gatherOld | apply keeps_State_releaseAgain | apply keeps_State_sendRelease | apply keeps_State_allReleased | apply keeps_State_revertFlips | apply keeps_State_drainEnds | apply Keeps.ite | (refine Keeps.upd ?_ rfl; first | exact h | apply keeps_State_gatherOld | apply keeps_State_releaseAgain | apply keeps_State_sendRelease | apply keeps_State_allReleased | apply keeps_State_revertFlips | apply keeps_State_drainEnds | apply Keeps.ite) | split

theorem keeps_State_releaseEnds {r : State} {s0 : State} {c : CtxId} {rv : Bool} {x : Comb} (h : Keeps r s0) : Keeps r (State.releaseEnds s0 c rv x) := by
  unfold State.releaseEnds
  with_reducible repeat' first | exact h | apply keeps_State_setWaiting | apply keeps_State_gatherOld | apply keeps_State_revertFlips | apply keeps_State_allReleased | apply Keeps.ite

theorem keeps_State_queryEnds {r : State} {s : State} {c : CtxId} {second : W} (h : Keeps r s) : Keeps r (State.queryEnds s c second) := by
  unfold State.queryEnds
  with_reducible repeat' first | exact h | apply keeps_State_done

theorem keeps_State_barrEnds {r : State} {s : State} {c : CtxId} {missing : Nat} {abandoned : Nat} (h : Keeps r s) : Keeps r (State.barrEnds s c missing abandoned) := by
  unfold State.barrEnds
  with_reducible repeat' first | exact h | apply keeps_State_setWaiting | apply keeps_State_doneCode | (refine Keeps.upd ?_ rfl; exact h)

theorem keeps_State_stepEnds {r : State} {s : State} {c : CtxId} {k : StepKind} {id : Nat} {x : Comb} (h : Keeps r s) : Keeps r (State.stepEnds s c k id x) := by
  unfold State.stepEnds
  with_reducible repeat' first | exact h | assumption | apply keeps_State_doneCode | apply keeps_State_setWaiting | apply keeps_State_commitFlips | apply keeps_State_flipCheck | apply keeps_State_setCtx | apply keeps_State_gatherOld | apply keeps_State_drainGathered | apply keeps_State_releaseEnds | apply keeps_State_queryEnds | apply keeps_State_barrEnds | split | (dsimp only)

theorem keeps_State_stepExpires {r : State} {s : State} {c : CtxId} {k : StepKind} {id : Nat} (h : Keeps r s) : Keeps r (State.stepExpires s c k id) := by
  unfold State.stepExpires
  with_reducible repeat' first | exact h | apply keeps_State_leaveCtl | apply keeps_State_doneCode | apply keeps_State_setWaiting | apply keeps_State_flipEnds | apply keeps_State_queryEnds | apply keeps_State_barrEnds | split

theorem keeps_State_strIssue {r : State} {s : State} {c : CtxId} (h : Keeps r s) : Keeps r (State.strIssue s c) := by
  unfold State.strIssue
  with_reducible repeat' first | exact h | apply Keeps.ite | (refine Keeps.upd ?_ rfl; first | exact h | apply Keeps.ite)

theorem keeps_State_stprep {r : State} {s : State} {c : CtxId} {mask : Nat} (h : Keeps r s) : Keeps r (State.stprep s c mask) := by
  unfold State.stprep
  with_reducible repeat' first | exact h | apply keeps_State_doneCode | apply keeps_State_setPhase | apply keeps_State_stepSend | apply Keeps.ite | (refine Keeps.upd ?_ rfl; first | exact h | apply keeps_State_doneCode | apply keeps_State_setPhase | apply keeps_State_stepSend | apply Keeps.ite)

theorem keeps_State_commitGo1 {r : State} {s : State} {c : CtxId} (h : Keeps r s) : Keeps r (State.commitGo1 s c) := by
  unfold State.commitGo1
  with_reducible repeat' first | exact h | apply keeps_State_stepSend | split

theorem keeps_State_stcommit {r : State} {s : State} {c : CtxId} {rv : Bool} (h : Keeps r s) : Keeps r (State.stcommit s c rv) := by
  unfold State.stcommit
  with_reducible repeat' first | exact h | apply keeps_State_doneCode | apply keeps_State_gatherOld | apply keeps_State_strIssue | apply keeps_State_revertFlips | apply keeps_State_commitGo1 | apply keeps_State_setCtx | apply keeps_State_flipRound | apply Keeps.ite

theorem keeps_State_stdrain {r : State} {s : State} {c : CtxId} {fl : Bool} (h : Keeps r s) : Keeps r (State.stdrain s c fl) := by
  unfold State.stdrain
  with_reducible repeat' first | exact h | apply keeps_State_doneCode | apply keeps_State_stepSend | apply keeps_State_strIssue | apply keeps_State_gatherOld | apply Keeps.ite

theorem keeps_State_stquery {r : State} {s : State} {c : CtxId} {gather : Bool} (h : Keeps r s) : Keeps r (State.stquery s c gather) := by
  unfold State.stquery
  with_reducible repeat' first | exact h | apply keeps_State_gatherOld | apply keeps_State_doneRd | apply Keeps.ite

theorem keeps_State_setCport {r : State} {s : State} {p : Nat} {x : CPort} (h : Keeps r s) : Keeps r (State.setCport s p x) := by
  unfold State.setCport
  with_reducible repeat' first | exact h | (refine Keeps.upd ?_ rfl; exact h)

theorem keeps_State_setCpState {r : State} {s : State} {p : Nat} {st : Nat} (h : Keeps r s) : Keeps r (State.setCpState s p st) := by
  unfold State.setCpState
  with_reducible repeat' first | exact h | apply keeps_State_p

theorem keeps_State_sendFrame {r : State} {s : State} {p : Nat} {dst : Nat} {src : Nat} {b : FrameBody} (h : Keeps r s) : Keeps r (State.sendFrame s p dst src b) := by
  unfold State.sendFrame
  with_reducible repeat' first | exact h | apply keeps_State_setCport | apply Keeps.ite

theorem keeps_State_routeFrame {r : State} {s : State} {dst : Nat} {src : Nat} {b : FrameBody} (h : Keeps r s) : Keeps r (State.routeFrame s dst src b) := by
  unfold State.routeFrame
  with_reducible repeat' first | exact h | apply keeps_State_sendFrame | split

theorem keeps_State_portDown {r : State} {s : State} {p : Nat} (h : Keeps r s) : Keeps r (State.portDown s p) := by
  unfold State.portDown
  with_reducible repeat' first | exact h | apply keeps_State_raiseChain | apply keeps_State_setCpState | apply keeps_State_setCport

theorem keeps_State_replay {r : State} {s : State} {p : Nat} (h : Keeps r s) : Keeps r (State.replay s p) := by
  unfold State.replay
  with_reducible repeat' first | exact h | apply keeps_State_portDown | apply keeps_State_sat | apply keeps_State_setCport | apply Keeps.ite

theorem keeps_State_sendTrain {r : State} {s : State} {p : Nat} (h : Keeps r s) : Keeps r (State.sendTrain s p) := by
  unfold State.sendTrain
  with_reducible repeat' first | exact h | apply keeps_State_setCport

theorem keeps_State_trainPort {r : State} {s : State} {p : Nat} (h : Keeps r s) : Keeps r (State.trainPort s p) := by
  unfold State.trainPort
  with_reducible repeat' first | exact h | apply keeps_State_sendTrain | apply keeps_State_setCpState

theorem keeps_execIdleAckTimer {r : State} {p : ChPort} {s : State} (h : Keeps r s) : KeepsR r (execIdleAckTimer p s) := by
  unfold execIdleAckTimer
  dsimp only [KeepsR]
  with_reducible repeat' first | exact h | apply keeps_State_setCport | apply keeps_State_sendTrain | apply Keeps.ite

theorem keeps_State_rootUp {r : State} {s : State} (h : Keeps r s) : Keeps r (State.rootUp s) := by
  unfold State.rootUp
  with_reducible repeat' first | exact h | apply keeps_State_pb

theorem keeps_execBadFrame {r : State} {p : ChPort} {bytes : List Byte} {s : State} (h : Keeps r s) : KeepsR r (execBadFrame p bytes s) := by
  unfold execBadFrame
  dsimp only [KeepsR]
  with_reducible repeat' first | exact h | apply keeps_State_rootUp | apply keeps_State_sat | apply keeps_State_setCport | apply Keeps.ite

theorem keeps_State_takeFrame {r : State} {s : State} {p : Nat} {k : Frame} {f : State → State} (hf : ∀ (r : State) (a0 : State), Keeps r a0 → Keeps r (f a0)) (h : Keeps r s) : Keeps r (State.takeFrame s p k f) := by
  unfold State.takeFrame
  with_reducible repeat' first | exact h | apply hf | apply keeps_State_rootUp | apply keeps_State_setCport | apply keeps_State_wakeMgmt | apply Keeps.ite | (refine Keeps.upd ?_ rfl; first | exact h | apply hf | apply keeps_State_rootUp | apply keeps_State_setCport | apply keeps_State_wakeMgmt | apply Keeps.ite)

theorem keeps_State_portUp {r : State} {s : State} {p : Nat} (h : Keeps r s) : Keeps r (State.portUp s p) := by
  unfold State.portUp
  with_reducible repeat' first | exact h | apply keeps_State_setCpState | apply keeps_State_setCport | apply keeps_State_raiseChain | apply keeps_State_pb | apply Keeps.ite

theorem keeps_State_portFault {r : State} {s : State} {p : Nat} (h : Keeps r s) : Keeps r (State.portFault s p) := by
  unfold State.portFault
  with_reducible repeat' first | exact h | apply keeps_State_raiseChain | apply keeps_State_setCpState | apply keeps_State_setCport

theorem keeps_State_trainIn {r : State} {s : State} {p : Nat} {roleD : Bool} {rxok : Bool} (h : Keeps r s) : Keeps r (State.trainIn s p roleD rxok) := by
  unfold State.trainIn
  with_reducible repeat' first | exact h | apply keeps_State_rootUp | apply keeps_State_portFault | apply keeps_State_setCpState | apply keeps_State_portDown | apply keeps_State_sendTrain | apply keeps_State_setCport | apply keeps_State_portUp | apply Keeps.ite

theorem keeps_State_enumAnswer {r : State} {s : State} {gen : BitVec 8} {next : Nat} {status : Nat} {height : Nat} {tiles : Nat} (h : Keeps r s) : Keeps r (State.enumAnswer s gen next status height tiles) := by
  unfold State.enumAnswer
  with_reducible repeat' first | exact h | apply keeps_State_sendFrame

theorem keeps_State_setRange {r : State} {s : State} {p : Nat} {lo : Nat} {hi : Nat} {h0 : Nat} {tiles : Nat} (h : Keeps r s) : Keeps r (State.setRange s p lo hi h0 tiles) := by
  unfold State.setRange
  with_reducible repeat' first | exact h | apply keeps_State_p

theorem keeps_State_enumEnd {r : State} {s : State} {gen : BitVec 8} {next : Nat} {full : Bool} (h : Keeps r s) : Keeps r (State.enumEnd s gen next full) := by
  unfold State.enumEnd
  with_reducible repeat' first | exact h | apply keeps_State_p | apply keeps_State_raiseChain | apply keeps_State_pb | apply keeps_State_enumAnswer | apply Keeps.ite | (refine Keeps.upd ?_ rfl; first | exact h | apply keeps_State_p | apply keeps_State_raiseChain | apply keeps_State_pb | apply keeps_State_enumAnswer | apply Keeps.ite)

theorem keeps_State_enumPort {r : State} {s : State} {gen : BitVec 8} {next : Nat} {p : Nat} {full : Bool} (h : Keeps r s) : Keeps r (State.enumPort s gen next p full) := by
  unfold State.enumPort
  with_reducible repeat' first | exact h | apply keeps_State_sendFrame | apply keeps_State_enumEnd | apply Keeps.ite | (refine Keeps.upd ?_ rfl; first | exact h | apply keeps_State_sendFrame | apply keeps_State_enumEnd | apply Keeps.ite)

theorem keeps_State_enumHere {r : State} {s : State} {gen : BitVec 8} {next : Nat} {depth : Nat} (h : Keeps r s) : Keeps r (State.enumHere s gen next depth) := by
  unfold State.enumHere
  with_reducible repeat' first | exact h | apply keeps_State_setRange | apply keeps_State_p | apply keeps_State_pb | apply keeps_State_enumPort | apply Keeps.ite

theorem keeps_State_enumRoot {r : State} {s : State} (h : Keeps r s) : Keeps r (State.enumRoot s) := by
  unfold State.enumRoot
  with_reducible repeat' first | exact h | apply keeps_State_enumHere | apply Keeps.ite

theorem keeps_execEnumStart {r : State} {s : State} (h : Keeps r s) : KeepsR r (execEnumStart s) := by
  unfold execEnumStart
  dsimp only [KeepsR]
  with_reducible repeat' first | exact h | apply keeps_State_enumRoot | apply Keeps.ite

theorem keeps_execChnReenum {r : State} {m : Master} {s : State} (h : Keeps r s) : KeepsR r (execChnReenum m s) := by
  unfold execChnReenum
  dsimp only [KeepsR]
  with_reducible repeat' first | exact h | apply keeps_State_enumRoot | apply Keeps.ite

theorem keeps_State_enumIn {r : State} {s : State} {gen : BitVec 8} {next : Nat} {depth : Nat} (h : Keeps r s) : Keeps r (State.enumIn s gen next depth) := by
  unfold State.enumIn
  with_reducible repeat' first | exact h | apply keeps_State_enumAnswer | apply keeps_State_p | apply keeps_State_pb | apply keeps_State_raiseChain | apply keeps_State_setRange | apply keeps_State_enumHere | apply Keeps.ite

theorem keeps_State_enumRetIn {r : State} {s : State} {p : Nat} {gen : BitVec 8} {next : Nat} {status : Nat} {height : Nat} {tiles : Nat} (h : Keeps r s) : Keeps r (State.enumRetIn s p gen next status height tiles) := by
  unfold State.enumRetIn
  with_reducible repeat' first | exact h | apply keeps_State_portFault | apply keeps_State_setRange | apply keeps_State_raiseChain | apply keeps_State_pb | apply keeps_State_enumPort | split

theorem keeps_execEnumret {r : State} {p : ChPort} {hdr : FrameHdr} {gen : BitVec 8} {next : BitVec 8} {status : BitVec 8} {height : BitVec 8} {member : BitVec 16} {tiles : BitVec 16} {s : State} (h : Keeps r s) : KeepsR r (execEnumret p hdr gen next status height member tiles s) := by
  unfold execEnumret
  dsimp only [KeepsR]
  with_reducible repeat' first | intro _ | exact h | assumption | apply keeps_State_takeFrame | apply keeps_State_enumRetIn | apply Keeps.foldl_from

theorem keeps_execEnumretTimeout {r : State} {p : ChPort} {s : State} (h : Keeps r s) : KeepsR r (execEnumretTimeout p s) := by
  unfold execEnumretTimeout
  dsimp only [KeepsR]
  with_reducible repeat' first | exact h | apply keeps_State_enumPort | split

theorem keeps_State_sendSpread {r : State} {s : State} {c : CtxId} {kind : CtlKind} {key : Nat} {eng : Bool} {x : SpreadOp} {func : Nat} {lenm1 : Nat} {data : Line} {opid : Option (BitVec 16)} (h : Keeps r s) : Keeps r (State.sendSpread s c kind key eng x func lenm1 data opid) := by
  unfold State.sendSpread
  with_reducible repeat' first | exact h | apply keeps_State_sendCtl

theorem keeps_State_opStart {r : State} {s : State} {opid : BitVec 16} {x : Option SpreadOp} {func : BitVec 8} {args : List W} {up : Bool} (h : Keeps r s) : Keeps r (State.opStart s opid x func args up) := by
  unfold State.opStart
  with_reducible repeat' first | intro _ | exact h | assumption | apply keeps_State_sendFrame | apply Keeps.foldl_from | apply Keeps.ite | (refine Keeps.upd ?_ rfl; first | exact h | assumption | apply keeps_State_sendFrame | apply Keeps.foldl_from | apply Keeps.ite) | split | (dsimp only)

theorem keeps_State_opDeliver {r : State} {s : State} {o : OutCtl} {x : Comb} (h : Keeps r s) : Keeps r (State.opDeliver s o x) := by
  unfold State.opDeliver
  with_reducible repeat' first | exact h | assumption | apply keeps_State_dropCtl | apply keeps_State_updJob | apply keeps_State_gatherEnds | apply keeps_State_stepEnds | split | (dsimp only)

theorem keeps_State_opSettle {r : State} {s : State} {opid : BitVec 16} (h : Keeps r s) : Keeps r (State.opSettle s opid) := by
  unfold State.opSettle
  with_reducible repeat' first | exact h | apply keeps_State_sendFrame | apply keeps_State_opDeliver | apply Keeps.ite | (refine Keeps.upd ?_ rfl; first | exact h | apply keeps_State_sendFrame | apply keeps_State_opDeliver | apply Keeps.ite) | split

theorem keeps_State_opUpdate {r : State} {s : State} {opid : BitVec 16} {f : ChainOp → ChainOp} (h : Keeps r s) : Keeps r (State.opUpdate s opid f) := by
  unfold State.opUpdate
  with_reducible repeat' first | exact h | apply keeps_State_opSettle | (refine Keeps.upd ?_ rfl; exact h)

theorem keeps_State_opOwn {r : State} {s : State} {opid : BitVec 16} {tiles : Nat} {x : Option Comb} {resp : BitVec 4} (h : Keeps r s) : Keeps r (State.opOwn s opid tiles x resp) := by
  unfold State.opOwn
  with_reducible repeat' first | exact h | apply keeps_State_opUpdate

theorem keeps_State_opChild {r : State} {s : State} {opid : BitVec 16} {p : Nat} {v : W} {ok : Nat} {bad : Nat} {silent : Nat} {resp : BitVec 4} (h : Keeps r s) : Keeps r (State.opChild s opid p v ok bad silent resp) := by
  unfold State.opChild
  with_reducible repeat' first | exact h | apply keeps_State_opUpdate

theorem keeps_State_barrStep {r : State} {s : State} {c : CtxId} {ch : Bool} (h : Keeps r s) : Keeps r (State.barrStep s c ch) := by
  unfold State.barrStep
  with_reducible repeat' first | exact h | apply keeps_State_stepSend | apply keeps_State_opStart | apply Keeps.ite | (refine Keeps.upd ?_ rfl; first | exact h | apply keeps_State_stepSend | apply keeps_State_opStart | apply Keeps.ite)

theorem keeps_State_barrGo1 {r : State} {s : State} {c : CtxId} (h : Keeps r s) : Keeps r (State.barrGo1 s c) := by
  unfold State.barrGo1
  with_reducible repeat' first | exact h | apply keeps_State_barrStep | apply keeps_State_commitGo1 | split

theorem keeps_State_barrGo {r : State} {s : State} (h : Keeps r s) : Keeps r (State.barrGo s) := by
  unfold State.barrGo
  with_reducible repeat' first | intro _ | exact h | assumption | apply keeps_State_barrGo1 | apply Keeps.foldl_from

theorem keeps_State_barr {r : State} {s : State} {c : CtxId} {ch : Bool} (h : Keeps r s) : Keeps r (State.barr s c ch) := by
  unfold State.barr
  with_reducible repeat' first | exact h | apply keeps_State_barrEnds | apply keeps_State_barrGo | apply keeps_State_setCtx | apply Keeps.ite

theorem keeps_State_clearProbe {r : State} {s : State} {p : Nat} (h : Keeps r s) : Keeps r (State.clearProbe s p) := by
  unfold State.clearProbe
  with_reducible repeat' first | intro _ | exact h | assumption | apply Keeps.wr | apply keeps_State_setSamp | apply keeps_State_setTrSeq | apply Keeps.foldl_from | apply Keeps.ite | (refine Keeps.upd ?_ rfl; first | exact h | assumption | apply Keeps.wr | apply keeps_State_setSamp | apply keeps_State_setTrSeq | apply Keeps.foldl_from | apply Keeps.ite) | split | (dsimp only)

theorem keeps_State_probeWrite {r : State} {s : State} {m : Master} {p : Nat} {v : W} (h : Keeps r s) : Keeps r (State.probeWrite s m p v) := by
  unfold State.probeWrite
  with_reducible repeat' first | exact h | apply Keeps.wr | apply keeps_State_pb | apply keeps_State_p | apply keeps_State_clearProbe | apply Keeps.ite

theorem keeps_State_prbctlWrite {r : State} {s : State} {m : Master} {p : Nat} {v : W} (h : Keeps r s) : Keeps r (State.prbctlWrite s m p v) := by
  unfold State.prbctlWrite
  with_reducible repeat' first | exact h | apply keeps_State_probeWrite | apply Keeps.ite

theorem keeps_execProbeControlWrite {r : State} {m : Master} {p : Fin 32} {v : W} {s : State} (h : Keeps r s) : KeepsR r (execProbeControlWrite m p v s) := by
  unfold execProbeControlWrite
  dsimp only [KeepsR]
  with_reducible repeat' first | exact h | apply keeps_State_prbctlWrite

theorem keeps_execProbeBound {r : State} {p : Fin 32} {s : State} (h : Keeps r s) : KeepsR r (execProbeBound p s) := by
  unfold execProbeBound
  dsimp only [KeepsR]
  with_reducible repeat' first | exact h | apply keeps_State_pb | apply Keeps.ite

theorem keeps_State_prbWordWrite {r : State} {s : State} {m : Master} {p : Nat} {o : Nat} {v : W} (h : Keeps r s) : Keeps r (State.prbWordWrite s m p o v) := by
  unfold State.prbWordWrite
  with_reducible repeat' first | exact h | apply Keeps.wr | apply Keeps.ite

theorem keeps_State_setPost {r : State} {s : State} {b : Nat} {n : Option Nat} (h : Keeps r s) : Keeps r (State.setPost s b n) := by
  unfold State.setPost
  exact h.obs _ (fun c => { c with post := wf_tput (d := fun _ => none) _ _ c.post })

theorem keeps_State_tbctlWrite {r : State} {s : State} {m : Master} {b : Nat} {v : W} (h : Keeps r s) : Keeps r (State.tbctlWrite s m b v) := by
  unfold State.tbctlWrite
  with_reducible repeat' first | exact h | apply Keeps.wr | apply keeps_State_pb | apply keeps_State_p | apply keeps_State_setPost | apply Keeps.ite | (refine Keeps.upd ?_ rfl; first | exact h | apply Keeps.wr | apply keeps_State_pb | apply keeps_State_p | apply keeps_State_setPost | apply Keeps.ite)

theorem keeps_execTraceBufferArm {r : State} {m : Master} {b : Fin 8} {v : W} {s : State} (h : Keeps r s) : KeepsR r (execTraceBufferArm m b v s) := by
  unfold execTraceBufferArm
  dsimp only [KeepsR]
  with_reducible repeat' first | exact h | apply keeps_State_tbctlWrite

theorem keeps_State_traceStore {r : State} {s : State} {b : Nat} {p : Nat} {ws : List W} (h : Keeps r s) : Keeps r (State.traceStore s b p ws) := by
  unfold State.traceStore
  with_reducible repeat' first | intro _ | exact h | assumption | apply Keeps.wr | apply keeps_State_p | apply keeps_State_pb | apply keeps_State_setPost | apply Keeps.foldl_from | apply Keeps.ite | (refine Keeps.upd ?_ rfl; first | exact h | assumption | apply Keeps.wr | apply keeps_State_p | apply keeps_State_pb | apply keeps_State_setPost | apply Keeps.foldl_from | apply Keeps.ite) | split | (dsimp only)

theorem keeps_State_traceIn {r : State} {s : State} {p : Nat} {ws : List W} (h : Keeps r s) : Keeps r (State.traceIn s p ws) := by
  unfold State.traceIn
  with_reducible repeat' first | exact h | apply keeps_State_sat | apply keeps_State_traceStore | apply Keeps.ite

theorem keeps_execTraceRecord {r : State} {s : State} (h : Keeps r s) : KeepsR r (execTraceRecord s) := by
  unfold execTraceRecord
  dsimp only [KeepsR]
  with_reducible repeat' first | exact h | apply keeps_State_traceIn | (refine Keeps.upd ?_ rfl; first | exact h | apply keeps_State_traceIn) | split

theorem keeps_State_lcfgWrite {r : State} {s : State} {v : W} (h : Keeps r s) : Keeps r (State.lcfgWrite s v) := by
  unfold State.lcfgWrite
  with_reducible repeat' first | exact h | apply keeps_State_newCalls | apply Keeps.wr | apply Keeps.ite | (refine Keeps.upd ?_ rfl; first | exact h | apply keeps_State_newCalls | apply Keeps.wr | apply Keeps.ite)

theorem keeps_execSharedStepBoundary {r : State} {s : State} (h : Keeps r s) : KeepsR r (execSharedStepBoundary s) := by
  unfold execSharedStepBoundary
  dsimp only [KeepsR]
  with_reducible repeat' first | exact h | apply keeps_State_until | (refine Keeps.upd ?_ rfl; first | exact h | apply keeps_State_until) | split

theorem keeps_State_destroy {r : State} {s : State} {t : Nat} {groups : Nat} (h : Keeps r s) : Keeps r (State.destroy s t groups) := by
  unfold State.destroy
  with_reducible repeat' first | intro _ | exact h | assumption | apply Keeps.setRouter | apply Keeps.setNi | apply Keeps.foldl_from | split

theorem keeps_State_mbistWrite {r : State} {s : State} {t : Nat} {v : W} (h : Keeps r s) : Keeps r (State.mbistWrite s t v) := by
  unfold State.mbistWrite
  with_reducible repeat' first | exact h | apply keeps_State_p | apply keeps_State_pb | apply keeps_State_destroy | apply Keeps.setAgent | apply Keeps.ite

theorem keeps_execTlMbistStart {r : State} {m : Master} {v : W} {s : State} (h : Keeps r s) : KeepsR r (execTlMbistStart m v s) := by
  unfold execTlMbistStart
  dsimp only [KeepsR]
  with_reducible repeat' first | exact h | apply keeps_State_mbistWrite | apply keeps_State_pmReject | apply Keeps.ite

theorem keeps_State_tileBist {r : State} {s : State} {t : Nat} {groups : Nat} {fail : Nat} {addr : Nat} (h : Keeps r s) : Keeps r (State.tileBist s t groups fail addr) := by
  unfold State.tileBist
  with_reducible repeat' first | exact h | apply keeps_State_pb | apply keeps_State_p | apply Keeps.setAgent

theorem keeps_execMbistDone {r : State} {tile : Option Tile} {failGroups : BitVec 3} {faddr : BitVec 16} {s : State} (h : Keeps r s) : KeepsR r (execMbistDone tile failGroups faddr s) := by
  unfold execMbistDone
  dsimp only [KeepsR]
  with_reducible repeat' first | exact h | apply keeps_State_tileBist | (refine Keeps.upd ?_ rfl; first | exact h | apply keeps_State_tileBist) | split

theorem keeps_State_endSoon {r : State} {s : State} {c : CtxId} {d : Due} (h : Keeps r s) : Keeps r (State.endSoon s c d) := by
  unfold State.endSoon
  with_reducible repeat' first | exact h | apply keeps_State_setCtx | apply keeps_State_boundary | apply Keeps.ite

theorem keeps_State_mcheckSaved {r : State} {s : State} {r0 : Nat} (h : Keeps r s) : Keeps r (State.mcheckSaved s r0) := by
  unfold State.mcheckSaved
  with_reducible repeat' first | exact h | apply keeps_State_breakLocks | apply keeps_State_endRecord | apply keeps_State_setSaved | split

theorem keeps_State_reloadStart {r : State} {s : State} (h : Keeps r s) : Keeps r (State.reloadStart s) := by
  unfold State.reloadStart
  with_reducible repeat' first | exact h | apply keeps_State_p | apply keeps_State_pb | apply keeps_State_sendFrame | apply Keeps.ite | (refine Keeps.upd ?_ rfl; first | exact h | apply keeps_State_p | apply keeps_State_pb | apply keeps_State_sendFrame | apply Keeps.ite)

theorem keeps_State_mchkRecord {r : State} {s : State} {met : MetBy} {table : Bool} {addr : Nat} (h : Keeps r s) : Keeps r (State.mchkRecord s met table addr) := by
  unfold State.mchkRecord
  with_reducible repeat' first | exact h | apply keeps_State_sat | apply keeps_State_pb | apply keeps_State_p | apply keeps_State_raise

theorem keeps_State_machineCheck {r : State} {s : State} {met : MetBy} {table : Bool} {addr : Nat} (h : Keeps r s) : Keeps r (State.machineCheck s met table addr) := by
  unfold State.machineCheck
  with_reducible repeat' first | intro _ | exact h | assumption | apply keeps_State_mchkRecord | apply keeps_State_raise | apply keeps_State_pb | apply keeps_State_mcheckJob | apply keeps_State_endSoon | apply keeps_State_reloadStart | apply keeps_State_mcheckSaved | apply Keeps.foldl_from | apply Keeps.ite | (refine Keeps.upd ?_ rfl; first | exact h | assumption | apply keeps_State_mchkRecord | apply keeps_State_raise | apply keeps_State_pb | apply keeps_State_mcheckJob | apply keeps_State_endSoon | apply keeps_State_reloadStart | apply keeps_State_mcheckSaved | apply Keeps.foldl_from | apply Keeps.ite) | split | (dsimp only)

theorem keeps_State_windowCheck {r : State} {s : State} {o : Nat} (h : Keeps r s) : Keeps r (State.windowCheck s o) := by
  unfold State.windowCheck
  with_reducible repeat' first | exact h | apply keeps_State_machineCheck | apply Keeps.ite

theorem keeps_State_windowRead {r : State} {s : State} (h : Keeps r s) : Keeps r (State.windowRead s).1 := by
  unfold State.windowRead
  with_reducible repeat' first | exact h | assumption | apply keeps_State_pmReject | split | (dsimp only)
theorem keeps_State_windowRead_eq {r : State} {s : State}  {out : State} {b} (h : Keeps r s) (eq1 : State.windowRead s = (out, b)) : Keeps r out := by
  have k := keeps_State_windowRead (s := s)  (h := h)
  rw [eq1] at k
  exact k

theorem keeps_State_readReg {r : State} {s : State} {m : Master} {o : Nat} (h : Keeps r s) : Keeps r (State.readReg s m o).1 := by
  unfold State.readReg
  with_reducible repeat' first | exact h | assumption | apply keeps_State_claim | (refine keeps_State_claim_eq ?_ (by assumption)) | apply keeps_State_windowRead | (refine keeps_State_windowRead_eq ?_ (by assumption)) | apply keeps_State_windowCheck | split | (dsimp only)
theorem keeps_State_readReg_eq {r : State} {s : State} {m : Master} {o : Nat}  {out : State} {b} (h : Keeps r s) (eq1 : State.readReg s m o = (out, b)) : Keeps r out := by
  have k := keeps_State_readReg (s := s) (m := m) (o := o)  (h := h)
  rw [eq1] at k
  exact k

theorem keeps_State_plainWrite {r : State} {s : State} {o : Nat} {v : W} {mask : W} (h : Keeps r s) : Keeps r (State.plainWrite s o v mask) := by
  unfold State.plainWrite
  with_reducible repeat' first | exact h | apply Keeps.wr

theorem keeps_State_wrBlocked {r : State} {s : State} (h : Keeps r s) : Keeps r (State.wrBlocked s) := by
  unfold State.wrBlocked
  with_reducible repeat' first | exact h | apply keeps_State_raise | apply keeps_State_pb

theorem keeps_State_nicfgWrite {r : State} {s : State} {t : Nat} {p : Nat} {v : W} {mask : W} (h : Keeps r s) : Keeps r (State.nicfgWrite s t p v mask) := by
  unfold State.nicfgWrite
  with_reducible repeat' first | exact h | apply keeps_State_p | apply keeps_State_niEnable | apply keeps_State_pb | apply keeps_State_niDisable | apply Keeps.ite

theorem keeps_State_niregWrite {r : State} {s : State} {t : Nat} {p : Nat} {c : Nat} {v : W} {mask : W} (h : Keeps r s) : Keeps r (State.niregWrite s t p c v mask) := by
  unfold State.niregWrite
  with_reducible repeat' first | exact h | apply keeps_State_plainWrite | apply keeps_State_settleTok | apply Keeps.setNi

theorem keeps_State_tlPut {r : State} {s : State} {t : Nat} {k : Nat} {v : W} {mask : W} {window : Bool} (h : Keeps r s) : Keeps r (State.tlPut s t k v mask window) := by
  unfold State.tlPut
  with_reducible repeat' first | exact h | apply keeps_State_nicfgWrite | apply keeps_State_niregWrite | apply keeps_State_plainWrite | apply keeps_State_mbistWrite | apply Keeps.ite

theorem keeps_State_tlWrite {r : State} {s : State} {t : Nat} {k0 : Nat} {v : W} {mask : W} (h : Keeps r s) : Keeps r (State.tlWrite s t k0 v mask).1 := by
  unfold State.tlWrite
  with_reducible repeat' first | exact h | apply keeps_State_wrBlocked | apply keeps_State_tlPut | split
theorem keeps_State_tlWrite_eq {r : State} {s : State} {t : Nat} {k0 : Nat} {v : W} {mask : W}  {out : State} {b} (h : Keeps r s) (eq1 : State.tlWrite s t k0 v mask = (out, b)) : Keeps r out := by
  have k := keeps_State_tlWrite (s := s) (t := t) (k0 := k0) (v := v) (mask := mask)  (h := h)
  rw [eq1] at k
  exact k

theorem keeps_State_windowWrite {r : State} {s : State} {v : W} {mask : W} (h : Keeps r s) : Keeps r (State.windowWrite s v mask) := by
  unfold State.windowWrite
  with_reducible repeat' first | exact h | apply keeps_State_tlPut | apply keeps_State_pmReject | apply Keeps.ite

theorem keeps_State_ownRej {r : State} {s : State} {i : Nat} (h : Keeps r s) : Keeps r (State.ownRej s i) := by
  unfold State.ownRej
  with_reducible repeat' first | exact h | apply keeps_State_raiseFrom | apply keeps_State_sat | apply keeps_State_pb

theorem keeps_State_puPut {r : State} {s : State} {o : Nat} {v : W} {mask : W} (h : Keeps r s) : Keeps r (State.puPut s o v mask) := by
  unfold State.puPut
  with_reducible repeat' first | exact h | apply keeps_State_plainWrite | apply keeps_State_clearViolation | apply Keeps.ite

theorem keeps_State_puWrite {r : State} {s : State} {m : Master} {o : Nat} {v : W} {mask : W} (h : Keeps r s) : Keeps r (State.puWrite s m o v mask).1 := by
  unfold State.puWrite
  with_reducible repeat' first | exact h | assumption | apply keeps_State_ownRej | apply keeps_State_wrBlocked | apply keeps_State_puPut | split | (dsimp only)
theorem keeps_State_puWrite_eq {r : State} {s : State} {m : Master} {o : Nat} {v : W} {mask : W}  {out : State} {b} (h : Keeps r s) (eq1 : State.puWrite s m o v mask = (out, b)) : Keeps r out := by
  have k := keeps_State_puWrite (s := s) (m := m) (o := o) (v := v) (mask := mask)  (h := h)
  rw [eq1] at k
  exact k

theorem keeps_State_pmWrite {r : State} {s : State} {m : Master} {o : Nat} {v : W} {mask : W} (h : Keeps r s) : Keeps r (State.pmWrite s m o v mask) := by
  unfold State.pmWrite
  with_reducible repeat' first | exact h | apply keeps_State_pb | apply keeps_State_minstWrite | apply keeps_State_pmCmd | apply keeps_State_windowWrite | apply keeps_State_plainWrite | apply keeps_State_timeInvalidate | apply keeps_State_periodWrite | apply Keeps.ite

theorem keeps_State_evcWrite {r : State} {s : State} {m : Master} {o : Nat} {v : W} {mask : W} (h : Keeps r s) : Keeps r (State.evcWrite s m o v mask) := by
  unfold State.evcWrite
  with_reducible repeat' first | exact h | apply keeps_State_prisplitWrite | apply keeps_State_setPendWord | apply keeps_State_clrPendWord | apply keeps_State_enSetWord | apply keeps_State_enClrWord | apply keeps_State_complete | apply keeps_State_threshWrite | apply keeps_State_evcCycle | apply keeps_State_plainWrite | apply Keeps.ite

theorem keeps_State_ringWrite {r : State} {s : State} {m : Master} {k : Nat} {v : W} {mask : W} (h : Keeps r s) : Keeps r (State.ringWrite s m k v mask) := by
  unfold State.ringWrite
  with_reducible repeat' first | exact h | apply keeps_State_slotWrite | apply Keeps.ite

theorem keeps_State_seqWrite {r : State} {s : State} {m : Master} {o : Nat} {v : W} {mask : W} (h : Keeps r s) : Keeps r (State.seqWrite s m o v mask) := by
  unfold State.seqWrite
  with_reducible repeat' first | exact h | apply keeps_State_ringtailWrite | apply keeps_State_cplheadWrite | apply keeps_State_ringWrite | apply keeps_State_plainWrite | apply Keeps.ite

theorem keeps_State_obsWrite {r : State} {s : State} {m : Master} {o : Nat} {v : W} {mask : W} (h : Keeps r s) : Keeps r (State.obsWrite s m o v mask) := by
  unfold State.obsWrite
  with_reducible repeat' first | exact h | apply keeps_State_lcfgWrite | apply keeps_State_prbctlWrite | apply keeps_State_prbWordWrite | apply keeps_State_tbctlWrite | apply keeps_State_plainWrite | apply Keeps.ite

theorem keeps_State_gateWrite {r : State} {s : State} {k : Nat} {o : Nat} {v : W} {mask : W} (h : Keeps r s) : Keeps r (State.gateWrite s k o v mask) := by
  unfold State.gateWrite
  with_reducible repeat' first | exact h | apply keeps_State_plainWrite | (refine Keeps.upd ?_ rfl; first | exact h | apply keeps_State_plainWrite)

theorem keeps_State_tmWrite {r : State} {s : State} {o : Nat} {v : W} {mask : W} (h : Keeps r s) : Keeps r (State.tmWrite s o v mask).1 := by
  unfold State.tmWrite
  with_reducible repeat' first | intro _ | exact h | assumption | apply keeps_State_wrBlocked | apply keeps_State_qdescWrite | apply keeps_State_qpartWrite | apply keeps_State_pbcfgWrite | apply keeps_State_shaperWrite | apply keeps_State_meterWrite | apply keeps_State_polWrite | apply keeps_State_polReset | apply keeps_State_plainWrite | apply keeps_State_setPtok | apply keeps_State_gateWrite | apply Keeps.foldl_from | apply Keeps.ite | apply Keeps.ite_fst | (refine Keeps.upd ?_ rfl; first | exact h | assumption | apply keeps_State_wrBlocked | apply keeps_State_qdescWrite | apply keeps_State_qpartWrite | apply keeps_State_pbcfgWrite | apply keeps_State_shaperWrite | apply keeps_State_meterWrite | apply keeps_State_polWrite | apply keeps_State_polReset | apply keeps_State_plainWrite | apply keeps_State_setPtok | apply keeps_State_gateWrite | apply Keeps.foldl_from | apply Keeps.ite | apply Keeps.ite_fst) | split | (dsimp only)
theorem keeps_State_tmWrite_eq {r : State} {s : State} {o : Nat} {v : W} {mask : W}  {out : State} {b} (h : Keeps r s) (eq1 : State.tmWrite s o v mask = (out, b)) : Keeps r out := by
  have k := keeps_State_tmWrite (s := s) (o := o) (v := v) (mask := mask)  (h := h)
  rw [eq1] at k
  exact k

theorem keeps_State_ftPut {r : State} {s : State} {o : Nat} {v : W} {mask : W} (h : Keeps r s) : Keeps r (State.ftPut s o v mask) := by
  unfold State.ftPut
  with_reducible repeat' first | exact h | apply keeps_State_ftWrite | apply keeps_State_plainWrite | apply Keeps.ite

theorem keeps_State_chnWrite {r : State} {s : State} {o : Nat} {v : W} {mask : W} (h : Keeps r s) : Keeps r (State.chnWrite s o v mask) := by
  unfold State.chnWrite
  with_reducible repeat' first | exact h | apply keeps_State_plainWrite | apply keeps_State_enumRoot | apply Keeps.ite

theorem keeps_State_tmftWrite {r : State} {s : State} {o : Nat} {v : W} {mask : W} (h : Keeps r s) : Keeps r (State.tmftWrite s o v mask).1 := by
  unfold State.tmftWrite
  with_reducible repeat' first | exact h | apply keeps_State_tmWrite | (refine keeps_State_tmWrite_eq ?_ (by assumption)) | apply keeps_State_ftPut | split
theorem keeps_State_tmftWrite_eq {r : State} {s : State} {o : Nat} {v : W} {mask : W}  {out : State} {b} (h : Keeps r s) (eq1 : State.tmftWrite s o v mask = (out, b)) : Keeps r out := by
  have k := keeps_State_tmftWrite (s := s) (o := o) (v := v) (mask := mask)  (h := h)
  rw [eq1] at k
  exact k

theorem keeps_State_xbWrite {r : State} {s : State} {m : Master} {o : Nat} {v : W} {mask : W} (h : Keeps r s) : Keeps r (State.xbWrite s m o v mask) := by
  unfold State.xbWrite
  with_reducible repeat' first | exact h | apply keeps_State_plainWrite | apply Keeps.ite

theorem keeps_State_writeReg {r : State} {s : State} {m : Master} {o : Nat} {v : W} {strb : BitVec 8} (h : Keeps r s) : Keeps r (State.writeReg s m o v strb).1 := by
  unfold State.writeReg
  apply Keeps.ite_fst h
  apply Keeps.ite_fst
  · exact Keeps.pair <| keeps_State_xbWrite h
  apply Keeps.ite_fst
  · exact Keeps.pair <| Keeps.ite (h.wr ..) (Keeps.ite (keeps_State_plainWrite h) h)
  apply Keeps.ite_fst
  · exact Keeps.pair <| Keeps.ite (keeps_State_chnWrite h) h
  apply Keeps.ite_fst
  · exact Keeps.pair <| Keeps.ite (keeps_State_pmWrite h) h
  apply Keeps.ite_fst
  · exact Keeps.pair <| keeps_State_evcWrite h
  apply Keeps.ite_fst
  · exact Keeps.pair <| keeps_State_seqWrite h
  apply Keeps.ite_fst
  · apply Keeps.ite_fst
    · exact h
    · apply Keeps.ite_fst
      · exact keeps_State_puWrite h
      · exact Keeps.pair <| keeps_State_plainWrite h
  apply Keeps.ite_fst
  · exact Keeps.pair <| keeps_State_obsWrite h
  apply Keeps.ite_fst h
  apply Keeps.ite_fst
  · exact Keeps.pair (keeps_State_tlWrite h)
  apply Keeps.ite_fst
  · exact keeps_State_tmftWrite h
  · exact h
theorem keeps_State_writeReg_eq {r : State} {s : State} {m : Master} {o : Nat} {v : W} {strb : BitVec 8}  {out : State} {b} (h : Keeps r s) (eq1 : State.writeReg s m o v strb = (out, b)) : Keeps r out := by
  have k := keeps_State_writeReg (s := s) (m := m) (o := o) (v := v) (strb := strb)  (h := h)
  rw [eq1] at k
  exact k

theorem keeps_execRegisterWrite {r : State} {m : Master} {off : BitVec 26} {v : W} {strb : BitVec 8} {s : State} (h : Keeps r s) : KeepsR r (execRegisterWrite m off v strb s) := by
  unfold execRegisterWrite
  dsimp only [KeepsR]
  with_reducible repeat' first | exact h | apply keeps_State_writeReg | (refine keeps_State_writeReg_eq ?_ (by assumption)) | apply Keeps.ite

theorem keeps_execPuCtlWrite {r : State} {m : Master} {t : Tile} {p : LPort} {v : W} {s : State} (h : Keeps r s) : KeepsR r (execPuCtlWrite m t p v s) := by
  unfold execPuCtlWrite
  dsimp only [KeepsR]
  with_reducible repeat' first | exact h | apply keeps_State_writeReg | (refine keeps_State_writeReg_eq ?_ (by assumption)) | apply Keeps.ite

theorem keeps_execViolationClear {r : State} {m : Master} {t : Tile} {p : LPort} {s : State} (h : Keeps r s) : KeepsR r (execViolationClear m t p s) := by
  unfold execViolationClear
  dsimp only [KeepsR]
  with_reducible repeat' first | exact h | apply keeps_State_writeReg | (refine keeps_State_writeReg_eq ?_ (by assumption))

theorem keeps_execRestoreAccess {r : State} {m : Master} {write : Bool} {v : W} {s : State} (h : Keeps r s) : KeepsR r (execRestoreAccess m write v s) := by
  unfold execRestoreAccess
  dsimp only [KeepsR]
  with_reducible repeat' first | exact h | apply keeps_State_writeReg | (refine keeps_State_writeReg_eq ?_ (by assumption)) | apply keeps_State_readReg | (refine keeps_State_readReg_eq ?_ (by assumption)) | apply Keeps.ite

theorem keeps_State_recheck1 {r : State} {s : State} {c : CtxId} (h : Keeps r s) : Keeps r (State.recheck1 s c) := by
  unfold State.recheck1
  with_reducible repeat' first | exact h | apply keeps_State_doneCode | apply keeps_State_done | apply keeps_State_setCtx | split

theorem keeps_State_recheck {r : State} {s : State} (h : Keeps r s) : Keeps r (State.recheck s) := by
  unfold State.recheck
  with_reducible repeat' first | intro _ | exact h | assumption | apply keeps_State_reloadStart | apply keeps_State_launchHeld | apply keeps_State_recheck1 | apply Keeps.foldl_from

theorem keeps_State_hostFlush {r : State} {s : State} {h0 : Nat} (h : Keeps r s) : Keeps r (State.hostFlush s h0) := by
  unfold State.hostFlush
  with_reducible repeat' first | exact h | apply Keeps.setHost | apply Keeps.ite

theorem keeps_State_hostAnswer {r : State} {s : State} {h0 : Nat} {n : Nat} {a : HAns} (h : Keeps r s) : Keeps r (State.hostAnswer s h0 n a) := by
  unfold State.hostAnswer
  with_reducible repeat' first | exact h | apply keeps_State_hostFlush | apply Keeps.setHost

theorem keeps_State_accEnds {r : State} {s : State} {a : Acc} {sunk : Bool} {beats : List (Nat × W)} (h : Keeps r s) : Keeps r (State.accEnds s a sunk beats) := by
  unfold State.accEnds
  with_reducible repeat' first | exact h | apply keeps_State_sat | apply keeps_State_hostAnswer | apply keeps_State_barrGo | apply keeps_State_accAnswer | split

theorem keeps_State_lastBeat {r : State} {s : State} {j : Nat} (h : Keeps r s) : Keeps r (State.lastBeat s j) := by
  unfold State.lastBeat
  with_reducible repeat' first | exact h | apply Keeps.setXport

theorem keeps_State_chxEnds {r : State} {s : State} {tag : Nat} {code : Nat} {data : List W} (h : Keeps r s) : Keeps r (State.chxEnds s tag code data) := by
  unfold State.chxEnds
  with_reducible repeat' first | exact h | assumption | apply keeps_State_accEnds | apply keeps_State_lastBeat | split | (dsimp only)

theorem keeps_State_remoteSettle {r : State} {s : State} {key : Nat} (h : Keeps r s) : Keeps r (State.remoteSettle s key) := by
  unfold State.remoteSettle
  with_reducible repeat' first | exact h | apply keeps_State_sendFrame | apply keeps_State_chxEnds | apply keeps_State_routeFrame | apply Keeps.ite | (refine Keeps.upd ?_ rfl; first | exact h | apply keeps_State_sendFrame | apply keeps_State_chxEnds | apply keeps_State_routeFrame | apply Keeps.ite) | split

theorem keeps_State_remoteUpdate {r : State} {s : State} {key : Nat} {f : Remote → Remote} (h : Keeps r s) : Keeps r (State.remoteUpdate s key f) := by
  unfold State.remoteUpdate
  with_reducible repeat' first | exact h | apply keeps_State_remoteSettle | (refine Keeps.upd ?_ rfl; exact h)

theorem keeps_State_remoteChild {r : State} {s : State} {key : Nat} {p : Nat} {code : Nat} (h : Keeps r s) : Keeps r (State.remoteChild s key p code) := by
  unfold State.remoteChild
  with_reducible repeat' first | exact h | apply keeps_State_remoteUpdate

theorem keeps_State_remoteDone {r : State} {s : State} {a : Acc} {beats : List (Nat × W)} (h : Keeps r s) : Keeps r (State.remoteDone s a beats) := by
  unfold State.remoteDone
  with_reducible repeat' first | exact h | apply keeps_State_remoteUpdate

theorem keeps_State_finishPort {r : State} {s : State} {j : Nat} {beats : List (Nat × W)} (h : Keeps r s) : Keeps r (State.finishPort s j beats) := by
  unfold State.finishPort
  with_reducible repeat' first | exact h | assumption | apply keeps_State_lastBeat | apply keeps_State_remoteDone | apply keeps_State_accEnds | split | (dsimp only)

theorem keeps_State_beat {r : State} {s : State} {a : Acc} {i : Nat} (h : Keeps r s) : Keeps r (State.beat s a i).1 := by
  unfold State.beat
  with_reducible repeat' first | exact h | apply keeps_State_writeReg | (refine keeps_State_writeReg_eq ?_ (by assumption)) | apply keeps_State_readReg | (refine keeps_State_readReg_eq ?_ (by assumption)) | split
theorem keeps_State_beat_eq {r : State} {s : State} {a : Acc} {i : Nat}  {out : State} {b} (h : Keeps r s) (eq1 : State.beat s a i = (out, b)) : Keeps r out := by
  have k := keeps_State_beat (s := s) (a := a) (i := i)  (h := h)
  rw [eq1] at k
  exact k

theorem keeps_State_beats {r : State} {s : State} {a : Acc} (h : Keeps r s) : Keeps r (State.beats s a).1 := by
  unfold State.beats
  have k : ∀ (l : List Nat) (z : State × List (Nat × W)), Keeps r z.1 →
      Keeps r (l.foldl (fun z i => ((z.1.beat a i).1, z.2 ++ [(z.1.beat a i).2])) z).1 := by
    intro l
    induction l with
    | nil => exact fun z k => k
    | cons i l ih => exact fun z k => ih _ (keeps_State_beat (h := k))
  exact k _ _ h
theorem keeps_State_beats_eq {r : State} {s : State} {a : Acc}  {out : State} {b} (h : Keeps r s) (eq1 : State.beats s a = (out, b)) : Keeps r out := by
  have k := keeps_State_beats (s := s) (a := a)  (h := h)
  rw [eq1] at k
  exact k

theorem keeps_State_defCount {r : State} {s : State} {a : Acc} (h : Keeps r s) : Keeps r (State.defCount s a) := by
  unfold State.defCount
  with_reducible repeat' first | intro _ | exact h | assumption | apply keeps_State_raise | apply keeps_State_sat | apply Keeps.foldl_from | split

theorem keeps_State_sendBeat {r : State} {s : State} {j : Nat} {a : Acc} {t : Nat} {k : Nat} (h : Keeps r s) : Keeps r (State.sendBeat s j a t k) := by
  unfold State.sendBeat
  with_reducible repeat' first | exact h | apply keeps_State_sendCtl | apply Keeps.setXport

theorem keeps_State_nextBeat {r : State} {x0 : Nat} {x1 : State} {x2 : Nat} (h : Keeps r x1) : Keeps r (State.nextBeat x0 x1 x2) := by
  induction x0 generalizing x1 with
  | zero =>
    unfold State.nextBeat
    split
    · exact keeps_State_finishPort h
    · exact h
  | succ n ih =>
    unfold State.nextBeat
    split
    · exact h
    · split
      · exact keeps_State_sendBeat h
      · exact ih ((keeps_State_beat h).setXport ..)

theorem keeps_State_cfgAnswer {r : State} {s : State} {j : Nat} {r0 : CrspBody} (h : Keeps r s) : Keeps r (State.cfgAnswer s j r0) := by
  unfold State.cfgAnswer
  with_reducible repeat' first | exact h | assumption | apply keeps_State_nextBeat | apply Keeps.setXport | split | (dsimp only)

theorem keeps_State_presentLocal {r : State} {s : State} {j : Nat} (h : Keeps r s) : Keeps r (State.presentLocal s j) := by
  unfold State.presentLocal
  with_reducible repeat' first | exact h | assumption | apply keeps_State_finishPort | apply keeps_State_defCount | apply keeps_State_nextBeat | apply keeps_State_beats | (refine keeps_State_beats_eq ?_ (by assumption)) | apply Keeps.setXport | split | (dsimp only)

theorem keeps_State_pendAcc {r : State} {s : State} {j : Nat} {a : Acc} (h : Keeps r s) : Keeps r (State.pendAcc s j a) := by
  unfold State.pendAcc
  with_reducible repeat' first | exact h | apply Keeps.setXport

theorem keeps_State_arriveLocal {r : State} {s : State} {j : Nat} {a : Acc} (h : Keeps r s) : Keeps r (State.arriveLocal s j a) := by
  unfold State.arriveLocal
  with_reducible repeat' first | exact h | apply keeps_State_presentLocal | apply Keeps.setXport | apply keeps_State_pendAcc | apply Keeps.ite

theorem keeps_State_remoteStart {r : State} {s : State} {flood : Bool} {tag : BitVec 8} {src : BitVec 8} {orig : BitVec 8} {off : BitVec 32} {data : List W} {strb : List (BitVec 8)} (h : Keeps r s) : Keeps r (State.remoteStart s flood tag src orig off data strb) := by
  unfold State.remoteStart
  with_reducible repeat' first | intro _ | exact h | assumption | apply keeps_State_sendFrame | apply keeps_State_arriveLocal | apply Keeps.foldl_from | apply Keeps.ite | (refine Keeps.upd ?_ rfl; first | exact h | assumption | apply keeps_State_sendFrame | apply keeps_State_arriveLocal | apply Keeps.foldl_from | apply Keeps.ite) | split | (dsimp only)

theorem keeps_State_chxPresent {r : State} {s : State} (h : Keeps r s) : Keeps r (State.chxPresent s) := by
  unfold State.chxPresent
  with_reducible repeat' first | exact h | assumption | apply Keeps.setXport | apply keeps_State_chxEnds | apply keeps_State_remoteStart | apply keeps_State_sendFrame | (refine Keeps.upd ?_ rfl; first | exact h | assumption | apply Keeps.setXport | apply keeps_State_chxEnds | apply keeps_State_remoteStart | apply keeps_State_sendFrame) | split | (dsimp only)

theorem keeps_State_presentAt {r : State} {s : State} {j : Nat} (h : Keeps r s) : Keeps r (State.presentAt s j) := by
  unfold State.presentAt
  with_reducible repeat' first | exact h | apply keeps_State_chxPresent | apply keeps_State_presentLocal | apply Keeps.ite

theorem keeps_State_arrive {r : State} {s : State} {a : Acc} (h : Keeps r s) : Keeps r (State.arrive s a) := by
  unfold State.arrive
  with_reducible repeat' first | exact h | apply keeps_State_presentAt | apply Keeps.setXport | apply keeps_State_pendAcc | apply Keeps.ite

theorem keeps_State_portGrant {r : State} {s : State} {j : Nat} (h : Keeps r s) : Keeps r (State.portGrant s j) := by
  unfold State.portGrant
  with_reducible repeat' first | exact h | assumption | apply keeps_State_presentAt | apply Keeps.setXport | split | (dsimp only)

theorem keeps_State_beatTo {r : State} {s : State} {h0 : Nat} {n : Nat} {b : W × BitVec 8} (h : Keeps r s) : Keeps r (State.beatTo s h0 n b) := by
  unfold State.beatTo
  with_reducible repeat' first | intro _ | exact h | assumption | apply Keeps.setXport | apply Keeps.foldl_from | split

theorem keeps_State_hostBeat {r : State} {s : State} {h0 : Nat} {b : W × BitVec 8} (h : Keeps r s) : Keeps r (State.hostBeat s h0 b) := by
  unfold State.hostBeat
  with_reducible repeat' first | exact h | assumption | apply Keeps.setHost | apply keeps_State_beatTo | split | (dsimp only)

theorem keeps_State_oweBeats {r : State} {s : State} {h0 : Nat} {n : Nat} {beats : Nat} (h : Keeps r s) : Keeps r (State.oweBeats s h0 n beats) := by
  unfold State.oweBeats
  with_reducible repeat' first | intro _ | exact h | assumption | apply Keeps.setHost | apply keeps_State_hostBeat | apply Keeps.foldl_from

theorem keeps_State_feedPorts {r : State} {s : State} {h0 : Nat} (h : Keeps r s) : Keeps r (State.feedPorts s h0) := by
  unfold State.feedPorts
  with_reducible repeat' first | intro _ | exact h | assumption | apply keeps_State_presentAt | apply Keeps.foldl_from | apply Keeps.ite | (refine Keeps.upd ?_ rfl; first | exact h | assumption | apply keeps_State_presentAt | apply Keeps.foldl_from | apply Keeps.ite) | split | (dsimp only)

theorem keeps_State_hostItems {r : State} {s : State} {h0 : Nat} {n : Nat} (h : Keeps r s) : Keeps r (State.hostItems s h0 n) := by
  unfold State.hostItems
  with_reducible repeat' first | exact h | apply Keeps.setHost | apply Keeps.ite

theorem keeps_State_hostTake {r : State} {s : State} {h0 : HostId} {r0 : HReq} (h : Keeps r s) : Keeps r (State.hostTake s h0 r0) := by
  unfold State.hostTake
  with_reducible repeat' first | exact h | apply keeps_State_hostItems | apply keeps_State_wakeMgmt | apply keeps_State_arrive | apply Keeps.setHost | apply keeps_State_oweBeats | apply Keeps.ite

theorem keeps_State_hostBeats {r : State} {s : State} {h0 : Nat} {bs : List (W × BitVec 8)} (h : Keeps r s) : Keeps r (State.hostBeats s h0 bs) := by
  unfold State.hostBeats
  with_reducible repeat' first | intro _ | exact h | assumption | apply keeps_State_feedPorts | apply keeps_State_hostBeat | apply keeps_State_hostItems | apply Keeps.foldl_from

theorem keeps_execHostRequest {r : State} {h0 : HostId} {r0 : HReq} {s : State} (h : Keeps r s) : KeepsR r (execHostRequest h0 r0 s) := by
  unfold execHostRequest
  dsimp only [KeepsR]
  with_reducible repeat' first | exact h | apply keeps_State_hostFlush | apply Keeps.setHost | apply keeps_State_hostTake | apply keeps_State_recheck | apply keeps_State_hostBeats | apply Keeps.ite

theorem keeps_State_watchdog {r : State} {s : State} {j : Nat} (h : Keeps r s) : Keeps r (State.watchdog s j) := by
  unfold State.watchdog
  with_reducible repeat' first | exact h | assumption | apply keeps_State_leaveCtl | apply keeps_State_sat | apply keeps_State_raise | apply keeps_State_putBitAt | apply keeps_State_finishPort | apply Keeps.setXport | split | (dsimp only)

theorem keeps_execWatchdogFire {r : State} {j : Fin 11} {s : State} (h : Keeps r s) : KeepsR r (execWatchdogFire j s) := by
  unfold execWatchdogFire
  dsimp only [KeepsR]
  with_reducible repeat' first | exact h | apply keeps_State_recheck | apply keeps_State_barrGo | apply keeps_State_watchdog

theorem keeps_State_badFrame {r : State} {s : State} (h : Keeps r s) : Keeps r (State.badFrame s) := by
  unfold State.badFrame
  with_reducible repeat' first | exact h | apply keeps_State_sat

theorem keeps_State_reqIn {r : State} {s : State} {p : Nat} {hdr : FrameHdr} {tag : BitVec 8} {orig : BitVec 8} {off : BitVec 32} {data : List W} {strb : List (BitVec 8)} (h : Keeps r s) : Keeps r (State.reqIn s p hdr tag orig off data strb) := by
  unfold State.reqIn
  with_reducible repeat' first | exact h | apply keeps_State_sendFrame | apply keeps_State_badFrame | apply keeps_State_remoteStart | split

theorem keeps_execReq {r : State} {p : ChPort} {hdr : FrameHdr} {tag : BitVec 8} {orig : BitVec 8} {offset : BitVec 32} {data : List W} {strb : List (BitVec 8)} {s : State} (h : Keeps r s) : KeepsR r (execReq p hdr tag orig offset data strb s) := by
  unfold execReq
  dsimp only [KeepsR]
  with_reducible repeat' first | intro _ | exact h | assumption | apply keeps_State_recheck | apply keeps_State_takeFrame | apply keeps_State_reqIn | apply Keeps.foldl_from | split

theorem keeps_State_rspIn {r : State} {s : State} {p : Nat} {hdr : FrameHdr} {tag : BitVec 8} {code : BitVec 8} {data : List W} (h : Keeps r s) : Keeps r (State.rspIn s p hdr tag code data) := by
  unfold State.rspIn
  with_reducible repeat' first | exact h | apply keeps_State_remoteChild | apply keeps_State_chxEnds | apply keeps_State_routeFrame | split

theorem keeps_execRsp {r : State} {p : ChPort} {hdr : FrameHdr} {tag : BitVec 8} {code : BitVec 8} {data : List W} {s : State} (h : Keeps r s) : KeepsR r (execRsp p hdr tag code data s) := by
  unfold execRsp
  dsimp only [KeepsR]
  with_reducible repeat' first | intro _ | exact h | assumption | apply keeps_State_recheck | apply keeps_State_takeFrame | apply keeps_State_rspIn | apply Keeps.foldl_from

theorem keeps_State_portLost {r : State} {s : State} {p : Nat} (h : Keeps r s) : Keeps r (State.portLost s p) := by
  unfold State.portLost
  with_reducible repeat' first | intro _ | exact h | assumption | apply keeps_State_remoteChild | apply Keeps.foldl_from | split

end Sys2Proof.Machine
end

