-- ==== Sys2Proof/Laws/KeepsSeq.lean ====
section
/-! SUPPORT. One lemma per operation of the tile agents, link jobs and the Bonov sequencers: it keeps the queue of commands, the parameter set and the canonical form of the tables. -/
set_option maxRecDepth 4000
namespace Sys2Proof.Machine

theorem keeps_State_repairNow {r : State} {s : State} {t : Nat} {pl : Nat} {d : Nat} {p : Nat} (h : Keeps r s) : Keeps r (State.repairNow s t pl d p) := by
  unfold State.repairNow
  with_reducible repeat' first | exact h | apply keeps_State_repairLink | apply Keeps.ite

theorem keeps_State_giveMap {r : State} {s : State} {t : Nat} {pl : Nat} {d : Nat} (h : Keeps r s) : Keeps r (State.giveMap s t pl d) := by
  unfold State.giveMap
  with_reducible repeat' first | exact h | apply keeps_State_p | apply keeps_State_setSpares

theorem keeps_State_setLinkPend {r : State} {s : State} {t : Nat} {pl : Nat} {d : Nat} {b : Bool} (h : Keeps r s) : Keeps r (State.setLinkPend s t pl d b) := by
  unfold State.setLinkPend
  with_reducible repeat' first | exact h | apply keeps_State_pb

theorem keeps_State_fullCredits {r : State} {s : State} {t : Nat} {pl : Nat} {d : Nat} (h : Keeps r s) : Keeps r (State.fullCredits s t pl d) := by
  unfold State.fullCredits
  with_reducible repeat' first | exact h | apply Keeps.setRouter

theorem keeps_State_answerReinits {r : State} {s : State} {t : Nat} {pl : Nat} {d : Nat} {code : Nat} (h : Keeps r s) : Keeps r (State.answerReinits s t pl d code) := by
  unfold State.answerReinits
  with_reducible repeat' first | intro _ | exact h | assumption | apply keeps_State_agentOwn | apply Keeps.setLink | apply Keeps.foldl_from

theorem keeps_State_endTest {r : State} {s : State} {t : Nat} {pl : Nat} {d : Nat} {code : Nat} (h : Keeps r s) : Keeps r (State.endTest s t pl d code) := by
  unfold State.endTest
  with_reducible repeat' first | exact h | assumption | apply keeps_State_agentOwn | apply Keeps.setLink | split | (dsimp only)

theorem keeps_State_linkReinit {r : State} {s : State} {t : Nat} {k0 : Pkt} (h : Keeps r s) : Keeps r (State.linkReinit s t k0).1 := by
  unfold State.linkReinit
  with_reducible repeat' first | exact h | assumption | apply keeps_State_wake | apply keeps_State_linkDownNow | apply Keeps.setLink | split | (dsimp only)
theorem keeps_State_linkReinit_eq {r : State} {s : State} {t : Nat} {k0 : Pkt}  {out : State} {b} (h : Keeps r s) (eq1 : State.linkReinit s t k0 = (out, b)) : Keeps r out := by
  have k := keeps_State_linkReinit (s := s) (t := t) (k0 := k0)  (h := h)
  rw [eq1] at k
  exact k

theorem keeps_State_linkTest {r : State} {s : State} {t : Nat} {k0 : Pkt} {live : Bool} (h : Keeps r s) : Keeps r (State.linkTest s t k0 live).1 := by
  unfold State.linkTest
  with_reducible repeat' first | exact h | assumption | apply keeps_State_nextFree | apply Keeps.setLink | apply keeps_State_wake | apply keeps_State_setLinkState | split | (dsimp only)
theorem keeps_State_linkTest_eq {r : State} {s : State} {t : Nat} {k0 : Pkt} {live : Bool}  {out : State} {b} (h : Keeps r s) (eq1 : State.linkTest s t k0 live = (out, b)) : Keeps r out := by
  have k := keeps_State_linkTest (s := s) (t := t) (k0 := k0) (live := live)  (h := h)
  rw [eq1] at k
  exact k

theorem keeps_State_linkRepair {r : State} {s : State} {t : Nat} {k0 : Pkt} (h : Keeps r s) : Keeps r (State.linkRepair s t k0).1 := by
  unfold State.linkRepair
  with_reducible repeat' first | exact h | assumption | apply Keeps.setLink | apply keeps_State_sendLpeer | apply keeps_State_wake | split | (dsimp only)
theorem keeps_State_linkRepair_eq {r : State} {s : State} {t : Nat} {k0 : Pkt}  {out : State} {b} (h : Keeps r s) (eq1 : State.linkRepair s t k0 = (out, b)) : Keeps r out := by
  have k := keeps_State_linkRepair (s := s) (t := t) (k0 := k0)  (h := h)
  rw [eq1] at k
  exact k

theorem keeps_State_linkPeer {r : State} {s : State} {t : Nat} {pl : Nat} {d : Nat} {p : Nat} {k0 : Pkt} (h : Keeps r s) : Keeps r (State.linkPeer s t pl d p k0).1 := by
  unfold State.linkPeer
  with_reducible repeat' first | exact h | assumption | apply Keeps.setLink | apply keeps_State_nextFree | apply keeps_State_setLinkPend | split | (dsimp only)
theorem keeps_State_linkPeer_eq {r : State} {s : State} {t : Nat} {pl : Nat} {d : Nat} {p : Nat} {k0 : Pkt}  {out : State} {b} (h : Keeps r s) (eq1 : State.linkPeer s t pl d p k0 = (out, b)) : Keeps r out := by
  have k := keeps_State_linkPeer (s := s) (t := t) (pl := pl) (d := d) (p := p) (k0 := k0)  (h := h)
  rw [eq1] at k
  exact k

theorem keeps_State_linkFunc {r : State} {s : State} {t : Nat} {k0 : Pkt} (h : Keeps r s) : Keeps r (State.linkFunc s t k0).1 := by
  unfold State.linkFunc
  with_reducible repeat' first | exact h | apply keeps_State_linkPeer | (refine keeps_State_linkPeer_eq ?_ (by assumption)) | apply keeps_State_settle | apply keeps_State_pb | apply keeps_State_linkTest | (refine keeps_State_linkTest_eq ?_ (by assumption)) | apply keeps_State_linkRepair | (refine keeps_State_linkRepair_eq ?_ (by assumption)) | apply keeps_State_linkReinit | (refine keeps_State_linkReinit_eq ?_ (by assumption)) | split
theorem keeps_State_linkFunc_eq {r : State} {s : State} {t : Nat} {k0 : Pkt}  {out : State} {b} (h : Keeps r s) (eq1 : State.linkFunc s t k0 = (out, b)) : Keeps r out := by
  have k := keeps_State_linkFunc (s := s) (t := t) (k0 := k0)  (h := h)
  rw [eq1] at k
  exact k

theorem keeps_State_linkLater {r : State} {s : State} {t : Nat} {pl : Nat} {d : Nat} (h : Keeps r s) : Keeps r (State.linkLater s t pl d) := by
  unfold State.linkLater
  with_reducible repeat' first | intro _ | exact h | assumption | apply keeps_State_nextRepair | apply keeps_State_linkFunc | (refine keeps_State_linkFunc_eq ?_ (by assumption)) | apply keeps_State_agentOwn | apply Keeps.setLink | apply Keeps.foldl_from | apply Keeps.ite | (refine Keeps.upd ?_ rfl; first | exact h | assumption | apply keeps_State_nextRepair | apply keeps_State_linkFunc | (refine keeps_State_linkFunc_eq ?_ (by assumption)) | apply keeps_State_agentOwn | apply Keeps.setLink | apply Keeps.foldl_from | apply Keeps.ite) | split | (dsimp only)

theorem keeps_execLstat {r : State} {t : Tile} {s : State} (h : Keeps r s) : KeepsR r (execLstat t s) := by
  unfold execLstat
  dsimp only [KeepsR]
  with_reducible repeat' first | intro _ | exact h | assumption | apply keeps_State_agentRun | apply keeps_State_linkFunc | (refine keeps_State_linkFunc_eq ?_ (by assumption)) | apply Keeps.foldl_from

theorem keeps_execLfence {r : State} {t : Tile} {s : State} (h : Keeps r s) : KeepsR r (execLfence t s) := by
  unfold execLfence
  dsimp only [KeepsR]
  with_reducible repeat' first | intro _ | exact h | assumption | apply keeps_State_agentRun | apply keeps_State_linkFunc | (refine keeps_State_linkFunc_eq ?_ (by assumption)) | apply Keeps.foldl_from

theorem keeps_execLunfence {r : State} {t : Tile} {s : State} (h : Keeps r s) : KeepsR r (execLunfence t s) := by
  unfold execLunfence
  dsimp only [KeepsR]
  with_reducible repeat' first | intro _ | exact h | assumption | apply keeps_State_agentRun | apply keeps_State_linkFunc | (refine keeps_State_linkFunc_eq ?_ (by assumption)) | apply Keeps.foldl_from

theorem keeps_execLtest {r : State} {t : Tile} {s : State} (h : Keeps r s) : KeepsR r (execLtest t s) := by
  unfold execLtest
  dsimp only [KeepsR]
  with_reducible repeat' first | intro _ | exact h | assumption | apply keeps_State_agentRun | apply keeps_State_linkFunc | (refine keeps_State_linkFunc_eq ?_ (by assumption)) | apply Keeps.foldl_from

theorem keeps_execLdtest {r : State} {t : Tile} {s : State} (h : Keeps r s) : KeepsR r (execLdtest t s) := by
  unfold execLdtest
  dsimp only [KeepsR]
  with_reducible repeat' first | intro _ | exact h | assumption | apply keeps_State_agentRun | apply keeps_State_linkFunc | (refine keeps_State_linkFunc_eq ?_ (by assumption)) | apply Keeps.foldl_from

theorem keeps_execLrepair {r : State} {t : Tile} {s : State} (h : Keeps r s) : KeepsR r (execLrepair t s) := by
  unfold execLrepair
  dsimp only [KeepsR]
  with_reducible repeat' first | intro _ | exact h | assumption | apply keeps_State_agentRun | apply keeps_State_linkFunc | (refine keeps_State_linkFunc_eq ?_ (by assumption)) | apply Keeps.foldl_from

theorem keeps_execLreinit {r : State} {t : Tile} {s : State} (h : Keeps r s) : KeepsR r (execLreinit t s) := by
  unfold execLreinit
  dsimp only [KeepsR]
  with_reducible repeat' first | intro _ | exact h | assumption | apply keeps_State_agentRun | apply keeps_State_linkFunc | (refine keeps_State_linkFunc_eq ?_ (by assumption)) | apply Keeps.foldl_from

theorem keeps_execLpeer {r : State} {t : Tile} {l : LinkId} {lane : Fin 597} {ka : Nat} {s : State} (h : Keeps r s) : KeepsR r (execLpeer t l lane ka s) := by
  unfold execLpeer
  dsimp only [KeepsR]
  with_reducible repeat' first | intro _ | exact h | assumption | apply keeps_State_agentRun | apply keeps_State_linkFunc | (refine keeps_State_linkFunc_eq ?_ (by assumption)) | apply Keeps.foldl_from | split

theorem keeps_State_showMargin {r : State} {s : State} {t : Nat} {pl : Nat} {d : Nat} {m : Nat} (h : Keeps r s) : Keeps r (State.showMargin s t pl d m) := by
  unfold State.showMargin
  with_reducible repeat' first | intro _ | exact h | assumption | apply keeps_State_p | apply Keeps.foldl_from | apply Keeps.ite | apply Keeps.ite_fst | (refine Keeps.upd ?_ rfl; first | exact h | assumption | apply keeps_State_p | apply Keeps.foldl_from | apply Keeps.ite | apply Keeps.ite_fst) | split | (dsimp only)

theorem keeps_State_noteMargin {r : State} {s : State} {t : Nat} {pl : Nat} {d : Nat} {lane : Nat} {margin : Nat} (h : Keeps r s) : Keeps r (State.noteMargin s t pl d lane margin) := by
  unfold State.noteMargin
  with_reducible repeat' first | exact h | apply keeps_State_showMargin | apply Keeps.setLink | apply Keeps.ite

theorem keeps_State_skipMargin {r : State} {s : State} {t : Nat} {pl : Nat} {d : Nat} {lane : Nat} (h : Keeps r s) : Keeps r (State.skipMargin s t pl d lane) := by
  unfold State.skipMargin
  with_reducible repeat' first | intro _ | exact h | assumption | apply keeps_State_showMargin | apply Keeps.foldl_from | apply Keeps.ite | apply Keeps.ite_fst | (refine Keeps.upd ?_ rfl; first | exact h | assumption | apply keeps_State_showMargin | apply Keeps.foldl_from | apply Keeps.ite | apply Keeps.ite_fst) | split | (dsimp only)

theorem keeps_State_measure {r : State} {s : State} {t : Nat} {pl : Nat} {d : Nat} {p : Nat} {margin : Nat} (h : Keeps r s) : Keeps r (State.measure s t pl d p margin) := by
  unfold State.measure
  with_reducible repeat' first | exact h | apply Keeps.setLink | apply keeps_State_requestRepair | apply Keeps.ite

theorem keeps_execCalibrationStep {r : State} {l : LinkId} {lane : Fin 597} {margin : BitVec 6} {s : State} (h : Keeps r s) : KeepsR r (execCalibrationStep l lane margin s) := by
  unfold execCalibrationStep
  dsimp only [KeepsR]
  with_reducible repeat' first | exact h | apply keeps_State_skipMargin | apply keeps_State_noteMargin | apply keeps_State_measure | apply Keeps.ite

theorem keeps_State_applyRepair {r : State} {s : State} {t : Nat} {pl : Nat} {d : Nat} {p : Nat} (h : Keeps r s) : Keeps r (State.applyRepair s t pl d p) := by
  unfold State.applyRepair
  with_reducible repeat' first | exact h | assumption | apply keeps_State_until | apply keeps_State_setLinkPend | apply keeps_State_repairLink | apply Keeps.setLink | apply keeps_State_agentOwn | apply keeps_State_nextFree | apply keeps_State_linkLater | split | (dsimp only)

theorem keeps_execRepairApply {r : State} {l : LinkId} {s : State} (h : Keeps r s) : KeepsR r (execRepairApply l s) := by
  unfold execRepairApply
  dsimp only [KeepsR]
  with_reducible repeat' first | exact h | apply keeps_State_applyRepair | split

theorem keeps_execReinitBuffersEmpty {r : State} {l : LinkId} {s : State} (h : Keeps r s) : KeepsR r (execReinitBuffersEmpty l s) := by
  unfold execReinitBuffersEmpty
  dsimp only [KeepsR]
  with_reducible repeat' first | exact h | apply keeps_State_startTraining | apply Keeps.ite

theorem keeps_State_linkUp {r : State} {s : State} {t : Nat} {pl : Nat} {d : Nat} (h : Keeps r s) : Keeps r (State.linkUp s t pl d) := by
  unfold State.linkUp
  with_reducible repeat' first | exact h | apply keeps_State_setLinkState | apply keeps_State_fullCredits | apply keeps_State_sat | apply Keeps.setLink | apply keeps_State_endTest | apply keeps_State_settle | apply keeps_State_linkLater | apply keeps_State_answerReinits | apply Keeps.ite

theorem keeps_State_linkFails {r : State} {s : State} {t : Nat} {pl : Nat} {d : Nat} (h : Keeps r s) : Keeps r (State.linkFails s t pl d) := by
  unfold State.linkFails
  with_reducible repeat' first | exact h | apply keeps_State_raiseTile | apply Keeps.setLink | apply keeps_State_setLinkState | apply keeps_State_linkLater | apply keeps_State_answerReinits | apply keeps_State_endTest

theorem keeps_State_mapPeer {r : State} {s : State} {t : Nat} {pl : Nat} {d : Nat} {p : Nat} (h : Keeps r s) : Keeps r (State.mapPeer s t pl d p) := by
  unfold State.mapPeer
  with_reducible repeat' first | exact h | apply keeps_State_lpeerOut | split

theorem keeps_State_trainingPass {r : State} {s : State} {t : Nat} {pl : Nat} {d : Nat} {failing : List Nat} (h : Keeps r s) : Keeps r (State.trainingPass s t pl d failing) := by
  have k : ∀ (l' : List Nat) (x : State × Bool), Keeps r x.1 →
      Keeps r (l'.foldl (fun (x : State × Bool) p => (x.1.repairNow t pl d p, x.2 || x.1.wouldExhaust t pl d p)) x).1 := by
    intro l'
    induction l' with
    | nil => exact fun x k => k
    | cons i l' ih => exact fun x k => ih _ (keeps_State_repairNow (h := k))
  unfold State.trainingPass
  have g := keeps_State_giveMap (t := t) (pl := pl) (d := d)
    (h := k (failing.filter (fun p => !laneFailed (s.rxSpares t pl d) p)) (s, false) h)
  have g := g.foldl_from (f := fun s p => s.mapPeer t pl d p) (fun s a k => keeps_State_mapPeer (h := k))
    ((failing.filter (fun p => !laneFailed (s.rxSpares t pl d) p)).filter (laneFailed (State.rxSpares (State.giveMap (((failing.filter (fun p => !laneFailed (s.rxSpares t pl d) p)).foldl (fun (x : State × Bool) p => (x.1.repairNow t pl d p, x.2 || x.1.wouldExhaust t pl d p)) (s, false)).1) t pl d) t pl d)))
  dsimp only
  split
  · exact keeps_State_linkUp (h := g)
  · split
    · exact g.setLink ..
    · split
      · exact keeps_State_linkFails (h := g)
      · exact keeps_State_linkUp (h := g)

theorem keeps_execTrainingEnd {r : State} {l : LinkId} {failing : List Nat} {s : State} (h : Keeps r s) : KeepsR r (execTrainingEnd l failing s) := by
  unfold execTrainingEnd
  dsimp only [KeepsR]
  with_reducible repeat' first | exact h | apply keeps_State_trainingPass | apply Keeps.ite

theorem keeps_execLinkTestDrained {r : State} {l : LinkId} {s : State} (h : Keeps r s) : KeepsR r (execLinkTestDrained l s) := by
  unfold execLinkTestDrained
  dsimp only [KeepsR]
  with_reducible repeat' first | exact h | apply Keeps.setLink | apply keeps_State_setLinkState | split

theorem keeps_execDrainTimeout {r : State} {l : LinkId} {s : State} (h : Keeps r s) : KeepsR r (execDrainTimeout l s) := by
  unfold execDrainTimeout
  dsimp only [KeepsR]
  with_reducible repeat' first | exact h | apply keeps_State_setLinkState | apply keeps_State_settle | apply keeps_State_linkLater | apply keeps_State_endTest | split

theorem keeps_execTestPatternEnd {r : State} {l : LinkId} {failing : List Nat} {s : State} (h : Keeps r s) : KeepsR r (execTestPatternEnd l failing s) := by
  have k : ∀ (l' : List Nat) (x : State × Bool), Keeps r x.1 →
      Keeps r (l'.foldl (fun (x : State × Bool) p => (x.1.repairNow (l.tile.val) (l.plane.val) (l.dir.val) p, x.2 || x.1.wouldExhaust (l.tile.val) (l.plane.val) (l.dir.val) p)) x).1 := by
    intro l'
    induction l' with
    | nil => exact fun x k => k
    | cons i l' ih => exact fun x k => ih _ (keeps_State_repairNow (h := k))
  unfold execTestPatternEnd
  dsimp only [KeepsR]
  split
  · split
    · refine keeps_State_startTraining (h := Keeps.setLink ?_ ..)
      split
      · exact k _ _ h
      · exact h
    · exact h
  · exact h

theorem keeps_State_agPing {r : State} {s : State} {t : Nat} {x2 : Pkt} (h : Keeps r s) : Keeps r (State.agPing s t x2).1 := by
  unfold State.agPing
  with_reducible repeat' first | exact h
theorem keeps_State_agPing_eq {r : State} {s : State} {t : Nat} {x2 : Pkt}  {out : State} {b} (h : Keeps r s) (eq1 : State.agPing s t x2 = (out, b)) : Keeps r out := by
  have k := keeps_State_agPing (s := s) (t := t) (x2 := x2)  (h := h)
  rw [eq1] at k
  exact k

theorem keeps_State_agRdreg {r : State} {s : State} {t : Nat} {k0 : Pkt} (h : Keeps r s) : Keeps r (State.agRdreg s t k0).1 := by
  unfold State.agRdreg
  with_reducible repeat' first | exact h
theorem keeps_State_agRdreg_eq {r : State} {s : State} {t : Nat} {k0 : Pkt}  {out : State} {b} (h : Keeps r s) (eq1 : State.agRdreg s t k0 = (out, b)) : Keeps r out := by
  have k := keeps_State_agRdreg (s := s) (t := t) (k0 := k0)  (h := h)
  rw [eq1] at k
  exact k

theorem keeps_State_agWrreg {r : State} {s : State} {t : Nat} {k0 : Pkt} (h : Keeps r s) : Keeps r (State.agWrreg s t k0).1 := by
  unfold State.agWrreg
  with_reducible repeat' first | exact h | apply keeps_State_tlWrite | (refine keeps_State_tlWrite_eq ?_ (by assumption))
theorem keeps_State_agWrreg_eq {r : State} {s : State} {t : Nat} {k0 : Pkt}  {out : State} {b} (h : Keeps r s) (eq1 : State.agWrreg s t k0 = (out, b)) : Keeps r out := by
  have k := keeps_State_agWrreg (s := s) (t := t) (k0 := k0)  (h := h)
  rw [eq1] at k
  exact k

theorem keeps_State_agRdfld {r : State} {s : State} {t : Nat} {k0 : Pkt} (h : Keeps r s) : Keeps r (State.agRdfld s t k0).1 := by
  unfold State.agRdfld
  with_reducible repeat' first | exact h
theorem keeps_State_agRdfld_eq {r : State} {s : State} {t : Nat} {k0 : Pkt}  {out : State} {b} (h : Keeps r s) (eq1 : State.agRdfld s t k0 = (out, b)) : Keeps r out := by
  have k := keeps_State_agRdfld (s := s) (t := t) (k0 := k0)  (h := h)
  rw [eq1] at k
  exact k

theorem keeps_State_capture {r : State} {s : State} {t : Nat} (h : Keeps r s) : Keeps r (State.capture s t) := by
  unfold State.capture
  with_reducible repeat' first | intro _ | exact h | assumption | apply Keeps.wr | apply keeps_State_p | apply keeps_State_pb | apply Keeps.foldl_from

theorem keeps_State_agSnaparm {r : State} {s : State} {t : Nat} {k0 : Pkt} (h : Keeps r s) : Keeps r (State.agSnaparm s t k0).1 := by
  unfold State.agSnaparm
  with_reducible repeat' first | exact h | assumption | apply keeps_State_pb | apply Keeps.setAgent | apply keeps_State_capture | split | (dsimp only)
theorem keeps_State_agSnaparm_eq {r : State} {s : State} {t : Nat} {k0 : Pkt}  {out : State} {b} (h : Keeps r s) (eq1 : State.agSnaparm s t k0 = (out, b)) : Keeps r out := by
  have k := keeps_State_agSnaparm (s := s) (t := t) (k0 := k0)  (h := h)
  rw [eq1] at k
  exact k

theorem keeps_State_agSnapclr {r : State} {s : State} {t : Nat} {x2 : Pkt} (h : Keeps r s) : Keeps r (State.agSnapclr s t x2).1 := by
  unfold State.agSnapclr
  with_reducible repeat' first | exact h | apply keeps_State_pb
theorem keeps_State_agSnapclr_eq {r : State} {s : State} {t : Nat} {x2 : Pkt}  {out : State} {b} (h : Keeps r s) (eq1 : State.agSnapclr s t x2 = (out, b)) : Keeps r out := by
  have k := keeps_State_agSnapclr (s := s) (t := t) (x2 := x2)  (h := h)
  rw [eq1] at k
  exact k

theorem keeps_State_agEvflush {r : State} {s : State} {t : Nat} {x2 : Pkt} (h : Keeps r s) : Keeps r (State.agEvflush s t x2).1 := by
  unfold State.agEvflush
  with_reducible repeat' first | exact h | apply keeps_State_flushHeld
theorem keeps_State_agEvflush_eq {r : State} {s : State} {t : Nat} {x2 : Pkt}  {out : State} {b} (h : Keeps r s) (eq1 : State.agEvflush s t x2 = (out, b)) : Keeps r out := by
  have k := keeps_State_agEvflush (s := s) (t := t) (x2 := x2)  (h := h)
  rw [eq1] at k
  exact k

theorem keeps_State_tileReset {r : State} {s : State} {t : Nat} (h : Keeps r s) : Keeps r (State.tileReset s t) := by
  unfold State.tileReset
  with_reducible repeat' first | intro _ | exact h | assumption | apply Keeps.resetRegs | apply Keeps.wr | apply Keeps.setNi | apply keeps_State_setInj | apply Keeps.foldl_from

theorem keeps_State_agTrst {r : State} {s : State} {t : Nat} {x2 : Pkt} (h : Keeps r s) : Keeps r (State.agTrst s t x2).1 := by
  unfold State.agTrst
  with_reducible repeat' first | exact h | assumption | apply keeps_State_tileReset | split | (dsimp only)
theorem keeps_State_agTrst_eq {r : State} {s : State} {t : Nat} {x2 : Pkt}  {out : State} {b} (h : Keeps r s) (eq1 : State.agTrst s t x2 = (out, b)) : Keeps r out := by
  have k := keeps_State_agTrst (s := s) (t := t) (x2 := x2)  (h := h)
  rw [eq1] at k
  exact k

theorem keeps_State_agHold {r : State} {s : State} {t : Nat} {k0 : Pkt} (h : Keeps r s) : Keeps r (State.agHold s t k0).1 := by
  unfold State.agHold
  with_reducible repeat' first | exact h | apply Keeps.setAgent | apply keeps_State_wake | apply Keeps.ite
theorem keeps_State_agHold_eq {r : State} {s : State} {t : Nat} {k0 : Pkt}  {out : State} {b} (h : Keeps r s) (eq1 : State.agHold s t k0 = (out, b)) : Keeps r out := by
  have k := keeps_State_agHold (s := s) (t := t) (k0 := k0)  (h := h)
  rw [eq1] at k
  exact k

theorem keeps_execPing {r : State} {t : Tile} {s : State} (h : Keeps r s) : KeepsR r (execPing t s) := by
  unfold execPing
  dsimp only [KeepsR]
  with_reducible repeat' first | intro _ | exact h | assumption | apply keeps_State_agentRun | apply keeps_State_agPing | (refine keeps_State_agPing_eq ?_ (by assumption)) | apply Keeps.foldl_from

theorem keeps_execRdreg {r : State} {t : Tile} {s : State} (h : Keeps r s) : KeepsR r (execRdreg t s) := by
  unfold execRdreg
  dsimp only [KeepsR]
  with_reducible repeat' first | intro _ | exact h | assumption | apply keeps_State_agentRun | apply keeps_State_agRdreg | (refine keeps_State_agRdreg_eq ?_ (by assumption)) | apply Keeps.foldl_from

theorem keeps_execWrreg {r : State} {t : Tile} {s : State} (h : Keeps r s) : KeepsR r (execWrreg t s) := by
  unfold execWrreg
  dsimp only [KeepsR]
  with_reducible repeat' first | intro _ | exact h | assumption | apply keeps_State_agentRun | apply keeps_State_agWrreg | (refine keeps_State_agWrreg_eq ?_ (by assumption)) | apply Keeps.foldl_from

theorem keeps_execRdfld {r : State} {t : Tile} {s : State} (h : Keeps r s) : KeepsR r (execRdfld t s) := by
  unfold execRdfld
  dsimp only [KeepsR]
  with_reducible repeat' first | intro _ | exact h | assumption | apply keeps_State_agentRun | apply keeps_State_agRdfld | (refine keeps_State_agRdfld_eq ?_ (by assumption)) | apply Keeps.foldl_from

theorem keeps_execSnaparm {r : State} {t : Tile} {s : State} (h : Keeps r s) : KeepsR r (execSnaparm t s) := by
  unfold execSnaparm
  dsimp only [KeepsR]
  with_reducible repeat' first | intro _ | exact h | assumption | apply keeps_State_agentRun | apply keeps_State_agSnaparm | (refine keeps_State_agSnaparm_eq ?_ (by assumption)) | apply Keeps.foldl_from

theorem keeps_execSnapclr {r : State} {t : Tile} {s : State} (h : Keeps r s) : KeepsR r (execSnapclr t s) := by
  unfold execSnapclr
  dsimp only [KeepsR]
  with_reducible repeat' first | intro _ | exact h | assumption | apply keeps_State_agentRun | apply keeps_State_agSnapclr | (refine keeps_State_agSnapclr_eq ?_ (by assumption)) | apply Keeps.foldl_from

theorem keeps_execEvflush {r : State} {t : Tile} {s : State} (h : Keeps r s) : KeepsR r (execEvflush t s) := by
  unfold execEvflush
  dsimp only [KeepsR]
  with_reducible repeat' first | intro _ | exact h | assumption | apply keeps_State_agentRun | apply keeps_State_agEvflush | (refine keeps_State_agEvflush_eq ?_ (by assumption)) | apply Keeps.foldl_from

theorem keeps_State_trst {r : State} {s : State} {t : Nat} (h : Keeps r s) : Keeps r (State.trst s t) := by
  unfold State.trst
  with_reducible repeat' first | intro _ | exact h | assumption | apply keeps_State_agentRun | apply keeps_State_agTrst | (refine keeps_State_agTrst_eq ?_ (by assumption)) | apply Keeps.foldl_from

theorem keeps_execHold {r : State} {t : Tile} {s : State} (h : Keeps r s) : KeepsR r (execHold t s) := by
  unfold execHold
  dsimp only [KeepsR]
  with_reducible repeat' first | intro _ | exact h | assumption | apply keeps_State_agentRun | apply keeps_State_agHold | (refine keeps_State_agHold_eq ?_ (by assumption)) | apply Keeps.foldl_from

theorem keeps_execHoldExpiry {r : State} {t : Tile} {s : State} (h : Keeps r s) : KeepsR r (execHoldExpiry t s) := by
  unfold execHoldExpiry
  dsimp only [KeepsR]
  with_reducible repeat' first | exact h | apply keeps_State_untilTick | apply Keeps.setAgent | split

theorem keeps_execSnapshotCapture {r : State} {t : Tile} {s : State} (h : Keeps r s) : KeepsR r (execSnapshotCapture t s) := by
  unfold execSnapshotCapture
  dsimp only [KeepsR]
  with_reducible repeat' first | exact h | apply keeps_State_capture | apply keeps_State_until | apply Keeps.ite

theorem keeps_execSnapshotWake {r : State} {t : Tile} {s : State} (h : Keeps r s) : KeepsR r (execSnapshotWake t s) := by
  unfold execSnapshotWake
  dsimp only [KeepsR]
  with_reducible repeat' first | exact h | apply keeps_State_wake | apply Keeps.ite

theorem keeps_State_configPut {r : State} {s : State} {t : Nat} {off : Nat} {v : W} {strb : BitVec 8} (h : Keeps r s) : Keeps r (State.configPut s t off v strb).1 := by
  unfold State.configPut
  with_reducible repeat' first | exact h | apply keeps_State_tmftWrite | (refine keeps_State_tmftWrite_eq ?_ (by assumption)) | apply keeps_State_tlWrite | (refine keeps_State_tlWrite_eq ?_ (by assumption)) | split
theorem keeps_State_configPut_eq {r : State} {s : State} {t : Nat} {off : Nat} {v : W} {strb : BitVec 8}  {out : State} {b} (h : Keeps r s) (eq1 : State.configPut s t off v strb = (out, b)) : Keeps r out := by
  have k := keeps_State_configPut (s := s) (t := t) (off := off) (v := v) (strb := strb)  (h := h)
  rw [eq1] at k
  exact k

theorem keeps_execConfigRead {r : State} {t : Tile} {tag : BitVec 12} {off : BitVec 26} {s : State} (h : Keeps r s) : KeepsR r (execConfigRead t tag off s) := by
  unfold execConfigRead
  dsimp only [KeepsR]
  with_reducible repeat' first | intro _ | exact h | assumption | apply keeps_State_agentRun | apply Keeps.foldl_from

theorem keeps_execConfigWrite {r : State} {t : Tile} {tag : BitVec 12} {off : BitVec 26} {v : W} {strb : BitVec 8} {s : State} (h : Keeps r s) : KeepsR r (execConfigWrite t tag off v strb s) := by
  unfold execConfigWrite
  dsimp only [KeepsR]
  with_reducible repeat' first | intro _ | exact h | assumption | apply keeps_State_agentRun | apply keeps_State_configPut | (refine keeps_State_configPut_eq ?_ (by assumption)) | apply Keeps.foldl_from | split

theorem keeps_execBarrierConfirm {r : State} {t : Tile} {tag : BitVec 12} {s : State} (h : Keeps r s) : KeepsR r (execBarrierConfirm t tag s) := by
  unfold execBarrierConfirm
  dsimp only [KeepsR]
  with_reducible repeat' first | intro _ | exact h | assumption | apply keeps_State_agentRun | apply Keeps.foldl_from

theorem keeps_State_copyRange {r : State} {s : State} {src : Nat} {dst : Nat} {len : Nat} (h : Keeps r s) : Keeps r (State.copyRange s src dst len) := by
  unfold State.copyRange
  with_reducible repeat' first | intro _ | exact h | assumption | apply Keeps.wr | apply Keeps.resetRegs | apply Keeps.foldl_from

theorem keeps_State_copyBank {r : State} {s : State} {base : Nat} {stride : Nat} {len : Nat} (h : Keeps r s) : Keeps r (State.copyBank s base stride len) := by
  unfold State.copyBank
  with_reducible repeat' first | exact h | apply keeps_State_copyRange

theorem keeps_State_stcopy {r : State} {s : State} {t : Nat} {mask : Nat} (h : Keeps r s) : Keeps r (State.stcopy s t mask) := by
  unfold State.stcopy
  with_reducible repeat' first | intro _ | exact h | assumption | apply keeps_State_copyBank | apply Keeps.foldl_from | split

theorem keeps_execStcopy {r : State} {t : Tile} {tag : BitVec 12} {mask : BitVec 4} {s : State} (h : Keeps r s) : KeepsR r (execStcopy t tag mask s) := by
  unfold execStcopy
  dsimp only [KeepsR]
  with_reducible repeat' first | intro _ | exact h | assumption | apply keeps_State_agentRun | apply keeps_State_stcopy | apply Keeps.foldl_from

theorem keeps_State_agentFlip {r : State} {s : State} {t : Nat} {str : Bool} {hold : Option Plane} (h : Keeps r s) : Keeps r (State.agentFlip s t str hold) := by
  unfold State.agentFlip
  with_reducible repeat' first | intro _ | exact h | assumption | apply keeps_State_setInj | apply keeps_State_putBitAt | apply Keeps.setNi | apply keeps_State_settleTile | apply Keeps.foldl_from | split

theorem keeps_execFlip {r : State} {u : FlipUnit} {stratum : Bool} {hold : Option Plane} {s : State} (h : Keeps r s) : KeepsR r (execFlip u stratum hold s) := by
  unfold execFlip
  dsimp only [KeepsR]
  with_reducible repeat' first | intro _ | exact h | assumption | apply keeps_State_agentRun | apply keeps_State_agentFlip | apply keeps_State_schedFlipped | apply Keeps.foldl_from | split

theorem keeps_State_agentRelease {r : State} {s : State} {t : Nat} (h : Keeps r s) : Keeps r (State.agentRelease s t) := by
  unfold State.agentRelease
  with_reducible repeat' first | exact h | apply keeps_State_putBitAt | apply keeps_State_settleTile | apply keeps_State_sendHeld

theorem keeps_execRelease {r : State} {t : Tile} {stratum : Bool} {s : State} (h : Keeps r s) : KeepsR r (execRelease t stratum s) := by
  unfold execRelease
  dsimp only [KeepsR]
  with_reducible repeat' first | intro _ | exact h | assumption | apply keeps_State_agentRun | apply keeps_State_agentRelease | apply Keeps.foldl_from

theorem keeps_execOldCountGather {r : State} {t : Tile} {tag : BitVec 12} {s : State} (h : Keeps r s) : KeepsR r (execOldCountGather t tag s) := by
  unfold execOldCountGather
  dsimp only [KeepsR]
  with_reducible repeat' first | intro _ | exact h | assumption | apply keeps_State_agentRun | apply Keeps.foldl_from

theorem keeps_State_flushPlane {r : State} {x0 : Nat} {x1 : State} {x2 : Nat} {x3 : Nat} (h : Keeps r x1) : Keeps r (State.flushPlane x0 x1 x2 x3) := by
  induction x0 generalizing x1 with
  | zero => exact h
  | succ n ih =>
    unfold State.flushPlane
    dsimp only
    split
    · exact h
    · exact ih (keeps_State_settle (h := h.foldl_from (fun s a k => keeps_State_sinkStep (h := k)) _))

theorem keeps_execFlush {r : State} {t : Tile} {s : State} (h : Keeps r s) : KeepsR r (execFlush t s) := by
  unfold execFlush
  dsimp only [KeepsR]
  with_reducible repeat' first | intro _ | exact h | assumption | apply keeps_State_agentRun | apply keeps_State_flushPlane | apply Keeps.foldl_from

theorem keeps_execRunlimExpiry {r : State} {c : CtxId} {s : State} (h : Keeps r s) : KeepsR r (execRunlimExpiry c s) := by
  unfold execRunlimExpiry
  dsimp only [KeepsR]
  with_reducible repeat' first | exact h | apply keeps_State_recheck | apply keeps_State_endSoon | apply keeps_State_untilTick | split

theorem keeps_execScrubRead {r : State} {bad : Bool} {s : State} (h : Keeps r s) : KeepsR r (execScrubRead bad s) := by
  unfold execScrubRead
  dsimp only [KeepsR]
  with_reducible repeat' first | exact h | apply keeps_State_recheck | apply keeps_State_machineCheck | apply Keeps.ite | (refine Keeps.upd ?_ rfl; first | exact h | apply keeps_State_recheck | apply keeps_State_machineCheck | apply Keeps.ite)

theorem keeps_execWaitTimeout {r : State} {c : CtxId} {s : State} (h : Keeps r s) : KeepsR r (execWaitTimeout c s) := by
  unfold execWaitTimeout
  dsimp only [KeepsR]
  with_reducible repeat' first | exact h | apply keeps_State_untilTick | apply keeps_State_recheck | apply keeps_State_doneCode | apply keeps_State_barrGo | apply keeps_State_stepExpires | apply keeps_State_barrEnds | apply keeps_State_setWaiting | split

theorem keeps_State_issueAcc {r : State} {s : State} {c : CtxId} {j : Job} {use : AccUse} {write : Bool} {addr : W} {v : W} {strb : BitVec 8} (h : Keeps r s) : Keeps r (State.issueAcc s c j use write addr v strb) := by
  unfold State.issueAcc
  with_reducible repeat' first | exact h | apply keeps_State_arrive | apply keeps_State_setCtx | (refine Keeps.upd ?_ rfl; exact h)

theorem keeps_execWaitcPoll {r : State} {c : CtxId} {s : State} (h : Keeps r s) : KeepsR r (execWaitcPoll c s) := by
  unfold execWaitcPoll
  dsimp only [KeepsR]
  with_reducible repeat' first | exact h | apply keeps_State_recheck | apply keeps_State_issueAcc | split

theorem keeps_execWaittTarget {r : State} {c : CtxId} {s : State} (h : Keeps r s) : KeepsR r (execWaittTarget c s) := by
  unfold execWaittTarget
  dsimp only [KeepsR]
  with_reducible repeat' first | exact h | apply keeps_State_until | apply keeps_State_recheck | apply keeps_State_doneCode | split

theorem keeps_execLockWaitExpiry {r : State} {c : CtxId} {s : State} (h : Keeps r s) : KeepsR r (execLockWaitExpiry c s) := by
  unfold execLockWaitExpiry
  dsimp only [KeepsR]
  with_reducible repeat' first | exact h | apply keeps_State_recheck | apply keeps_State_lockGivesUp | apply keeps_State_untilTick | split

theorem keeps_execLeaseExpiry {r : State} {slot : Fin 64} {s : State} (h : Keeps r s) : KeepsR r (execLeaseExpiry slot s) := by
  unfold execLeaseExpiry
  dsimp only [KeepsR]
  with_reducible repeat' first | exact h | apply keeps_State_untilTick | apply keeps_State_ctPulse | apply keeps_State_recheck | apply keeps_State_grantLock | apply keeps_State_wakeMgmt | apply keeps_State_breakSlot | apply Keeps.ite

theorem keeps_State_tsError {r : State} {s : State} {key : Nat} {n : Nat} (h : Keeps r s) : Keeps r (State.tsError s key n) := by
  unfold State.tsError
  with_reducible repeat' first | exact h | apply keeps_State_updJob

theorem keeps_State_gatherFails {r : State} {s : State} {o : OutCtl} (h : Keeps r s) : Keeps r (State.gatherFails s o) := by
  unfold State.gatherFails
  with_reducible repeat' first | exact h | apply keeps_State_gatherEnds | apply keeps_State_dropCtl

theorem keeps_execCalltoExpiry {r : State} {id : Nat} {s : State} (h : Keeps r s) : KeepsR r (execCalltoExpiry id s) := by
  unfold execCalltoExpiry
  dsimp only [KeepsR]
  with_reducible repeat' first | exact h | apply keeps_State_untilTick | apply keeps_State_tsError | apply keeps_State_dropCtl | apply keeps_State_recheck | apply keeps_State_barrGo | apply keeps_State_callEnds | apply keeps_State_gatherFails | apply keeps_State_opOwn | (refine Keeps.upd ?_ rfl; first | exact h | apply keeps_State_untilTick | apply keeps_State_tsError | apply keeps_State_dropCtl | apply keeps_State_recheck | apply keeps_State_barrGo | apply keeps_State_callEnds | apply keeps_State_gatherFails | apply keeps_State_opOwn) | split

theorem keeps_execFlitArrival {r : State} {t : Tile} {pl : Plane} {port : RPort} {f : RawFlit} {s : State} (h : Keeps r s) : KeepsR r (execFlitArrival t pl port f s) := by
  unfold execFlitArrival
  dsimp only [KeepsR]
  with_reducible repeat' first | exact h | apply keeps_State_recheck | apply keeps_State_flitArrival

theorem keeps_execInjectHeader {r : State} {src : InjSrc} {cls : BitVec 2} {tag : BitVec 12} {s : State} (h : Keeps r s) : KeepsR r (execInjectHeader src cls tag s) := by
  unfold execInjectHeader
  dsimp only [KeepsR]
  with_reducible repeat' first | exact h | apply keeps_State_recheck | apply keeps_State_injectHeader

theorem keeps_execResponseLeavesOnS {r : State} {t : Tile} {p : LPort} {s : State} (h : Keeps r s) : KeepsR r (execResponseLeavesOnS t p s) := by
  unfold execResponseLeavesOnS
  dsimp only [KeepsR]
  with_reducible repeat' first | exact h | apply keeps_State_recheck | apply keeps_State_leaveS

theorem keeps_execEndpointResetAssert {r : State} {t : Tile} {p : LPort} {s : State} (h : Keeps r s) : KeepsR r (execEndpointResetAssert t p s) := by
  unfold execEndpointResetAssert
  dsimp only [KeepsR]
  with_reducible repeat' first | exact h | apply keeps_State_recheck | apply keeps_State_epReset

theorem keeps_execAbortTimeout {r : State} {t : Tile} {p : LPort} {s : State} (h : Keeps r s) : KeepsR r (execAbortTimeout t p s) := by
  unfold execAbortTimeout
  dsimp only [KeepsR]
  with_reducible repeat' first | exact h | apply keeps_State_recheck | apply keeps_State_abortTimeout

theorem keeps_execRdata {r : State} {t : Tile} {p : LPort} {s : State} (h : Keeps r s) : KeepsR r (execRdata t p s) := by
  unfold execRdata
  dsimp only [KeepsR]
  with_reducible repeat' first | exact h | apply keeps_State_recheck | apply keeps_State_rdataIn

theorem keeps_execWack {r : State} {t : Tile} {p : LPort} {s : State} (h : Keeps r s) : KeepsR r (execWack t p s) := by
  unfold execWack
  dsimp only [KeepsR]
  with_reducible repeat' first | exact h | apply keeps_State_recheck | apply keeps_State_wackIn

theorem keeps_execTrst {r : State} {t : Tile} {s : State} (h : Keeps r s) : KeepsR r (execTrst t s) := by
  unfold execTrst
  dsimp only [KeepsR]
  with_reducible repeat' first | exact h | apply keeps_State_recheck | apply keeps_State_trst

theorem keeps_execResponseTimeout {r : State} {t : Tile} {p : LPort} {tag : BitVec 12} {s : State} (h : Keeps r s) : KeepsR r (execResponseTimeout t p tag s) := by
  unfold execResponseTimeout
  dsimp only [KeepsR]
  with_reducible repeat' first | exact h | apply keeps_State_recheck | apply keeps_State_responseTimeout

theorem keeps_State_fetched {r : State} {s : State} {c : CtxId} {j : Job} (h : Keeps r s) : Keeps r (State.fetched s c j) := by
  unfold State.fetched
  with_reducible repeat' first | exact h | apply keeps_State_setCtx

theorem keeps_State_issue {r : State} {s : State} {c : CtxId} {op : Nat} {act : State → Job → BitVec 32 → State} (hact : ∀ (r : State) (a0 : State) (a1 : Job) (a2 : BitVec 32), Keeps r a0 → Keeps r (act a0 a1 a2)) (h : Keeps r s) : Keeps r (State.issue s c op act) := by
  unfold State.issue
  with_reducible repeat' first | exact h | assumption | apply hact | apply keeps_State_recheck | apply keeps_State_trapWith | apply keeps_State_fetched | apply keeps_State_machineCheck | apply keeps_State_trap | split | (dsimp only)

theorem keeps_State_compute {r : State} {s : State} {c : CtxId} {op : Nat} {f : Job → BitVec 32 → W} (h : Keeps r s) : Keeps r (State.compute s c op f) := by
  unfold State.compute
  with_reducible repeat' first | intro _ | exact h | assumption | apply keeps_State_issue | apply keeps_State_doneRd | apply Keeps.foldl_from

theorem keeps_State_aluA {r : State} {s : State} {c : CtxId} {op : Nat} {f : W → W → W} (h : Keeps r s) : Keeps r (State.aluA s c op f) := by
  unfold State.aluA
  with_reducible repeat' first | exact h | apply keeps_State_compute

theorem keeps_State_aluI {r : State} {s : State} {c : CtxId} {op : Nat} {ext : BitVec 32 → W} {f : W → W → W} (h : Keeps r s) : Keeps r (State.aluI s c op ext f) := by
  unfold State.aluI
  with_reducible repeat' first | exact h | apply keeps_State_compute

theorem keeps_State_access {r : State} {s : State} {c : CtxId} {j : Job} {use : AccUse} {write : Bool} {n : Nat} {addr : W} {v : W} {strb : BitVec 8} (h : Keeps r s) : Keeps r (State.access s c j use write n addr v strb) := by
  unfold State.access
  with_reducible repeat' first | exact h | apply keeps_State_trap | apply keeps_State_doneCode | apply keeps_State_issueAcc | apply keeps_State_setCtx | split

theorem keeps_execLdc {r : State} {c : CtxId} {s : State} (h : Keeps r s) : KeepsR r (execLdc c s) := by
  unfold execLdc
  dsimp only [KeepsR]
  with_reducible repeat' first | intro _ | exact h | assumption | apply keeps_State_issue | apply keeps_State_access | apply Keeps.foldl_from

theorem keeps_execLdcw {r : State} {c : CtxId} {s : State} (h : Keeps r s) : KeepsR r (execLdcw c s) := by
  unfold execLdcw
  dsimp only [KeepsR]
  with_reducible repeat' first | intro _ | exact h | assumption | apply keeps_State_issue | apply keeps_State_access | apply Keeps.foldl_from

theorem keeps_execStc {r : State} {c : CtxId} {s : State} (h : Keeps r s) : KeepsR r (execStc c s) := by
  unfold execStc
  dsimp only [KeepsR]
  with_reducible repeat' first | intro _ | exact h | assumption | apply keeps_State_issue | apply keeps_State_access | apply Keeps.foldl_from

theorem keeps_execStcw {r : State} {c : CtxId} {s : State} (h : Keeps r s) : KeepsR r (execStcw c s) := by
  unfold execStcw
  dsimp only [KeepsR]
  with_reducible repeat' first | intro _ | exact h | assumption | apply keeps_State_issue | apply keeps_State_access | apply Keeps.foldl_from

theorem keeps_execStcs {r : State} {c : CtxId} {s : State} (h : Keeps r s) : KeepsR r (execStcs c s) := by
  unfold execStcs
  dsimp only [KeepsR]
  with_reducible repeat' first | intro _ | exact h | assumption | apply keeps_State_issue | apply keeps_State_access | apply Keeps.foldl_from

theorem keeps_State_waitcStart {r : State} {s : State} {c : CtxId} {j : Job} {w : BitVec 32} (h : Keeps r s) : Keeps r (State.waitcStart s c j w) := by
  unfold State.waitcStart
  with_reducible repeat' first | exact h | assumption | apply keeps_State_await | apply keeps_State_trap | apply keeps_State_doneCode | apply keeps_State_issueAcc | split | (dsimp only)

theorem keeps_execWaitc {r : State} {c : CtxId} {s : State} (h : Keeps r s) : KeepsR r (execWaitc c s) := by
  unfold execWaitc
  dsimp only [KeepsR]
  with_reducible repeat' first | intro _ | exact h | assumption | apply keeps_State_issue | apply keeps_State_waitcStart | apply Keeps.foldl_from

theorem keeps_execAdd {r : State} {c : CtxId} {s : State} (h : Keeps r s) : KeepsR r (execAdd c s) := by
  unfold execAdd
  dsimp only [KeepsR]
  with_reducible repeat' first | exact h | apply keeps_State_aluA

theorem keeps_execSub {r : State} {c : CtxId} {s : State} (h : Keeps r s) : KeepsR r (execSub c s) := by
  unfold execSub
  dsimp only [KeepsR]
  with_reducible repeat' first | exact h | apply keeps_State_aluA

theorem keeps_execAnd {r : State} {c : CtxId} {s : State} (h : Keeps r s) : KeepsR r (execAnd c s) := by
  unfold execAnd
  dsimp only [KeepsR]
  with_reducible repeat' first | exact h | apply keeps_State_aluA

theorem keeps_execOr {r : State} {c : CtxId} {s : State} (h : Keeps r s) : KeepsR r (execOr c s) := by
  unfold execOr
  dsimp only [KeepsR]
  with_reducible repeat' first | exact h | apply keeps_State_aluA

theorem keeps_execXor {r : State} {c : CtxId} {s : State} (h : Keeps r s) : KeepsR r (execXor c s) := by
  unfold execXor
  dsimp only [KeepsR]
  with_reducible repeat' first | exact h | apply keeps_State_aluA

theorem keeps_execSll {r : State} {c : CtxId} {s : State} (h : Keeps r s) : KeepsR r (execSll c s) := by
  unfold execSll
  dsimp only [KeepsR]
  with_reducible repeat' first | exact h | apply keeps_State_aluA

theorem keeps_execSrl {r : State} {c : CtxId} {s : State} (h : Keeps r s) : KeepsR r (execSrl c s) := by
  unfold execSrl
  dsimp only [KeepsR]
  with_reducible repeat' first | exact h | apply keeps_State_aluA

theorem keeps_execSra {r : State} {c : CtxId} {s : State} (h : Keeps r s) : KeepsR r (execSra c s) := by
  unfold execSra
  dsimp only [KeepsR]
  with_reducible repeat' first | exact h | apply keeps_State_aluA

theorem keeps_execMul {r : State} {c : CtxId} {s : State} (h : Keeps r s) : KeepsR r (execMul c s) := by
  unfold execMul
  dsimp only [KeepsR]
  with_reducible repeat' first | exact h | apply keeps_State_aluA

theorem keeps_execCeq {r : State} {c : CtxId} {s : State} (h : Keeps r s) : KeepsR r (execCeq c s) := by
  unfold execCeq
  dsimp only [KeepsR]
  with_reducible repeat' first | exact h | apply keeps_State_aluA

theorem keeps_execClt {r : State} {c : CtxId} {s : State} (h : Keeps r s) : KeepsR r (execClt c s) := by
  unfold execClt
  dsimp only [KeepsR]
  with_reducible repeat' first | exact h | apply keeps_State_aluA

theorem keeps_execCltu {r : State} {c : CtxId} {s : State} (h : Keeps r s) : KeepsR r (execCltu c s) := by
  unfold execCltu
  dsimp only [KeepsR]
  with_reducible repeat' first | exact h | apply keeps_State_aluA

theorem keeps_execAddi {r : State} {c : CtxId} {s : State} (h : Keeps r s) : KeepsR r (execAddi c s) := by
  unfold execAddi
  dsimp only [KeepsR]
  with_reducible repeat' first | exact h | apply keeps_State_aluI

theorem keeps_execAndi {r : State} {c : CtxId} {s : State} (h : Keeps r s) : KeepsR r (execAndi c s) := by
  unfold execAndi
  dsimp only [KeepsR]
  with_reducible repeat' first | exact h | apply keeps_State_aluI

theorem keeps_execOri {r : State} {c : CtxId} {s : State} (h : Keeps r s) : KeepsR r (execOri c s) := by
  unfold execOri
  dsimp only [KeepsR]
  with_reducible repeat' first | exact h | apply keeps_State_aluI

theorem keeps_execXori {r : State} {c : CtxId} {s : State} (h : Keeps r s) : KeepsR r (execXori c s) := by
  unfold execXori
  dsimp only [KeepsR]
  with_reducible repeat' first | exact h | apply keeps_State_aluI

theorem keeps_execSlli {r : State} {c : CtxId} {s : State} (h : Keeps r s) : KeepsR r (execSlli c s) := by
  unfold execSlli
  dsimp only [KeepsR]
  with_reducible repeat' first | exact h | apply keeps_State_aluI

theorem keeps_execSrli {r : State} {c : CtxId} {s : State} (h : Keeps r s) : KeepsR r (execSrli c s) := by
  unfold execSrli
  dsimp only [KeepsR]
  with_reducible repeat' first | exact h | apply keeps_State_aluI

theorem keeps_execSrai {r : State} {c : CtxId} {s : State} (h : Keeps r s) : KeepsR r (execSrai c s) := by
  unfold execSrai
  dsimp only [KeepsR]
  with_reducible repeat' first | exact h | apply keeps_State_aluI

theorem keeps_execCeqi {r : State} {c : CtxId} {s : State} (h : Keeps r s) : KeepsR r (execCeqi c s) := by
  unfold execCeqi
  dsimp only [KeepsR]
  with_reducible repeat' first | exact h | apply keeps_State_aluI

theorem keeps_execClti {r : State} {c : CtxId} {s : State} (h : Keeps r s) : KeepsR r (execClti c s) := by
  unfold execClti
  dsimp only [KeepsR]
  with_reducible repeat' first | exact h | apply keeps_State_aluI

theorem keeps_execCltui {r : State} {c : CtxId} {s : State} (h : Keeps r s) : KeepsR r (execCltui c s) := by
  unfold execCltui
  dsimp only [KeepsR]
  with_reducible repeat' first | exact h | apply keeps_State_aluI

theorem keeps_execExt {r : State} {c : CtxId} {s : State} (h : Keeps r s) : KeepsR r (execExt c s) := by
  unfold execExt
  dsimp only [KeepsR]
  with_reducible repeat' first | exact h | apply keeps_State_compute

theorem keeps_execIns {r : State} {c : CtxId} {s : State} (h : Keeps r s) : KeepsR r (execIns c s) := by
  unfold execIns
  dsimp only [KeepsR]
  with_reducible repeat' first | exact h | apply keeps_State_compute

theorem keeps_execLi {r : State} {c : CtxId} {s : State} (h : Keeps r s) : KeepsR r (execLi c s) := by
  unfold execLi
  dsimp only [KeepsR]
  with_reducible repeat' first | exact h | apply keeps_State_compute

theorem keeps_execLih {r : State} {c : CtxId} {s : State} (h : Keeps r s) : KeepsR r (execLih c s) := by
  unfold execLih
  dsimp only [KeepsR]
  with_reducible repeat' first | exact h | apply keeps_State_compute

end Sys2Proof.Machine
end

