-- ==== Sys2Proof/Laws/KeepsCmds.lean ====
section
/-! SUPPORT. One lemma per operation of boot, fuses, resets and the commands that act on them: it keeps the queue of commands, the parameter set and the canonical form of the tables. -/
set_option maxRecDepth 4000
namespace Sys2Proof.Machine

theorem keeps_State_setFuse {r : State} {s : State} {w : Nat} {v : W} (h : Keeps r s) : Keeps r (State.setFuse s w v) := by
  unfold State.setFuse
  exact h.tap _ (fun c => wf_tput (d := fun _ => 0) _ _ c)

theorem keeps_State_sense {r : State} {s : State} (h : Keeps r s) : Keeps r (State.sense s) := by
  unfold State.sense
  with_reducible repeat' first | intro _ | exact h | assumption | apply keeps_State_putBitAt | apply Keeps.wr | apply Keeps.foldl_from | split

theorem keeps_State_loadFz {r : State} {s : State} (h : Keeps r s) : Keeps r (State.loadFz s) := by
  unfold State.loadFz
  with_reducible repeat' first | intro _ | exact h | assumption | apply keeps_State_pb | apply Keeps.wr | apply keeps_State_p | apply Keeps.foldl_from | apply Keeps.ite | (refine Keeps.upd ?_ rfl; first | exact h | assumption | apply keeps_State_pb | apply Keeps.wr | apply keeps_State_p | apply Keeps.foldl_from | apply Keeps.ite) | split | (dsimp only)

theorem keeps_State_fuseEvents {r : State} {s : State} (h : Keeps r s) : Keeps r (State.fuseEvents s) := by
  unfold State.fuseEvents
  with_reducible repeat' first | exact h | apply keeps_State_raiseBasalt | apply Keeps.ite

theorem keeps_State_tapSelect {r : State} {s : State} {ir : BitVec 4} {captured : W} (h : Keeps r s) : Keeps r (State.tapSelect s ir captured) := by
  unfold State.tapSelect
  with_reducible repeat' first | exact h | (refine Keeps.upd ?_ rfl; exact h)

theorem keeps_execTapReset {r : State} {s : State} (h : Keeps r s) : KeepsR r (execTapReset s) := by
  unfold execTapReset
  dsimp only [KeepsR]
  with_reducible repeat' first | exact h | apply keeps_State_tapSelect

theorem keeps_execIdcode {r : State} {s : State} (h : Keeps r s) : KeepsR r (execIdcode s) := by
  unfold execIdcode
  dsimp only [KeepsR]
  with_reducible repeat' first | exact h | apply keeps_State_tapSelect

theorem keeps_execFaddr {r : State} {v : BitVec 8} {s : State} (h : Keeps r s) : KeepsR r (execFaddr v s) := by
  unfold execFaddr
  dsimp only [KeepsR]
  with_reducible repeat' first | exact h | apply keeps_State_tapSelect | (refine Keeps.upd ?_ rfl; exact h)

theorem keeps_execFdata {r : State} {v : W} {s : State} (h : Keeps r s) : KeepsR r (execFdata v s) := by
  unfold execFdata
  dsimp only [KeepsR]
  with_reducible repeat' first | exact h | apply keeps_State_tapSelect | (refine Keeps.upd ?_ rfl; exact h)

theorem keeps_execFread {r : State} {s : State} (h : Keeps r s) : KeepsR r (execFread s) := by
  unfold execFread
  dsimp only [KeepsR]
  with_reducible repeat' first | exact h | apply keeps_State_tapSelect

theorem keeps_execBypass {r : State} {s : State} (h : Keeps r s) : KeepsR r (execBypass s) := by
  unfold execBypass
  dsimp only [KeepsR]
  with_reducible repeat' first | exact h | apply keeps_State_tapSelect

theorem keeps_State_setFp {r : State} {s : State} {st : BitVec 8} {prog : Option Nat} (h : Keeps r s) : Keeps r (State.setFp s st prog) := by
  unfold State.setFp
  with_reducible repeat' first | exact h | (refine Keeps.upd ?_ rfl; exact h)

theorem keeps_State_fprogRun {r : State} {s : State} {vpp : Bool} (h : Keeps r s) : Keeps r (State.fprogRun s vpp) := by
  unfold State.fprogRun
  with_reducible repeat' first | exact h | apply keeps_State_setFp | apply Keeps.ite

theorem keeps_execFprog {r : State} {idle : Option Bool} {s : State} (h : Keeps r s) : KeepsR r (execFprog idle s) := by
  unfold execFprog
  dsimp only [KeepsR]
  with_reducible repeat' first | exact h | apply keeps_State_tapSelect | apply keeps_State_fprogRun | split

theorem keeps_State_blow {r : State} {s : State} {w : Nat} {v : W} (h : Keeps r s) : Keeps r (State.blow s w v) := by
  unfold State.blow
  with_reducible repeat' first | exact h | apply keeps_State_setFuse

theorem keeps_State_blowSome {r : State} {s : State} {w : Nat} {stopped : Bool} (h : Keeps r s) : Keeps r (State.blowSome s w stopped) := by
  unfold State.blowSome
  with_reducible repeat' first | exact h | apply keeps_State_blow | apply keeps_State_nextFree | apply Keeps.ite

theorem keeps_execFuseProgramDone {r : State} {blown : Bool} {s : State} (h : Keeps r s) : KeepsR r (execFuseProgramDone blown s) := by
  unfold execFuseProgramDone
  dsimp only [KeepsR]
  with_reducible repeat' first | exact h | apply keeps_State_blow | apply keeps_State_setFp | apply keeps_State_blowSome | split

theorem keeps_State_fuseStops {r : State} {s : State} {st : BitVec 8} (h : Keeps r s) : Keeps r (State.fuseStops s st) := by
  unfold State.fuseStops
  with_reducible repeat' first | exact h | apply keeps_State_setFp | apply keeps_State_blowSome | split

theorem keeps_execFuseVppLoss {r : State} {s : State} (h : Keeps r s) : KeepsR r (execFuseVppLoss s) := by
  unfold execFuseVppLoss
  dsimp only [KeepsR]
  with_reducible repeat' first | exact h | apply keeps_State_fuseStops

theorem keeps_execMbist {r : State} {group : BitVec 8} {start : Option Bool} {s : State} (h : Keeps r s) : KeepsR r (execMbist group start s) := by
  unfold execMbist
  dsimp only [KeepsR]
  with_reducible repeat' first | exact h | apply keeps_State_tapSelect | (refine Keeps.upd ?_ rfl; exact h)

theorem keeps_State_setBootState {r : State} {s : State} {n : Nat} (h : Keeps r s) : Keeps r (State.setBootState s n) := by
  unfold State.setBootState
  with_reducible repeat' first | exact h | apply keeps_State_p

theorem keeps_execSfdpDiscovery {r : State} {t : Sfdp} {s : State} (h : Keeps r s) : KeepsR r (execSfdpDiscovery t s) := by
  unfold execSfdpDiscovery
  dsimp only [KeepsR]
  with_reducible repeat' first | exact h | apply keeps_State_pb | apply keeps_State_p | apply keeps_State_setBootState | apply Keeps.ite

theorem keeps_State_setRes {r : State} {s : State} {slot : Bool} {code : Nat} (h : Keeps r s) : Keeps r (State.setRes s slot code) := by
  unfold State.setRes
  with_reducible repeat' first | exact h | apply keeps_State_p

theorem keeps_State_bootEvent {r : State} {s : State} (h : Keeps r s) : Keeps r (State.bootEvent s) := by
  unfold State.bootEvent
  with_reducible repeat' first | exact h | apply keeps_State_raiseBasalt | apply Keeps.ite

theorem keeps_State_bootFailed {r : State} {s : State} (h : Keeps r s) : Keeps r (State.bootFailed s) := by
  unfold State.bootFailed
  with_reducible repeat' first | exact h | apply keeps_State_bootEvent | apply keeps_State_setBootState | (refine Keeps.upd ?_ rfl; first | exact h | apply keeps_State_bootEvent | apply keeps_State_setBootState)

theorem keeps_State_examine {r : State} {s : State} {slot : Bool} {b0 : List Byte} (h : Keeps r s) : Keeps r (State.examine s slot b0).1 := by
  unfold State.examine
  with_reducible repeat' first | exact h | apply keeps_State_setRes | split
theorem keeps_State_examine_eq {r : State} {s : State} {slot : Bool} {b0 : List Byte}  {out : State} {b} (h : Keeps r s) (eq1 : State.examine s slot b0 = (out, b)) : Keeps r out := by
  have k := keeps_State_examine (s := s) (slot := slot) (b0 := b0)  (h := h)
  rw [eq1] at k
  exact k

theorem keeps_execSlotHeaderCheck {r : State} {a : List Byte} {b : List Byte} {s : State} (h : Keeps r s) : KeepsR r (execSlotHeaderCheck a b s) := by
  unfold execSlotHeaderCheck
  dsimp only [KeepsR]
  with_reducible repeat' first | exact h | apply keeps_State_examine | (refine keeps_State_examine_eq ?_ (by assumption)) | apply keeps_State_bootFailed | apply keeps_State_setBootState | apply Keeps.ite | (refine Keeps.upd ?_ rfl; first | exact h | apply keeps_State_examine | (refine keeps_State_examine_eq ?_ (by assumption)) | apply keeps_State_bootFailed | apply keeps_State_setBootState | apply Keeps.ite)

theorem keeps_State_loadDisp {r : State} {s : State} {bs : List Byte} (h : Keeps r s) : Keeps r (State.loadDisp s bs) := by
  unfold State.loadDisp
  with_reducible repeat' first | intro _ | exact h | assumption | apply Keeps.wr | apply Keeps.foldl_from

theorem keeps_State_loadMcode {r : State} {s : State} {bs : List Byte} (h : Keeps r s) : Keeps r (State.loadMcode s bs) := by
  unfold State.loadMcode
  exact ⟨h.pending, h.build, fun c => { h.canon c with micro := wf_range _ _ }⟩

theorem keeps_State_setMdig {r : State} {s : State} {d : List Byte} (h : Keeps r s) : Keeps r (State.setMdig s d) := by
  unfold State.setMdig
  with_reducible repeat' first | intro _ | exact h | assumption | apply Keeps.wr | apply Keeps.foldl_from

theorem keeps_State_bootReady {r : State} {s : State} (h : Keeps r s) : Keeps r (State.bootReady s) := by
  unfold State.bootReady
  with_reducible repeat' first | exact h | apply keeps_State_setRes | (refine Keeps.upd ?_ rfl; first | exact h | apply keeps_State_setRes)

theorem keeps_State_slotLoaded {r : State} {s : State} {h0 : SlotHdr} {xs : List (Sect × List Byte)} (h : Keeps r s) : Keeps r (State.slotLoaded s h0 xs) := by
  unfold State.slotLoaded
  with_reducible repeat' first | exact h | apply keeps_State_setMdig | apply keeps_State_setBootState | apply keeps_State_bootReady | apply Keeps.ite | (refine Keeps.upd ?_ rfl; first | exact h | apply keeps_State_setMdig | apply keeps_State_setBootState | apply keeps_State_bootReady | apply Keeps.ite)

theorem keeps_State_slotFails {r : State} {s : State} {code : Nat} (h : Keeps r s) : Keeps r (State.slotFails s code) := by
  unfold State.slotFails
  with_reducible repeat' first | exact h | apply keeps_State_setRes | apply keeps_State_setBootState | apply keeps_State_bootFailed | apply Keeps.ite | (refine Keeps.upd ?_ rfl; first | exact h | apply keeps_State_setRes | apply keeps_State_setBootState | apply keeps_State_bootFailed | apply Keeps.ite)

theorem keeps_State_handedOver {r : State} {s : State} (h : Keeps r s) : Keeps r (State.handedOver s) := by
  unfold State.handedOver
  with_reducible repeat' first | exact h | apply keeps_State_pb | apply keeps_State_p | apply keeps_State_bootEvent | apply keeps_State_setBootState | apply Keeps.ite | (refine Keeps.upd ?_ rfl; first | exact h | apply keeps_State_pb | apply keeps_State_p | apply keeps_State_bootEvent | apply keeps_State_setBootState | apply Keeps.ite)

theorem keeps_State_loadAct {r : State} {s : State} {x1 : LoadStep} (h : Keeps r s) : Keeps r (State.loadAct s x1) := by
  unfold State.loadAct
  with_reducible repeat' first | exact h | apply keeps_State_loadDisp | apply keeps_State_loadMcode | apply keeps_State_slotLoaded | apply keeps_State_slotFails | apply keeps_State_handedOver | split

theorem keeps_State_setTodo {r : State} {s : State} {l : List LoadStep} (h : Keeps r s) : Keeps r (State.setTodo s l) := by
  unfold State.setTodo
  with_reducible repeat' first | exact h | (refine Keeps.upd ?_ rfl; exact h)

theorem keeps_State_loadRun {r : State} {x0 : List LoadStep} {x1 : State} (h : Keeps r x1) : Keeps r (State.loadRun x0 x1) := by
  induction x0 generalizing x1 with
  | nil => exact keeps_State_setTodo (h := h)
  | cons x rest ih =>
    cases x with
    | write o v b =>
      unfold State.loadRun
      dsimp only
      split
      · exact ih (keeps_State_presentLocal (h := h.setXport ..))
      · exact keeps_State_setTodo (h := keeps_State_pendAcc (h := h))
    | _ => exact ih (keeps_State_loadAct (h := h))

theorem keeps_State_loadGo {r : State} {s : State} (h : Keeps r s) : Keeps r (State.loadGo s) := by
  unfold State.loadGo
  with_reducible repeat' first | exact h | apply keeps_State_loadRun | apply Keeps.ite

theorem keeps_State_loadSlot {r : State} {s : State} {h0 : SlotHdr} {bs : List (List Byte)} (h : Keeps r s) : Keeps r (State.loadSlot s h0 bs) := by
  unfold State.loadSlot
  with_reducible repeat' first | exact h | assumption | apply keeps_State_loadRun | split | (dsimp only)

theorem keeps_execSectionLoad {r : State} {slot : Bool} {sections : List (List Byte)} {s : State} (h : Keeps r s) : KeepsR r (execSectionLoad slot sections s) := by
  unfold execSectionLoad
  dsimp only [KeepsR]
  with_reducible repeat' first | exact h | apply keeps_State_loadSlot | split

theorem keeps_execSignatureCheck {r : State} {s : State} (h : Keeps r s) : KeepsR r (execSignatureCheck s) := by
  unfold execSignatureCheck
  dsimp only [KeepsR]
  with_reducible repeat' first | exact h | apply keeps_State_bootReady | apply keeps_State_slotFails | split

theorem keeps_State_toChildren {r : State} {s : State} {src : Nat} {b : FrameBody} (h : Keeps r s) : Keeps r (State.toChildren s src b) := by
  unfold State.toChildren
  with_reducible repeat' first | intro _ | exact h | assumption | apply keeps_State_sendFrame | apply Keeps.foldl_from

theorem keeps_State_broadcast {r : State} {s : State} (h : Keeps r s) : Keeps r (State.broadcast s) := by
  unfold State.broadcast
  with_reducible repeat' first | intro _ | exact h | assumption | apply keeps_State_toChildren | apply keeps_State_nextFree | apply Keeps.foldl_from

theorem keeps_State_broadcastGo {r : State} {s : State} (h : Keeps r s) : Keeps r (State.broadcastGo s) := by
  unfold State.broadcastGo
  with_reducible repeat' first | exact h | apply keeps_State_broadcast | apply Keeps.ite | (refine Keeps.upd ?_ rfl; first | exact h | apply keeps_State_broadcast | apply Keeps.ite)

theorem keeps_execHandover {r : State} {s : State} (h : Keeps r s) : KeepsR r (execHandover s) := by
  unfold execHandover
  dsimp only [KeepsR]
  with_reducible repeat' first | exact h | apply keeps_State_broadcastGo | apply keeps_State_loadRun | apply Keeps.ite | (refine Keeps.upd ?_ rfl; first | exact h | apply keeps_State_broadcastGo | apply keeps_State_loadRun | apply Keeps.ite)

theorem keeps_execPortGrant {r : State} {j : Fin 11} {s : State} (h : Keeps r s) : KeepsR r (execPortGrant j s) := by
  unfold execPortGrant
  dsimp only [KeepsR]
  with_reducible repeat' first | exact h | apply keeps_State_recheck | apply keeps_State_broadcastGo | apply keeps_State_loadGo | apply keeps_State_portGrant

theorem keeps_State_chainRequest {r : State} {s : State} (h : Keeps r s) : Keeps r (State.chainRequest s) := by
  unfold State.chainRequest
  with_reducible repeat' first | exact h | apply keeps_State_sendFrame | apply keeps_State_pb | apply keeps_State_setBootState | apply Keeps.ite | (refine Keeps.upd ?_ rfl; first | exact h | apply keeps_State_sendFrame | apply keeps_State_pb | apply keeps_State_setBootState | apply Keeps.ite)

theorem keeps_State_reloadEnds {r : State} {s : State} {good : Option (List (Sect × List Byte))} (h : Keeps r s) : Keeps r (State.reloadEnds s good) := by
  unfold State.reloadEnds
  with_reducible repeat' first | exact h | apply keeps_State_setBootState | apply keeps_State_pb | apply keeps_State_loadMcode | apply keeps_State_loadDisp | apply keeps_State_raise | apply Keeps.ite | (refine Keeps.upd ?_ rfl; first | exact h | apply keeps_State_setBootState | apply keeps_State_pb | apply keeps_State_loadMcode | apply keeps_State_loadDisp | apply keeps_State_raise | apply Keeps.ite) | split

theorem keeps_execMicrocodeReload {r : State} {ok : Bool} {s : State} (h : Keeps r s) : KeepsR r (execMicrocodeReload ok s) := by
  unfold execMicrocodeReload
  dsimp only [KeepsR]
  with_reducible repeat' first | exact h | apply keeps_State_reloadEnds | apply Keeps.ite

theorem keeps_State_chainImage {r : State} {s : State} {slot : Bool} (h : Keeps r s) : Keeps r (State.chainImage s slot) := by
  unfold State.chainImage
  with_reducible repeat' first | exact h | assumption | apply keeps_State_bootFailed | apply keeps_State_setRes | apply keeps_State_pb | apply keeps_State_loadSlot | apply keeps_State_setBootState | (refine Keeps.upd ?_ rfl; first | exact h | assumption | apply keeps_State_bootFailed | apply keeps_State_setRes | apply keeps_State_pb | apply keeps_State_loadSlot | apply keeps_State_setBootState) | split | (dsimp only)

theorem keeps_State_chainReload {r : State} {s : State} (h : Keeps r s) : Keeps r (State.chainReload s) := by
  unfold State.chainReload
  with_reducible repeat' first | exact h | apply keeps_State_reloadEnds

theorem keeps_execTrain {r : State} {p : ChPort} {roleD : Bool} {rxok : Bool} {_member : BitVec 16} {s : State} (h : Keeps r s) : KeepsR r (execTrain p roleD rxok _member s) := by
  unfold execTrain
  dsimp only [KeepsR]
  with_reducible repeat' first | exact h | apply keeps_State_recheck | apply keeps_State_chainRequest | apply keeps_State_portLost | apply keeps_State_trainIn

theorem keeps_State_ackIn {r : State} {s : State} {p : Nat} {seq : BitVec 8} (h : Keeps r s) : Keeps r (State.ackIn s p seq) := by
  unfold State.ackIn
  with_reducible repeat' first | exact h | apply keeps_State_rootUp | apply keeps_State_setCport | apply Keeps.ite

theorem keeps_execAck {r : State} {p : ChPort} {seq : BitVec 8} {s : State} (h : Keeps r s) : KeepsR r (execAck p seq s) := by
  unfold execAck
  dsimp only [KeepsR]
  with_reducible repeat' first | exact h | apply keeps_State_broadcastGo | apply keeps_State_ackIn

theorem keeps_execNak {r : State} {p : ChPort} {seq : BitVec 8} {s : State} (h : Keeps r s) : KeepsR r (execNak p seq s) := by
  unfold execNak
  dsimp only [KeepsR]
  with_reducible repeat' first | exact h | apply keeps_State_rootUp | apply keeps_State_recheck | apply keeps_State_broadcastGo | apply keeps_State_portLost | apply keeps_State_replay | apply keeps_State_ackIn | apply Keeps.ite

theorem keeps_execReplayTimeout {r : State} {p : ChPort} {s : State} (h : Keeps r s) : KeepsR r (execReplayTimeout p s) := by
  unfold execReplayTimeout
  dsimp only [KeepsR]
  with_reducible repeat' first | exact h | apply keeps_State_recheck | apply keeps_State_broadcastGo | apply keeps_State_portLost | apply keeps_State_replay | apply Keeps.ite

theorem keeps_execLinkSilence {r : State} {p : ChPort} {s : State} (h : Keeps r s) : KeepsR r (execLinkSilence p s) := by
  unfold execLinkSilence
  dsimp only [KeepsR]
  with_reducible repeat' first | exact h | apply keeps_State_recheck | apply keeps_State_broadcastGo | apply keeps_State_portLost | apply keeps_State_portDown | apply Keeps.ite

theorem keeps_execEnum {r : State} {hdr : FrameHdr} {gen : BitVec 8} {next : BitVec 8} {depth : BitVec 8} {s : State} (h : Keeps r s) : KeepsR r (execEnum hdr gen next depth s) := by
  unfold execEnum
  dsimp only [KeepsR]
  with_reducible repeat' first | intro _ | exact h | assumption | apply keeps_State_chainRequest | apply keeps_State_takeFrame | apply keeps_State_enumIn | apply Keeps.foldl_from

theorem keeps_State_opLocal {r : State} {s : State} {opid : BitVec 16} {x : Option SpreadOp} {func : BitVec 8} {args : List W} (h : Keeps r s) : Keeps r (State.opLocal s opid x func args) := by
  unfold State.opLocal
  with_reducible repeat' first | exact h | apply keeps_State_sendSpread | split

theorem keeps_State_opdnIn {r : State} {s : State} {opid : BitVec 16} {kind : BitVec 8} {func : BitVec 8} {args : List W} (h : Keeps r s) : Keeps r (State.opdnIn s opid kind func args) := by
  unfold State.opdnIn
  with_reducible repeat' first | exact h | apply keeps_State_badFrame | apply keeps_State_sendFrame | apply keeps_State_opLocal | apply keeps_State_opStart | split

theorem keeps_execOpdn {r : State} {hdr : FrameHdr} {opid : BitVec 16} {kind : BitVec 8} {func : BitVec 8} {args : List W} {s : State} (h : Keeps r s) : KeepsR r (execOpdn hdr opid kind func args s) := by
  unfold execOpdn
  dsimp only [KeepsR]
  with_reducible repeat' first | intro _ | exact h | assumption | apply keeps_State_takeFrame | apply keeps_State_opdnIn | apply Keeps.foldl_from | split

theorem keeps_State_opupIn {r : State} {s : State} {p : Nat} {opid : BitVec 16} {resp : BitVec 8} {value : W} {counts : W} (h : Keeps r s) : Keeps r (State.opupIn s p opid resp value counts) := by
  unfold State.opupIn
  with_reducible repeat' first | exact h | apply keeps_State_recheck | apply keeps_State_barrGo | apply keeps_State_opChild | apply Keeps.ite

theorem keeps_execOpup {r : State} {p : ChPort} {hdr : FrameHdr} {opid : BitVec 16} {resp : BitVec 8} {value : W} {counts : W} {s : State} (h : Keeps r s) : KeepsR r (execOpup p hdr opid resp value counts s) := by
  unfold execOpup
  dsimp only [KeepsR]
  with_reducible repeat' first | intro _ | exact h | assumption | apply keeps_State_takeFrame | apply keeps_State_opupIn | apply Keeps.foldl_from

theorem keeps_State_childTimeout {r : State} {s : State} {opid : BitVec 16} {p : Nat} (h : Keeps r s) : Keeps r (State.childTimeout s opid p) := by
  unfold State.childTimeout
  with_reducible repeat' first | exact h | apply keeps_State_raise | apply keeps_State_recheck | apply keeps_State_barrGo | apply keeps_State_opChild | (refine Keeps.upd ?_ rfl; first | exact h | apply keeps_State_raise | apply keeps_State_recheck | apply keeps_State_barrGo | apply keeps_State_opChild) | split

theorem keeps_execChildTimeout {r : State} {opid : BitVec 16} {p : ChPort} {s : State} (h : Keeps r s) : KeepsR r (execChildTimeout opid p s) := by
  unfold execChildTimeout
  dsimp only [KeepsR]
  with_reducible repeat' first | exact h | apply keeps_State_childTimeout

theorem keeps_State_qreqIn {r : State} {s : State} {hdr : FrameHdr} (h : Keeps r s) : Keeps r (State.qreqIn s hdr) := by
  unfold State.qreqIn
  with_reducible repeat' first | exact h | apply keeps_State_broadcastGo | apply keeps_State_sendFrame | apply Keeps.ite | (refine Keeps.upd ?_ rfl; first | exact h | apply keeps_State_broadcastGo | apply keeps_State_sendFrame | apply Keeps.ite)

theorem keeps_execQreq {r : State} {p : ChPort} {hdr : FrameHdr} {s : State} (h : Keeps r s) : KeepsR r (execQreq p hdr s) := by
  unfold execQreq
  dsimp only [KeepsR]
  with_reducible repeat' first | intro _ | exact h | assumption | apply keeps_State_takeFrame | apply keeps_State_qreqIn | apply Keeps.foldl_from

theorem keeps_State_qdataIn {r : State} {s : State} {hdr : FrameHdr} {off : Nat} {bytes : List Byte} (h : Keeps r s) : Keeps r (State.qdataIn s hdr off bytes) := by
  unfold State.qdataIn
  with_reducible repeat' first | exact h | apply keeps_State_badFrame | apply keeps_State_toChildren | apply Keeps.ite | (refine Keeps.upd ?_ rfl; first | exact h | apply keeps_State_badFrame | apply keeps_State_toChildren | apply Keeps.ite)

theorem keeps_execQdata {r : State} {hdr : FrameHdr} {offset : BitVec 32} {bytes : List Byte} {s : State} (h : Keeps r s) : KeepsR r (execQdata hdr offset bytes s) := by
  unfold execQdata
  dsimp only [KeepsR]
  with_reducible repeat' first | intro _ | exact h | assumption | apply keeps_State_takeFrame | apply keeps_State_qdataIn | apply Keeps.foldl_from

theorem keeps_State_qendIn {r : State} {s : State} {hdr : FrameHdr} {slot : BitVec 8} {imglen : BitVec 32} (h : Keeps r s) : Keeps r (State.qendIn s hdr slot imglen) := by
  unfold State.qendIn
  with_reducible repeat' first | exact h | apply keeps_State_toChildren | apply keeps_State_chainReload | apply keeps_State_chainImage | apply Keeps.ite | (refine Keeps.upd ?_ rfl; first | exact h | apply keeps_State_toChildren | apply keeps_State_chainReload | apply keeps_State_chainImage | apply Keeps.ite)

theorem keeps_execQend {r : State} {hdr : FrameHdr} {slot : BitVec 8} {imglen : BitVec 32} {s : State} (h : Keeps r s) : KeepsR r (execQend hdr slot imglen s) := by
  unfold execQend
  dsimp only [KeepsR]
  with_reducible repeat' first | intro _ | exact h | assumption | apply keeps_State_takeFrame | apply keeps_State_qendIn | apply Keeps.foldl_from

theorem keeps_execQendTimeout {r : State} {s : State} (h : Keeps r s) : KeepsR r (execQendTimeout s) := by
  unfold execQendTimeout
  dsimp only [KeepsR]
  with_reducible repeat' first | exact h | apply keeps_State_sendFrame | apply keeps_State_reloadEnds | apply keeps_State_bootFailed | apply keeps_State_setRes | apply Keeps.ite | (refine Keeps.upd ?_ rfl; first | exact h | apply keeps_State_sendFrame | apply keeps_State_reloadEnds | apply keeps_State_bootFailed | apply keeps_State_setRes | apply Keeps.ite)

theorem keeps_State_frameIn {r : State} {s : State} {p : Nat} {k : Frame} (h : Keeps r s) : Keeps r (State.frameIn s p k) := by
  unfold State.frameIn
  with_reducible repeat' first | exact h | apply keeps_State_chainRequest | apply keeps_State_enumIn | apply keeps_State_enumRetIn | apply keeps_State_reqIn | apply keeps_State_rspIn | apply keeps_State_opdnIn | apply keeps_State_opupIn | apply keeps_State_qreqIn | apply keeps_State_qdataIn | apply keeps_State_qendIn | split

theorem keeps_State_chainDrain {r : State} {s : State} (h : Keeps r s) : Keeps r (State.chainDrain s) := by
  unfold State.chainDrain
  with_reducible repeat' first | intro _ | exact h | assumption | apply keeps_State_frameIn | apply Keeps.foldl_from | apply Keeps.ite | (refine Keeps.upd ?_ rfl; first | exact h | assumption | apply keeps_State_frameIn | apply Keeps.foldl_from | apply Keeps.ite) | split | (dsimp only)

theorem keeps_State_gatherAnswer {r : State} {s : State} {o : OutCtl} {r0 : CrspBody} (h : Keeps r s) : Keeps r (State.gatherAnswer s o r0) := by
  unfold State.gatherAnswer
  with_reducible repeat' first | exact h | apply keeps_State_gatherEnds | apply keeps_State_dropCtl | apply keeps_State_gatherFails | split

theorem keeps_State_ctlAnswer {r : State} {s : State} {o : OutCtl} {r0 : CrspBody} (h : Keeps r s) : Keeps r (State.ctlAnswer s o r0) := by
  unfold State.ctlAnswer
  with_reducible repeat' first | exact h | apply keeps_State_dropCtl | apply keeps_State_tsError | apply keeps_State_callEnds | apply keeps_State_gatherAnswer | apply keeps_State_cfgAnswer | apply keeps_State_stepEnds | apply keeps_State_opOwn | split

theorem keeps_State_ownAnswer {r : State} {s : State} {o : OutCtl} {opid : BitVec 16} {r0 : CrspBody} (h : Keeps r s) : Keeps r (State.ownAnswer s o opid r0) := by
  unfold State.ownAnswer
  with_reducible repeat' first | exact h | apply keeps_State_gatherFails | apply keeps_State_opOwn | apply Keeps.ite

theorem keeps_State_crspIn {r : State} {s : State} {o : OutCtl} {r0 : CrspBody} (h : Keeps r s) : Keeps r (State.crspIn s o r0) := by
  unfold State.crspIn
  with_reducible repeat' first | exact h | apply keeps_State_raise | apply keeps_State_ownAnswer | apply keeps_State_ctlAnswer | split

theorem keeps_State_takeCrsp {r : State} {s : State} {p : Pkt → Bool} (h : Keeps r s) : ∀ out, State.takeCrsp s p = some out → Keeps r out := by
  intro out ht
  unfold State.takeCrsp at ht
  obtain ⟨o, e, rfl⟩ := Option.map_eq_some_iff.mp ht
  exact h.upd rfl
theorem keeps_State_takeCrsp_some {r : State} {s : State} {p : Pkt → Bool} {out : State} (h : Keeps r s) (eq1 : State.takeCrsp s p = some out) : Keeps r out := keeps_State_takeCrsp (s := s) (p := p)  (h := h) _ eq1

theorem keeps_State_crsp {r : State} {s : State} {id : Nat} {r0 : CrspBody} (h : Keeps r s) : Keeps r (State.crsp s id r0) := by
  unfold State.crsp
  with_reducible repeat' first | exact h | (refine keeps_State_takeCrsp_some ?_ (by assumption)) | apply keeps_State_recheck | apply keeps_State_barrGo | apply keeps_State_crspIn | split

theorem keeps_execCrsp {r : State} {id : Nat} {r0 : CrspBody} {s : State} (h : Keeps r s) : KeepsR r (execCrsp id r0 s) := by
  unfold execCrsp
  dsimp only [KeepsR]
  with_reducible repeat' first | exact h | apply keeps_State_crsp

theorem keeps_execBr {r : State} {c : CtxId} {s : State} (h : Keeps r s) : KeepsR r (execBr c s) := by
  unfold execBr
  dsimp only [KeepsR]
  with_reducible repeat' first | intro _ | exact h | assumption | apply keeps_State_issue | apply keeps_State_doneAt | apply Keeps.foldl_from

theorem keeps_execBrc {r : State} {c : CtxId} {s : State} (h : Keeps r s) : KeepsR r (execBrc c s) := by
  unfold execBrc
  dsimp only [KeepsR]
  with_reducible repeat' first | intro _ | exact h | assumption | apply keeps_State_issue | apply keeps_State_doneAt | apply Keeps.foldl_from

theorem keeps_execCall {r : State} {c : CtxId} {s : State} (h : Keeps r s) : KeepsR r (execCall c s) := by
  unfold execCall
  dsimp only [KeepsR]
  with_reducible repeat' first | intro _ | exact h | assumption | apply keeps_State_issue | apply keeps_State_doneAt | apply Keeps.foldl_from

theorem keeps_execRet {r : State} {c : CtxId} {s : State} (h : Keeps r s) : KeepsR r (execRet c s) := by
  unfold execRet
  dsimp only [KeepsR]
  with_reducible repeat' first | intro _ | exact h | assumption | apply keeps_State_issue | apply keeps_State_doneAt | apply Keeps.foldl_from

theorem keeps_execHalt {r : State} {c : CtxId} {s : State} (h : Keeps r s) : KeepsR r (execHalt c s) := by
  unfold execHalt
  dsimp only [KeepsR]
  with_reducible repeat' first | intro _ | exact h | assumption | apply keeps_State_issue | apply keeps_State_freeCtx | apply keeps_State_endRecord | apply Keeps.foldl_from

theorem keeps_execTrap {r : State} {c : CtxId} {s : State} (h : Keeps r s) : KeepsR r (execTrap c s) := by
  unfold execTrap
  dsimp only [KeepsR]
  with_reducible repeat' first | intro _ | exact h | assumption | apply keeps_State_issue | apply keeps_State_trap | apply Keeps.foldl_from

theorem keeps_execNop {r : State} {c : CtxId} {s : State} (h : Keeps r s) : KeepsR r (execNop c s) := by
  unfold execNop
  dsimp only [KeepsR]
  with_reducible repeat' first | intro _ | exact h | assumption | apply keeps_State_issue | apply keeps_State_done | apply Keeps.foldl_from

theorem keeps_execYield {r : State} {c : CtxId} {s : State} (h : Keeps r s) : KeepsR r (execYield c s) := by
  unfold execYield
  dsimp only [KeepsR]
  with_reducible repeat' first | intro _ | exact h | assumption | apply keeps_State_issue | apply keeps_State_freeCtx | apply keeps_State_setSaved | apply Keeps.foldl_from

theorem keeps_State_awaitInject {r : State} {s : State} {c : CtxId} (h : Keeps r s) : Keeps r (State.awaitInject s c) := by
  unfold State.awaitInject
  with_reducible repeat' first | exact h | apply keeps_State_setCtx | split

theorem keeps_State_awaitRoom {r : State} {s : State} {c : CtxId} (h : Keeps r s) : Keeps r (State.awaitRoom s c) := by
  unfold State.awaitRoom
  with_reducible repeat' first | exact h | apply keeps_State_setCtx

theorem keeps_State_tsend {r : State} {s : State} {c : CtxId} {j : Job} {w : BitVec 32} (h : Keeps r s) : Keeps r (State.tsend s c j w) := by
  unfold State.tsend
  with_reducible repeat' first | exact h | apply keeps_State_done | apply keeps_State_tsError | apply keeps_State_awaitRoom | apply keeps_State_awaitInject | apply keeps_State_sendCtl | apply Keeps.ite

theorem keeps_execTsend {r : State} {c : CtxId} {s : State} (h : Keeps r s) : KeepsR r (execTsend c s) := by
  unfold execTsend
  dsimp only [KeepsR]
  with_reducible repeat' first | intro _ | exact h | assumption | apply keeps_State_issue | apply keeps_State_tsend | apply Keeps.foldl_from

theorem keeps_State_awaitCtl {r : State} {s : State} {c : CtxId} {k : Nat → Wait} (h : Keeps r s) : Keeps r (State.awaitCtl s c k) := by
  unfold State.awaitCtl
  with_reducible repeat' first | exact h | apply keeps_State_setCtx

theorem keeps_State_tcall {r : State} {s : State} {c : CtxId} {j : Job} {w : BitVec 32} (h : Keeps r s) : Keeps r (State.tcall s c j w) := by
  unfold State.tcall
  with_reducible repeat' first | exact h | apply keeps_State_callEnds | apply keeps_State_awaitRoom | apply keeps_State_awaitCtl | apply keeps_State_sendCtl | apply Keeps.ite

theorem keeps_execTcall {r : State} {c : CtxId} {s : State} (h : Keeps r s) : KeepsR r (execTcall c s) := by
  unfold execTcall
  dsimp only [KeepsR]
  with_reducible repeat' first | intro _ | exact h | assumption | apply keeps_State_issue | apply keeps_State_tcall | apply Keeps.foldl_from

theorem keeps_State_spreadOut {r : State} {s : State} {c : CtxId} {j : Job} {w : BitVec 32} {kind : CtlKind} {gather : Option Nat} (h : Keeps r s) : Keeps r (State.spreadOut s c j w kind gather) := by
  unfold State.spreadOut
  with_reducible repeat' first | exact h | apply keeps_State_sendSpread | apply keeps_State_opStart | apply Keeps.ite | (refine Keeps.upd ?_ rfl; first | exact h | apply keeps_State_sendSpread | apply keeps_State_opStart | apply Keeps.ite)

theorem keeps_State_tbcast {r : State} {s : State} {c : CtxId} {j : Job} {w : BitVec 32} (h : Keeps r s) : Keeps r (State.tbcast s c j w) := by
  unfold State.tbcast
  with_reducible repeat' first | exact h | apply keeps_State_trap | apply keeps_State_done | apply keeps_State_tsError | apply keeps_State_awaitRoom | apply keeps_State_awaitInject | apply keeps_State_spreadOut | apply Keeps.ite

theorem keeps_execTbcast {r : State} {c : CtxId} {s : State} (h : Keeps r s) : KeepsR r (execTbcast c s) := by
  unfold execTbcast
  dsimp only [KeepsR]
  with_reducible repeat' first | intro _ | exact h | assumption | apply keeps_State_issue | apply keeps_State_tbcast | apply Keeps.foldl_from

theorem keeps_State_tgather {r : State} {s : State} {c : CtxId} {j : Job} {w : BitVec 32} {op : Nat} (h : Keeps r s) : Keeps r (State.tgather s c j w op) := by
  unfold State.tgather
  with_reducible repeat' first | exact h | apply keeps_State_trap | apply keeps_State_gatherEnds | apply keeps_State_tsError | apply keeps_State_awaitRoom | apply keeps_State_awaitCtl | apply keeps_State_spreadOut | apply Keeps.ite

theorem keeps_execTgsum {r : State} {c : CtxId} {s : State} (h : Keeps r s) : KeepsR r (execTgsum c s) := by
  unfold execTgsum
  dsimp only [KeepsR]
  with_reducible repeat' first | intro _ | exact h | assumption | apply keeps_State_issue | apply keeps_State_tgather | apply Keeps.foldl_from

theorem keeps_execTgor {r : State} {c : CtxId} {s : State} (h : Keeps r s) : KeepsR r (execTgor c s) := by
  unfold execTgor
  dsimp only [KeepsR]
  with_reducible repeat' first | intro _ | exact h | assumption | apply keeps_State_issue | apply keeps_State_tgather | apply Keeps.foldl_from

theorem keeps_execTgmax {r : State} {c : CtxId} {s : State} (h : Keeps r s) : KeepsR r (execTgmax c s) := by
  unfold execTgmax
  dsimp only [KeepsR]
  with_reducible repeat' first | intro _ | exact h | assumption | apply keeps_State_issue | apply keeps_State_tgather | apply Keeps.foldl_from

theorem keeps_execTgand {r : State} {c : CtxId} {s : State} (h : Keeps r s) : KeepsR r (execTgand c s) := by
  unfold execTgand
  dsimp only [KeepsR]
  with_reducible repeat' first | intro _ | exact h | assumption | apply keeps_State_issue | apply keeps_State_tgather | apply Keeps.foldl_from

theorem keeps_State_xbHostReset {r : State} {s : State} {h0 : Nat} (h : Keeps r s) : Keeps r (State.xbHostReset s h0) := by
  unfold State.xbHostReset
  with_reducible repeat' first | intro _ | exact h | assumption | apply Keeps.setXport | apply keeps_State_sat | apply keeps_State_raise | apply Keeps.setHost | apply Keeps.foldl_from | split

theorem keeps_State_ringReset {r : State} {s : State} {h0 : Nat} (h : Keeps r s) : Keeps r (State.ringReset s h0) := by
  unfold State.ringReset
  with_reducible repeat' first | intro _ | exact h | assumption | apply keeps_State_breakLocks | apply keeps_State_endRecord | apply keeps_State_setSaved | apply keeps_State_setPtr | apply keeps_State_endSoon | apply Keeps.foldl_from | split

theorem keeps_State_flushHost {r : State} {s : State} {h0 : Nat} (h : Keeps r s) : Keeps r (State.flushHost s h0) := by
  unfold State.flushHost
  exact keeps_State_flushDomain (h.pm _ (fun c => wf_filter _ c))

theorem keeps_execHostResetAssert {r : State} {h0 : HostId} {s : State} (h : Keeps r s) : KeepsR r (execHostResetAssert h0 s) := by
  unfold execHostResetAssert
  dsimp only [KeepsR]
  with_reducible repeat' first | exact h | apply keeps_State_recheck | apply keeps_State_barrGo | apply keeps_State_evcCycle | apply keeps_State_ringReset | apply keeps_State_evcHostReset | apply keeps_State_xbHostReset | apply keeps_State_flushHost | apply Keeps.ite

theorem keeps_execHostResetRelease {r : State} {h0 : HostId} {s : State} (h : Keeps r s) : KeepsR r (execHostResetRelease h0 s) := by
  unfold execHostResetRelease
  dsimp only [KeepsR]
  with_reducible repeat' first | exact h | apply keeps_State_evcCycle | apply Keeps.setHost | apply Keeps.ite

theorem keeps_State_retryPu {r : State} {s : State} (h : Keeps r s) : Keeps r (State.retryPu s) := by
  unfold State.retryPu
  with_reducible repeat' first | exact h | apply keeps_State_finishPort | split

theorem keeps_State_reconnectHost {r : State} {s : State} {h0 : Nat} (h : Keeps r s) : Keeps r (State.reconnectHost s h0) := by
  unfold State.reconnectHost
  with_reducible repeat' first | intro _ | exact h | assumption | apply keeps_State_ctTripEnd | apply Keeps.setHost | apply Keeps.foldl_from | apply Keeps.ite | apply Keeps.ite_fst | (refine Keeps.upd ?_ rfl; first | exact h | assumption | apply keeps_State_ctTripEnd | apply Keeps.setHost | apply Keeps.foldl_from | apply Keeps.ite | apply Keeps.ite_fst) | split | (dsimp only)

theorem keeps_execCrossingReconnect {r : State} {x : CrossId} {s : State} (h : Keeps r s) : KeepsR r (execCrossingReconnect x s) := by
  unfold execCrossingReconnect
  dsimp only [KeepsR]
  with_reducible repeat' first | exact h | apply keeps_State_recheck | apply keeps_State_retryPu | apply keeps_State_reconnectEp | apply keeps_State_reconnectHost | split

theorem keeps_execClockStop {r : State} {k : ClkId} {s : State} (h : Keeps r s) : KeepsR r (execClockStop k s) := by
  unfold execClockStop
  dsimp only [KeepsR]
  with_reducible repeat' first | exact h | apply Keeps.setHost | apply Keeps.setNi | split

theorem keeps_execClockRestart {r : State} {k : ClkId} {s : State} (h : Keeps r s) : KeepsR r (execClockRestart k s) := by
  unfold execClockRestart
  dsimp only [KeepsR]
  with_reducible repeat' first | exact h | apply keeps_State_hostFlush | apply Keeps.setHost | apply keeps_State_recheck | apply keeps_State_retryPu | apply Keeps.setNi | split

theorem keeps_execMgmtRetentionEntry {r : State} {s : State} (h : Keeps r s) : KeepsR r (execMgmtRetentionEntry s) := by
  unfold execMgmtRetentionEntry
  dsimp only [KeepsR]
  with_reducible repeat' first | exact h | apply keeps_State_bump | apply Keeps.ite | (refine Keeps.upd ?_ rfl; first | exact h | apply keeps_State_bump | apply Keeps.ite)

theorem keeps_execEvcRestore {r : State} {s : State} (h : Keeps r s) : KeepsR r (execEvcRestore s) := by
  unfold execEvcRestore
  dsimp only [KeepsR]
  with_reducible repeat' first | exact h | apply keeps_State_recheck | apply keeps_State_chainDrain | apply keeps_State_mgmtRuns | apply Keeps.ite | (refine Keeps.upd ?_ rfl; first | exact h | apply keeps_State_recheck | apply keeps_State_chainDrain | apply keeps_State_mgmtRuns | apply Keeps.ite)

theorem keeps_State_blank {r : State} {s : State} (h : Keeps r s) : Keeps r (State.blank s) := by
  unfold State.blank
  exact ⟨h.pending, h.build, fun c => let k := h.canon c
    { regs := wf_nil _, micro := wf_nil _, routers := wf_nil _, links := wf_nil _, agents := wf_nil _, xports := wf_nil _
      nis := by exact wf_map (e := Ni.reset) Ni.pins k.nis
      hosts := by exact wf_map (e := XHost.reset) (fun (x : XHost) => { XHost.reset with low := x.low, waitClear := x.low, stopped := x.stopped, hold := x.hold, irqKept := if x.stopped then some 0 else none }) k.hosts
      evc := by constructor <;> rfl
      seq := by constructor <;> rfl
      pm := rfl
      tm := by constructor <;> rfl
      tap := k.tap
      obs := by constructor <;> rfl }⟩

theorem keeps_execPowerOnResetAssert {r : State} {s : State} (h : Keeps r s) : KeepsR r (execPowerOnResetAssert s) := by
  unfold execPowerOnResetAssert
  dsimp only [KeepsR]
  with_reducible repeat' first | exact h | apply keeps_State_blank | apply keeps_State_fuseStops | (refine Keeps.upd ?_ rfl; first | exact h | apply keeps_State_blank | apply keeps_State_fuseStops)

theorem keeps_State_keepRange {r : State} {s : State} {old : State} {p : Nat} (h : Keeps r s) : Keeps r (State.keepRange s old p) := by
  unfold State.keepRange
  with_reducible repeat' first | exact h | apply keeps_State_setRange

theorem keeps_execFabricResetAssert {r : State} {s : State} (h : Keeps r s) : KeepsR r (execFabricResetAssert s) := by
  unfold execFabricResetAssert
  dsimp only [KeepsR]
  refine keeps_State_loadFz (h := keeps_State_keepRange (h := keeps_State_keepRange (h := ?_)))
  have b := keeps_State_blank (h := h)
  exact ⟨b.pending, b.build, fun c => { b.canon c with regs := (h.canon c).regs |> wf_filter _ }⟩

theorem keeps_State_trainLinks {r : State} {s : State} (h : Keeps r s) : Keeps r (State.trainLinks s) := by
  unfold State.trainLinks
  with_reducible repeat' first | intro _ | exact h | assumption | apply keeps_State_startTraining | apply Keeps.foldl_from

theorem keeps_State_trainChain {r : State} {s : State} (h : Keeps r s) : Keeps r (State.trainChain s) := by
  unfold State.trainChain
  with_reducible repeat' first | intro _ | exact h | assumption | apply keeps_State_trainPort | apply Keeps.foldl_from | split

theorem keeps_State_leaveFabricReset {r : State} {s : State} (h : Keeps r s) : Keeps r (State.leaveFabricReset s) := by
  unfold State.leaveFabricReset
  with_reducible repeat' first | exact h | apply keeps_State_fuseEvents | apply keeps_State_trainChain | apply keeps_State_trainLinks | apply keeps_State_setBootState | apply keeps_State_chainRequest | apply Keeps.ite | (refine Keeps.upd ?_ rfl; first | exact h | apply keeps_State_fuseEvents | apply keeps_State_trainChain | apply keeps_State_trainLinks | apply keeps_State_setBootState | apply keeps_State_chainRequest | apply Keeps.ite)

theorem keeps_execColdResetRelease {r : State} {s : State} (h : Keeps r s) : KeepsR r (execColdResetRelease s) := by
  unfold execColdResetRelease
  dsimp only [KeepsR]
  with_reducible repeat' first | exact h | apply keeps_State_loadFz | apply keeps_State_sense | apply keeps_State_setBootState | apply keeps_State_leaveFabricReset | apply Keeps.ite | (refine Keeps.upd ?_ rfl; first | exact h | apply keeps_State_loadFz | apply keeps_State_sense | apply keeps_State_setBootState | apply keeps_State_leaveFabricReset | apply Keeps.ite)

theorem keeps_execFabricResetRelease {r : State} {s : State} (h : Keeps r s) : KeepsR r (execFabricResetRelease s) := by
  unfold execFabricResetRelease
  dsimp only [KeepsR]
  with_reducible repeat' first | exact h | apply keeps_State_leaveFabricReset | apply Keeps.ite | (refine Keeps.upd ?_ rfl; first | exact h | apply keeps_State_leaveFabricReset | apply Keeps.ite)

theorem keeps_State_lock {r : State} {s : State} {c : CtxId} {j : Job} {w : BitVec 32} (h : Keeps r s) : Keeps r (State.lock s c j w) := by
  unfold State.lock
  with_reducible repeat' first | exact h | apply keeps_State_doneCode | apply keeps_State_takeLock | apply keeps_State_await | apply Keeps.ite | (refine Keeps.upd ?_ rfl; first | exact h | apply keeps_State_doneCode | apply keeps_State_takeLock | apply keeps_State_await | apply Keeps.ite)

theorem keeps_execLock {r : State} {c : CtxId} {s : State} (h : Keeps r s) : KeepsR r (execLock c s) := by
  unfold execLock
  dsimp only [KeepsR]
  with_reducible repeat' first | intro _ | exact h | assumption | apply keeps_State_issue | apply keeps_State_lock | apply Keeps.foldl_from

theorem keeps_State_unlk {r : State} {s : State} {c : CtxId} {j : Job} {w : BitVec 32} (h : Keeps r s) : Keeps r (State.unlk s c j w) := by
  unfold State.unlk
  with_reducible repeat' first | exact h | apply keeps_State_grantLock | apply keeps_State_doneCode | apply keeps_State_setLease | apply keeps_State_p | apply Keeps.ite

theorem keeps_execUnlk {r : State} {c : CtxId} {s : State} (h : Keeps r s) : KeepsR r (execUnlk c s) := by
  unfold execUnlk
  dsimp only [KeepsR]
  with_reducible repeat' first | intro _ | exact h | assumption | apply keeps_State_issue | apply keeps_State_unlk | apply Keeps.foldl_from

theorem keeps_State_withBound {r : State} {s : State} {c : CtxId} {w : BitVec 32} (h : Keeps r s) : Keeps r (State.withBound s c w) := by
  unfold State.withBound
  with_reducible repeat' first | exact h | apply keeps_State_setCtx

theorem keeps_State_barrIssue {r : State} {s : State} {c : CtxId} {j : Job} {w : BitVec 32} (h : Keeps r s) : Keeps r (State.barrIssue s c j w) := by
  unfold State.barrIssue
  with_reducible repeat' first | exact h | apply keeps_State_trap | apply keeps_State_barr | apply keeps_State_withBound | apply Keeps.ite

theorem keeps_execBarr {r : State} {c : CtxId} {s : State} (h : Keeps r s) : KeepsR r (execBarr c s) := by
  unfold execBarr
  dsimp only [KeepsR]
  with_reducible repeat' first | intro _ | exact h | assumption | apply keeps_State_issue | apply keeps_State_barrIssue | apply Keeps.foldl_from

theorem keeps_State_waittIssue {r : State} {s : State} {c : CtxId} {j : Job} {w : BitVec 32} (h : Keeps r s) : Keeps r (State.waittIssue s c j w) := by
  unfold State.waittIssue
  with_reducible repeat' first | exact h | apply keeps_State_doneCode | apply keeps_State_await | apply Keeps.ite

theorem keeps_execWaitt {r : State} {c : CtxId} {s : State} (h : Keeps r s) : KeepsR r (execWaitt c s) := by
  unfold execWaitt
  dsimp only [KeepsR]
  with_reducible repeat' first | intro _ | exact h | assumption | apply keeps_State_issue | apply keeps_State_waittIssue | apply Keeps.foldl_from

theorem keeps_State_fenceIssue {r : State} {s : State} {c : CtxId} {w : BitVec 32} (h : Keeps r s) : Keeps r (State.fenceIssue s c w) := by
  unfold State.fenceIssue
  with_reducible repeat' first | exact h | apply keeps_State_doneCode | apply keeps_State_await | apply Keeps.ite

theorem keeps_execFence {r : State} {c : CtxId} {s : State} (h : Keeps r s) : KeepsR r (execFence c s) := by
  unfold execFence
  dsimp only [KeepsR]
  with_reducible repeat' first | intro _ | exact h | assumption | apply keeps_State_issue | apply keeps_State_fenceIssue | apply Keeps.foldl_from

theorem keeps_execStprep {r : State} {c : CtxId} {s : State} (h : Keeps r s) : KeepsR r (execStprep c s) := by
  unfold execStprep
  dsimp only [KeepsR]
  with_reducible repeat' first | intro _ | exact h | assumption | apply keeps_State_issue | apply keeps_State_stprep | apply keeps_State_withBound | apply Keeps.foldl_from

theorem keeps_execStcommit {r : State} {c : CtxId} {s : State} (h : Keeps r s) : KeepsR r (execStcommit c s) := by
  unfold execStcommit
  dsimp only [KeepsR]
  with_reducible repeat' first | intro _ | exact h | assumption | apply keeps_State_issue | apply keeps_State_stcommit | apply keeps_State_withBound | apply Keeps.foldl_from

theorem keeps_execStdrain {r : State} {c : CtxId} {s : State} (h : Keeps r s) : KeepsR r (execStdrain c s) := by
  unfold execStdrain
  dsimp only [KeepsR]
  with_reducible repeat' first | intro _ | exact h | assumption | apply keeps_State_issue | apply keeps_State_stdrain | apply keeps_State_withBound | apply Keeps.foldl_from

theorem keeps_execStquery {r : State} {c : CtxId} {s : State} (h : Keeps r s) : KeepsR r (execStquery c s) := by
  unfold execStquery
  dsimp only [KeepsR]
  with_reducible repeat' first | intro _ | exact h | assumption | apply keeps_State_issue | apply keeps_State_stquery | apply keeps_State_withBound | apply Keeps.foldl_from

theorem keeps_execTrd {r : State} {c : CtxId} {s : State} (h : Keeps r s) : KeepsR r (execTrd c s) := by
  unfold execTrd
  dsimp only [KeepsR]
  with_reducible repeat' first | intro _ | exact h | assumption | apply keeps_State_issue | apply keeps_State_doneRd | apply Keeps.foldl_from

theorem keeps_State_timeIssue {r : State} {s : State} {c : CtxId} {j : Job} {x : TimeChange} (h : Keeps r s) : Keeps r (State.timeIssue s c j x) := by
  unfold State.timeIssue
  with_reducible repeat' first | exact h | apply keeps_State_trap | apply keeps_State_await | apply keeps_State_timeChange | apply Keeps.ite

theorem keeps_State_tloadIssue {r : State} {s : State} {c : CtxId} {j : Job} {w : BitVec 32} (h : Keeps r s) : Keeps r (State.tloadIssue s c j w) := by
  unfold State.tloadIssue
  with_reducible repeat' first | exact h | apply keeps_State_trap | apply keeps_State_doneCode | apply keeps_State_armPps | apply keeps_State_timeIssue | apply Keeps.ite

theorem keeps_execTload {r : State} {c : CtxId} {s : State} (h : Keeps r s) : KeepsR r (execTload c s) := by
  unfold execTload
  dsimp only [KeepsR]
  with_reducible repeat' first | intro _ | exact h | assumption | apply keeps_State_issue | apply keeps_State_tloadIssue | apply Keeps.foldl_from

theorem keeps_execTadj {r : State} {c : CtxId} {s : State} (h : Keeps r s) : KeepsR r (execTadj c s) := by
  unfold execTadj
  dsimp only [KeepsR]
  with_reducible repeat' first | intro _ | exact h | assumption | apply keeps_State_issue | apply keeps_State_timeIssue | apply Keeps.foldl_from

theorem keeps_execTslew {r : State} {c : CtxId} {s : State} (h : Keeps r s) : KeepsR r (execTslew c s) := by
  unfold execTslew
  dsimp only [KeepsR]
  with_reducible repeat' first | intro _ | exact h | assumption | apply keeps_State_issue | apply keeps_State_timeIssue | apply Keeps.foldl_from

theorem keeps_execTimeApply {r : State} {s : State} (h : Keeps r s) : KeepsR r (execTimeApply s) := by
  unfold execTimeApply
  dsimp only [KeepsR]
  with_reducible repeat' first | intro _ | exact h | assumption | apply keeps_State_timeApply | apply keeps_State_doneCode | apply keeps_State_finishPort | apply keeps_State_recheck | apply Keeps.foldl_from | split

theorem keeps_State_idle {r : State} {s : State} (h : Keeps r s) : Keeps r (State.idle s) := by
  unfold State.idle
  with_reducible repeat' first | exact h | apply keeps_State_stalls | (refine Keeps.upd ?_ rfl; first | exact h | apply keeps_State_stalls)

end Sys2Proof.Machine
end

