-- ==== Sys2Proof/Laws/Loader.lean ====
section
/-! SUPPORT. Small laws of the loader: what noting its remaining steps leaves alone (R342, R415). -/
namespace Sys2Proof.Machine

@[simp] theorem State.setTodo_pending (s : State) (l : List LoadStep) : (s.setTodo l).pending = s.pending := rfl
@[simp] theorem State.setTodo_cyc (s : State) (l : List LoadStep) : (s.setTodo l).cyc = s.cyc := rfl
@[simp] theorem State.setTodo_rst0 (s : State) (l : List LoadStep) : (s.setTodo l).rst0 = s.rst0 := rfl
@[simp] theorem State.setTodo_bas0 (s : State) (l : List LoadStep) : (s.setTodo l).bas0 = s.bas0 := rfl
@[simp] theorem State.setTodo_porstLow (s : State) (l : List LoadStep) : (s.setTodo l).porstLow = s.porstLow := rfl
@[simp] theorem State.setTodo_rstLow (s : State) (l : List LoadStep) : (s.setTodo l).rstLow = s.rstLow := rfl
@[simp] theorem State.setTodo_build (s : State) (l : List LoadStep) : (s.setTodo l).build = s.build := rfl
@[simp] theorem State.setTodo_regs (s : State) (l : List LoadStep) : (s.setTodo l).regs = s.regs := rfl
@[simp] theorem State.setTodo_micro (s : State) (l : List LoadStep) : (s.setTodo l).micro = s.micro := rfl
@[simp] theorem State.setTodo_tb (s : State) (l : List LoadStep) : (s.setTodo l).tb = s.tb := rfl
@[simp] theorem State.setTodo_routers (s : State) (l : List LoadStep) : (s.setTodo l).routers = s.routers := rfl
@[simp] theorem State.setTodo_links (s : State) (l : List LoadStep) : (s.setTodo l).links = s.links := rfl
@[simp] theorem State.setTodo_nis (s : State) (l : List LoadStep) : (s.setTodo l).nis = s.nis := rfl
@[simp] theorem State.setTodo_agents (s : State) (l : List LoadStep) : (s.setTodo l).agents = s.agents := rfl
@[simp] theorem State.setTodo_evc (s : State) (l : List LoadStep) : (s.setTodo l).evc = s.evc := rfl
@[simp] theorem State.setTodo_seq (s : State) (l : List LoadStep) : (s.setTodo l).seq = s.seq := rfl
@[simp] theorem State.setTodo_xports (s : State) (l : List LoadStep) : (s.setTodo l).xports = s.xports := rfl
@[simp] theorem State.setTodo_hosts (s : State) (l : List LoadStep) : (s.setTodo l).hosts = s.hosts := rfl
@[simp] theorem State.setTodo_pm (s : State) (l : List LoadStep) : (s.setTodo l).pm = s.pm := rfl
@[simp] theorem State.setTodo_tm (s : State) (l : List LoadStep) : (s.setTodo l).tm = s.tm := rfl
@[simp] theorem State.setTodo_ft (s : State) (l : List LoadStep) : (s.setTodo l).ft = s.ft := rfl
@[simp] theorem State.setTodo_tap (s : State) (l : List LoadStep) : (s.setTodo l).tap = s.tap := rfl
@[simp] theorem State.setTodo_chn (s : State) (l : List LoadStep) : (s.setTodo l).chn = s.chn := rfl
@[simp] theorem State.setTodo_obs (s : State) (l : List LoadStep) : (s.setTodo l).obs = s.obs := rfl
@[simp] theorem State.setTodo_free (s : State) (l : List LoadStep) : (s.setTodo l).free = s.free := rfl
@[simp] theorem State.setTodo_boot_hdrA (s : State) (l : List LoadStep) : (s.setTodo l).boot.hdrA = s.boot.hdrA := rfl
@[simp] theorem State.setTodo_boot_hdrB (s : State) (l : List LoadStep) : (s.setTodo l).boot.hdrB = s.boot.hdrB := rfl
@[simp] theorem State.setTodo_boot_first (s : State) (l : List LoadStep) : (s.setTodo l).boot.first = s.boot.first := rfl
@[simp] theorem State.setTodo_boot_cur (s : State) (l : List LoadStep) : (s.setTodo l).boot.cur = s.boot.cur := rfl
@[simp] theorem State.setTodo_boot_msgHash (s : State) (l : List LoadStep) : (s.setTodo l).boot.msgHash = s.boot.msgHash := rfl
@[simp] theorem State.setTodo_boot_tail (s : State) (l : List LoadStep) : (s.setTodo l).boot.tail = s.boot.tail := rfl
@[simp] theorem State.setTodo_boot_ready (s : State) (l : List LoadStep) : (s.setTodo l).boot.ready = s.boot.ready := rfl
@[simp] theorem State.setTodo_boot_image (s : State) (l : List LoadStep) : (s.setTodo l).boot.image = s.boot.image := rfl
@[simp] theorem State.setTodo_boot_todo (s : State) (l : List LoadStep) : (s.setTodo l).boot.todo = l := rfl
@[simp] theorem State.setTodo_boot_bootDone (s : State) (l : List LoadStep) : (s.setTodo l).boot.bootDone = s.boot.bootDone := rfl
@[simp] theorem State.setTodo_boot_bootFail (s : State) (l : List LoadStep) : (s.setTodo l).boot.bootFail = s.boot.bootFail := rfl

end Sys2Proof.Machine
end

