-- ==== Sys2Proof/Laws/Tags.lean ====
section
/-! SUPPORT. The choice of a TAG, and what sending a CTL can do (R59, R296). -/
namespace Sys2Proof.Machine

/-- No TAG of a head is free exactly when a CTL that has been sent bears each. -/
theorem freshTag_none_iff {s : State} {head bits : Nat} :
    s.freshTag head bits = none ↔ ∀ i, i < 2 ^ bits → ∃ o ∈ s.seq.ctls, o.held = none ∧ o.tag = BitVec.ofNat 12 (head + i) := by
  have fwd (n k : Nat) (hk : k < n) (f : Nat) : ∃ i, i < n ∧ (f + i) % n = k := by
    refine ⟨(k + n - f % n) % n, Nat.mod_lt _ (by omega), ?_⟩
    have hf := Nat.mod_lt f (show 0 < n by omega)
    rw [Nat.add_mod, Nat.mod_mod]
    by_cases h : k < f % n
    · rw [Nat.mod_eq_of_lt (show k + n - f % n < n by omega), show f % n + (k + n - f % n) = k + n by omega, Nat.add_mod_right, Nat.mod_eq_of_lt hk]
    · rw [show k + n - f % n = (k - f % n) + n by omega, Nat.add_mod_right, Nat.mod_eq_of_lt (show k - f % n < n by omega),
        show f % n + (k - f % n) = k by omega, Nat.mod_eq_of_lt hk]
  simp only [State.freshTag, List.find?_eq_none, List.mem_map, List.mem_range, List.all_eq_true, Bool.or_eq_true, bne_iff_ne, Classical.not_forall,
    not_or, ne_eq, Decidable.not_not, Option.isSome_iff_ne_none, exists_prop]
  constructor
  · intro h i hi
    obtain ⟨k, hk, hki⟩ := fwd (2 ^ bits) i hi (Config.freeSerial s.free)
    obtain ⟨o, ho, hh, ht⟩ := h _ ⟨k, hk, rfl⟩
    exact ⟨o, ho, hh, by rw [ht, hki]⟩
  · rintro h t ⟨k, hk, rfl⟩
    exact h _ (Nat.mod_lt _ (Nat.two_pow_pos bits))

/-- A TAG chosen is of the head, and no CTL that has been sent bears it. -/
theorem freshTag_some {s : State} {head bits : Nat} {tag : BitVec 12} (h : s.freshTag head bits = some tag) :
    (∃ i, i < 2 ^ bits ∧ tag = BitVec.ofNat 12 (head + i)) ∧ ∀ o ∈ s.seq.ctls, o.held = none → o.tag ≠ tag := by
  obtain ⟨hp, hm⟩ := And.intro (List.find?_some h) (List.mem_of_find?_eq_some h)
  simp only [List.mem_map, List.mem_range] at hm
  obtain ⟨k, _, rfl⟩ := hm
  refine ⟨⟨_, Nat.mod_lt _ (Nat.two_pow_pos bits), rfl⟩, fun o ho hh => ?_⟩
  simpa [hh] using List.all_eq_true.mp hp o ho

/-- There is a TAG for another CTL unless one that has been sent bears each of its head. -/
theorem tagRoom_false_iff {s : State} {eng : Bool} {spread op : Nat} :
    s.tagRoom eng spread op = false ↔
      ∀ i, i < 2 ^ (tagHead eng spread op).2 → ∃ o ∈ s.seq.ctls, o.held = none ∧ o.tag = BitVec.ofNat 12 ((tagHead eng spread op).1 + i) := by
  rw [State.tagRoom, ← freshTag_none_iff, Option.isSome_eq_false_iff, Option.isNone_iff_eq_none]

/-- A CTL that is held is sent under a free TAG of its head, or stays as it is. -/
theorem launchCtl_cases {s : State} {id : Nat} {o : OutCtl} {k : Pkt} (ho : s.seq.ctls.find? (fun x => x.id == id) = some o) (hk : o.held = some k) :
    (s.freshTag (headOf o.tag).1 (headOf o.tag).2 = none ∧ s.launchCtl id = s) ∨
      ∃ tag, s.freshTag (headOf o.tag).1 (headOf o.tag).2 = some tag ∧
        s.launchCtl id = ({ s.nextFree with seq := { s.seq with
          ctls := s.seq.ctls.map (fun (x : OutCtl) => if x.id = id then { x with tag := tag, sent := s.ticks, held := none } else x)
          outq := s.seq.outq ++ [{ k with tag := tag, tstamp := s.stamp }] } }).wake (epTile s.build.cfgep) true := by
  cases h : s.freshTag (headOf o.tag).1 (headOf o.tag).2 with
  | none => exact .inl ⟨rfl, by simp [State.launchCtl, ho, hk, h]⟩
  | some tag => exact .inr ⟨tag, rfl, by simp [State.launchCtl, ho, hk, h]⟩

end Sys2Proof.Machine
end

