-- ==== Sys2Proof/Laws/Takes.lean ====
section
/-! SUPPORT. What a tile agent and a chain port do with what stands first: a CTL that is taken, one of another function, a kept frame in sequence. -/
namespace Sys2Proof.Machine

/-- An agent that takes a CTL of its command's function acts on the state without it, and starts the answer. -/
theorem agentRun_takes {s : State} {t : Nat} {k : Pkt} {rest : List Pkt} (h : s.agentTakes t k rest) {mine : Pkt → Bool}
    (act : State → Pkt → State × Option AgAns) (hm : mine k = true) :
    s.agentRun t mine act = (act (s.agentTook t rest) k).1.agentStart t k (act (s.agentTook t rest) k).2 := by
  obtain ⟨h1, h2, h3⟩ := h
  simp [State.agentRun, h1, h2, h3, hm, State.agentTook]

/-- A CTL of another function stays in the queue. -/
theorem agentRun_other {s : State} {t : Nat} {k : Pkt} {rest : List Pkt} (h : s.agentTakes t k rest) {mine : Pkt → Bool}
    (act : State → Pkt → State × Option AgAns) (hm : mine k = false) : s.agentRun t mine act = s := by
  obtain ⟨h1, h2, h3⟩ := h
  simp [State.agentRun, h1, h2, h3, hm]

/-- A CTL that no agent executes is answered DECERR, whatever the command's function. -/
theorem agentRun_bad {s : State} {t : Nat} {k : Pkt} {rest : List Pkt} (h1 : (s.agent t).next = some (k, rest)) (h2 : s.coreRuns t = true)
    (h3 : badCtl k t = true) {mine : Pkt → Bool} (act : State → Pkt → State × Option AgAns) :
    s.agentRun t mine act = (s.agentTook t rest).agentStart t k (some agDecerr) := by
  simp [State.agentRun, h1, h2, h3, State.agentTook]

/-- A kept frame in sequence is taken. -/
theorem takeFrame_takes {s : State} {p : Nat} {k : Frame} (h : s.frameTakes p k.hdr) (f : State → State) :
    s.takeFrame p k f = f (s.frameTook p) := by
  obtain ⟨h1, h2, h3, h4⟩ := h
  simp [State.takeFrame, h1, h2, h3, h4, State.frameTook]

end Sys2Proof.Machine
end

