-- ==== Sys2Proof/Tests/Slice0.lean ====
section
/-! SUPPORT. Tests: terms that the well-formedness checks refuse, states that meet the hypotheses of the statements, and single steps against the worked examples of spec/. -/
namespace Sys2Proof.Tests
open Sys2Proof.Machine
set_option Elab.async false

-- Well-formedness: a term for each check that it refuses.

def flit0 : RawFlit := ⟨0, 0, 0, 0, 0, false⟩
def link0 : LinkId := ⟨0, 0, 0⟩

theorem test_wf_packet_flits : (Instr.packetEjection 0 0 4 []).wf = false ∧ (Instr.packetEjection 0 0 4 (List.replicate 6 flit0)).wf = false := by decide
theorem test_wf_beats : (Instr.dlastBeat 0 0 [] 0).wf = false ∧ (Instr.dlastBeat 0 0 [0, 0, 0, 0, 0] 0).wf = false := by decide
theorem test_wf_answers : (Instr.targetResponse 0 0 0 0 [0, 0, 0, 0, 0]).wf = false ∧ (Instr.cellReadResponse 0 0 0 [0, 0, 0, 0, 0]).wf = false := by decide
theorem test_wf_picks : (Instr.allocate 0 [1, 1]).wf = false := by decide
theorem test_wf_crsp : (Instr.crsp 0 { resp := 0, data := List.replicate 9 0 }).wf = false ∧
    (Instr.relayAnswer 0 0 0 { resp := 0, data := List.replicate 9 0 }).wf = false := by decide
theorem test_wf_host : (Instr.hostRequest 0 { write := true, inst := 0, addr := 0, len := 1, data := [1, 2], strb := [1] }).wf = false ∧
    (Instr.hostRequest 0 { write := false, inst := 0, addr := 0, len := 0, data := [], strb := [1] }).wf = false := by decide
theorem test_wf_headers : (Instr.slotHeaderCheck [] []).wf = false := by decide
theorem test_wf_req : (Instr.req 0 {} 0 0x10 0 [] []).wf = false ∧ (Instr.req 0 {} 0 0x00 0 [1] [1]).wf = false ∧
    (Instr.req 0 {} 0 0x10 0 [1] [1]).wf = true ∧ (Instr.req 0 {} 0 0x00 0 [] []).wf = true := by decide
theorem test_wf_rsp : (Instr.rsp 0 {} 0 0 (List.replicate 9 0)).wf = false := by decide
theorem test_wf_opdn : (Instr.opdn {} 0 0 0 []).wf = false ∧ (Instr.opdn {} 0 0 0 [1, 2]).wf = false := by decide
theorem test_wf_qdata : (Instr.qdata {} 0 []).wf = false := by decide
theorem test_wf_lanes : (Instr.trainingEnd link0 [597]).wf = false ∧ (Instr.testPatternEnd link0 [3, 3]).wf = false := by decide

-- States to start from.

/-- The block with both resets released and its dispatch running. -/
def up : State := ({ State.reset with porstLow := false, rstLow := false, boot := { Boot.reset with bootDone := true } }).pb aSeqStatus SEQ_STATUS.READY true

/-- The canonical form of the traffic manager's tables, as a test. -/
def tmOk (x : Tm) : Bool :=
  Tab.wf (fun _ => FreeList.reset) x.lists && Tab.wf (fun _ => 63) x.lastCh && Tab.wf (fun _ => Queue.reset) x.qs && Tab.wf (fun _ => []) x.drr &&
    Tab.wf (fun _ => 0) x.stag && Tab.wf (fun _ => 0) x.vt && Tab.wf (fun _ => (0, 0)) x.sh && Tab.wf (fun _ => (0, 0)) x.ptok &&
    Tab.wf (fun _ => (0, 0, 0)) x.mtr && Tab.wf (fun _ => (0, 0)) x.pol && Tab.wf (fun _ => Gate.reset) x.gates && Tab.wf (fun _ => []) x.disp &&
    Tab.wf (fun _ => []) x.recReads && Tab.wf (fun _ => 0) x.owed && Tab.wf (fun _ => []) x.rx && Tab.wf (fun _ => []) x.outq &&
    Tab.wf (fun _ => (0, 0, 0)) x.spFrame
theorem tm_of {x : Tm} (h : tmOk x = true) : x.canon := by
  simp only [tmOk, Bool.and_eq_true, and_assoc] at h
  obtain ⟨a, b, c, d, e, f, g, i, j, k, l, m, n, o, p, q, r⟩ := h
  exact ⟨a, b, c, d, e, f, g, i, j, k, l, m, n, o, p, q, r⟩
/-- The canonical form of every table, as a test. -/
def canonOk (s : State) : Bool :=
  Tab.wf (fun o => resetVal s.build o) s.regs && Tab.wf (fun _ => (0 : BitVec 96)) s.micro && Tab.wf (fun _ => Router.reset) s.routers &&
    Tab.wf (fun _ => LinkX.reset) s.links && Tab.wf (fun _ => Ni.reset) s.nis && Tab.wf (fun _ => Agent.reset) s.agents &&
    Tab.wf (fun _ => XPort.reset) s.xports && Tab.wf (fun _ => XHost.reset) s.hosts &&
    Tab.wf (fun _ => []) s.evc.stks && Tab.wf (fun _ => 0) s.evc.wakes && Tab.wf (fun _ => 0) s.evc.once &&
    Tab.wf (fun _ => none) s.seq.saved && Tab.wf (fun _ => 0) s.seq.leaseEnd && Tab.wf (fun _ => (⟨false, 0, 0⟩ : Ct)) s.pm.cts && tmOk s.tm &&
    Tab.wf (fun _ => 0) s.tap.fuses && Tab.wf (fun _ => 0) s.obs.seqs && Tab.wf (fun _ => 0) s.obs.sampCnt && Tab.wf (fun _ => none) s.obs.post
theorem canon_of {s : State} (h : canonOk s = true) : s.canon := by
  simp only [canonOk, Bool.and_eq_true, and_assoc] at h
  obtain ⟨a, b, c, d, e, f, g, i, j, k, l, m, n, o, p, q, r, t, u⟩ := h
  exact ⟨a, b, c, d, e, f, g, i, ⟨j, k, l⟩, ⟨m, n⟩, o, tm_of p, q, ⟨r, t, u⟩⟩
theorem regsOk_of {s : State} (h : canonOk s = true) : s.regsOk := (canon_of h).regs

-- Bonov instructions.

/-- A job of ring 0 with 7 in w2, 12 in w3 and the rights of PCHAIN and PTIME as given. -/
def job (chain time : Bool) : Job :=
  { ring := 0, jobid := 1, len := 4, evt := false, pchain := chain, ptime := time, w := ((Vector.replicate 16 (0 : W)).set 2 7).set 3 12,
    pc := 0, lastPc := 0, insns := 0, tserr := 0, sref := 0, key := 1, lastCtx := 0 }
/-- A word of opcode op with rd, ra and the twelve low bits. -/
def word (op rd ra imm : Nat) : BitVec 32 := BitVec.ofNat 32 (op * 2 ^ 25 + rd * 2 ^ 21 + ra * 2 ^ 17 + imm)
/-- Context 0 stands at a word of a job, whose dispatch entry is valid. -/
def atWord (s : State) (j : Job) (w : BitVec 32) : State :=
  (((s.wr (aDisp (iOp w)) 0x30000).wr (aRing 0 2) (w.setWidth 64)).setCtx 0 { Ctx.reset with job := some j })
/-- What `State.atInstr` asks, as a test; and that the job need not end. -/
def instrOk (s : State) (op : Nat) (j : Job) (w : BitVec 32) : Bool :=
  decide ((s.ctx 0).due = none) && decide (s.canIssue 0 = some j) && decide (j.pc.toNat < j.len) && decide (s.fetchWord j = w) && decide (iOp w = op) &&
    opDefined op && !s.dispBad op && s.dispValid op && !s.microBad (s.dispStart op) && fieldsOk op w
theorem atInstr_of {s : State} {op : Nat} {j : Job} {w : BitVec 32} (h : instrOk s op j w = true) : (s.ctx 0).due = none ∧ s.atInstr 0 op j w := by
  simp only [instrOk, Bool.and_eq_true, decide_eq_true_eq, Bool.not_eq_true'] at h
  obtain ⟨⟨⟨⟨⟨⟨⟨⟨⟨a, b⟩, c⟩, d⟩, e⟩, f⟩, g⟩, i⟩, k⟩, l⟩ := h
  exact ⟨a, b, c, d, e, f, g, i, k, l⟩
/-- A clause's hypotheses hold at a word, with what they ask beside. -/
def at? (s : State) (j : Job) (w : BitVec 32) (more : State → Bool) : Bool := let t := atWord s j w; instrOk t (iOp w) j w && more t
def any : State → Bool := fun _ => true

/-- Hypotheses of Obligations.Arithmetic, FieldsAndConstants and Branches: every opcode, and every condition of BRC. -/
theorem witness_arithmetic : ([0x00, 0x01, 0x02, 0x03, 0x04, 0x05, 0x06, 0x07, 0x08, 0x09, 0x0A, 0x0B, 0x10, 0x11, 0x12, 0x13, 0x14, 0x15, 0x16, 0x17,
    0x18, 0x19, 0x1A, 0x1B, 0x1C, 0x1D].all fun op => at? up (job true true) (word op 1 (if op = 0x1C ∨ op = 0x1D then 0 else 2) 0) any) = true := by decide
theorem witness_branches : ([0x70, 0x72, 0x73, 0x76].all fun op => at? up (job true true) (word op (if op = 0x72 then 1 else 0) 0 0) any) = true ∧
    ([0, 1, 2, 3, 4, 5].all fun sub => at? up (job true true) (word 0x71 2 3 (sub * 2 ^ 12)) any) = true := by decide
/-- Hypotheses of Obligations.Branches at a reserved SUB: the lowest and the highest. -/
theorem witness_reserved_sub : ([6, 31].all fun sub => let w := word 0x71 2 3 (sub * 2 ^ 12)
    let t := atWord up (job true true) w
    decide (t.canIssue 0 = some (job true true)) && decide ((job true true).pc.toNat < (job true true).len) && decide (t.fetchWord (job true true) = w) &&
      decide (iOp w = 0x71) && decide (6 ≤ iSub w) && !t.dispBad 0x71 && t.dispValid 0x71 && !t.microBad (t.dispStart 0x71)) = true := by decide

/-- Hypotheses of Obligations.EndsOfJobsAndFetchTraps: HALT, TRAP, YIELD; a PC outside the job; a reserved opcode, an entry that is not valid, a field that is not zero. -/
theorem witness_ends : at? up (job true true) (word 0x74 0 2 0) any = true ∧ at? up (job true true) (word 0x75 0 0 5) any = true ∧
    at? up (job true true) (word 0x77 0 0 0) any = true := by decide
theorem witness_fetch :
    (let s := up.setCtx 0 { Ctx.reset with job := some { job true true with pc := 4 } }
     (s.canIssue 0).any (fun j => decide (j.len ≤ j.pc.toNat)) = true) ∧
    (let t := atWord up (job true true) (word 0x0C 0 0 0)
     t.canIssue 0 = some (job true true) ∧ t.dispBad 0x0C = false ∧ t.microBad (t.dispStart 0x0C) = false ∧ opDefined 0x0C = false) ∧
    (let t := (atWord up (job true true) (word 0x00 1 2 0)).wr (aDisp 0) 0
     t.canIssue 0 = some (job true true) ∧ t.dispBad 0 = false ∧ t.dispValid 0 = false) ∧
    (let t := atWord up (job true true) (word 0x10 1 2 0x1000)
     t.canIssue 0 = some (job true true) ∧ t.dispBad 0x10 = false ∧ t.dispValid 0x10 = true ∧ t.microBad (t.dispStart 0x10) = false ∧
       fieldsOk 0x10 (word 0x10 1 2 0x1000) = false) := by decide

/-- An address for an access of w4. -/
def jobAt (a : W) (chain : Bool) : Job := { job chain true with w := (job chain true).w.set 4 a }
def addrOf (j : Job) (w : BitVec 32) : W := (j.get (iRa w) + (iImm w).signExtend 64) &&& 0xFFFFFFFFFF#64

/-- Hypotheses of Obligations.ControlSpaceAccesses: an access that leaves, at the highest offset; one without the right; one off its grid; one beyond the map. -/
theorem witness_accesses :
    ([0x20, 0x21, 0x22, 0x23, 0x24].all fun op =>
      at? up (jobAt 0x3FFFFF8 true) (word op 1 4 0) (fun s => decide (fld (addrOf (jobAt 0x3FFFFF8 true) (word op 1 4 0)) 26 6 = 0) && decide (s.canIssue 0 ≠ none)) &&
      at? up (jobAt 0x3FFFFFA true) (word op 1 4 0) (fun _ => decide ((addrOf (jobAt 0x3FFFFFA true) (word op 1 4 0)).toNat % 4 ≠ 0)) &&
      at? up (jobAt 0x4000000 true) (word op 1 4 0) (fun _ => decide (fld (addrOf (jobAt 0x4000000 true) (word op 1 4 0)) 26 6 ≠ 0))) = true ∧
    ([(0x20, false), (0x21, false), (0x22, true), (0x23, true), (0x24, true)].all fun (op, write) =>
      at? up (jobAt 0x500000000 false) (word op 1 4 0) (fun s => s.chainAccess (addrOf (jobAt 0x500000000 false) (word op 1 4 0)) write)) = true := by decide
/-- Hypotheses of its answers: each use of an access. -/
theorem witness_access_answers : ([AccUse.load, .half true, .half false, .store, .status].all fun use =>
    let s := up.setCtx 0 { Ctx.reset with job := some (job true true), wait := .access, acc := some (3, use, 8) }
    decide ((s.ctx 0).due = none) && decide ((s.ctx 0).job = some (job true true)) && decide ((s.ctx 0).acc = some (3, use, 8))) = true := by decide
/-- Its answers where a reset of the ring or a machine check is to end the job. -/
theorem witness_access_ends : ([AccUse.load, .store].all fun use => ([Due.abort 5, .mcheck].all fun d =>
    let s := up.setCtx 0 { Ctx.reset with job := some (job true true), wait := .access, acc := some (3, use, 8), due := some d }
    decide ((s.ctx 0).job = some (job true true)) && decide ((s.ctx 0).acc = some (3, use, 8)) && decide ((s.ctx 0).due = some d))) = true := by decide

/-- The chain address 1 without an enumeration under way. -/
def chained (s : State) : State := s.p aChnId CHN_ID.ADDR 1
/-- Hypotheses of Obligations.FabricMessages: a destination that exists and one that does not; a TBCAST with room; the gathers, here and over the chain; TBCAST and the gathers without the right, to a row that the member lacks, and with CH outside the chain. -/
theorem witness_messages :
    at? up (job true true) (word 0x30 2 0 (3 * 2 ^ 11)) (fun s => decide (s.heldPlane = none) && destOk (mEp (word 0x30 2 0 (3 * 2 ^ 11))) && decide (s.tsOut 0 < 16)) = true ∧
    at? up (jobAt 0x3C3 true) (word 0x30 2 0 (4 * 2 ^ 11 + 2 ^ 9)) (fun s => decide (s.heldPlane = none) && !destOk (((jobAt 0x3C3 true).get 4).extractLsb' 0 10)) = true ∧
    at? up (job true true) (word 0x31 2 0 (3 * 2 ^ 11)) (fun _ => destOk (mEp (word 0x31 2 0 (3 * 2 ^ 11)))) = true ∧
    at? (chained up) (job true true) (word 0x32 2 0 (2 ^ 8)) (fun s => scopeExists (msgScope (word 0x32 2 0 (2 ^ 8))) && s.bcastRoom && s.chnReady) = true ∧
    ([0x33, 0x34, 0x35, 0x36].all fun op => at? (chained up) (job true true) (word op 2 0 (2 ^ 8)) (fun s => s.chnReady) &&
      at? up (job true true) (word op 2 0 (2 ^ 19 + 11 * 2 ^ 15)) (fun _ => scopeExists (msgScope (word op 2 0 (2 ^ 19 + 11 * 2 ^ 15))))) = true ∧
    ([0x32, 0x33, 0x34, 0x35, 0x36].all fun op => at? up (job false true) (word op 2 0 (2 ^ 8)) (fun _ => mCh (word op 2 0 (2 ^ 8))) &&
      at? up (job true true) (word op 2 0 (2 ^ 19 + 12 * 2 ^ 15)) (fun _ => !scopeExists (msgScope (word op 2 0 (2 ^ 19 + 12 * 2 ^ 15)))) &&
      at? up (job true true) (word op 2 0 (2 ^ 8)) (fun s => s.bcastRoom && mCh (word op 2 0 (2 ^ 8)) && !s.chnReady)) = true := by decide

/-- A commit holds plane RQ, and context 1 runs it. -/
def heldBy1 (s : State) : State := let t := s.p aStstate SEQ_STSTATE.PAUSE 1; { t with seq := { t.seq with strCtx := some 1 } }
/-- The CTLs of a kind that context 0 sent with the first n TAGs from t, unanswered. -/
def sentMany (kind : CtlKind) (t n : Nat) : State :=
  { up with seq := { up.seq with nextId := n, ctls := (List.range n).map (fun i => ⟨i, BitVec.ofNat 12 (t + i), 0x143, kind, 0, 1, 0, 0, 1, none, none⟩) } }
/-- Each of those TAGs is in use. -/
theorem sentMany_uses {kind : CtlKind} {t n i : Nat} (hi : i < n) : ∃ o ∈ (sentMany kind t n).seq.ctls, o.held = none ∧ o.tag = BitVec.ofNat 12 (t + i) :=
  ⟨_, List.mem_map.mpr ⟨i, List.mem_range.mpr hi, rfl⟩, rfl, rfl⟩
/-- Hypotheses of its messages that are not sent: a plane held by another context; sixteen TSENDs, and 256 broadcasts, unanswered; a TCALL to a destination that does not exist. -/
theorem witness_messages_wait :
    ([0x30, 0x31, 0x32, 0x33, 0x34, 0x35, 0x36].all fun op => let w := word op 2 0 (if op < 0x32 then 3 * 2 ^ 11 else 0)
      at? (heldBy1 up) (job true true) w (fun s => decide (s.heldPlane ≠ none) && decide (s.seq.strCtx ≠ some 0) && (if op < 0x32 then destOk (mEp w) else scopeExists (msgScope w)))) = true ∧
    at? (sentMany .send 0 16) (job true true) (word 0x30 2 0 (3 * 2 ^ 11)) (fun s => decide (s.heldPlane = none) && decide (16 ≤ s.tsOut 0)) = true ∧
    at? (sentMany .bcast 0x100 256) (job true true) (word 0x32 2 0 0) (fun s => decide (s.heldPlane = none) && !s.bcastRoom) = true ∧
    at? up (jobAt 0x3C3 true) (word 0x31 2 0 (4 * 2 ^ 11 + 2 ^ 9)) (fun _ => !destOk (((jobAt 0x3C3 true).get 4).extractLsb' 0 10)) = true := by decide +kernel

/-- Its TAGs: one for every message while nothing is outstanding. -/
theorem witness_tags_free : up.tagRoom false 0 0 = true ∧ up.tagRoom false 1 0 = true ∧ ([0, 1, 2, 3].all fun op => up.tagRoom false 4 op) = true ∧ up.tagRoom true 1 0 = true := by
  decide +kernel
theorem noTag {kind : CtlKind} {t n : Nat} {j : Job} {w : BitVec 32} {eng : Bool} {spread op : Nat}
    (h : ∀ i, i < 2 ^ (tagHead eng spread op).2 → ∃ o ∈ (sentMany kind t n).seq.ctls, o.held = none ∧ o.tag = BitVec.ofNat 12 ((tagHead eng spread op).1 + i)) :
    (atWord (sentMany kind t n) j w).tagRoom eng spread op = false :=
  tagRoom_false_iff.mpr h
/-- None for a TSEND and a TCALL, a TBCAST, and each gather. -/
theorem witness_no_tag :
    (∀ op : Fin 2, (atWord (sentMany .step 0 256) (job true true) (word (0x30 + op) 2 0 (3 * 2 ^ 11))).tagRoom false 0 0 = false) ∧
    (atWord (sentMany .step 0x100 256) (job true true) (word 0x32 2 0 0)).tagRoom false 1 0 = false ∧
    (∀ op : Fin 4, (atWord (sentMany .step (0x400 + 64 * op) 64) (job true true) (word (0x33 + op) 2 0 0)).tagRoom false 4 op = false) := by
  exact ⟨fun _ => noTag (fun _ hi => sentMany_uses hi), noTag (fun _ hi => sentMany_uses hi),
    fun op => noTag (op := op) (fun _ hi => by simpa [tagHead] using sentMany_uses hi)⟩
/-- The same states, at their instructions, with nothing else in the way; and numbers that no CTL has. -/
theorem witness_without_tag :
    ([0, 1].all fun op => at? (sentMany .step 0 256) (job true true) (word (0x30 + op) 2 0 (3 * 2 ^ 11)) (fun s => decide (s.heldPlane = none) && decide (s.tsOut 0 < 16))) = true ∧
    at? (sentMany .step 0x100 256) (job true true) (word 0x32 2 0 0) (fun s => decide (s.heldPlane = none) && s.bcastRoom) = true ∧
    ([0, 1, 2, 3].all fun op => at? (sentMany .step (0x400 + 64 * op) 64) (job true true) (word (0x33 + op) 2 0 0) (fun s => decide (s.heldPlane = none))) = true ∧
    (∀ o ∈ (sentMany .step 0 256).seq.ctls, o.id ≠ (sentMany .step 0 256).seq.nextId) ∧ (∀ o ∈ up.seq.ctls, o.id ≠ up.seq.nextId) := by decide +kernel
/-- A CTL held beside the CTLs of `sentMany .step 0 n`. -/
def heldBeside (n : Nat) : State :=
  let s := sentMany .step 0 n
  { s with seq := { s.seq with nextId := n + 1, ctls := s.seq.ctls ++ [⟨n, 0, 0x143, .port, 0, 1, 8, 0, 1, none, some { cmd := Cmd.CTL, dest := 0x143 }⟩] } }
/-- Hypotheses of its CTLs that are held: every TAG of the head in use, and all but one. -/
theorem witness_held :
    ([255, 256].all fun n => (heldBeside n).seq.ctls.find? (fun x => x.id == n) == some ⟨n, 0, 0x143, .port, 0, 1, 8, 0, 1, none, some { cmd := Cmd.CTL, dest := 0x143 }⟩) = true ∧
    headOf 0 = (0, 8) ∧ (∀ x ∈ (heldBeside 255).seq.ctls, x.held = none → x.tag ≠ 255) ∧
    ∀ i, i < 256 → ∃ x ∈ (heldBeside 256).seq.ctls, x.held = none ∧ x.tag = BitVec.ofNat 12 (0 + i) :=
  ⟨by decide +kernel, by decide +kernel, by decide +kernel, fun _ hi => let ⟨x, hx, h⟩ := sentMany_uses (kind := .step) (t := 0) hi; ⟨x, List.mem_append_left _ hx, h⟩⟩

/-- A CTL outstanding that the sequencer numbered 0, and the packet that bears it at the crossing or gone. -/
def sending (there : Bool) (w : Wait) : State :=
  let s := up.setCtx 0 { Ctx.reset with job := some (job true true), wait := w }
  { s with seq := { s.seq with nextId := 1, ctls := [⟨0, 5, 0x143, .send, 0, 1, 0, 0, 1, none, none⟩], outq := if there then [{ cmd := Cmd.CTL, tag := 5, dest := 0x143 }] else [] } }
/-- Hypotheses of the rest of FabricMessages: a context whose CTL waits at the crossing, and one whose CTL has been injected. -/
theorem witness_injected :
    (let s := sending true (.inject 5 0x143)
     (s.ctx 0).job = some (job true true) ∧ (s.ctx 0).due = none ∧ (s.ctx 0).wait = .inject 5 0x143 ∧ ∃ k ∈ s.seq.outq, k.tag = 5 ∧ k.dest = 0x143) ∧
    (let s := sending false (.inject 5 0x143)
     (s.ctx 0).wait = .inject 5 0x143 ∧ (s.ctx 0).due = none ∧ ∀ k ∈ s.seq.outq, ¬ (k.tag = 5 ∧ k.dest = 0x143)) := by decide +kernel

/-- Slot 5 in a state, owned by a ring. -/
def lockIn (st owner : Nat) : State := (up.p (aLock 5) SEQ_LOCK.STATE st).p (aLock 5) SEQ_LOCK.OWNER owner
/-- Hypotheses of Obligations.LocksTakeAndRelease: a slot FREE, BROKEN, held by the job's own ring and by another, and no wait or a wait. -/
theorem witness_locks :
    at? (lockIn lkFree 0) (job true true) (word 0x40 1 2 5) (fun s => decide (s.lockState 5 = lkFree)) = true ∧
    at? (lockIn lkBroken 0) (job true true) (word 0x40 1 2 5) (fun s => decide (s.lockState 5 = lkBroken)) = true ∧
    at? (lockIn lkIsHeld 0) (job true true) (word 0x40 1 2 5) (fun s => decide (s.lockState 5 = lkIsHeld ∧ s.lockOwner 5 = 0)) = true ∧
    at? (lockIn lkIsHeld 1) (job true true) (word 0x40 1 2 5) (fun s => decide (s.lockState 5 = lkIsHeld ∧ s.lockOwner 5 ≠ 0)) = true ∧
    at? (lockIn lkIsHeld 1) (job true true) (word 0x40 1 2 (5 + 63 * 64)) (fun s => decide (s.lockState 5 = lkIsHeld ∧ s.lockOwner 5 ≠ 0)) = true ∧
    at? (lockIn lkIsHeld 0) (job true true) (word 0x41 1 0 5) (fun s => decide (s.lockState 5 = lkIsHeld ∧ s.lockOwner 5 = 0)) = true ∧
    at? (lockIn lkIsHeld 1) (job true true) (word 0x41 1 0 5) (fun s => decide (s.lockOwner 5 ≠ 0)) = true := by decide
/-- Context 0 waits for slot 5 in a state, alone in a queue or not. -/
def waits5 (st : Nat) (q : List (Nat × CtxId)) : State :=
  let s := (lockIn st 1).setCtx 0 { Ctx.reset with job := some (job true true), wait := .lock 5 7, deadline := 4 }
  { s with seq := { s.seq with lockq := q } }
/-- Hypotheses of its waits: a slot that came free or was broken with a LOCK that waits for it, and with none; a HALT and a YIELD while no other context has a job. -/
theorem witness_lock_waits :
    ([lkFree, lkBroken].all fun st => let s := waits5 st [(5, 0)]
      canonOk s && decide ((s.ctx 0).wait = .lock 5 7) && decide ((s.ctx 0).due = none) && decide ((s.ctx 0).job = some (job true true)) &&
        decide (s.lockState 5 ≠ lkIsHeld) && decide (s.seq.lockq.find? (fun x => x.1 == 5) = some (5, 0)) &&
        decide ((waits5 st []).seq.lockq.find? (fun x => x.1 == 5) = none)) = true ∧
    ([word 0x74 0 2 0, word 0x77 0 0 0].all fun w => at? (lockIn lkIsHeld 0) (job true true) w (fun s => ([1, 2, 3] : List CtxId).all fun d => decide ((s.ctx d).job = none))) = true := by
  decide +kernel

def timed : State := up.pb aTbStat TB_STAT.VALID true
/-- A word of opcode op with rd, cond and t. -/
def wword (op rd cond t : Nat) : BitVec 32 := BitVec.ofNat 32 (op * 2 ^ 25 + rd * 2 ^ 21 + cond * 2 ^ 12 + t)
/-- Hypotheses of Obligations.WaitsBeginAndEnd, where a wait begins: time not valid, a target that has come and one that has not; a condition on a lock, a word; a fence of every unit, of one, of none; a barrier here and over the chain. -/
theorem witness_waits :
    at? up (job true true) (wword 0x44 1 2 1) (fun s => !s.gb aTbStat TB_STAT.VALID) = true ∧
    at? timed (job true true) (wword 0x44 1 0 1) (fun s => s.gb aTbStat TB_STAT.VALID && decide (((job true true).get 0).toNat ≤ s.ntNs)) = true ∧
    at? timed (job true true) (wword 0x44 1 2 1) (fun s => s.gb aTbStat TB_STAT.VALID && decide (s.ntNs < ((job true true).get 2).toNat)) = true ∧
    at? up (job true true) (wword 0x43 1 0 1) any = true ∧
    ([2, 3].all fun k => at? up (jobAt 0x40000 true) (wword 0x43 1 (64 * k + 4) 1) any) = true ∧
    at? up (job true true) (wword 0x45 1 0x1FF 0) any = true ∧
    at? up (job true true) (wword 0x45 1 429 0) (fun s => puExists s.build 429) = true ∧
    at? up (job true true) (wword 0x45 1 1 0) (fun s => !puExists s.build 1) = true ∧
    at? up (job false true) (wword 0x42 1 0x100 1) any = true ∧ at? up (job false true) (wword 0x42 1 0 1) any = true ∧
    at? (chained up) (job true true) (wword 0x42 1 0x100 1) (fun s => s.chnReady) = true := by decide
/-- A FENCE of every unit and of one outside IDLE, and in it. -/
theorem witness_fence : ([0x1FF, 429].all fun pu => at? (up.setPhase phPrepared) (job true true) (wword 0x45 1 pu 0) (fun s => decide (s.phase ≠ phIdle)) &&
    at? up (job true true) (wword 0x45 1 pu 0) (fun s => decide (s.phase = phIdle))) = true := by decide
/-- Where a wait ends: every kind of wait, a lease that runs, MAXRUN. -/
theorem witness_wait_ends :
    ([Wait.waitc 0, .waitc 0x84, .fence 0x1FF, .waitt 9, .lock 5 0].all fun w =>
      let s := up.setCtx 0 { Ctx.reset with job := some (job true true), wait := w, deadline := 4 }
      decide ((s.ctx 0).job = some (job true true)) && decide ((s.ctx 0).due = none) && decide ((s.ctx 0).wait = w) && decide ((s.ctx 0).acc = none)) = true ∧
    (let s := up.setCtx 0 { Ctx.reset with job := some (job true true), wait := .waitt 9, deadline := 4 }
     let there := s.until (s.cyc + s.cyclesTo 9)
     there.ticks ≤ 4 ∧ 9 ≤ there.ntNs) ∧
    (let s := up.setLease 63 12
     tget 0 s.seq.leaseEnd 63 ≠ 0 ∧ (tget ⟨false, 0, 0⟩ s.pm.cts 64 : Ct).cnt < 15) ∧
    (let s := (up.p (aRingcfg 0) SEQ_RINGCFG.MAXRUN 3).setCtx 0 { Ctx.reset with job := some (job true true) }
     s.g (aRingcfg 0) SEQ_RINGCFG.MAXRUN ≠ 0 ∧ (s.ctx 0).wait.holds = false) ∧
    ((Wait.step .prepCopy 1).holds = true) := by decide

/-- Context 0 in a wait, with a word and an access. -/
def waiting (s : State) (w : Wait) (word : BitVec 32) (acc : Option (Nat × AccUse × W)) : State :=
  s.setCtx 0 { Ctx.reset with job := some (job true true), wait := w, word := word, deadline := 4, acc := acc }
/-- A message of context 0, unanswered: the CTL numbered 0. -/
def oneSent (kind : CtlKind) : State := { up with seq := { up.seq with nextId := 1, ctls := [⟨0, 5, 0x143, kind, 0, 1, 0, 0, 1, none, none⟩] } }
/-- Where a condition, a fence and a barrier have come, and have not: a slot FREE and HELD, a context without a job and with one, no TSEND outstanding and one; the old counters of one PU and of all; what a BARR awaits. -/
theorem witness_conditions :
    (lockIn lkFree 1).lockState 5 ≠ lkIsHeld ∧ (lockIn lkIsHeld 1).lockState 5 = lkIsHeld ∧ fld (5 : BitVec 9) 6 3 = 0 ∧ fld (65 : BitVec 9) 6 3 = 1 ∧ fld (256 : BitVec 9) 6 3 = 4 ∧
    (let s := waiting up (.waitc 65) 0 none
     (s.ctx 1).job = none ∧ (s.ctx 0).job = some (job true true) ∧ s.tsOut 0 = 0 ∧ (oneSent .send).tsOut 0 = 1) ∧
    (up.g (aPuCnt 431) (cntFd (!up.cur)) = 0 ∧ (∀ i, i < 432 → up.g (aPuCnt i) (cntFd (!up.cur)) = 0) ∧
     (up.p (aPuCnt 431) (cntFd true) 1).g (aPuCnt 431) (cntFd (!up.cur)) ≠ 0) ∧
    ([false, true].all fun ch => let s := waiting (oneSent .send) (.barrDrain ch 1 1) 0 none
     decide ((s.ctx 0).wait = .barrDrain ch 1 1) && decide ((s.ctx 0).due = none) && s.barrBusy 1 0 && !(waiting up (.barrDrain ch 1 1) 0 none).barrBusy 1 0) = true := by decide +kernel
/-- The answer of a poll: EQ and NE, with the word that they ask for and with another. -/
theorem witness_polls : ([0x82, 0xC2].all fun cond => let w := wword 0x43 1 cond 1
    let s := waiting up (.waitc (BitVec.ofNat 9 cond)) w (some (3, .poll, 8))
    let r := fld (wCond w) 0 4
    decide ((s.ctx 0).acc = some (3, .poll, 8)) && decide ((s.ctx 0).wait = .waitc (BitVec.ofNat 9 cond)) && decide (r = 2) &&
      decide (((job true true).get 4) &&& (job true true).get (r + 1) = (job true true).get (r + 2)) && decide ((12 : W) &&& (job true true).get (r + 1) ≠ (job true true).get (r + 2)) &&
      decide ((fld (wCond w) 6 3 = 2) = (cond = 0x82))) = true := by decide +kernel
/-- A step of BARR with its CRSP at the sequencer; a job that must end while it waits for an access, a change of the timebase, an injection, a fence, and for nothing. -/
theorem witness_barrier_step :
    (let s := up.setCtx 0 { Ctx.reset with job := some (job true true), wait := .step (.barrier 0) 1 }
     let u : State := { s with seq := { s.seq with ctls := [⟨1, 0x705, 0x143, .step, 0, 0, 8, 0, 3, none, none⟩], rx := [{ cmd := Cmd.CRSP, tag := 0x705, src := 0x143, data := [lineOf [0, 3]], dfc := 1, lenm1 := 15 }] } }
     (u.ctx 0).wait = .step (.barrier 0) 1 ∧ (u.ctx 0).job = some (job true true) ∧ (u.ctx 0).due = none ∧
     (u.seq.ctls.find? (fun x => x.id == 1)).any (fun o => decide (o.held = none) && decide (o.ctx = 0) && decide (o.kind = .step) && decide (o.op = none) &&
       (u.takeCrsp (fun k => k.tag == o.tag && k.src == o.dest && sameBody k { resp := 0, lenm1 := 15, data := [0, 3] })).isSome) = true) ∧
    ([(Wait.access, true), (.time 9, true), (.inject 5 0x143, true), (.fence 0x1FF, true), (.step .flush 1, true), (.waitc 0, false), (.none, false)].all fun (w, on) =>
     ((w.holds || w.completes) == on) && decide (((waiting up w 0 none).ctx 0).due = none)) = true := by decide +kernel

/-- Hypotheses of Obligations.StratumInstructionsActByPhase: every phase, with each form of the four instructions. -/
theorem witness_strata : ([phIdle, phPrepared, phDraining].all fun ph => [wword 0x50 1 0 1, wword 0x50 1 1 1, wword 0x51 1 0 1, wword 0x51 1 1 1, wword 0x52 1 0 1,
    wword 0x52 1 1 1, wword 0x53 1 0 1, wword 0x53 1 1 1].all fun w =>
      at? (up.setPhase ph) (job true true) w (fun s => decide (s.phase = ph) && decide (s.heldPlane = none))) = true := by decide

/-- Its STCOMMIT in PREPARED, with a message outstanding that it must await, and with none; one after a FLIP that reached only some; a REVERT and an STDRAIN while a plane is held. -/
theorem witness_commit : at? ((sending false .none).setPhase phPrepared) (job true true) (wword 0x51 1 0 1) (fun s => decide (s.phase = phPrepared) &&
      decide (s.heldPlane = none) && s.commitBusy s.seq.nextId s.seq.nextKey) = true ∧
    at? (up.setPhase phPrepared) (job true true) (wword 0x51 1 0 1) (fun s => !s.commitBusy s.seq.nextId s.seq.nextKey) = true ∧
    (let s := up.setPhase phDraining
     let partly : State := { s with seq := { s.seq with partialFlip := true } }
     at? partly (job true true) (wword 0x51 1 0 1) (fun s => decide (s.phase = phDraining) && s.seq.partialFlip) = true ∧
     ([wword 0x51 1 1 1, wword 0x52 1 0 1, wword 0x52 1 1 1].all fun w => at? (heldBy1 s) (job true true) w (fun s => decide (s.phase = phDraining) && s.heldPlane.isSome)) = true) := by
  decide

/-- Context 0 awaits the step of a stratum instruction, whose CRSP with two words, or without data, is at the sequencer. -/
def stepping (s : State) (k : StepKind) (data : List W) : State :=
  let s := s.setCtx 0 { Ctx.reset with job := some (job true true), wait := .step k 1 }
  { s with seq := { s.seq with
      ctls := [⟨1, 0x505, 0x143, .step, 0, 0, 8, 0, 2, none, none⟩],
      rx := [{ cmd := Cmd.CRSP, tag := 0x505, src := 0x143, data := if data = [] then [] else [lineOf data], dfc := if data = [] then 0 else 1, lenm1 := if data = [] then 0 else 15 }] } }
/-- What the answers of steps ask of a state, and what is asked beside. -/
def step? (s : State) (k : StepKind) (data : List W) (more : State → Bool) : Bool :=
  let t := stepping s k data
  let r : CrspBody := { resp := 0, lenm1 := if data = [] then 0 else 15, data := data }
  canonOk t && decide ((t.ctx 0).wait = .step k 1) && decide ((t.ctx 0).job = some (job true true)) && decide ((t.ctx 0).due = none) &&
    (t.seq.ctls.find? (fun x => x.id == 1)).any (fun o => decide (o.held = none) && decide (o.kind = .step) && decide (o.op = none) && decide (o.ctx = 0) &&
      (t.takeCrsp (fun x => x.tag == o.tag && x.src == o.dest && sameBody x r)).isSome) && more t
/-- A commit holds a plane: FLIP went out without it, or RELEASE has not. -/
def holding (str : Option Plane) : State := let t := (up.setPhase phDraining).p aStstate SEQ_STSTATE.PAUSE 1; { t with seq := { t.seq with planeStr := str } }
/-- Hypotheses of its answers: each step with every unit confirming, with one that did not, and with no counts; each phase and each DLDIFF at the barrier of STCOMMIT; schedulers that have switched and ones that have not; a gather while a plane is held, under the old stratum and under CUR, with old packets and units and without; RELEASE of STDRAIN and of a REVERT. -/
theorem witness_steps :
    ([StepKind.prepCopy, .commitBarrier, .flip false none, .flush, .gather false 0, .release false, .release true, .queryGather].all fun k =>
      [[], [0, 0], [0, 0x100000000]].all fun data => step? (up.setPhase phDraining) k data any) = true ∧
    ([phIdle, phPrepared, phDraining].all fun ph => [0, 1, 2, 3].all fun dl => step? (up.setPhase ph) .commitBarrier [dl, 0] (fun s => decide (s.phase = ph))) = true ∧
    step? up (.flip false none) [0, 0] (fun s => decide (s.schedsLeft = [])) = true ∧ step? (up.pb aStstate SEQ_STSTATE.CUR true) (.flip true none) [0, 0] (fun s => decide (s.schedsLeft ≠ [])) = true ∧
    ([[0, 0], [5, 0], [0x1000000, 0], [0x1000000000000, 0], [0x100000000000000, 0]].all fun data => [true, false].all fun rv =>
      step? (up.setPhase phDraining) (.gather rv 0) data (fun s => decide (s.heldPlane = none)) &&
      step? (holding none) (.gather rv 0) data (fun s => s.heldPlane.isSome && s.seq.planeStr.isNone) &&
      [(0 : Plane), 1].all fun p => step? (holding (some p)) (.gather rv 0) data (fun s => decide (s.seq.planeStr = some p))) = true ∧
    (fld (0x100000000000000 : W) 56 8 = 1 ∧ fld (5 : W) 0 24 = 5 ∧ fld (0x1000000 : W) 24 24 = 1 ∧ fld (0x1000000000000 : W) 48 8 = 1 ∧ fld (0x100000000 : W) 32 16 = 1) := by decide +kernel

/-- Hypotheses of Obligations.TimeInstructions: each SUB of TRD, each form with the right and without, a load armed before and none. -/
theorem witness_time : ([word 0x60 1 0 0, word 0x60 1 0 1, word 0x60 1 0 2, word 0x61 1 2 0, word 0x61 1 2 1, word 0x62 1 2 0, word 0x63 1 2 0].all fun w =>
    at? up (job true true) w (fun s => decide (s.tb.armed = none)) && at? up (job true false) w any &&
    at? { up with tb := { up.tb with armed := some 5 } } (job true true) w (fun s => s.tb.armed.isSome)) = true := by decide

-- Rings and jobs.

/-- Ring 0 with words submitted, its configuration open to every context. -/
def ringUp (ws : List (BitVec 32)) : State :=
  let s := ((up.p (aRingcfg 0) SEQ_RINGCFG.EN 1).p (aRingcfg 0) SEQ_RINGCFG.CTXMASK 15).setPtr (aRingtail 0) ws.length
  (List.range ws.length).foldl (fun s i => s.wr (aRing 0 (i / 2)) (setFld (s.rd (aRing 0 (i / 2))) (32 * (i % 2)) 32 (ws.getD i 0).toNat)) s
/-- Hypotheses of Obligations.RingsAndJobs: a slot outside the words submitted, a TAIL at 4,096 words and one above, a CPLHEAD at its bound and one above, a foreign master; a suspended job, a new one, a descriptor that is no job. -/
theorem witness_rings : canonOk up = true ∧ up.ownsRing (.host 0) 0 = true ∧ up.ownsRing (.host 1) 0 = false ∧ up.ringCount 0 ≤ (4095 + 4096 - up.head 0 % 4096) % 4096 ∧
    up.ringCount 0 ≤ (4096 + 65536 - up.head 0) % 65536 ∧ (4096 + 65536 - up.head 0) % 65536 ≤ 4096 ∧ 4096 < (4097 + 65536 - up.head 0) % 65536 ∧
    (let s := up.setPtr (aCpltail 0) 3
     (3 + 65536 - s.ptr (aCplhead 0)) % 65536 ≤ (s.ptr (aCpltail 0) + 65536 - s.ptr (aCplhead 0)) % 65536 ∧
     ¬ (4 + 65536 - s.ptr (aCplhead 0)) % 65536 ≤ (s.ptr (aCpltail 0) + 65536 - s.ptr (aCplhead 0)) % 65536) := by decide
theorem witness_jobs :
    (let s := ringUp [0xA0010001, 5, 6, 0, 0xEC000000]
     s.dispatching = true ∧ (s.ctx 3).job = none ∧ s.pickRing 3 = some 0 ∧ s.savedJob 0 = none ∧ s.slotFree 0 = true ∧ s.descOk 0 = true) ∧
    (let s := ringUp [0x50010001, 5, 6, 0]
     s.pickRing 3 = some 0 ∧ s.savedJob 0 = none ∧ s.slotFree 0 = true ∧ s.descOk 0 = false ∧ canonOk s = true) ∧
    (let s := (ringUp []).setSaved 0 (some (job true true))
     s.pickRing 3 = some 0 ∧ s.savedJob 0 = some (job true true)) := by decide

/-- A CTL of a kind outstanding under number 1, context 0 waiting for it, and its CRSP at the sequencer. -/
def awaiting (kind : CtlKind) (w : Wait) : State :=
  let s := up.setCtx 0 { Ctx.reset with job := some (job true true), wait := w }
  { s with seq := { s.seq with ctls := [⟨1, 5, 0x143, kind, 0, 1, 0, 0, 1, none, none⟩], rx := [{ cmd := Cmd.CRSP, tag := 5, src := 0x143, data := [lineOf [9]], dfc := 1, lenm1 := 7 }] } }
/-- Hypotheses of Obligations.AnswersOfMessages: a TSEND, a TCALL, a TBCAST with its CRSP, and a step that its context awaits no more, and one that it does. -/
theorem witness_answers : ([(CtlKind.send, Wait.none), (.call, .call 1 true), (.bcast, .none), (.step, .none), (.step, .step .flush 1)].all fun (k, w) =>
    let s := awaiting k w
    (s.stepAwaits 0 1 == (w == .step .flush 1)) &&
    (s.seq.ctls.find? (fun x => x.id == 1)).any (fun o => decide (o.op = none) && decide (o.held = none) && decide (o.kind = k) && decide (fld o.tag 8 3 = 0) &&
      (s.takeCrsp (fun p => p.tag == o.tag && p.src == o.dest && sameBody p { resp := 0, data := [9] })).isSome) && decide ((s.ctx 0).wait = w)) = true := by decide +kernel

/-- A CTL that is held, and a CRSP for no outstanding CTL, also behind one that a CTL awaits. -/
theorem witness_lone :
    ((heldBeside 3).seq.ctls.find? (fun x => x.id == 3)).any (fun o => o.held.isSome) = true ∧
    (let s := awaiting .call (.call 1 true)
     let k : Pkt := { cmd := Cmd.CRSP, tag := 6, src := 0x143 }
     let u : State := { s with seq := { s.seq with rx := s.seq.rx ++ [k] } }
     (∀ x ∈ u.seq.ctls, x.id ≠ 2) ∧ u.seq.rx = s.seq.rx ++ k :: [] ∧ sameBody k { resp := 0, lenm1 := 0 } = true ∧ (∀ o ∈ u.seq.ctls, ¬ (o.tag = k.tag ∧ o.dest = k.src)) ∧
     ∀ x ∈ s.seq.rx, sameBody x { resp := 0, lenm1 := 0 } = false) := by decide +kernel

/-- A gather outstanding under number 1, of this instance or with the chain's, and its CRSP with counts or without. -/
def gathering (chain counts : Bool) : State :=
  let s := awaiting .call (.gather 1)
  { s with seq := { s.seq with
      ctls := s.seq.ctls.map (fun o => { o with op := if chain then some 7 else none }),
      rx := if counts then [{ cmd := Cmd.CRSP, tag := 5, src := 0x143, data := [lineOf [9, 143]], dfc := 1, lenm1 := 15 }]
        else [{ cmd := Cmd.CRSP, tag := 5, src := 0x143 }] } }
/-- An answer of a gather delivered as POISON, without its data. -/
def poisoned (chain : Bool) : State :=
  let s := gathering chain true
  { s with seq := { s.seq with rx := [{ cmd := Cmd.CRSP, tag := 5, src := 0x143, resp := Resp.POISON, lenm1 := 15 }] } }
theorem witness_poisoned_gather : ([true, false].all fun chain => let s := poisoned chain
    (s.seq.ctls.find? (fun x => x.id == 1)).any (fun o => (s.takeCrsp (fun p => p.tag == o.tag && p.src == o.dest && sameBody p { resp := Resp.POISON, lenm1 := 15 })).isSome) &&
      decide ((s.ctx 0).wait = .gather 1) && decide ((s.ctx 0).job = some (job true true))) = true := by decide +kernel
/-- Hypotheses of its gathers: an answer with counts and one without, without CH and with it. -/
theorem witness_gathers : ([(false, true), (false, false), (true, false)].all fun (chain, counts) =>
    let s := gathering chain counts
    let r : CrspBody := if counts then { resp := 0, lenm1 := 15, data := [9, 143] } else { resp := 0, lenm1 := 0 }
    (s.seq.ctls.find? (fun x => x.id == 1)).any (fun o => decide (o.op.isSome = chain) && decide (o.kind = .call) &&
      (s.takeCrsp (fun p => p.tag == o.tag && p.src == o.dest && sameBody p r)).isSome) && decide ((s.ctx 0).wait = .gather 1) && decide ((s.ctx 0).due = none) &&
      decide ((s.ctx 0).job = some (job true true))) = true := by decide +kernel

/-- Hypotheses of Obligations.ScrubAndReload: a good entry of each table and a bad one; a reload with every job ended. -/
theorem witness_scrub : up.microBad up.seq.scrub = false ∧ { up with micro := [(0, 1#96)] }.microBad 0 = true ∧
    ({ up with seq := { up.seq with scrub := 8319 } }.wr (aDisp 127) 1).dispBad 127 = true ∧
    (let s := up.pb aSeqStatus SEQ_STATUS.RELOADING true
     s.gb aSeqStatus SEQ_STATUS.RELOADING = true ∧ s.gb aSeqStatus SEQ_STATUS.DEAD = false ∧ s.chn.reload = false ∧ ∀ c, (s.ctx c).job = none) := by decide

-- The queue.

/-- Hypotheses of Obligations.StepRunsFrontCommand, StepsGoOn, EveryStepKeepsCanonicalForm, CommandsKeepQueueAndBuild: a command in front, an empty queue, a canonical state, a command that answers. -/
theorem witness_queue : ({ up with pending := [Instr.ping 0] } : State).pending = [Instr.ping 0] ∧ State.reset.pending = [] ∧
    canonOk State.reset = true ∧ canonOk up = true ∧ canonOk ({ up with pending := [Instr.ping 0] }) = true := by decide
theorem witness_commands_answer : exec (.ping 0) up = .next up := rfl

-- Agents.

/-- A CTL of a program for one tile: FUNC, LENM1 and its arguments. -/
def ctl (f : Nat) (args : List W) : Pkt :=
  { src := 0x303, cmd := Cmd.CTL, dfc := 1, lenm1 := if f = 2 then 31 else 7, aux := BitVec.ofNat 32 f, data := [lineOf args] }
/-- Tile 5 with a packet at the head of its queue. -/
def agentHas (s : State) (k : Pkt) : State := s.setAgent 5 { s.agent 5 with rx := [k] }
/-- What `State.agentTakes` asks of tile 5, as a test. -/
def takesOk (s : State) (k : Pkt) : Bool := decide ((s.agent 5).next = some (k, [])) && s.coreRuns 5 && !badCtl k 5
theorem takes_of {s : State} {k : Pkt} (h : takesOk s k = true) : s.agentTakes 5 k [] := by
  simp only [takesOk, Bool.and_eq_true, decide_eq_true_eq, Bool.not_eq_true'] at h
  exact ⟨h.1.1, h.1.2, h.2⟩
/-- The agent takes a CTL of a program, with what is asked beside of the state without it. -/
def prog? (f : Nat) (args : List W) (s : State) (more : State → Bool) : Bool :=
  takesOk (agentHas s (ctl f args)) (ctl f args) && isProg f (ctl f args) && more ((agentHas s (ctl f args)).agentTook 5 [])

/-- Hypotheses of Obligations.AgentFunctions, for programs: every function, at the highest offset; a CTL of another function; one that no agent executes. -/
theorem witness_programs : prog? 0 [0] up any = true ∧ prog? 1 [0xFFF8] up any = true ∧ prog? 2 [0xFFF8, 1, 1, 0] up any = true ∧
    prog? 3 [0xFFFFFF8] up any = true ∧ isProg 0 (ctl 1 [0]) = false ∧ isProg 2 (ctl 1 [0]) = false ∧
    (let s := agentHas up (ctl 0x21 [0])
     (s.agent 5).next = some (ctl 0x21 [0], []) ∧ s.coreRuns 5 = true ∧ badCtl (ctl 0x21 [0]) 5 = true) := by decide +kernel

/-- The CTL of an engine function. -/
def engine (n arg : Nat) : Pkt :=
  { src := 0x303, cmd := Cmd.CTL, dfc := 1, lenm1 := 7, tag := 0x800, aux := BitVec.ofNat 32 (engFunc n), data := [engArgs n arg] }
theorem engine_func (n arg : Nat) : ctlFunc (engine n arg) = engFunc n := by
  have h := (Config.engineFunc n).isLt
  simp only [ctlFunc, fld, engine, engFunc, BitVec.extractLsb'_toNat, BitVec.toNat_ofNat]
  simp only [Nat.shiftRight_zero]
  omega
theorem engine_eng (n arg : Nat) : ctlEng (engine n arg) = true := by
  show bitOf (0x800 : BitVec 12) 11 = true
  decide
theorem engine_spread (n arg : Nat) : ctlSpread (engine n arg) = 0 := by
  show fld (0x800 : BitVec 12) 8 3 = 0
  decide
theorem engine_is (n arg : Nat) : isEngine (engine n arg) n arg = true := by
  simp only [isEngine, engine_func, engine_eng, beq_self_eq_true, Bool.true_and]
  simp [engine]
/-- Hypotheses of Obligations.AgentFunctions, for the engine: whatever the coding of its functions, a tile takes each, with each operand. -/
theorem witness_engine (n arg : Nat) : (agentHas up (engine n arg)).agentTakes 5 (engine n arg) [] ∧ isEngine (engine n arg) n arg = true := by
  refine ⟨⟨rfl, ?_, ?_⟩, engine_is n arg⟩
  · show up.coreRuns 5 = true
    decide
  · simp [badCtl, engine_spread, engine_eng, engine_func, engFunc]

/-- Its counters of a probe that watches the tile. -/
theorem witness_probe_counter (n arg : Nat) :
    (agentHas (up.p (aPrb 3) OBS_PRBCTL.TILE 5) (engine n arg)).agentTakes 5 (engine n arg) [] ∧ (up.p (aPrb 3) OBS_PRBCTL.TILE 5).g (aPrb 3) OBS_PRBCTL.TILE = 5 := by
  refine ⟨⟨rfl, ?_, ?_⟩, by decide⟩
  · show (up.p (aPrb 3) OBS_PRBCTL.TILE 5).coreRuns 5 = true
    decide
  · simp [badCtl, engine_spread, engine_eng, engine_func, engFunc]

/-- Hypotheses of Obligations.AgentAnswersBearTheStatusWord: a CTL to one tile, and one with the reserved SPREAD. -/
theorem witness_status_word : canonOk up = true ∧ ctlSpread (ctl 0 [0]) = 0 ∧ ctlSpread { ctl 0 [0] with tag := 0x700 } = 7 ∧ (ctl 0 [0]).cmd = Cmd.CTL := by decide

/-- Old packets on plane 0 of a tile keep it from being reset. -/
def enabled5 (s : State) : State := s.p (aNicfg 5 0) TL_NICFG.STATE 1
/-- Hypotheses of Obligations.SnapshotsResetsAndHolds: an arming for a later time, at the highest one, and for a time that has passed; a clear; a flush; a reset of a quiet tile and of a busy one; a hold of one tick and of none; the end of a hold; an armed agent that runs; an armed tile that is IDLE. -/
theorem witness_snapshots :
    prog? 0x10 [5] up (fun s => decide (s.ntNs < 5)) = true ∧ prog? 0x10 [0] up (fun s => decide ((0 : W).toNat ≤ s.ntNs)) = true ∧ prog? 0x10 [0xFFFFFFFFFFFFFFFF] up any = true ∧ prog? 0x11 [0] up any = true ∧
    prog? 0x20 [0] up (fun s => !s.latched 5) = true ∧ prog? 0x30 [0x0A5A] up (fun s => decide (s.trstBlocks 5 = 0)) = true ∧
    prog? 0x30 [0x0A5A] (enabled5 up) (fun s => decide (s.trstBlocks 5 ≠ 0)) = true ∧ prog? 0x40 [1] up any = true ∧ prog? 0x40 [0] up any = true ∧
    (let s := up.setAgent 5 { up.agent 5 with holdEnd := some 9 }
     canonOk s = true ∧ (s.agent 5).holdEnd = some 9) ∧
    (let s := up.pb (aAgsnap 5) TL_AGSNAP.ARMED true
     canonOk s = true ∧ s.gb (aAgsnap 5) TL_AGSNAP.ARMED = true ∧ s.coreRuns 5 = true) ∧
    (let s := (up.pb (aAgsnap 5) TL_AGSNAP.ARMED true).p (aPmTile 5) PM_TILE.ST 1
     canonOk s = true ∧ s.gb (aAgsnap 5) TL_AGSNAP.ARMED = true ∧ s.pst 5 = stIdle) := by decide +kernel

/-- A CRSP of tile 6's agent, with counts or without, stands at tile 5's agent. -/
def relayed (r : CrspBody) (waits : List (Nat × Nat)) : State :=
  up.setAgent 5 { up.agent 5 with
    crsps := [{ src := epAddr 6 3, cmd := Cmd.CRSP, resp := r.resp, lenm1 := r.lenm1, aux := r.aux, data := if r.data = [] then [] else [lineOf r.data] }],
    spreads := if waits = [] then [] else [⟨{ tag := 0 }, false, waits, 0, 0, 0, 0, Resp.OK, 0⟩] }
def countsBody : CrspBody := { resp := 0, lenm1 := 15, data := [3, 1] }
/-- Hypotheses of Obligations.RelaysCombine: an answer that no spread awaits, one with counts and one without that a spread awaits, a wait without an answer. -/
theorem witness_relays :
    (let s := relayed countsBody []
     canonOk s = true ∧ ((s.agent 5).crsps.map (·.src)) = [epAddr 6 3] ∧ (s.agent 5).spreads.any (awaits 0 6) = false) ∧
    ([countsBody, { resp := 7, lenm1 := 0 }].all fun r =>
     let s := relayed r [(6, 3)]
     canonOk s && (s.agent 5).spreads.any (awaits 0 6) && decide ((s.agent 5).spreads.map (fun x => x.waits.find? (fun w => w.1 == 6)) = [some (6, 3)]) &&
     (extract (fun (k : Pkt) => k.tag == 0 && k.src == epAddr 6 3 && k.resp == r.resp && k.aux == r.aux && k.lenm1 == r.lenm1 &&
       (r.data == [] && k.data == [] || k.data == [lineOf r.data])) (s.agent 5).crsps).isSome) = true ∧ countsBody.lenm1 = 15 ∧ ({ resp := 7, lenm1 := 0 } : CrspBody).lenm1 ≠ 15 := by decide +kernel

-- Links.

/-- The argument word of a link function: plane 1, direction 1, a lane. -/
def onLane (lane : Nat) : W := BitVec.ofNat 64 (1 + 2 * 1 + 2 ^ 16 * lane)
def down11 (s : State) : State := s.setLinkState 5 1 1 lkDown
def fenced11 (s : State) : State := s.pb (aLnkstat 5 1 0 1) TL_LNKSTAT.TESTF true
/-- The agent takes a link function for plane 1, direction 1 of tile 5. -/
def link? (f : Nat) (s : State) (more : State → Bool) : Bool := prog? f [onLane 596] s (fun s1 => decide (argLink (ctl f [onLane 596]) = (1, 1)) && more s1)
def free11 (s : State) : Bool := let l := s.link 5 1 1
  l.test.isNone && l.repCtl.isNone && l.pend.all (fun x => !x.2.2)
/-- The link with a test under way, and with a repair pending that the other side took or not. -/
def tested11 (live drains : Bool) (s : State) : State := s.setLink 5 1 1 { s.link 5 1 1 with test := some ⟨ctl 0x53 [0], false, live, drains, [], false⟩ }
def pend11 (took : Bool) (s : State) : State := s.setLink 5 1 1 { s.link 5 1 1 with pend := some (596, 9, took) }
/-- Hypotheses of Obligations.LinkFunctionsAndProcedures, for the functions: a neighbour that cannot be reached; each function on a direction that it runs on, and on one that it does not; LPEER of the lane pending, ahead of its step. -/
theorem witness_link_functions :
    link? 0x50 (up.p (aPmTile 6) PM_TILE.ST 5) (fun s => s.noPeer 5 1) = true ∧
    ([0x50, 0x51, 0x52].all fun f => link? f up (fun s => !s.noPeer 5 1)) = true ∧
    ([fenced11 up, pend11 false (fenced11 up)].all fun u => link? 0x53 u (fun s => !s.noPeer 5 1 && s.fenced 5 1 1 && decide (s.linkState 5 1 1 = lkUp) && free11 s)) = true ∧
    link? 0x53 up (fun s => !s.noPeer 5 1 && !s.fenced 5 1 1) = true ∧
    link? 0x53 (tested11 false true (fenced11 up)) (fun s => !s.noPeer 5 1 && (s.link 5 1 1).test.isSome) = true ∧
    link? 0x54 up (fun s => !s.noPeer 5 1 && decide (s.linkState 5 1 1 = lkUp) && free11 s) = true ∧
    link? 0x54 (up.setLinkState 5 1 1 lkHeld) (fun s => !s.noPeer 5 1 && decide (s.linkState 5 1 1 = lkHeld)) = true ∧
    link? 0x55 up (fun s => !s.noPeer 5 1 && free11 s && decide ((s.link 5 1 1).pend = none) && (lowest (s.spares 5 1 0 1) spFree).isSome &&
      decide (s.linkState 5 1 1 = lkUp) && decide (argLane (ctl 0x55 [onLane 596]) < 597)) = true ∧
    link? 0x55 (pend11 true up) (fun s => !s.noPeer 5 1 && (s.link 5 1 1).pend.isSome) = true ∧
    link? 0x56 up (fun s => !s.noPeer 5 1 && decide (s.linkState 5 1 1 = lkUp)) = true ∧
    link? 0x56 (down11 up) (fun s => !s.noPeer 5 1 && decide (s.linkState 5 1 1 = lkDown)) = true := by decide +kernel
def lpeerCtl : Pkt := { ctl (0x5F + 9 * 2 ^ 8) [onLane 596] with src := epAddr 6 3 }
theorem witness_lpeer :
    (let s := agentHas (up.setLink 5 1 1 { up.link 5 1 1 with pend := some (596, 9, false) }) lpeerCtl
     let s1 := s.agentTook 5 []
     takesOk s lpeerCtl = true ∧ isProg funcLpeer lpeerCtl = true ∧ s1.noPeer 5 1 = false ∧ argLink lpeerCtl = (1, 1) ∧ argLane lpeerCtl = 596 ∧ fld lpeerCtl.aux 8 24 = 9 % 2 ^ 24 ∧
     (s1.link 5 1 1).pend = some (596, 9, false) ∧ (s1.link 5 1 1).test = none ∧ s1.calStep < 9) := by decide +kernel
/-- Hypotheses of its procedures: a calibration step of the lane in turn, from the lowest margin to the highest; a repair that the sender took and one that it did not; a reinitialisation without a pass and with one, with a lane that fails in the first pass or the second, and with 17; a test that drains, with credits home and without, and one whose pattern runs. -/
theorem witness_link_procedures :
    (let s := { up with obs := { up.obs with calEn := true } }
     canonOk s = true ∧ s.obs.calEn = true ∧ s.calStep % 597 = 0 ∧ s.linkState 5 1 1 = lkUp ∧
     (highest (s.spares (neighbour 5 1) 1 1 (opposite 1)) spCal).isSome = true ∧ (s.link 5 1 1).pend = none ∧ (s.link 5 1 1).lastKa ≠ some s.calStep ∧
     laneFailed (s.spares (neighbour 5 1) 1 1 (opposite 1)) 0 = false ∧ ¬ s.g aLcfg OBS_LCFG.CALMIN ≤ 0 ∧ s.g aLcfg OBS_LCFG.CALMIN ≤ 63) ∧
    ([true, false].all fun b => decide (((up.setLink 5 1 1 { up.link 5 1 1 with pend := some (7, 9, b) }).link 5 1 1).pend = some (7, 9, b))) = true ∧
    (let s := up.setLinkState 5 1 1 lkReinit
     s.linkState 5 1 1 = lkReinit ∧ (s.link 5 1 1).passes = 0 ∧ s.inputEmpty (neighbour 5 1) 1 (opposite 1) = true) ∧
    (let s := (up.setLinkState 5 1 1 lkReinit).setLink 5 1 1 { up.link 5 1 1 with passes := 1 }
     s.linkState 5 1 1 = lkReinit ∧ (s.link 5 1 1).passes ≠ 0) ∧
    ([(1, 1), (2, 1), (2, 17)].all fun (n, m) =>
     let s := (up.setLinkState 5 1 1 lkReinit).setLink 5 1 1 { up.link 5 1 1 with passes := n }
     let failing := List.range m
     let bad := failing.eraseDups.filter (fun p => !laneFailed (s.rxSpares 5 1 1) p)
     let r := bad.foldl (fun (y : State × Bool) p => (y.1.repairNow 5 1 1 p, y.2 || y.1.wouldExhaust 5 1 1 p)) (s, false)
     failing.all (· < 597) && decide (bad.length = m) && decide ((s.link 5 1 1).passes = n) && decide (s.linkState 5 1 1 = lkReinit) && (r.2 == decide (m = 17))) = true ∧
    ([true, false].all fun live => let s := tested11 live true (if live then up.setLinkState 5 1 1 lkHeld else up)
     let u := s.setRouter 5 1 ((up.router 5 1).setCredit 1 0 3)
     (s.link 5 1 1).test.any (fun j => decide (j.live = live) && j.draining) && s.drained 5 1 1 && decide (s.linkState 5 1 1 ≠ lkReinit) &&
       (u.link 5 1 1).test.any (fun j => decide (j.live = live) && j.draining) && !u.drained 5 1 1 &&
       (!live || decide (u.linkState 5 1 1 = lkHeld))) = true ∧
    (let s := tested11 false false (up.setLinkState 5 1 1 lkTest)
     s.linkState 5 1 1 = lkTest ∧ (s.link 5 1 1).test.map (·.draining) = some false) := by decide +kernel

/-- The calibration step of a lane in rotation 1, with the lowest margin noted in a rotation. -/
def calAt (lane rot m : Nat) (s : State) : State :=
  let s : State := { s with cyc := 2 ^ s.calLog2 * (597 + lane), obs := { s.obs with calEn := true } }
  s.setLink 5 1 1 { s.link 5 1 1 with rot := rot, rotMin := m }
/-- Hypotheses of its steps at the last lane and at the first, of a direction that is UP and of one that is not, within the rotation whose margin was noted and after it. -/
theorem witness_margins :
    ([596, 0].all fun lane => [1, 0].all fun rot => [lkUp, lkTest].all fun st =>
     let s := (calAt lane rot 9 up).setLinkState 5 1 1 st
     canonOk s && s.obs.calEn && decide (s.calStep % 597 = lane) && decide (s.calStep / 597 = 1) && decide ((s.link 5 1 1).rot = rot) && decide (s.linkState 5 1 1 = st) &&
       (highest (s.spares (neighbour 5 1) 1 1 (opposite 1)) spCal).isSome && decide ((s.link 5 1 1).pend = none) && decide ((s.link 5 1 1).lastKa ≠ some s.calStep) &&
       !laneFailed (s.spares (neighbour 5 1) 1 1 (opposite 1)) lane) = true := by decide +kernel

-- Events.

/-- A DBL of a source: kind and level as given. -/
def dbl (src : Nat) (level up : Bool) : Pkt := { cmd := Cmd.DBL, aux := BitVec.ofNat 32 (src + 2 ^ 10 * level.toNat + 2 ^ 11 * up.toNat) }
/-- DBEP holds a packet, the management domain being in a state. -/
def dbep (s : State) (m : MState) (k : Pkt) : State := { s with evc := { s.evc with rx := [k] }, pm := { s.pm with mstate := m } }
def lvl7 (s : State) : State := s.pb (aSrc 7) EVC_SRC.LVLSRC true
/-- Hypotheses of Obligations.DoorbellsAndRetention: a DBL of an edge source, of a level source, of an unknown one, of the other kind, and another command; in each state of the domain. -/
theorem witness_doorbells :
    ([MState.running, .retention, .clocked].all fun m =>
      (let s := dbep up m (dbl 1021 false false)
       decide ((dbl 1021 false false).cmd = Cmd.DBL) && decide ((dbl 1021 false false).dfc = 0) && decide (fld (dbl 1021 false false).aux 0 10 = 1021) &&
       !bitOf (dbl 1021 false false).aux 10 && !s.lvlSrc 1021 && !s.evc.lEdge.contains 1021) &&
      (let s := dbep (lvl7 up) m (dbl 7 true true)
       decide (fld (dbl 7 true true).aux 0 10 = 7) && bitOf (dbl 7 true true).aux 10 && s.lvlSrc 7) &&
      (let s := dbep { up with evc := { up.evc with lEdge := [7] } } m (dbl 7 false true)
       !bitOf (dbl 7 false true).aux 10 && !s.lvlSrc 7 && s.evc.lEdge.contains 7)) = true ∧
    fld (dbl 1022 false false).aux 0 10 = 1022 ∧ (bitOf (dbl 7 true true).aux 10 ≠ (dbep up .running (dbl 7 true true)).lvlSrc 7) ∧
    (ctl 0 [0]).cmd ≠ Cmd.DBL ∧
    (let s : State := { up with evc := { up.evc with evq := [928, 940, 1007] } }
     s.pm.mstate = .running ∧ s.evc.evq = [928] ++ 940 :: [1007] ∧ 940 ∉ [928] ∧ s.lvlSrc 940 = false ∧ (s.pb (aSrc 940) EVC_SRC.LVLSRC true).lvlSrc 940 = true ∧
     1021 ∉ s.evc.evq) := by decide +kernel
theorem witness_retention :
    (let s := up.pb aPmCfg PM_CFG.MRETEN true
     s.gb aPmCfg PM_CFG.MRETEN = true ∧ s.pm.mstate = .running ∧ s.mgmtIdle = true) ∧ up.gb aPmCfg PM_CFG.MRETEN = false ∧
    (dbep up .clocked (dbl 0 false false)).pm.mstate = .clocked ∧ (dbep up .clocked (dbl 0 false false)).hosts = [] ∧ canonOk (dbep up .clocked (dbl 0 false false)) = true := by decide +kernel

/-- Source 5 pending with priority 200, enabled at target 9. -/
def pending5 : State := (((up.setPend 5 true).p (aSrc 5) EVC_SRC.PRI 200).wr (aEn 9 0) 0x20).wr (aThresh 9) 0
/-- The same with the host of target 9 in reset. -/
def lowAt9 : State := pending5.setHost 1 { pending5.host 1 with low := true }
/-- Hypotheses of Obligations.ClaimsAndCompletes, SourcesArePresentedByPriority and EventRegisters: something presented and nothing; a source on the stack and none; each kind of master. -/
theorem witness_events : up.pm.mstate = .running ∧ pending5.best 9 = some 5 ∧ up.best 9 = none ∧ canonOk pending5 = true ∧
    up.ownsTarget (.sq 0) 9 = true ∧ up.ownsTarget (.host 1) 9 = true ∧ up.ownsTarget (.host 0) 9 = false ∧
    (5, 200) ∈ (up.setStack 9 [(5, 200)]).stack 9 ∧ up.stack 9 = [] ∧ (dbep up .retention (dbl 0 false false)).pm.mstate ≠ .running ∧
    masterIsSeq (.sq 0) = true ∧ masterHost (.host 1) = some (9 / 8) ∧ masterIsSeq (.host 0) = false ∧ masterHost (.host 0) ≠ some (9 / 8) ∧
    up.sqRight (.sq 0) = true ∧ up.sqRight .bl = false ∧ up.masterActs (.host 1) = true ∧ up.masterActs (.sq 0) = true ∧
    (up.setHost 1 { up.host 1 with low := true }).masterActs (.host 1) = false ∧ (lowAt9.host 1).low = true ∧ canonOk lowAt9 = true := by decide +kernel

-- Hosts and ports.

/-- A read of one word by host 3. -/
def access (m : Nat) : Acc :=
  { master := m, who := if m < 8 then .host 3 else .sq 0, req := 1, ctx := none, write := m < 8, inst := 0, off := 0, beats := 1, data := [], strb := [], done := [] }
/-- Hypotheses of Obligations.HostPorts: a port that can accept, parked at its port and not, a read and a write; one with four requests, one in reset, one whose crossing reconnects, one whose clock stands. -/
theorem witness_hosts : up.hostReady 3 = true ∧ up.hostAlive 3 = true ∧ ((up.setHost 3 { up.host 3 with stopped := true }).host 3).stopped = true ∧
    ({ write := true, valid := false, inst := 0, addr := 0, len := 0, data := [1], strb := [1] } : HReq).valid = false ∧
    ([false, true].all fun write => let r : HReq := { write := write, inst := 0, addr := 0, len := 0 }
     let s0 := (up.setHost 3 { up.host 3 with hold := !r.ready }).hostFlush 3
     r.valid && s0.hostAlive 3 && s0.hostReady 3) = true ∧
    (let r : HReq := { write := false, inst := 0, addr := 0, len := 0 }
     let a : Acc := { master := 3, who := .host 3, req := 1, ctx := none, write := r.write, inst := r.inst, off := r.addr, beats := 1, data := [], strb := [], done := [] }
     let j := up.decodePort a
     (up.setHost 3 { up.host 3 with reqs := [(1, none)] }).parkedOn j 3 = false ∧
     (let s := up.p (aXbTcfg j) XB_TCFG.PARK 3
      s.hostReady 3 = true ∧ s.decodePort a = j ∧ (s.setHost 3 { s.host 3 with reqs := [(1, none)] }).parkedOn j 3 = true)) ∧
    4 ≤ ((up.setHost 3 { up.host 3 with reqs := [(1, none), (2, none), (3, none), (4, none)] }).host 3).reqs.length ∧
    ((up.setHost 3 { up.host 3 with low := true }).host 3).low = true ∧ (up.host 3).low = false ∧
    (up.setHost 3 { up.host 3 with waitClear := true }).hostWaits 3 = true ∧ canonOk up = true ∧
    ([(true, 2), (true, 0), (false, 0)].all fun (b, n) => let s : State := { up.setHost 3 { up.host 3 with waitClear := true } with pm := { up.pm with cts := if b then [(25, ⟨b, n, 0⟩)] else [] } }
      canonOk s && (s.host 3).waitClear && decide (tget ⟨false, 0, 0⟩ s.pm.cts 25 = (⟨b, n, 0⟩ : Ct)) && decide (25 / 8 = 3)) = true := by decide +kernel
/-- Hypotheses of Obligations.CrossbarGrantsAndWatchdog: a free port with nothing pending, with one that arbitration chooses, with one that keeps the port; a port held by a host and by the sequencer, and port 8 with an access to a tile. -/
theorem witness_ports : up.pm.mstate = .running ∧ (up.xport 2).holder = none ∧ (up.xport 2).pend = [] ∧
    (let s := up.setXport 2 { up.xport 2 with pend := [access 3] }
     s.keepsPort 2 = false ∧ s.roundRobin 2 = some 3 ∧ extract (fun (a : Acc) => a.master == 3) (s.xport 2).pend = some (access 3, [])) ∧
    (let s := (up.p (aXbTcfg 2) XB_TCFG.BLIM 4).setXport 2 { up.xport 2 with pend := [access 3], cons := 3, last := 3 }
     s.keepsPort 2 = true ∧ extract (fun (a : Acc) => a.master == (s.xport 2).last) (s.xport 2).pend = some (access 3, [])) ∧
    ([3, 8].all fun m => decide (((up.setXport 2 { up.xport 2 with holder := some (access m) }).xport 2).holder = some (access m))) = true ∧
    (let s := up.setXport 2 { up.xport 2 with pend := [access 3], next := some (3, false) }
     (s.xport 2).next = some (3, false) ∧ s.winner 2 = some (3, false) ∧ canonOk s = true) ∧
    (let s := up.setXport 2 { up.xport 2 with pend := [access 3], next := some (4, true) }
     (s.xport 2).next = some (4, true) ∧ (∀ a ∈ (s.xport 2).pend, a.master ≠ 4)) ∧
    (let x := (up.setXport 8 { up.xport 8 with holder := some (access 8), waits := some 6 }).xport 8
     x.holder = some (access 8) ∧ x.waits = some 6 ∧ 8 ≤ (access 8).master) := by decide +kernel

-- Tiles.

def tile5 (st minst : Nat) : State := (up.p (aPmTile 5) PM_TILE.ST st).p (aPmTile 5) PM_TILE.MINST minst
/-- Hypotheses of Obligations.TilesIdleSleepAndWake: a quiet ACTIVE tile, one that MINST keeps, an IDLE one that may sleep with an event held and without, tiles that wake, MINST below a tile's state. -/
theorem witness_tiles :
    (let s := tile5 0 1
     s.pst 5 = 0 ∧ 1 ≤ s.minst 5 ∧ s.quiet 5 = true) ∧ (tile5 0 0).minst 5 = 0 ∧
    (let s := tile5 1 2
     s.pst 5 = 1 ∧ s.minst 5 = 2 ∧ (s.agent 5).waking = false ∧ s.gb (aAgsnap 5) TL_AGSNAP.ARMED = false ∧ (s.agent 5).edge = [] ∧ (s.agent 5).level = []) ∧
    (let s := (tile5 1 2).setAgent 5 { up.agent 5 with edge := [3] }
     s.pst 5 = 1 ∧ s.minst 5 = 2 ∧ (s.agent 5).waking = false ∧ s.gb (aAgsnap 5) TL_AGSNAP.ARMED = false ∧ (s.agent 5).edge ≠ []) ∧
    ([1, 2].all fun st => let s := (tile5 st 2).setAgent 5 { up.agent 5 with waking := true }
     (s.agent 5).waking && decide (s.pst 5 = st)) = true ∧
    (tile5 0 2).pst 5 = 0 ∧ (tile5 0 2).minst 5 = 2 ∧ (tile5 2 2).pst 5 = 2 ∧ (tile5 2 2).minst 5 = 2 ∧ canonOk (tile5 2 2) = true ∧ canonOk (tile5 0 2) = true ∧ canonOk (tile5 0 0) = true ∧
    up.sqRight (.sq 0) = true ∧ up.sqRight .bl = false := by decide +kernel
/-- Hypotheses of Obligations.TilesPower: every state from which a command acts, and one from which it is turned away; the ends of the changes; the window at a tile that it reaches and at one that it does not. -/
theorem witness_power : up.sqRight (.host 0) = false ∧ (5 : Tile) ≠ up.build.root ∧
    (let s := tile5 0 0
     s.powered 5 = true ∧ s.portsDisabled 5 = true ∧ s.pst 5 ≠ 2 ∧ s.pst 5 ≠ 4 ∧ s.pst 5 ≠ 5 ∧ s.pst 5 = 0) ∧
    (let s := tile5 2 0
     s.powered 5 = true ∧ s.portsDisabled 5 = true ∧ s.pst 5 = 2) ∧
    (enabled5 up).portsDisabled 5 = false ∧ (tile5 5 0).powered 5 = false ∧
    ([3, 4, 7].all fun st => let s := tile5 st 0
     decide (s.pst 5 = st) && !s.pm.offing.contains 5 && decide (s.g aStstate SEQ_STSTATE.PHASE = 0)) = true ∧
    (tile5 5 0).pst 5 = 5 ∧ (up.setPhase phPrepared).g aStstate SEQ_STSTATE.PHASE ≠ 0 ∧
    (let s := tile5 3 0
     s.pst 5 = 3 ∧ s.quiet 5 = true ∧ (s.agent 5).spreads = []) ∧
    5 ∈ ({ tile5 4 0 with pm := { up.pm with offing := [5] } } : State).pm.offing ∧ (tile5 6 0).pst 5 = 6 ∧ canonOk (tile5 6 0) = true ∧
    ([0, 4, 7].all fun st => let s := (tile5 st 0).p aRstaddr PM_RSTADDR.TILE 5
     decide (s.g aRstaddr PM_RSTADDR.TILE = 5) && decide (s.pst 5 = st)) = true := by decide +kernel
/-- A tile whose ports' endpoints hold their resets asserted and their clocks stopped, and a register written in it. -/
theorem witness_tile_reset :
    (let s := ((enabled5 (tile5 6 0)).setNi 5 0 { up.ni 5 0 with epLow := true, clkStop := true }).setNi 5 2 { up.ni 5 2 with clkStop := true }
     canonOk s = true ∧ (s.ni 5 0).epLow = true ∧ (s.ni 5 0).clkStop = true ∧ (s.ni 5 2).clkStop = true ∧ s.rd (aNicfg 5 0) ≠ resetVal s.build (aNicfg 5 0) ∧
     baseTl + 5 * 0x10000 ≤ aNicfg 5 0 ∧ aNicfg 5 0 < baseTl + (5 + 1) * 0x10000 ∧ aNicfg 5 0 ≠ aFence 5) := by decide +kernel
/-- The cap that a window takes, and its saturation seen before or not. -/
def capped (cap : Nat) (s : State) : State := { s with pm := { s.pm with cap := BitVec.ofNat 64 (cap * 2 ^ PM_GOVCAP.CAP.lo) } }
def seen (b : Bool) (s : State) : State := { s with pm := { s.pm with satSeen := b } }
/-- Hypotheses of Obligations.GovernorWindows: no cap; an average above the cap, far below it, and between; at 63, seen before and not. -/
theorem witness_governor : canonOk up = true ∧ up.capMw = 0 ∧
    (let after (s : State) : Rat := s.pm.pavg + (s.windowMw - s.pm.pavg) / 8
     let s := capped 1 up
     let far := capped 0xFFFF up
     let near := capped 100 { up with pm := { up.pm with pavg := 1000 - (up.windowMw - 1000) / 7 } }
     s.capMw ≠ 0 ∧ (s.capMw : Rat) < after s ∧ min 63 (s.throttle + max 1 ((16 * (after s - s.capMw) / s.capMw).ceil.toNat)) = 63 ∧
     (seen false s).pm.satSeen = false ∧ (seen true s).pm.satSeen = true ∧ canonOk (seen true s) = true ∧
     far.capMw ≠ 0 ∧ after far < (far.capMw : Rat) * 96 / 100 ∧
     near.capMw ≠ 0 ∧ (near.capMw : Rat) * 96 / 100 ≤ after near ∧ after near ≤ near.capMw) := by decide +kernel

/-- Crossing 64 in a state. -/
def crossing (c : Ct) : State := { up with pm := { up.pm with cts := [(64, c)] } }
/-- Hypotheses of Obligations.CrossingsKeepPulses: an idle crossing, a busy one with nothing counted, with 14 and with 15; event 995 raised in this management cycle and not; an endpoint's port DISABLED, ENABLED, in reset; HSREADY 1 and 0; port 6 free, held by an access that waits for an endpoint's side, and by one that waits for its answer. -/
theorem witness_crossings :
    ([(true, 0), (true, 14), (true, 15)].all fun (b, n) =>
      let s := crossing ⟨b, n, 0⟩
      decide (tget ⟨false, 0, 0⟩ s.pm.cts (ctKey .leaseExpiry) = (⟨b, n, 0⟩ : Ct)) && canonOk s) = true ∧
    tget ⟨false, 0, 0⟩ up.pm.cts (ctKey .leaseExpiry) = (⟨false, 0, 0⟩ : Ct) ∧ canonOk up = true ∧
    tget 0 up.evc.once 995 ≠ up.mgtCycle + 1 ∧
    (let s : State := { up with evc := { up.evc with once := [(995, up.mgtCycle + 1)] } }
     tget 0 s.evc.once 995 = s.mgtCycle + 1 ∧ canonOk s = true) ∧
    up.niState 5 0 = niDisabled ∧ (enabled5 up).niState 5 0 ≠ niDisabled ∧ (up.ni 5 0).epLow = false ∧
    ((up.setNi 5 0 { up.ni 5 0 with epLow := true }).ni 5 0).epLow = true ∧ (up.host 3).hold = false ∧
    (let s := up.setHost 3 { up.host 3 with hold := true }
     (s.host 3).hold = true ∧ canonOk s = true) ∧
    (up.xport 6).holder = none ∧
    ([none, some 6].all fun w => let x := (up.setXport 6 { up.xport 6 with holder := some (access 8), waits := w }).xport 6
     x.holder.isSome && decide (x.waits = w)) = true ∧
    ([true, false].all fun low => let i := puIndex 5 0
     let s := (up.setXport 6 { up.xport 6 with holder := some (access 8), waits := some i }).setNi 5 0 { up.ni 5 0 with clkStop := true, epLow := low, epUp := !low }
     (s.xport 6).holder.isSome && decide ((s.xport 6).waits = some i) && ((s.setNi 5 0 { s.ni 5 0 with clkStop := false }).epStands i == low)) = true := by decide +kernel
/-- Its crossings toward a host in reset, and not reconnected: with a pulse outstanding and counted, and with 15. -/
theorem witness_flushed :
    ([(true, false), (false, true), (false, false)].all fun (low, wait) => [3, 14, 15].all fun n =>
      let s : State := { up.setHost 1 { up.host 1 with low := low, waitClear := wait } with pm := { up.pm with cts := [(9, ⟨true, n, 0⟩)] } }
      canonOk s && ((s.host (9 / 8)).low == low) && ((s.host (9 / 8)).waitClear == wait) && decide (tget ⟨false, 0, 0⟩ s.pm.cts (ctKey (.wake 9)) = (⟨true, n, 0⟩ : Ct))) = true := by decide +kernel

-- Time.

/-- The timebase with one change pending, and a slew under way. -/
def changing (f : Nat) (c : TimeChange) (sl : Option Slew) : State := { up with tb := { up.tb with pend := [(f, c)], slew := sl } }
/-- Hypotheses of Obligations.TimeChangesApply: each change; one that comes in the last cycle of a slew; a slew that ends, forwards and back; nothing that the end of the wait would end too, and an instruction that waits. -/
theorem witness_apply :
    ([TimeChange.load 9 0, .pps 9 0, .step (-5), .period 1, .slew 3].all fun c => canonOk (changing 256 c none) && decide ((changing 256 c none).tb.slewEnd = none)) = true ∧
    (let s := changing 256 (.load 9 0) (some ⟨-1, 1⟩)
     ∃ e, s.tb.slewEnd = some e ∧ (changing e (.load 9 0) (some ⟨-1, 1⟩)).tb.slewEnd = some e) ∧
    (let s : State := { up with tb := { up.tb with slew := some ⟨1, 100⟩ } }
     s.tb.pend = [] ∧ s.tb.slewEnd.isSome = true ∧ 0 < s.tb.period * 100 ∧ 100 ≤ 1000000 ∧ (∀ x, (s.ctx x).due = none)) ∧
    (({ up with tb := { up.tb with slew := some ⟨-1, 1000⟩ } } : State).tb.slewEnd.isSome = true) ∧
    (let s := (changing 256 (.load 9 0) none).setCtx 0 { Ctx.reset with job := some (job true true), wait := .time 256 }
     (∀ x, (s.ctx x).due = none) ∧ (s.xport 3).holder = none ∧ s.gb aSeqStatus SEQ_STATUS.MCHK = false ∧ (s.ctx 0).job = some (job true true) ∧
     (s.ctx 0).wait = .time 256 ∧ canonOk s = true) ∧
    ([true, false].all fun b => let s := changing 256 (.pps 9 0) none
     let u : State := { s with tb := { s.tb with armed := some 9, edged := b } }
     decide (u.tb.pend = [(256, .pps 9 0)]) && decide (u.tb.slewEnd = none) && (u.tb.edged == b) && canonOk u) = true := by
  refine ⟨by decide +kernel, ⟨1, by decide +kernel, by decide +kernel⟩, by decide +kernel, by decide +kernel, by decide +kernel⟩
/-- Hypotheses of Obligations.TimeChangesArrive: masters with the right and without, HWLOAD 1 and 0; a PPS edge in the last instant that counts as early, one just after, the first one; a load armed and none; PPSLOST 1 and 0. -/
theorem witness_arrive : up.sqRight (.sq 0) = true ∧ up.sqRight .bl = false ∧ canonOk up = true ∧
    (up.pb aTbCfg TB_CFG.HWLOAD true).gb aTbCfg TB_CFG.HWLOAD = true ∧ (up.pb aTbCfg TB_CFG.HWLOAD false).gb aTbCfg TB_CFG.HWLOAD = false ∧
    (let at' (base : Nat) : State := { up with tb := { up.tb with base := base, lastPps := some 1 } }
     canonOk (at' 0) = true ∧ (at' 1).tb.lastPps = some 1 ∧ 1 ≤ (at' (900000000 * 2 ^ 32)).tb.nt up.fcc ∧
     (at' (900000000 * 2 ^ 32)).tb.nt up.fcc - 1 < 900000000 * 2 ^ 32 ∧ ¬ (at' (900000000 * 2 ^ 32 + 1)).tb.nt up.fcc - 1 < 900000000 * 2 ^ 32) ∧
    (let s : State := { up with tb := { up.tb with armed := some 5, edged := true } }
     s.tb.armed = some 5 ∧ s.tb.edged = true ∧ canonOk s = true) ∧ up.tb.edged = false ∧
    up.tb.lastPps = none ∧ up.tb.armed = none ∧ ({ up with tb := { up.tb with armed := some 5 } } : State).tb.armed = some 5 ∧
    (up.pb aTbStat TB_STAT.PPSLOST true).gb aTbStat TB_STAT.PPSLOST = true ∧ (up.pb aTbStat TB_STAT.PPSLOST false).gb aTbStat TB_STAT.PPSLOST = false := by decide +kernel

/-- Hypotheses of Obligations.ResetsAndReleases: each combination of the two resets. -/
theorem witness_resets : up.porstLow = false ∧ up.rstLow = false ∧ State.reset.porstLow = true ∧ State.reset.rstLow = true ∧ canonOk up = true ∧
    ({ up with rstLow := true } : State).rstLow = true ∧ ({ up with rstLow := true } : State).porstLow = false ∧
    (let s : State := { State.reset with rstLow := false }
     s.porstLow = true ∧ s.rstLow = false ∧ canonOk s = true) := by decide
/-- Its release that lets every domain run: an instance that does not boot over the chain. -/
theorem witness_cold_release : (({ State.reset with rstLow := false, porstLow := false }.sense).loadFz).chainBoots = false := by decide +kernel

-- Boot, fuses, TAP.

def leBytes (n v : Nat) : List Byte := (List.range n).map (fun i => BitVec.ofNat 8 (v / 256 ^ i))
def sectEntry (type off len : Nat) : List Byte := leBytes 2 type ++ leBytes 2 0 ++ leBytes 4 off ++ leBytes 4 len ++ leBytes 4 0
/-- A slot header: the magic number, a version, DISP, MCODE of one microword and BOOTPROG of four words, and its CRC. -/
def goodHdr (version crc : Nat) : List Byte :=
   leBytes 4 0x31595251 ++ leBytes 2 1 ++ leBytes 2 3 ++ leBytes 4 0x910 ++ leBytes 4 version ++ leBytes 4 0xFFFF ++ leBytes 44 0 ++
    sectEntry 1 0x400 1024 ++ sectEntry 2 0x800 12 ++ sectEntry 3 0x900 16 ++ List.replicate (0x300 - 0x70) (0 : Byte) ++
    leBytes 4 crc ++ List.replicate 0xFC 0
/-- A fold whose result is a number at every step. -/
def strictFold (f : Nat → Byte → Nat) : Nat → List Byte → Nat
  | n, [] => n
  | n, b :: bs => match f n b with
    | 0 => strictFold f 0 bs
    | k + 1 => strictFold f (k + 1) bs
theorem strictFold_eq (f : Nat → Byte → Nat) (n : Nat) (bs : List Byte) : strictFold f n bs = bs.foldl f n := by
  induction bs generalizing n with
  | nil => rfl
  | cons b bs ih =>
    simp only [strictFold, List.foldl_cons]
    split <;> rename_i h <;> rw [ih, h]
def crcStep (n : Nat) (b : Byte) : Nat := (crcReflected 32 0x82F63B78#32 (BitVec.ofNat 32 n) [b]).toNat
theorem crc_strict (c : BitVec 32) (bs : List Byte) : (crcReflected 32 0x82F63B78#32 c bs).toNat = strictFold crcStep c.toNat bs := by
  rw [strictFold_eq]
  induction bs generalizing c with
  | nil => rfl
  | cons b bs ih =>
    have e : crcReflected 32 0x82F63B78#32 c (b :: bs) = crcReflected 32 0x82F63B78#32 (crcReflected 32 0x82F63B78#32 c [b]) bs := rfl
    rw [e, ih, List.foldl_cons]
    simp [crcStep]
def headers : State := (up.setBootState bsHeaders).p aBootSpi BOOT_SPI.SLOTLOG2 23
/-- Hypotheses of Obligations.BootLoadsASlot, the headers: discovery's state; two bad headers; a good one of each slot, with versions that differ and the same. -/
theorem witness_headers : (up.setBootState bsSfdp).bootState = bsSfdp ∧ canonOk (up.setBootState bsSfdp) = true ∧ headers.porstLow = false ∧
    headers.bootState = bsHeaders ∧ canonOk headers = true ∧ (List.replicate 1024 (0 : Byte)).length = 1024 ∧ (goodHdr 1 0).length = 1024 ∧
    headers.headerCode (List.replicate 1024 0) headers.slotSize = some rsMagic ∧ hdrNat (List.replicate 1024 0) 0 4 ≠ 0x31595251 := by decide +kernel
def crc1 : Nat := 2560088399
def crc2 : Nat := 2510955223
theorem witness_good_header (v crc : Nat) (h : v = 1 ∧ crc = crc1 ∨ v = 2 ∧ crc = crc2) :
    headers.headerCode (goodHdr v crc) headers.slotSize = none ∧ hdrNat (goodHdr v crc) 0xC 4 = v := by
  have good : (crc32c ((goodHdr v crc).take 0x300)).toNat = hdrNat (goodHdr v crc) 0x300 4 := by
    rw [crc32c, crc32cFrom, BitVec.toNat_not, crc_strict]
    rcases h with ⟨rfl, rfl⟩ | ⟨rfl, rfl⟩ <;> decide +kernel
  have rest : hdrNat (goodHdr v crc) 0 4 = 0x31595251 ∧ formatOk (goodHdr v crc) headers.slotSize = true ∧ hdrNat (goodHdr v crc) 0x10 2 = 0xFFFF ∧
      headers.secure = false ∧ hdrNat (goodHdr v crc) 0xC 4 = v := by
    rcases h with ⟨rfl, rfl⟩ | ⟨rfl, rfl⟩ <;> decide +kernel
  obtain ⟨a, b, c, d, e⟩ := rest
  exact ⟨by simp [State.headerCode, a, b, c, d, good], e⟩

def sect : Sect := ⟨scBootprog, 0, 0x900, 16, (crc32c (List.replicate 16 (0 : Byte))).toNat⟩
/-- Slot A chosen in a boot state, with a header. -/
def slotA (st : Nat) (h : SlotHdr) : State := let s := up.setBootState st; { s with boot := { s.boot with hdrA := some h, hdrB := some h } }
/-- Hypotheses of its loads: a section that loads and one whose CRC is wrong; a port that is idle and one at which the loader waits; a slot that is ready; the slot tried second, and the one tried first. -/
theorem witness_loads :
    (let h : SlotHdr := ⟨1, 0, [sect], []⟩
     let s := slotA bsLoading h
     s.outOfReset = true ∧ s.boot.ready = false ∧ s.hdrOf s.boot.cur = some h ∧ s.bootState = bsLoading ∧ sectsGiven h [List.replicate 16 (0 : Byte)] = true ∧
     s.boot.todo = [] ∧ sectCode sect (List.replicate 16 (0 : Byte)) = none ∧ sectCode sect (List.replicate 16 (1 : Byte)) = some rsSectcrc) ∧
    (let j := portOf (aRingtail 8)
     let s : State := up.setXport j { up.xport j with pend := [blAcc (aRingtail 8) 0 0xFF] }
     let t : State := { up with boot := { up.boot with todo := [.handed], ready := true } }
     up.portIdle j = true ∧ s.portIdle j = false ∧ canonOk s = true ∧ (∃ a ∈ (s.xport j).pend, a.master = 9) ∧ j < 11 ∧
     t.boot.todo ≠ [] ∧ t.blWaits = false ∧ canonOk t = true ∧
     (let u : State := { slotA bsLoading ⟨1, 0, [], []⟩ with boot := { (slotA bsLoading ⟨1, 0, [], []⟩).boot with todo := [.handed] } }
      u.outOfReset = true ∧ u.boot.ready = false ∧ u.boot.todo ≠ [] ∧ (u.hdrOf u.boot.cur).isSome = true) ∧
     (let v : State := { s with boot := { s.boot with ready := true } }
      canonOk v = true ∧ v.outOfReset = true ∧ v.boot.todo = [] ∧ v.portIdle j = false)) ∧
    (let h : SlotHdr := ⟨1, 0, [], List.replicate 1024 0⟩
     let s := slotA bsVerify h
     s.bootState = bsVerify ∧ s.verifies h = false) ∧
    (let s : State := { up with boot := { up.boot with ready := true, bootDone := false, tail := 4096 } }
     let n := (s.boot.tail % 2 ^ 16 + 65536 - s.head 8) % 65536
     canonOk s = true ∧ s.outOfReset = true ∧ s.boot.ready = true ∧ s.boot.todo = [] ∧ s.portIdle (portOf (aRingtail 8)) = true ∧ s.pm.mstate = .running ∧ s.boot.bootDone = false ∧ s.ringCount 8 ≤ n ∧ n ≤ 4096) ∧
    up.boot.cur = up.boot.first ∧ ({ up with boot := { up.boot with cur := true } } : State).boot.cur ≠ up.boot.first ∧
    ((slotA bsLoading ⟨1, 0, [], []⟩).hdrOf true).isSome = true ∧ State.reset.outOfReset = false := by decide +kernel
/-- A header whose key is the base point, its signature, and the digest that it signs: the sum of the base point with itself is x. -/
def twiceG : Nat := ((pointAdd (some (p384Gx, p384Gy)) (some (p384Gx, p384Gy))).getD (0, 0)).1 % p384N
def signed : SlotHdr := ⟨1, 0, [], List.replicate 0x240 0 ++ beBytes 48 p384Gx ++ beBytes 48 p384Gy ++ beBytes 48 twiceG ++ beBytes 48 twiceG⟩
theorem witness_signature :
    (let s := slotA bsVerify signed
     { s with boot := { s.boot with msgHash := twiceG } }.verifies signed = true) := by decide +kernel

/-- Hypotheses of Obligations.TapInstructions: a start in reset, one outside it, one while a test runs, and the highest group. -/
theorem witness_tap : State.reset.rstLow = true ∧ bitOf ({ up with tap := { up.tap with mb := 0x100 } } : State).tap.mb 8 = true ∧ up.rstLow = false ∧ bitOf up.tap.mb 8 = false ∧ (7#8).toNat < 8 ∧ 8 ≤ (8#8).toNat := by decide
/-- The TAP with an address. -/
def fuseAt (w : Nat) (data : W) : State := { up with tap := { up.tap with faddr := BitVec.ofNat 8 w, fdata := data } }
/-- Hypotheses of Obligations.FuseProgramming: programming under way; a check word; a sealed word that is locked, under TAPLOCK, with a bit to be cleared, and one free; a word that is neither. -/
theorem witness_fuses :
    fld (fuseAt 5 1).tap.faddr 0 6 = 5 ∧ (fuseAt 5 1).tap.prog = none ∧ isCheck 56 = true ∧ isCheck 62 = true ∧ isSealed 5 = true ∧ isSealed 55 = true ∧
    isSealed 63 = false ∧ isCheck 63 = false ∧ bitOf ((fuseAt 5 1).rd (aFuseW 63)) 5 = false ∧ (fuseAt 5 1).gb aFuseCtl FUSE_CTL.TAPLOCK = false ∧
    (fuseAt 5 1).fuse 5 &&& ~~~(fuseAt 5 1).tap.fdata = 0 ∧ bitOf (((fuseAt 5 1).wr (aFuseW 63) 0x20).rd (aFuseW 63)) 5 = true ∧
    ((fuseAt 5 1).pb aFuseCtl FUSE_CTL.TAPLOCK true).gb aFuseCtl FUSE_CTL.TAPLOCK = true ∧ ((fuseAt 5 1).setFuse 5 2).fuse 5 &&& ~~~(fuseAt 5 1).tap.fdata ≠ 0 ∧
    (let s : State := { fuseAt 5 1 with tap := { (fuseAt 5 1).tap with prog := some 5 } }
     s.tap.prog = some 5 ∧ s.tap.prog.isSome = true ∧ isCheck 5 = false ∧ canonOk s = true) := by decide +kernel

-- Chain.

def port (n st : Nat) (s : State) : State := s.setCpState n st
/-- An instance that is no root, its ports U, 1 and 2 UP. -/
def inner : State := (port 0 cpUp (port 1 cpUp (port 2 cpUp up))).pb aChnId CHN_ID.ROOT false
def rootOf (s : State) : State := s.pb aChnId CHN_ID.ROOT true
def frame (n : Nat) : Frame := ⟨{ seq := BitVec.ofNat 8 n }, .qreq⟩
/-- What `State.frameTakes` asks, as a test. -/
def frameOk (s : State) (p : Nat) (h : FrameHdr) : Bool := !s.onRootU p && s.cpIsUp p && decide (s.pm.mstate = .running) && decide (h.seq = (s.cport p).rxSeq)
theorem frame_of {s : State} {p : Nat} {h : FrameHdr} (w : frameOk s p h = true) : s.frameTakes p h := by
  simp only [frameOk, Bool.and_eq_true, decide_eq_true_eq, Bool.not_eq_true'] at w
  exact ⟨w.1.1.1, w.1.1.2, w.1.2, w.2⟩
/-- Bytes of a frame: a right CRC and a wrong one, a known TYPE and an unknown one. -/
def someBytes (ty : Byte) (good : Bool) : List Byte := let h := [ty, 0, 0, 0, 5]; h ++ bytesOf (frameCrc h ^^^ if good then 0 else 1)
/-- Hypotheses of Obligations.ChainPortsTrainAndReplay: a port in each state that it names, U of the root, with nothing to replay, with less than eight replays and with eight; the bytes of a frame with a right and a wrong CRC, of a TYPE that is known and of one that is not. -/
theorem witness_chain_ports : canonOk inner = true ∧ inner.onRootU 0 = false ∧ inner.onRootU 2 = false ∧ (rootOf inner).onRootU 0 = true ∧
    ([0, 1, 3].all fun st => decide ((port 1 st up).cpState 1 = st)) = true ∧ crcOk (someBytes 0x02 true) = true ∧ formOk (someBytes 0x02 true) = true ∧
    crcOk (someBytes 0x99 true) = true ∧ formOk (someBytes 0x99 true) = false ∧ crcOk (someBytes 0x02 false) = false ∧
    inner.cpState 1 ≠ 3 ∧ inner.cpIsUp 1 = true ∧ (inner.cport 1).replay = [] ∧ (port 1 0 up).cpIsUp 1 = false ∧
    ([7, 8].all fun n => let s := inner.setCport 1 { inner.cport 1 with replay := [(frame 0, n)] }
     decide ((s.cport 1).replay ≠ [] ∧ (n < 8 ∨ ∃ k ∈ (s.cport 1).replay, 8 ≤ k.2)) && s.cpIsUp 1) = true := by decide +kernel
/-- Hypotheses of Obligations.KeptFramesInSequence: U of the root, a port that is not UP, a domain in retention, its crossing with room and full, a frame in sequence and one out of it, four frames kept. -/
theorem witness_kept : (rootOf inner).onRootU 0 = true ∧ (port 1 0 up).onRootU 1 = false ∧ (port 1 0 up).cpIsUp 1 = false ∧
    (dbep inner .retention (dbl 0 false false)).pm.mstate = .retention ∧ (dbep inner .retention (dbl 0 false false)).cpIsUp 1 = true ∧ (dbep inner .waking (dbl 0 false false)).pm.mstate = .waking ∧
    frameOk inner 1 {} = true ∧ (1#8) ≠ (inner.cport 1).rxSeq ∧ (dbep inner .retention (dbl 0 false false)).chn.xin.length < 8 ∧
    (let s : State := { inner with chn := { inner.chn with xin := List.replicate 8 (1, frame 0) }, pm := { inner.pm with mstate := .retention } }
     8 ≤ s.chn.xin.length ∧ s.cpIsUp 1 = true ∧ s.onRootU 1 = false ∧ (frame 0).hdr.seq = (s.cport 1).rxSeq ∧ s.pm.mstate ≠ .running) ∧
    ((List.range 3).all fun q => decide (((inner.setCport 1 { inner.cport 1 with replay := [(frame 0, 0), (frame 1, 0), (frame 2, 0), (frame 3, 0)] }).cport q).replay.length ≤ 4)) = true := by
  decide +kernel

/-- An enumeration awaits port 2. -/
def enumerating : State := { inner with chn := { inner.chn with enum := some ⟨3, 5, 2, false⟩ } }
/-- Hypotheses of Obligations.EnumerationNumbersTheTree: a first ENUM with the last address and one beyond it, a second ENUM of the generation and one of another; the ports UP and not; an ENUMRET of the port awaited that moves the next address and that does not, of another; the root and another. -/
theorem witness_enumeration : frameOk inner 0 {} = true ∧ canonOk inner = true ∧ inner.chnAddr = 0 ∧ (250#8).toNat ≤ 250 ∧ 250 < (251#8).toNat ∧
    (let s := chained inner
     s.chnAddr ≠ 0 ∧ s.g aChnCtl CHN_CTL.GEN = (0#8).toNat ∧ s.g aChnCtl CHN_CTL.GEN ≠ (1#8).toNat ∧ frameOk s 0 {} = true ∧ canonOk s = true) ∧
    inner.cpIsUp 1 = true ∧ (port 1 0 inner).cpIsUp 1 = false ∧ (port 1 0 inner).cpIsUp 2 = true ∧ ((port 1 0 (port 2 0 inner)).cpIsUp 1 || (port 1 0 (port 2 0 inner)).cpIsUp 2) = false ∧
    canonOk (port 1 0 (port 2 0 inner)) = true ∧ canonOk (port 1 0 inner) = true ∧ canonOk (rootOf inner) = true ∧ (rootOf (port 1 0 (port 2 0 inner))).isRoot = true ∧
    frameOk enumerating 2 {} = true ∧ enumerating.chn.enum = some ⟨3, 5, 2, false⟩ ∧ frameOk enumerating 1 {} = true ∧ 5 < (6#8).toNat ∧ (5#8).toNat ≤ 5 ∧
    (rootOf inner).isRoot = true ∧ (rootOf inner).chn.enum = none ∧ inner.isRoot = false ∧ enumerating.chn.enum.isSome = true ∧
    inner.sqRight (.sq 0) = true ∧ inner.sqRight .bl = false := by decide +kernel

def remote (n : Nat) : Remote := ⟨n, 0, 2, false, [], false, 0, [], false⟩
/-- An instance with address 1 whose port 2 leads to the addresses 5 to 9. -/
def linked : State := (chained inner).setRange 2 5 9 0 144
/-- Hypotheses of Obligations.ChainAccessesAndOperations, the accesses: a REQ for this instance, for every one, for one that a port leads to, for none; one of a bad form; a ninth. -/
theorem witness_chain_accesses : frameOk linked 1 { dst := 1 } = true ∧ linked.chnReady = true ∧ reqOk { dst := 1 } 0x08 [] [] = true ∧
    reqOk { dst := 255 } 0x10 [1] [1] = true ∧ reqOk { dst := 1 } 0x09 [] [] = false ∧ linked.inbound < 8 ∧ (1#8).toNat = linked.chnAddr ∧
    linked.way 5 = .port 2 ∧ linked.way 9 = .port 2 ∧ (rootOf linked).way 10 = .none ∧ (rootOf linked).isRoot = true ∧ frameOk linked 0 { dst := 255 } = true ∧
    frameOk (rootOf linked) 1 { dst := 255 } = true ∧ (rootOf linked).chnReady = true ∧ frameOk inner 1 { dst := 1 } = true ∧ inner.chnReady = false ∧ inner.inbound < 8 ∧
    ({ linked with chn := { linked.chn with enum := some ⟨3, 5, 2, false⟩ } } : State).chnReady = false ∧
    8 ≤ ({ linked with chn := { linked.chn with remotes := (List.range 8).map remote } } : State).inbound ∧ linked.chn.remotes = [] ∧
    (9#8).toNat ≠ linked.chnAddr := by decide +kernel
/-- An operation with an OPID that awaits port 2. -/
def operating : State := { linked with chn := { linked.chn with ops := [⟨7, 0, [(2, 144)], false, 0, 0, 0, 0, 0, true, false⟩] } }
/-- Hypotheses of its operations: whatever the coding of KIND, some byte names the barrier; an OPUP that an operation awaits, and one that none does; a child that does not answer. -/
theorem witness_kind : opOfKind (Config.opKind 0) = some none := by simp [opOfKind, opNumber]
theorem witness_barrier_goes_on (s : State) : s.opWaits (Config.opKind 0) = false := by simp [State.opWaits, witness_kind]
theorem witness_chain_operations : frameOk linked 0 {} = true ∧ linked.chnReady = true ∧ inner.chnReady = false ∧ frameOk inner 0 {} = true ∧
    frameOk operating 2 {} = true ∧ (∃ o ∈ operating.chn.ops, o.opid = 7 ∧ ∃ w ∈ o.waits, w.1 = 2) ∧ linked.chn.ops = [] ∧
    (linked.chn.ops.find? (fun x => x.opid == 7) = none) ∧ (operating.chn.ops.find? (fun x => x.opid == 7)).isSome = true ∧
    (operating.chn.ops.find? (fun x => x.opid == 7)).any (fun x => (x.waits.find? (fun w => w.1 == 2)).isSome) = true := by decide +kernel

/-- The pieces of a header with no section, all of them or all but the first. -/
def pieces (n : Nat) : List (Nat × List Byte) := (List.range' n (16 - n)).map (fun i => (64 * i, List.replicate 64 0))
/-- Hypotheses of Obligations.ImageBroadcasts: the root and another; an instance that waits for the image, one that reloads its microcode, one that does neither; an image that came whole and one that did not; a piece of 64 bytes; the third request and the fourth. -/
theorem witness_images : frameOk inner 0 {} = true ∧ frameOk (rootOf inner) 1 {} = true ∧ inner.takesQdata = false ∧ inner.chn.reload = false ∧ inner.bootState ≠ bsChainwait ∧
    imageWhole (pieces 0) = true ∧ imageWhole (pieces 1) = false ∧ (List.replicate 64 (0 : Byte)).length = 64 ∧
    ([pieces 0, pieces 1].all fun img => let s := inner.setBootState bsChainwait
     let u : State := { s with boot := { s.boot with image := img } }
     let r : State := { inner with chn := { inner.chn with reload := true }, boot := { inner.boot with image := img } }
     frameOk u 0 {} && u.takesQdata && decide (u.bootState = bsChainwait) && !u.chn.reload && frameOk r 0 {} && r.takesQdata && r.chn.reload) = true ∧
    ([3, 4].all fun n => ([true, false].all fun r =>
      let s : State := { inner.setBootState bsChainwait with chn := { inner.chn with reload := r, qtries := n } }
      s.takesQdata && decide (s.chn.qtries = n) && canonOk s)) = true := by decide +kernel

-- Observation.

def probeOn (s : State) : State := (s.pb (aPrb 3) OBS_PRBCTL.EN true).p (aPrb 3) OBS_PRBCTL.OWNER 1
def armed (w : Nat) (s : State) : State := ((s.pb (aTbctl 0) OBS_TBCTL.ARM true).p (aTbctl 0) OBS_TBCTL.OWNER 1).p (aTbctl 0) OBS_TBCTL.WIDX w
def window5 (st : Nat) : State := ((tile5 st 0).p aRstaddr PM_RSTADDR.TILE 5).p aRstaddr PM_RSTADDR.OFFSET 0x4400
/-- Hypotheses of Obligations.ProbesTracesAndSelfTests: masters with the right and without; a probe EN of another owner, one to be bound at a tile that has it and at 144; a buffer armed, frozen, of another owner, at its last record; a step pending; a self-test to start, to refuse, to end, here and at the TAP. -/
theorem witness_probes : canonOk up = true ∧ masterHost .bl = none ∧ masterHost (.host 1) = some 1 ∧ State.reset.masterActs .bl = true ∧ up.masterActs (.host 1) = true ∧
    (up.setHost 1 { up.host 1 with low := true }).masterActs (.host 1) = false ∧ State.reset.masterActs (.sq 0) = false ∧
    (probeOn up).gb (aPrb 3) OBS_PRBCTL.EN = true ∧ (probeOn up).gb (aPrb 3) OBS_PRBCTL.BINDERR = false ∧ canonOk (probeOn up) = true ∧
    masterIsSeq (.host 2) = false ∧ ownerCode (.host 2) ≠ (probeOn up).g (aPrb 3) OBS_PRBCTL.OWNER ∧ up.gb (aPrb 3) OBS_PRBCTL.EN = false ∧
    (let w (v : W) : W := (up.rd (aPrb 3) &&& ~~~prbRw) ||| (v &&& prbRw)
     bitOf (w 1) 0 = true ∧ bitOf (w 0x901) 0 = true ∧ fld (w 0x901) 4 8 = 144) ∧
    up.gb (aTbctl 0) OBS_TBCTL.ARM = false ∧
    (let s := { armed 2047 (probeOn up) with obs := { up.obs with rx := [[0x300000000, 1, 2, 3]] } }
     canonOk s = true ∧ s.obs.rx = [0x300000000, 1, 2, 3] :: [] ∧ s.pm.mstate = .running ∧ fld (([0x300000000, 1, 2, 3] : List W).getD 0 0) 32 5 = 3 ∧ s.g (aPrb 3) OBS_PRBCTL.TBUF = 0 ∧ s.gb (aTbctl 0) OBS_TBCTL.ARM = true ∧ s.gb (aTbctl 0) OBS_TBCTL.FROZEN = false ∧
     s.g (aPrb 3) OBS_PRBCTL.OWNER = s.g (aTbctl 0) OBS_TBCTL.OWNER ∧ s.g (aTbctl 0) OBS_TBCTL.WIDX = 2047 ∧
     (s.pb (aTbctl 0) OBS_TBCTL.STOPFULL true).gb (aTbctl 0) OBS_TBCTL.STOPFULL = true ∧
     (s.pb (aTbctl 0) OBS_TBCTL.FROZEN true).gb (aTbctl 0) OBS_TBCTL.FROZEN = true) ∧
    ({ up with obs := { up.obs with calPend := [(9, false, 12)] } } : State).obs.calPend = (9, false, 12) :: [] ∧ up.obs.calPend = [] := by decide +kernel
theorem witness_self_tests : up.sqRight (.sq 0) = true ∧ up.sqRight .bl = false ∧
    ([0, 4, 7].all fun st => let s := window5 st
     canonOk s && decide (s.g aRstaddr PM_RSTADDR.TILE = 5) && decide (s.g aRstaddr PM_RSTADDR.OFFSET = 0x4400) && decide (s.pst 5 = st) &&
      !s.gb (aMbist 5) TL_MBIST.BUSY) = true ∧
    ((up.setAgent 5 { up.agent 5 with bist := some 7 }).agent 5).bist = some 7 ∧
    (let s : State := { up with tap := { up.tap with mb := 0x100 } }
     bitOf s.tap.mb 8 = true ∧ bitOf s.tap.mb 9 = false) := by decide +kernel

-- Routers.

/-- Hypotheses of Obligations.FlitsCreditsAndFlints: an input open and closed; a sideband clean, corrected, unreadable; a buffer with room and full; a readable header; a link UP; a tile powered and not. -/
theorem witness_flits : up.inputOpen 5 0 1 = true ∧ (tile5 5 0).inputOpen 5 0 7 = false ∧ sbDecode 3 (sbCheck 0) = .bad ∧
    sbDecode 0 (sbCheck 0) = .ok 0 none ∧ sbDecode 1 (sbCheck 0) = .ok 0 (some 576) ∧ fld (0 : BitVec 8) 3 2 = ftHeadTail ∧
    fld (8 : BitVec 8) 3 2 = ftHead ∧ rsDecode (rsWord 0 0) = .clean ∧ ((up.router 5 0).vc 1 0).buf.length < 4 ∧
    (let r := (up.router 5 0).setVc 1 0 { (up.router 5 0).vc 1 0 with buf := List.replicate 4 ⟨0, 0, 0, false, false, 0⟩ }
     let s := up.setRouter 5 0 r
     s.inputOpen 5 0 1 = true ∧ 4 ≤ ((s.router 5 0).vc 1 (fld (0 : BitVec 8) 0 3)).buf.length) ∧
    up.pst 5 ≠ 5 ∧ up.pst 5 ≠ 6 ∧ up.linkState 5 0 1 = 0 ∧ (tile5 6 0).pst 5 = 6 ∧ nodeTile 5 = 5 ∧ nodeInGrid 0x0C = false ∧
    nodeInGrid 8 = true ∧ nodeTile 8 ≠ 5 ∧ (up.wake 5 false).routeHere 5 0 0 3 (epAddr (nodeTile 8) 0) = 1 ∧
    (let s := up.setLinkState 5 0 1 lkTest
     s.linkState 5 0 1 = 4 ∧ (s.wake 5 false).routeHere 5 0 0 3 (epAddr (nodeTile 8) 0) = 1) ∧
    ([(up.cyc, 2), (up.cyc, 4), (up.cyc + 1, 2)].all fun (c, p) =>
     let s := up.setRouter 5 0 { up.router 5 0 with flints := tput none [] 1 (some ⟨c, p, 8, false⟩) }
     (tget none (s.router 5 0).flints 1).any (fun g => g.cyc == c && g.inp == p) && decide (s.linkState 5 0 1 = 0)) = true := by decide +kernel
/-- A flit stands on the wires of port L2 of tile 5, its originator with credits or without; its input VC full or not. -/
def onWire (credit : Nat) : State := up.setRouter 5 0 ({ up.router 5 0 with inw := [(6, [⟨0, 0, 0, sbCheck 0, 0, false⟩])] }.setLcredit 6 0 credit)
/-- Its local inputs: a credit of the originator and none; a link's input, which needs none here; a flit of the VC that arrives. -/
theorem witness_local_input : up.mayArrive 5 0 1 none = true ∧ up.mayArrive 5 0 1 (some 0) = true ∧
    (onWire 1).mayArrive 5 0 6 none = true ∧ (onWire 1).mayArrive 5 0 6 (some 0) = true ∧ (onWire 0).mayArrive 5 0 6 none = false ∧
    (onWire 0).mayArrive 5 0 6 (some 0) = false ∧ (onWire 0).inputOpen 5 0 6 = true ∧
    (extract (fun (x : RawFlit) => fld x.sb 0 3 == 0) (tget [] ((onWire 1).router 5 0).inw 6)).isSome = true := by decide +kernel
/-- A packet of class 0 of which a tail flit stands on the wires of port L0 of tile 5, its OK owed or not. -/
def tailOnWire (posted dbl owed : Bool) : State :=
  let s := up.setRouter 5 0 ({ up.router 5 0 with inw := [(4, [⟨0, 0, 0x18, sbCheck 0x18, 0, false⟩])] }.setLcredit 4 0 1)
  s.setNi 5 0 { s.ni 5 0 with going := [⟨0, 0, 7, false, posted, dbl, owed⟩] }
/-- Its tails: a posted request, a DOORBELL, one that is not posted, one whose OK a reset took away, and a tail of no packet that the port keeps. -/
theorem witness_tails :
    ([(true, false, true), (true, true, true), (false, false, false), (true, false, false)].all fun (posted, dbl, owed) => let s := tailOnWire posted dbl owed
     s.mayArrive 5 0 4 (some 0) && (extract (fun (x : RawFlit) => fld x.sb 0 3 == 0) (tget [] (s.router 5 0).inw 4)).isSome && decide (fld (0x18 : BitVec 8) 3 2 = ftTail) && canonOk s &&
       decide (extract (fun (g : NiGo) => 2 * g.cls.toNat == 0) (s.ni 5 0).going = some (⟨0, 0, 7, false, posted, dbl, owed⟩, []))) = true ∧
    ((tailOnWire true false true).ni 5 0).going.find? (fun g => 2 * g.cls.toNat == 2) = none := by decide +kernel

/-- A request that an NI has accepted. -/
def request (op : BitVec 4) (tag : BitVec 8) : NiReq :=
  { seq := 0, op := op, q := { mtag := tag, len := 7 }, stratum := false, dest := 0x121, pdom := 0, cache := 0, order := 0, data := [], dbe := 0, tstamp := 0,
    refuse := none, hold := false }
/-- Port 0 of tile 5 is an initiator that has accepted a request. -/
def hasReq (op : BitVec 4) : State := let s := enabled5 up; s.setNi 5 0 { s.ni 5 0 with injq := [request op 1] }
def outOf (tag : BitVec 12) (lost : Bool) : NiOut := { seq := 0, tag := tag, mtag := 1, op := 0, dest := 0x121, cls := 0, stratum := false, addr := 0, len := 7, lost := lost, at_ := 0 }
/-- Hypotheses of Obligations.InjectionAndEjection, the sources: each kind of source with a packet, and one whose tile is off. -/
theorem witness_injections : (tile5 5 0).coreRuns ((tile5 5 0).srcTile (.agent 5)) = false ∧ up.coreRuns 5 = true ∧ up.coreRuns 56 = true ∧
    ([Qop.READ, Qop.DOORBELL, Qop.WRITE].all fun op => let s := hasReq op
     s.coreRuns 5 && decide (s.kind 5 0 = .initiator) && decide (s.nextReq 5 0 = some 0) && decide ((s.ni 5 0).injq[0]? = some (request op 1)) &&
      (s.ni 5 0).tagFree 9) = true ∧
    qopPosted Qop.READ = false ∧ qopPosted Qop.WRITE = true ∧ qopPosted Qop.DOORBELL = true ∧ canonOk (hasReq Qop.WRITE) = true ∧ (((hasReq Qop.READ).setNi 5 0 { (hasReq Qop.READ).ni 5 0 with outs := [outOf 9 false] }).ni 5 0).tagFree 9 = false ∧
    (let k : Pkt := { dest := 0x41, src := 0x121, cmd := Cmd.RDATA }
     let one := some (k, ([] : List Pkt))
     up.kind 56 1 = .target ∧ up.firstOf [k] 56 5 0 true = one ∧ up.firstOf [k] 5 7 0 false = one ∧
     up.firstOf [k] (epTile up.build.cfgep) (4 + epPort up.build.cfgep) 0 false = one ∧ up.firstOf [k] (epTile up.build.dbep) (4 + epPort up.build.dbep) 0 false = one) ∧
    (let s := up.setAgent 5 { up.agent 5 with traceq := [[1, 2, 3, 4]] }
     s.coreRuns 5 = true ∧ (s.agent 5).traceq = [1, 2, 3, 4] :: [] ∧ s.g aLcfg OBS_LCFG.TCLASS = 3 ∧ s.roomAt 5 0 7 6 = true) ∧
    up.coreRuns (epTile (up.tmEp 0)) = true ∧ up.coreRuns (epTile (up.tmEp 47)) = true := by decide +kernel
/-- Source: R455 and the trace record table of spec/15: the record of a probe slot travels as one WR in class TCLASS to the trace endpoint. -/
theorem test_trace_leaves :
    (let s := up.setAgent 5 { up.agent 5 with traceq := [[1, 2, 3, 4]] }
     let u := s.injectTrace 5 3 9
     (u.agent 5).traceq = [] ∧ (s.injectTrace 5 1 9).agent 5 = s.agent 5 ∧ (tget [] (u.router 5 0).inw 7).length = 2 ∧
     ((tget [] (u.router 5 0).inw 7).map (fun f => (lineWord f.pay 0, lineWord f.pay 3))).getD 1 (0, 0) = (1, 4)) := by decide +kernel
/-- The flits of a packet without data at a port's output. -/
def ejected (k : Pkt) : List RawFlit := [⟨pktHeadFlit k, rsEncode (pktHeadFlit k), 0, sbCheck 0, 0, false⟩]
def anRd : Pkt := { dest := epAddr 56 1, src := 0x41, cmd := Cmd.RD }
def aWack : Pkt := { dest := epAddr 5 0, src := 0x121, cmd := Cmd.WACK }
def aCtl : Pkt := { dest := epAddr 5 3, src := 0x41, cmd := Cmd.CTL }
theorem test_eject_clean (k : Pkt) (h : k = anRd ∨ k = aWack ∨ k = aCtl) : ejectPkt (ejected k) = ⟨pktHeadFlit k, false, false, [], false, 0⟩ := by
  rcases h with rfl | rfl | rfl <;> decide +kernel
/-- Hypotheses of Obligations.InjectionAndEjection, the ejections: a good request and a good response, a packet of another endpoint, an agent that is full, and a good packet behind one that waits for it. -/
theorem witness_ejections :
    (let j := ejectPkt (ejected anRd)
     j.hdrBad = false ∧ verdict j (epAddr 56 1) = .good ∧ verdict j (epAddr 56 0) = .misrouted ∧ up.recvFull 56 5 0 (up.recvAt 56 5 0) (hdrOf j.hdr) = false ∧
     up.recvFull 56 4 0 (up.recvAt 56 4 0) (hdrOf j.hdr) = false ∧ up.frontHdr 56 0 5 j.vc = none) ∧
    (let j := ejectPkt (ejected aWack)
     verdict j (epAddr 5 0) = .good ∧ cmdValid 1 j.pkt.cmd j.pkt.dfc.toNat = true ∧ up.recvFull 5 4 1 (up.recvAt 5 4 1) (hdrOf j.hdr) = false) ∧
    (let s := up.setAgent 5 { up.agent 5 with rx := List.replicate 16 (ctl 0 [0]) }
     let j := ejectPkt (ejected aCtl)
     j.hdrBad = false ∧ s.recvFull 5 7 0 (s.recvAt 5 7 0) (hdrOf j.hdr) = true ∧
     (s.setRouter 5 0 { s.router 5 0 with outw := [(7, ejected aCtl)] }).frontHdr 5 0 7 j.vc = some (hdrOf j.hdr)) := by
  rw [test_eject_clean anRd (by simp), test_eject_clean aWack (by simp), test_eject_clean aCtl (by simp)]
  decide +kernel
/-- Its discards: a header whose sideband cannot be read; a WR whose data flit bears POISON; one whose data flit is missing; an event of the output in this management cycle, and none. -/
theorem witness_discards :
    (ejectPkt [⟨0, 0, 3, sbCheck 0, 0, false⟩]).hdrBad = true ∧
    (let k : Pkt := { dest := epAddr 56 1, src := 0x41, cmd := Cmd.WR, dfc := 1 }
     let j := ejectPkt (ejected k ++ [⟨0, 0, 0x40, sbCheck 0x40, 0, false⟩])
     let l := ejectPkt (ejected k)
     verdict j (epAddr 56 1) = .poisoned ∧ answerOf j.pkt.cmd = none ∧ verdict l (epAddr 56 1) = .crcFailed ∧ answerOf l.pkt.cmd = none ∧
     up.recvFull 56 5 0 (up.recvAt 56 5 0) (hdrOf l.hdr) = false) ∧
    (let key := 2 ^ 12 + (56 * 16 + 0 * 8 + 5)
     tget 0 up.evc.once key ≠ up.mgtCycle + 1 ∧ tget 0 (up.setOnce key (up.mgtCycle + 1)).evc.once key = (up.setOnce key (up.mgtCycle + 1)).mgtCycle + 1) := by
  decide +kernel

/-- Port 0 of tile 5: enabled, window 0 of 4 KiB at address 0 to port 1 of tile 56, its protection unit letting through what no rule covers. -/
def initiator (priv : Bool) : State := ((enabled5 up).wr (aNidec 5 0 0) 0x0121000000000001).pb (aPuCtl (puIndex 5 0)) PU_CTL.PRIV0 priv
def beatsFor (op : BitVec 4) : QReq := { len := 7, beats := if op = Qop.READ ∨ op = Qop.DOORBELL then 0 else 1 }
/-- Hypotheses of Obligations.RequestsAreAccepted: a port that is not ready and one that is; a wrong count of beats, a guarantee without a slot, an address in no window, and at the end of one; each operation allowed, and refused by the unit; D beats for a request, and for a refused one; an answer to leave. -/
theorem witness_requests :
    up.qReady 5 0 = false ∧
    ([Qop.READ, Qop.WRITE, Qop.WRITE_NP, Qop.ATOMIC, Qop.MESSAGE, Qop.CELL, Qop.ENQUEUE].all fun op =>
      let s := initiator true
      let q := beatsFor op
      let check (s : State) : PuAns := s.puCheck (puIndex 5 0) (s.inj 5).toNat (s.g (aPuCtl (puIndex 5 0)) PU_CTL.ACT) op q.addr q.len
      s.qReady 5 0 && beatsOk op q && s.guaranteeOk 5 0 q && decide (op ≠ Qop.DOORBELL) && decide (s.decodeAddr 5 0 q.addr q.len = some 0x121) &&
        decide (check s = .allow 0 2) && (initiator false).qReady 5 0 && decide (check (initiator false) = .refuse vNoMatch 0x3F 0) &&
        !beatsOk op { q with beats := 7 }) = true ∧
    (initiator true).guaranteeOk 5 0 { gs := true } = false ∧ (initiator true).decodeAddr 5 0 0x1000 0 = none ∧ (initiator true).decodeAddr 5 0 0xFFF 0 = some 0x121 ∧
    (initiator true).decodeAddr 5 0 0xFFF 1 = none ∧
    beatsOk Qop.DOORBELL (beatsFor Qop.DOORBELL) = true ∧ fld (255 : BitVec 48) 0 10 ≤ 255 ∧ (initiator true).puDom (puIndex 5 0) ≤ 7 ∧
    ({ beatsFor Qop.READ with rsv := some 0 } : QReq).rsv = some 0 ∧ 255 < fld (256 : BitVec 48) 0 10 ∧
    (let s := (initiator true).p (aPuCtl (puIndex 5 0)) PU_CTL.DOM 8
     s.qReady 5 0 = true ∧ 7 < s.puDom (puIndex 5 0)) ∧
    (let s := (enabled5 up).p (aNicfg 5 0) TL_NICFG.STATE niDisabled
     s.qReady 5 0 = false ∧ ((s.pb (aNicfg 5 0) TL_NICFG.ENABLE true).niOpen 5 0).qReady 5 0 = true) ∧
    up.dReady 5 0 1 = false ∧
    ([none, some Resp.DECERR].all fun c =>
      let r : NiReq := { request Qop.WRITE 1 with q := beatsFor Qop.WRITE, refuse := c }
      decide ((((initiator true).setNi 5 0 { up.ni 5 0 with dwait := some r }).ni 5 0).dwait = some r) && decide ([(0 : Line)].length = r.q.beats.toNat) &&
        decide ([(0 : Line), 0].length ≠ r.q.beats.toNat) && (((initiator true).setNi 5 0 { up.ni 5 0 with dwait := some r }).dReady 5 0 1) &&
        (((initiator true).setNi 5 0 { up.ni 5 0 with dwait := some r }).dReady 5 0 2)) = true ∧
    (let n := ((initiator true).setNi 5 0 { up.ni 5 0 with sresp := [⟨1, 0, [], true, true, true, none⟩] }).ni 5 0
     n.epLow = false ∧ n.epUp = true ∧ n.clkStop = false ∧ n.sresp = [⟨1, 0, [], true, true, true, none⟩]) ∧ (initiator true).pst 5 ≠ 5 ∧ (initiator true).pst 5 ≠ 6 := by decide +kernel

/-- A response at port 0 of tile 5 with requests outstanding. -/
def answered (cmd : BitVec 6) (outs : List NiOut) : State :=
  (initiator true).setNi 5 0 { up.ni 5 0 with rx := [{ cmd := cmd, tag := 9 }], outs := outs, held := [(9, 4)] }
/-- Hypotheses of Obligations.ResponsesReachTheMaster: a WACK and another response, of a request that waits, of one lost to a reset, of none; a timer that runs and one that does not; a TAG held, one that an abort abandoned, and one that is neither. -/
theorem witness_responses :
    ([Cmd.WACK, Cmd.RDATA].all fun c => [[outOf 9 false], [outOf 9 true], []].all fun outs => let s := answered c outs
     decide (s.kind 5 0 = .initiator) && canonOk s && decide ((s.ni 5 0).rx = [{ cmd := c, tag := 9 }]) &&
      decide (extract (fun (o : NiOut) => o.tag == 9) (s.ni 5 0).outs = outs.head?.map (fun o => (o, []))) && decide (0 < s.rto 5 0)) = true ∧
    ((initiator true).p (aNicfg 5 0) TL_NICFG.RTO 0).rto 5 0 = 0 ∧
    extract (fun (h : BitVec 12 × Nat) => h.1 == 9) ((answered Cmd.WACK []).ni 5 0).held = some ((9, 4), []) ∧
    (let s := (answered Cmd.WACK []).setNi 5 0 { (answered Cmd.WACK []).ni 5 0 with abandoned := [(9, 2)] }
     canonOk s = true ∧ extract (fun (o : NiOut) => o.tag == 9) (s.ni 5 0).outs = none ∧
     extract (fun (a : BitVec 12 × Nat) => a.1 == 9) (s.ni 5 0).abandoned = some ((9, 2), [])) ∧
    extract (fun (h : BitVec 12 × Nat) => h.1 == 8) ((answered Cmd.WACK []).ni 5 0).held = none := by decide +kernel

/-- A request at port 1 of tile 56, with what is presented there. -/
def target (cmd : BitVec 6) (pres : List Pres) : State :=
  let s := up.p (aNicfg 56 1) TL_NICFG.STATE niEnabled
  s.setNi 56 1 { s.ni 56 1 with rx := [{ src := 0x41, cmd := cmd, lenm1 := 7 }], pres := pres }
def presented (np taken dead : Bool) : Pres := ⟨3, { src := 0x41, cmd := if np then Cmd.RD else Cmd.WR, lenm1 := 7 }, 0, np, taken, dead, none, none, some 0⟩
/-- Hypotheses of Obligations.TargetsPresentAndAnswer, targets: each command presented, and turned away; transfers and answers of each kind; a timer that runs. -/
theorem witness_targets :
    ([Cmd.RD, Cmd.WR, Cmd.WRN, Cmd.ATM, Cmd.PKT].all fun c => let s := target c []
     let n := s.ni 56 1
     s.slaveKind 56 1 && decide (n.rx = [{ src := 0x41, cmd := c, lenm1 := 7 }]) && decide (s.turnAway 56 1 { src := 0x41, cmd := c, lenm1 := 7 } = none) && n.epUp &&
      !n.clkStop && decide (n.pres = []) && decide (0 < s.rto 56 1) && decide (up.turnAway 56 1 { src := 0x41, cmd := c, lenm1 := 7 } = some Resp.DECERR)) = true ∧
    ([true, false].all fun np => let n := (target Cmd.RD [presented np false false]).ni 56 1
     decide (n.epLow = false) && decide (n.pres.find? (fun x => !x.taken) = some (presented np false false)) && decide ((presented np false false).mtag = 3)) = true ∧
    ([true, false].all fun dead => decide (extract (fun (x : Pres) => x.mtag == 3 && x.taken) ((target Cmd.RD [presented true true dead]).ni 56 1).pres =
      some (presented true true dead, []))) = true ∧
    respRead Resp.TIMEOUT ≠ Resp.OK ∧ [(0 : Line)].length = flitsFor ((presented true true false).pkt.lenm1.toNat + 1) ∧
    ((target Cmd.RD [presented true true false]).ni 56 1).pres.find? (fun x => x.mtag == 3 && x.np && !x.dead && x.at_.isSome) = some (presented true true false) ∧
    (∀ y ∈ [presented true true false], y.mtag ≠ 4) ∧ (presented true false false).taken = false ∧ up.kind 64 2 = .memory ∧ up.slaveKind 64 2 = true ∧
    (Cmd.RD : BitVec 6) ≠ Cmd.WR := by decide +kernel
/-- A message at port 2 of tile 40, its mailbox 15 of depth 1 enabled or not. -/
def mailbox (en : Bool) (full : List MboxEntry) : State :=
  let s := ((up.p (aNicfg 40 2) TL_NICFG.STATE niEnabled).pb (aNimbox 40 2 15) TL_NIMBOX.EN en).p (aNimbox 40 2 15) TL_NIMBOX.DEPTH 1
  s.setNi 40 2 { s.ni 40 2 with rx := [{ src := 0x41, cmd := Cmd.MSG, addr := 15 }], mbox := full }
/-- Hypotheses of its mailboxes: not enabled, with room, full, to be served. -/
theorem witness_mailboxes :
    ([true, false].all fun en => let s := mailbox en []
     decide (s.kind 40 2 = .message) && decide ((s.ni 40 2).rx = [{ src := 0x41, cmd := Cmd.MSG, addr := 15 }]) && decide (s.niState 40 2 = niEnabled) &&
      decide (s.gb (aNimbox 40 2 15) TL_NIMBOX.EN = en)) = true ∧
    fld (15 : BitVec 48) 0 4 = 15 ∧ fld (15 : BitVec 48) 4 44 = 0 ∧ ((mailbox true []).ni 40 2).mboxCount 15 < (mailbox true []).mboxDepth 40 2 15 ∧
    ((mailbox true []).ni 40 2).mbox.length < 256 ∧
    (let s := mailbox true [⟨15, {}⟩]
     s.mboxDepth 40 2 15 ≤ (s.ni 40 2).mboxCount 15 ∧ (s.ni 40 2).epLow = false ∧ (s.ni 40 2).epUp = true ∧ (s.ni 40 2).clkStop = false ∧
     (s.ni 40 2).nextBox = some 15 ∧ (s.ni 40 2).mboxQ = none ∧ ({ s.ni 40 2 with mboxQ := some 15 } : Ni).mboxQ = some 15 ∧ (extract (fun (e : MboxEntry) => e.box == 15) (s.ni 40 2).mbox).isSome = true) := by decide +kernel
/-- Endpoints at which nothing transfers, of each kind: of a tile that is OFF or being powered, in reset, not reconnected, without a clock. -/
theorem witness_shut :
    ([(initiator true, 5, 0), (target Cmd.RD [presented true true false], 56, 1), (mailbox true [⟨15, {}⟩], 40, 2)].all fun (s, t, p) =>
     ([5, 6].all fun st => decide ((s.p (aPmTile t) PM_TILE.ST st).pst t = st)) && ((s.setNi t p { s.ni t p with epLow := true }).ni t p).epLow &&
       !((s.setNi t p { s.ni t p with epUp := false }).ni t p).epUp && ((s.setNi t p { s.ni t p with clkStop := true }).ni t p).clkStop &&
       decide (s.pst t = 0) && (s.ni t p).epUp && !(s.ni t p).epLow && !(s.ni t p).clkStop) = true := by decide +kernel
/-- Its answers at a tile whose core does not run: with room for one beat more, and without; at a tile whose core runs. -/
theorem witness_crossing_room :
    ([15, 16].all fun n => let s := (target Cmd.RD [presented true true false]).p (aPmTile 56) PM_TILE.ST 1
     let u := s.setNi 56 1 { s.ni 56 1 with xin := n }
     !u.coreRuns 56 && decide ((u.ni 56 1).xin = n) && canonOk u && u.slaveKind 56 1 && decide (u.pst 56 = 1)) = true ∧ (target Cmd.RD [presented true true false]).coreRuns 56 = true := by decide +kernel
/-- Requests as they arrive: at a port that is ENABLED, at one that is not, and during the reset of its endpoint. -/
theorem witness_arrivals :
    ([Cmd.RD, Cmd.WR].all fun c => let s := target c []
     let k : Pkt := { src := 0x41, cmd := c, lenm1 := 7 }
     s.slaveKind 56 1 && decide ((s.niOpen 56 1).niState 56 1 = niEnabled) && !(s.ni 56 1).epLow && ((answerOf c).isSome == decide (c = Cmd.RD)) &&
       (((s.p (aNicfg 56 1) TL_NICFG.STATE niDisabling).niOpen 56 1).turnAway 56 1 k).isSome &&
       (((s.setNi 56 1 { s.ni 56 1 with epLow := true }).niOpen 56 1).turnAway 56 1 k).isSome) = true := by decide +kernel
def niStep (t p st : Nat) : State := (up.p (aNicfg t p) TL_NICFG.STATE st).pb (aNicfg t p) TL_NICFG.ENABLE false
/-- Hypotheses of Obligations.PortControl: a port in reset and not, of each kind, in each state; nothing outstanding and something; FORCE; slot banks to switch and none. -/
theorem witness_port_control : canonOk up = true ∧ up.kind 5 0 = .initiator ∧ up.kind 56 1 = .target ∧ up.kind 40 2 = .message ∧ (up.ni 5 0).epLow = false ∧
    ((up.setNi 5 0 { up.ni 5 0 with epLow := true }).ni 5 0).epLow = true ∧
    ([niEnabled, niDisabled, niDisabling].all fun st => canonOk (niStep 5 0 st) && decide ((niStep 5 0 st).niState 5 0 = st)) = true ∧
    (let s := niStep 5 0 niDisabling
     s.outstd 5 0 = 0 ∧ (s.ni 5 0).mbox = [] ∧ s.gb (aNicfg 5 0) TL_NICFG.ENABLE = false ∧ s.gb (aNicfg 5 0) TL_NICFG.FORCE = false ∧
     (s.pb (aNicfg 5 0) TL_NICFG.FORCE true).gb (aNicfg 5 0) TL_NICFG.FORCE = true) ∧
    ((niStep 5 0 niDisabled).pb (aNicfg 5 0) TL_NICFG.ENABLE true).gb (aNicfg 5 0) TL_NICFG.ENABLE = true ∧
    (niStep 5 0 niDisabled).gb (aNicfg 5 0) TL_NICFG.ENABLE = false ∧
    (hasReq Qop.READ).outstd 5 0 ≠ 0 ∧ up.nis.any (fun kv => kv.2.slotOld) = false ∧
    (let s := up.setNi 5 0 { up.ni 5 0 with slotOld := true }
     canonOk s = true ∧ s.nis.any (fun kv => kv.2.slotOld) = true ∧ (s.ni 5 0).slotOld = true ∧ (s.ni 5 1).slotOld = false) ∧
    (let s := tailOnWire true false true
     s.kind 5 0 = .initiator ∧ ∃ g ∈ (s.ni 5 0).going, g.owed = true) ∧
    (let s := target Cmd.RD [presented true true false, presented false true false]
     s.slaveKind 56 1 = true ∧ (s.ni 56 1).rx ≠ [] ∧ ((s.ni 56 1).pres.filter (fun x => x.np && !x.dead)).length = 1) := by decide +kernel

-- Traffic manager.

/-- Pool 0 may hold 5 cells of channel 0, on whose list so many stand. -/
def pool0 (n : Nat) : State :=
  let s := (up.p (aPoolq 0) TM_POOLQ.MAXHELD 5).wr (aPoolch 0) 1
  { s with tm := { s.tm with built := true, lists := if n = 0 then [] else [(0, ⟨[], topLeft n, [], n⟩)] } }
def tmGets (s : State) (port : Nat) (k : Pkt) : State := s.setTmRx port [k]
/-- Hypotheses of Obligations.BufferAndEnqueue, the buffer: an allocation that all cells meet, one that some meet, one that none does; a free; the configuration word of each kind; INIT under way and not. -/
theorem witness_buffer :
    (let k : Pkt := { src := 0x41, cmd := Cmd.RD, lenm1 := 7 }
     let s := tmGets (pool0 1) 0 k
     extract (fun (k : Pkt) => k.cmd == Cmd.RD) (s.tmRx 0) = some (k, []) ∧ canonOk s = true ∧ ((s.setTmRx 0 []).allocCells 0 2 [0]).map (·.2) = some [0] ∧
     ((s.setTmRx 0 []).allocCells 0 1 [0]).map (·.2) = some [0] ∧ ((pool0 0).allocCells 0 2 []).map (·.2) = some []) ∧
    ([Cmd.WR, Cmd.WRN].all fun c => let k : Pkt := { src := 0x41, cmd := c }
     decide (extract (fun (k : Pkt) => k.cmd == Cmd.WR || k.cmd == Cmd.WRN) ((tmGets up 0 k).tmRx 0) = some (k, []))) = true ∧
    up.sqRight (.sq 0) = true ∧ up.sqRight .bl = false ∧ bitOf (0x8000000000000000 : W) 63 = true ∧ bitOf (0 : W) 63 = false ∧ up.tmEmpty = true ∧
    tget 0 up.evc.once 833 ≠ up.mgtCycle + 1 ∧ tget 0 (up.setOnce 833 (up.mgtCycle + 1)).evc.once 833 = (up.setOnce 833 (up.mgtCycle + 1)).mgtCycle + 1 ∧
    up.tm.initBusy = false ∧ ({ up with tm := { up.tm with initBusy := true } } : State).tm.initBusy = true := by decide +kernel
def rec0 : Rec := { cp0 := 0, len := 64, ncells := 1, color := 0, hit := false, pool := 0, tstamp := 0, fidx := none, qid := 0, ptrs := 0 }
/-- Queue 0, owned by scheduler 0, in a valid group, with so many bytes of deficit and these records. -/
def queue0 (rsz dc : Nat) (rs : List QRec) : State :=
  let s := ((((pool0 1).p (aQpart 0) TM_QPART.V 1).pb (aQdesc 0 0) TM_QDESC0.EN true).p (aQdesc 0 0) TM_QDESC0.RSZ rsz).pb (aGrpa 0 0) TM_GRPA.V true
  s.setQueue 0 ⟨rs, dc, false, none⟩
/-- An ENQ of one cell. -/
def enq0 : Pkt := { src := 0x41, cmd := Cmd.ENQ, aux := 0x00010040 }
/-- Queue 0 polices its packets by policer 0, which holds tokens for 100 bytes or none. -/
def policed (rsz : Nat) (tok : Bool) : State :=
  let s := (((queue0 rsz 0 []).pb (aQdesc 0 0) TM_QDESC0.PRIV true).p (aQmap 0 0) TM_QMAP.POLICE 2).p (aPola 0) TM_POLA.BURST 100
  { s with tm := { s.tm with pol := if tok then [(0, (100 * mtUnit, 0))] else [] } }
/-- A QP that awaits a record write under each TAG, and one with a TAG left. -/
theorem witness_tags :
    ([4096, 4095].all fun n =>
      ({ up with tm := { up.tm with wrns := (List.range n).map (fun i => (⟨0, i, 0, i⟩ : RecWrite)) } } : State).qpTagFree 0 == decide (n = 4095)) = true := by decide +kernel
/-- Hypotheses of its enqueues: malformed; for a queue without an owner; admitted, and dropped; under a hard policer that has the tokens, also where the queue is full, and that has not; a packet of 17 cells and one of 18; a record that follows others, in the store and in memory. -/
theorem witness_enqueue :
    (let s := tmGets (queue0 4 0 []) 0 enq0
     let r := (s.setTmRx 0 []).ftLookup 0 enq0.fkey (enqLen enq0) (enqLearn enq0)
     extract (fun (k : Pkt) => k.cmd == Cmd.ENQ && k.cls == 0) (s.tmRx 0) = some (enq0, []) ∧ s.enqWellFormed enq0 = true ∧ s.enqWellFormed { enq0 with aux := 0 } = false ∧
     r.2 = none ∧ r.1.ownerOf 0 = some 0 ∧ r.1.gb (aQdesc 0 0) TM_QDESC0.EN = true ∧ r.1.qmap (r.1.treeBank 0) 0 TM_QMAP.POLICE = 0 ∧
     r.1.policerOf 0 0 = none ∧ r.1.admissionDrops 0 (cellsOf (enqCells enq0)) = false ∧ (pool0 1).ownerOf 0 = none ∧ (pool0 1).enqWellFormed enq0 = true) ∧
    (queue0 0 0 []).admissionDrops 0 (cellsOf (enqCells enq0)) = true ∧ (queue0 0 0 []).ownerOf 0 = some 0 ∧ (queue0 0 0 []).policerDrops none 64 = false ∧
    ([(4, true), (0, true), (4, false)].all fun (rsz, tok) => let s := policed rsz tok
     let l := s.lenAt 0 (enqLen enq0)
     let m := { s with pm := { s.pm with cells := s.pm.cells + enqCells enq0 } }.enqMeter 0 0 l (enqColor enq0)
     s.enqWellFormed enq0 && decide (s.ownerOf 0 = some 0) && s.gb (aQdesc 0 0) TM_QDESC0.EN && decide (m.1.policerOf 0 0 = some 0) &&
       (decide (l * mtUnit ≤ m.1.polTok 0) == tok) && (m.1.admissionDrops 0 (cellsOf (enqCells enq0)) == decide (rsz = 0))) = true ∧
    enqCells { enq0 with aux := 0x00110040 } = 17 ∧ 17 < enqCells { enq0 with aux := 0x00120040 } ∧
    (queue0 4 0 [⟨rec0, .store, 0⟩]).tmEmpty = false ∧
    ([RecAt.store, .memory].all fun a => let s := queue0 4 0 [⟨rec0, a, 0⟩]
     canonOk s && decide ((s.queue 0).recs ≠ [])) = true := by decide +kernel
/-- Hypotheses of Obligations.SchedulersDecideReadAndDeliver: enabled and not; the first decision of a cycle; a record in memory and none; an answer; packets at each point of their delivery, to one endpoint and to two; a gate list pending; a queue that the deficit covers exactly, and one that its quantum brings there. -/
theorem witness_schedulers :
    (let s := { ((queue0 4 64 [⟨rec0, .store, 0⟩]).pb (aEscfg 0) TM_ESCFG.EN true).p (aEscfg 0) TM_ESCFG.LRATE 100 with cyc := 7 }
     let u := (s.decides 0).switchTree 0
     s.tm.dcyc ≠ s.cyc ∧ s.treeBank 0 = bitOf s.tm.flipTree 0 ∧ u.gb (aEscfg 0) TM_ESCFG.EN = true ∧ u.lrate 0 ≠ 0 ∧ 0 ≤ u.pTok 0 ∧ u.dispCount 0 < 64 ∧
     (s.drrPick 0 0 [0]).2 = some 0 ∧ canonOk s = true ∧
     (queue0 4 0 [⟨rec0, .store, 0⟩]).drrPick 0 0 [0] ≠ (queue0 4 0 [⟨rec0, .store, 0⟩], none)) ∧
    ((up.decides 0).switchTree 0).gb (aEscfg 0) TM_ESCFG.EN = false ∧
    (let s := queue0 4 0 [⟨rec0, .memory, 0⟩]
     (s.queue 0).recs.find? (fun e => e.at_ == .memory) = some ⟨rec0, .memory, 0⟩ ∧ s.ownerOf 0 = some 0 ∧ s.storeRoom 0 0 = true ∧ s.bufUsed 0 < 512 ∧ s.tm.wrns = []) ∧
    (up.queue 0).recs.find? (fun e => e.at_ == .memory) = none ∧
    (let k : Pkt := { cmd := Cmd.RDATA, tag := 5, data := [7] }
     extract (fun (p : Pkt) => p.tag.toNat == 5 && p.resp == 0 && p.data == [7]) ((tmGets up 16 k).tmRx 16) = some (k, [])) ∧
    up.nextDelivery 0 = none ∧
    ([(false, false), (true, false), (true, true)].all fun (issued, delivered) => [false, true].all fun dual =>
      let x : Sel := ⟨rec0, 0, 1, [0], false, none, [⟨5, 0, 64, true, [0]⟩], issued, delivered, false, false⟩
      let s := (up.pb (aEsout 0) TM_ESOUT.DUAL dual).setDisp 0 [x]
      decide (s.nextDelivery 0 = if delivered then none else some 0) && decide ((s.disp 0)[0]? = some x) && decide (x.tags = []) &&
        decide (s.gb (aEsout 0) TM_ESOUT.DUAL = dual) &&
        decide ((extract (fun (x : Sel) => x.delivered) (s.disp 0)).isSome = delivered) && !s.wrWaits 0 1) = true ∧
    ({ up with tm := { up.tm with outq := [(16, [{ cmd := Cmd.WR, addr := 0x1000000000 }])] } } : State).wrWaits 0 1 = true ∧
    (let x (c : BitVec 2) (n : Nat) (d : Bool) : Sel := ⟨rec0, c, n, [n], false, none, [⟨5, 0, 64, true, [0]⟩], true, d, false, false⟩
     let s : State := { up.setDisp 0 [x 0 1 true, x 1 3 false, x 1 2 true] with tm := { (up.setDisp 0 [x 0 1 true, x 1 3 false, x 1 2 true]).tm with outq := [(16, [{ cmd := Cmd.WR, addr := 0x1000000000 }])] } }
     s.disp 0 = [x 0 1 true, x 1 3 false] ++ x 1 2 true :: [] ∧ s.wrWaits 0 1 = true ∧ s.wrWaits 0 2 = false) ∧
    (up.gate 0).pend = none ∧
    (let s := up.setGate 0 { up.gate 0 with pend := some 9 }
     (s.gate 0).pend = some 9 ∧ canonOk s = true) := by decide +kernel
/-- Entries of two buckets of each key are valid. -/
def filled (s : State) (keys : List (BitVec 128)) : State := (keys.flatMap s.candidates).foldl (fun s i => s.pb (aFt i 2) ⟨63, 1, .rw, 0⟩ true) s
/-- Hypotheses of Obligations.FlowTableLearnsAndAges: a key that is there, one with a free slot, one that a path helps, one without a path; an insertion under way, at each cycle of a move, its last and one before; AGEEN 1 and 0. -/
theorem witness_learn :
    (let s : State := { up with ft := { up.ft with learnq := [(1, 64)] } }
     s.ft.cur = none ∧ s.ft.learnq = [(1, 64)] ∧ canonOk s = true ∧ s.ftFind 1 = none ∧ ((s.candidates 1).find? (fun i => !s.ftV i)).isSome = true ∧
     ((s.ftInsert ((s.candidates 1).getD 0 0) 1 64).ftFind 1).isSome = true) ∧
    ([none, some 7].all fun half => [[], [4]].all fun before =>
      let l : Learn := ⟨1, 64, before ++ [1, 2], before ++ [1, 2], half⟩
      let s : State := { up with ft := { up.ft with cur := some l } }
      decide (s.ft.cur = some l) && decide (l.path.reverse = 2 :: 1 :: before) && l.slots.contains (8 / 4) && canonOk s) = true ∧ up.gb aFtCfg FT_CFG.AGEEN = false ∧
    (up.pb aFtCfg FT_CFG.AGEEN true).gb aFtCfg FT_CFG.AGEEN = true ∧ up.ftV 0 = false ∧ (filled up [0]).ftV ((up.candidates 0).getD 0 0) = true := by decide +kernel
theorem witness_paths :
    (let s := filled up [1]
     s.ftFind 1 = none ∧ (s.candidates 1).find? (fun i => !s.ftV i) = none ∧ (s.ftPath 1).isSome = true) ∧
    (let s := filled up [1, 0]
     s.ftFind 1 = none ∧ (s.candidates 1).find? (fun i => !s.ftV i) = none ∧ s.ftPath 1 = none) := by decide +kernel

/-- Block 1 of queues, EN or free; blocks 2 to 33 at scheduler 0. -/
def blocks (n : Nat) : State := (List.range n).foldl (fun s i => s.p (aQpart (2 + i)) TM_QPART.V 1) up
/-- Hypotheses of Obligations.TrafficManagerConfiguration: masters with the right and without; a debt forgiven and not; a block that is busy and one that is free; 32 other blocks; a queue in use and not. -/
theorem witness_configuration : up.sqRight (.sq 0) = true ∧ up.sqRight .bl = false ∧ canonOk up = true ∧
    (let s := up.pb (aQdesc 64 0) TM_QDESC0.EN true
     s.blockBusy 1 = true ∧ (0x20 : W) &&& maskOf .sq rowsTM_QPART ≠ s.rd (aQpart 1) ∧ bitOf (s.rd (aQdesc 64 0)) 63 = true ∧ canonOk s = true ∧
     fld (s.rd (aQdesc 64 0)) 0 31 ≠ fld ((1 : W) &&& maskOf .sq rowsTM_QDESC0) 0 31) ∧
    up.blockBusy 1 = false ∧ bitOf (0x20 : W) 5 = true ∧ bitOf (0x1F : W) 5 = false ∧ bitOf (up.rd (aQdesc 64 0)) 63 = false ∧ (up.queue 64).recs = [] := by decide +kernel
theorem witness_blocks : 32 ≤ ((List.range 1024).filter (fun j => j != 1 && (blocks 32).gb (aQpart j) TM_QPART.V &&
    (blocks 32).g (aQpart j) TM_QPART.ES == fld (0x20 : W) 0 5)).length := by
  refine Nat.le_trans ?_ ((List.range_sublist.2 (show 34 ≤ 1024 by decide)).filter _).length_le
  decide +kernel

-- Protection units and registers.

/-- Hypotheses of Obligations.AllowedAccessesArePermitted and RegisterWritesFollowTheCodes: an access that is allowed; offsets on the grid and off it, in each range; a master that is not active; a tile that can be reached and one that cannot; a unit that the master owns and one that it does not; a write of ACT that an endpoint's side can take and one that it cannot. -/
theorem witness_registers :
    (let s := initiator true
     s.puCheck (puIndex 5 0) 0 0 Qop.READ 0 7 = .allow 0 2) ∧
    blActs (8#26).toNat = false ∧ (1#26).toNat % 8 ≠ 0 ∧ (8#26).toNat % 8 = 0 ∧ (8#26).toNat < baseTl ∧ (dbep up .retention (dbl 0 false false)).pm.mstate ≠ .running ∧
    (up.setHost 1 { up.host 1 with low := true }).masterActs (.host 1) = false ∧
    baseTl ≤ baseTl + 0x50000 ∧ baseTl + 0x50000 < endTl ∧ endTl < 2 ^ 26 ∧ endTl % 8 = 0 ∧ (tile5 4 0).reachable ((baseTl + 0x50000 - baseTl) / 0x10000) = false ∧
    up.reachable ((baseTl + 0x50000 - baseTl) / 0x10000) = true ∧ up.sqRight .bl = false ∧ up.sqRight (.sq 8) = true ∧
    (rowsAt up.build (aPuCtl (puIndex 5 0))).isEmpty = false ∧ up.puOwned (.sq 8) (puIndex 5 0) = true ∧ up.puOwned (.sq 1) (puIndex 5 0) = false ∧
    (let v : W := BitVec.ofNat 64 (2 ^ PU_CTL.ACT.lo)
     let stopped := up.setNi 5 0 { up.ni 5 0 with clkStop := true }
     up.actWaits (aPuCtl (puIndex 5 0)) v (BitVec.allOnes 64) = false ∧ stopped.actWaits (aPuCtl (puIndex 5 0)) v (BitVec.allOnes 64) = true ∧
     stopped.writeWaits (.sq 8) (aPuCtl (puIndex 5 0)) v 0xFF = true ∧ up.writeWaits (.sq 8) (aPuCtl (puIndex 5 0)) v 0xFF = false) := by decide +kernel

-- Worked examples of the spec.

/-- Source: spec/02, the sideband of R44. -/
theorem test_sideband : sbCheck 0x2D = 0b11000#5 ∧ sbDecode 0x0D (sbCheck 0x2D) = .ok 0x2D (some 581) := by decide
def aWrn : Pkt :=
  { dest := 0x29D, src := 0x0C8, cls := 2, cmd := Cmd.WRN, dfc := 2, tag := 0x2A5, pdom := 3, cache := 1, addr := 0x004000123470, lenm1 := 0x63,
    be := 0xFFFFFFFFFFFFFFFF, tstamp := 0x5F3A0C10, data := [0, 0] }
/-- Source: spec/02, a non-posted write: the first word of its header, bytes 8 to 14 and 28 to 31. -/
theorem test_header : lineWord (pktHeader aWrn) 0 = 0x001302A520E3229D ∧ lineWord (pktHeader aWrn) 1 = 0x0063004000123470 ∧
    lineWord (pktHeader aWrn) 2 = 0xFFFFFFFFFFFFFFFF ∧ fld (pktHeader aWrn) 224 32 = 0x5F3A0C10 := by decide +kernel
/-- Source: spec/02, the check value of CRC-32C and the constant coefficient of g(x) (R63, R67); spec/14, that of the chain's CRC (R428). -/
theorem test_codes : crc32c [0x31, 0x32, 0x33, 0x34, 0x35, 0x36, 0x37, 0x38, 0x39] = 0xE3069283 ∧ rsEncode 1 &&& 0xFF = 0x18 ∧
    crcForward 16 0x1021 0xFFFF [0x31, 0x32, 0x33, 0x34, 0x35, 0x36, 0x37, 0x38, 0x39] = 0x29B1 := by decide +kernel

/-- The hops of a header from a tile on a VC, the input port given: output and VC on the link at each, until it ejects. -/
def walk (s : State) (pl : Nat) (dest : BitVec 10) : Nat → Nat → Nat → Nat → List (Nat × Nat × Nat)
  | 0, _, _, _ => []
  | n + 1, t, port, v =>
    let o := s.routeHere t pl 0 port dest
    let w := s.outVc t pl 0 port v o
    if 4 ≤ o then [(t, o, w)] else (t, o, w) :: walk s pl dest n (neighbour t o) (opposite o) w
/-- Source: spec/03, the worked route (2, 3) to (7, 10): five hops E on VC 4, three S on VC 4, two on VC 5 across the dateline; it ejects at L1. -/
theorem test_route : (walk up 0 0x29D 12 (3 * 12 + 2) 4 4).map (fun h => (h.1 % 12, h.1 / 12, h.2)) =
    [(2, 3, 1, 4), (3, 3, 1, 4), (4, 3, 1, 4), (5, 3, 1, 4), (6, 3, 1, 4), (7, 3, 2, 4), (7, 2, 2, 4), (7, 1, 2, 4), (7, 0, 2, 5), (7, 11, 2, 5), (7, 10, 5, 5)] := by
  decide +kernel

/-- Source: spec/06, the cell of an ENQ: channel, and the address of its first byte. -/
theorem test_cell : (let s : State := { up with tm := { up.tm with cfg := setFld (setFld up.tm.cfg 43 3 6) 46 10 0x200 } }
    s.chOf 0x00123447 = 0x07 ∧ s.cellAddr 0x00123447 0 = 0x80070048D100) := by decide +kernel
/-- Source: spec/06, the fields of its ENQ. -/
theorem test_enq_fields : (let k : Pkt := { cmd := Cmd.ENQ, addr := 0x400012344700, aux := 0x1C0403E8, data := [BitVec.ofNat 512 (0x00123448 * 2 ^ 32 + 0x00123449 * 2 ^ 64 + 0x0012344A * 2 ^ 96)] }
    enqCp0 k = 0x00123447 ∧ enqLen k = 1000 ∧ enqCells k = 4 ∧ enqLearn k = true ∧ enqPool k = 3 ∧ enqSlots k = [0x00123448, 0x00123449, 0x0012344A]) := by decide +kernel

/-- Queues 0 and 1 in group 40 of scheduler 0: quanta 1,500 and 3,000, packets of 1,000 and 1,500. -/
def group40 : State :=
  let s := ((up.p (aQpart 0) TM_QPART.V 1).pb (aGrpa 0 40) TM_GRPA.V true)
  let s := ((s.p (aQmap 0 0) TM_QMAP.GROUP 40).p (aQmap 0 0) TM_QMAP.QUANTUM 1500).p (aQmap 0 1) TM_QMAP.GROUP 40
  let s := s.p (aQmap 0 1) TM_QMAP.QUANTUM 3000
  let recs (l : Nat) : List QRec := List.replicate 6 ⟨{ rec0 with len := l }, .store, 0⟩
  ((s.setQueue 0 ⟨recs 1000, 0, false, none⟩).setQueue 1 ⟨recs 1500, 0, false, none⟩).setDrr 0 40 [0, 1]
/-- One decision: pick and charge; the queue sent, and the deficits after it. -/
def drrStep (s : State) : State × Option Nat × Nat × Nat :=
  match s.drrPick 0 40 (s.drrList 0 40) with
  | (u, some q) =>
    let l := ((u.queue q).recs.head?.map (·.rec_.len)).getD 0
    let w := u.drrCharge 0 q l
    (w, some q, (w.queue 0).dc, (w.queue 1).dc)
  | (u, none) => (u, none, 0, 0)
/-- Source: spec/07, the DRR trace of group 40. -/
theorem test_drr : (let a := drrStep group40
    let b := drrStep a.1
    let c := drrStep b.1
    a.2 = (some 0, 500, 0) ∧ b.2 = (some 1, 500, 1500) ∧ c.2 = (some 1, 500, 0)) := by decide +kernel

/-- One SFQ decision between groups 1 and 2 of weights 256 and 768, packets of 1,200: the group chosen, the virtual time and its tag after it. -/
def sfqStep (s : State) : State × Option Nat × Nat × Nat :=
  match s.bestGroup 9 [1, 2] with
  | some g => let u := s.sfqCharge 9 2 g 1200; (u, some g, tget 0 u.tm.vt (ckey 9 2), tget 0 u.tm.stag (gkey 9 g))
  | none => (s, none, 0, 0)
/-- Source: spec/07, the first three decisions of the SFQ trace of ES9. -/
theorem test_sfq : (let s := (up.p (aGrpa 0 1) TM_GRPA.WEIGHT 256).p (aGrpa 0 2) TM_GRPA.WEIGHT 768
    let a := sfqStep s
    let b := sfqStep a.1
    let c := sfqStep b.1
    a.2 = (some 1, 0, 1200) ∧ b.2 = (some 2, 0, 400) ∧ c.2 = (some 2, 400, 800)) := by decide +kernel

/-- The state t nanoseconds after reset, at one nanosecond a cycle. -/
def atNs (s : State) (t : Nat) : State := { s with cyc := t, tb := { s.tb with period := 2 ^ 32 } }
/-- Source: spec/07, shaper 77: the debt at 100 ns, its repayment at the new rate and at the old one, FORGIVE, and a lower ceiling. -/
theorem test_shaper :
    (let s := (((atNs up 0).p (aShpcfg 77) TM_SHPCFG.RATE 10000).p (aShpcfg 77) TM_SHPCFG.CEIL 3000).setSh 77 (1000 * shUnit)
     let charged := s.chargeSh 77 1520
     let rewritten := (atNs charged 100).shaperWrite 77 (1000 + 3000 * 2 ^ 32)
     charged.shTok 77 = -520 * shUnit ∧ (atNs charged 100).shTok 77 = -395 * shUnit ∧ (atNs rewritten 3260).shTok 77 = 0 ∧ (atNs rewritten 3259).shTok 77 < 0 ∧
     (atNs charged 416).shTok 77 = 0 ∧ ((atNs charged 100).shaperWrite 77 (1000 + 3000 * 2 ^ 32 + 2 ^ 63)).shTok 77 = 0 ∧
     ((s.setSh 77 (2800 * shUnit)).shaperWrite 77 (1000 + 2000 * 2 ^ 32)).shTok 77 = 2000 * shUnit) := by decide +kernel

/-- Meter 300 of the trace: CIR 1 Gb/s, PIR 2 Gb/s, CBS 3,000, PBS 6,000, trTCM, reset. -/
def meter300 : State := (((atNs up 0).meterWrite 300 0 (1000000 + 2000000 * 2 ^ 32)).meterWrite 300 1 (3000 + 6000 * 2 ^ 32)).meterWrite 300 3 5
/-- A packet of 1,520 at a time: its colour, and twice the tokens after it in bytes. -/
def metered (s : State) (t : Nat) : State × Nat × Nat × Nat :=
  let r := (atNs s t).meter 300 1520 0
  (r.1, r.2, 2 * (r.1.mtrTok 300).1 / mtUnit, 2 * (r.1.mtrTok 300).2 / mtUnit)
/-- Source: spec/07, the trTCM trace of meter 300. -/
theorem test_meter : (let a := metered meter300 0
    let b := metered a.1 100
    let c := metered b.1 200
    let d := metered c.1 300
    let e := metered d.1 400
    a.2 = (0, 2960, 8960) ∧ b.2 = (1, 2985, 5970) ∧ c.2 = (1, 3010, 2980) ∧ d.2 = (2, 3035, 3030) ∧ e.2 = (0, 20, 40)) := by decide +kernel

/-- ES3 of the example, at a network time: two entries, GATES 0x80 for 2,000 ns and 0x7F for 8,000. -/
def es3 (t : Nat) : State :=
  let s := ((((up.p (aEscfg 3) TM_ESCFG.LRATE 100000).p (aEscfg 3) TM_ESCFG.GATEMSK 0xFF).p (aGbase 3 0) TM_GBASE.BASE 1000000000).p (aGcyc 3 0) TM_GCYC.CYCLE 10000).p
    (aGcyc 3 0) TM_GCYC.NENT 2
  let s := (s.wr (aGent 3 0 0) (0x80 + 2000 * 256)).wr (aGent 3 0 1) (0x7F + 8000 * 256)
  { s with tb := { s.tb with base := t * 2 ^ 32 } }
/-- Source: spec/07, what fits the windows of ES3, and when its new list starts. -/
theorem test_gates : (es3 1000001900).windowFits 3 7 1520 = false ∧ (es3 1000010000).windowFits 3 7 1520 = true ∧ (es3 1000001990).windowFits 3 7 84 = true ∧
    (es3 1000009950).windowFits 3 3 1520 = false ∧ (es3 1000012000).windowFits 3 3 1520 = true ∧ (es3 1000503500).listStart 3 0 1000503500 = (1000510000, true, false) := by decide +kernel

/-- PU 341 of the example, with its two rules in the user set. -/
def pu341 : State :=
  let i := 341
  let r (n : Nat) (w : W) (lim : W) (s : State) : State := (s.wr (aRule i 0 1 n 0) w).wr (aRule i 0 1 n 1) lim
  let field (f : Fd) (v : Nat) : Nat := v * 2 ^ f.lo
  r 2 (BitVec.ofNat 64 (2 ^ 63 + field PU_RULE0.RD 1 + field PU_RULE0.WR 1 + field PU_RULE0.CACHE 3 + field PU_RULE0.BASE 0x04001200)) (BitVec.ofNat 64 (field PU_RULE1.LIMIT 0x0400123F))
    (r 5 (BitVec.ofNat 64 (2 ^ 63 + field PU_RULE0.RD 1 + field PU_RULE0.ORDER 1 + field PU_RULE0.BASE 0x04001240)) (BitVec.ofNat 64 (field PU_RULE1.LIMIT 0x0400124F)) up)
/-- Source: spec/08, the access over two pages: refused by rule 5 at offset 0x40, and allowed to a READ with the stricter attributes. -/
theorem test_unit : pu341.puCheck 341 0 1 Qop.WRITE_NP 0x00400123FFC0 0x7F = .refuse vPerm 5 0x40 ∧ pu341.puCheck 341 0 1 Qop.READ 0x00400123FFC0 0x7F = .allow 0 1 := by decide +kernel

/-- Source: spec/13, twenty pulses into a crossing whose round trip ends once: 17 delivered or to be, 3 lost. -/
theorem test_crossing : (let pulses (n : Nat) (s : State) : State := (List.range n).foldl (fun s _ => s.ctPulse 32 584) s
    let a := pulses 19 up
    let c (s : State) : Ct := tget ⟨false, 0, 0⟩ s.pm.cts 32
    c a = ⟨true, 15, 1⟩ ∧ a.g (aDomstat 584) PM_DOMSTAT.OVFCNT = 3 ∧ a.gb (aDomstat 584) PM_DOMSTAT.OVF = true ∧
    (match execCtRoundTripEnd (.wake 32) a with | .next b => decide (c (pulses 1 b) = ⟨true, 15, 2⟩) | _ => false) = true) := by decide +kernel

/-- The state after a command, where it answers one. -/
def after (c : Instr) (s : State) : State := match exec c s with | .next t => t | _ => s
/-- Word i of context 0's job, and its PC. -/
def wOf (s : State) (i : Fin 16) : Option W := (s.ctx 0).job.map (fun j => j.get i.val)
def pcOf (s : State) : Option (BitVec 12) := (s.ctx 0).job.map (·.pc)
/-- A job whose words 2 and 4 to 6 are given. -/
def jobOf (w2 w4 w5 w6 : W) : Job := { job true true with len := 15, w := ((((job true true).w.set 2 w2).set 4 w4).set 5 w5).set 6 w6 }
/-- Source: spec/09, the words of job 0x0042, run one by one: LI, LIH, INS. -/
theorem test_job_fields : wOf (after (.li 0) (atWord up (jobOf 0 0 0 0) 0x3860C350)) 3 = some 50000 ∧ wOf (after (.li 0) (atWord up (jobOf 0 0 0 0) 0x3840002F)) 2 = some 0x2F ∧
    wOf (after (.lih 0) (atWord up (jobOf 0x2F 0 0 0) 0x3A432000)) 2 = some 0x0BF2000 ∧ wOf (after (.ins 0) (atWord up (jobOf 0 0 0 0x8003) 0x36C00000)) 6 = some 0x8002 := by
  decide +kernel
/-- Source: spec/09, BRC EQ w4, w5 of job 0x0042: taken 11 words on where slot 5 is HELD, and not otherwise; LOCK takes the slot; HALT ends the job of 4 + 15 words with a record. -/
theorem test_job_flow : pcOf (after (.brc 0) (atWord up (jobOf 0 7 7 0) 0xE28A000B)) = some 11 ∧
    pcOf (after (.brc 0) (atWord up (jobOf 0 0 7 0) 0xE28A000B)) = some 1 ∧
    (let t := after (.lock 0) (atWord up { jobOf 0 0 0 0 with w := (job true true).w.set 3 50000 } 0x80860105)
     wOf t 4 = some 0 ∧ t.lockState 5 = lkIsHeld ∧ t.lockOwner 5 = 0) ∧
    (let t := after (.halt 0) (atWord up (jobOf 0 7 0 0) 0xE8080000)
     (t.ctx 0).job = none ∧ t.head 0 = 4 + 15 ∧ t.ptr (aCpltail 0) = 1) := by decide +kernel

/-- Target 17 of the example, PRISPLIT 3 and THRESH 0x20, its three sources enabled. -/
def target17 : State :=
  let en (i pri : Nat) (s : State) : State := (s.putBitAt (aEn 17 (i / 64)) (i % 64) true).p (aSrc i) EVC_SRC.PRI pri
  en 40 0x48 (en 556 0x45 (en 970 0xC0 (((up.p aEvcCfg EVC_CFG.PRISPLIT 3).wr (aThresh 17) 0x20).pb (aSrc 970) EVC_SRC.LVLSRC true)))
/-- Source: spec/11, nesting on target 17: the claim returns 40, which 556 does not nest over and 970 does. -/
theorem test_nesting : (let s := ((target17.setPend 556 true).setPend 40 true).evcCycle
    let a := after (.evcClaim 2 17) s
    let b := (a.setPend 970 true).evcCycle
    bitOf s.evc.irq 17 = true ∧ bitOf s.evc.spur 17 = true ∧ s.best 17 = some 40 ∧ a.stack 17 = [(40, 0x48)] ∧ bitOf a.evc.irq 17 = false ∧
    bitOf b.evc.irq 17 = true ∧ b.best 17 = some 970) := by decide +kernel

/-- Source: spec/15, an LDTEST with REPAIR of the E output of tile (4, 2): lane 317 fails the pattern, training brings the link UP, and the CRSP carries 0x14F4_0102. -/
theorem test_ldtest : (let k : Pkt := { ctl 0x54 [BitVec.ofNat 64 (2 + 8)] with dest := epAddr 28 3 }
    let s := (up.setLinkState 28 0 1 lkTest).setLink 28 0 1 { up.link 28 0 1 with test := some ⟨k, true, true, false, [], false⟩ }
    let t := after (.trainingEnd ⟨28, 0, 1⟩ []) (after (.testPatternEnd ⟨28, 0, 1⟩ [317]) s)
    t.linkState 28 0 1 = lkUp ∧ (t.agent 28).outq.map (fun p => p.data.map (fun d => lineWord d 0)) = [[0x14F40102]]) := by decide +kernel

/-- A device of 2^log2 bytes that reports every mode of R408, mode clocks 2 and wait states 4 for 1-4-4, entry into 4-byte mode, and a quad-enable code. -/
def device (log2 code : Nat) (four : Option (BitVec 32)) : Sfdp :=
  { sig := 0x50444653, fourByte := four,
    bfpt := [0x00630000, BitVec.ofNat 32 (2 ^ (log2 + 3) - 1), 0x6B08EB44, 0x3B08] ++ List.replicate 10 0 ++ [BitVec.ofNat 32 (code * 2 ^ 20)] }
/-- Source: spec/14, a device of 32 MiB with the 4-byte table and 1-4-4 reads at SPIMAX 3: opcode 0xEC, two mode clocks and four wait states, Z of 16 MiB. A quad-enable code that the loader does not perform leaves 1-1-2 (R408); no signature leaves the values of R407. -/
theorem test_read_mode : pickMode (device 25 4 (some 0x36)) 3 = ⟨3, 0xEC, 6⟩ ∧ min 24 (sfdpDensUsed (device 25 4 (some 0x36)) - 1) = 24 ∧
    sfdpAddr4 (device 25 4 none) = .enter ∧ pickMode (device 24 6 none) 3 = ⟨1, 0x3B, 8⟩ ∧ pickMode (device 24 0 none) 0 = ⟨0, 0x0B, 8⟩ ∧
    sfdpOk { device 25 0 none with sig := 0 } = false := by decide +kernel
/-- Source: spec/14, the tree of the example seen from root A: E is below D1, and A's tiles once the last child has answered. -/
theorem test_tree : (let s := (chained (rootOf (port 1 cpUp (port 2 cpUp up)))).setRange 1 2 3 1 64
    let t := (s.setRange 2 4 5 1 148).enumEnd 1 6 false
    t.way 5 = .port 2 ∧ t.way 3 = .port 1 ∧ t.g aChnId CHN_ID.TILES = 356 ∧ t.g aChnId CHN_ID.HEIGHT = 2) := by decide +kernel

end Sys2Proof.Tests
end

section
/-! SUPPORT. One Bonov instruction from its issue to its end, told through `State.wrote`: what a computing instruction and a branch leave, and the traps that end a job at the fetch and at the decode (R247, R251 to R253, R274, R277, R280). -/
namespace Sys2Proof.Machine

theorem State.job_of_canIssue {s : State} {c : CtxId} {j : Job} (h : s.canIssue c = some j) : (s.ctx c).job = some j := by
  unfold State.canIssue at h
  split at h
  · exact h
  · contradiction

-- Instructions that complete.

section Completes
variable {s : State} {c : CtxId} {op : Nat} {j : Job} {w : BitVec 32}

/-- An instruction that names its next PC: register rd takes v, and the job goes on there. -/
theorem State.issue_doneAt (h : s.atInstr c op j w) (hd : (s.ctx c).due = none)
    (pc : Job → BitVec 32 → BitVec 12) (rd : BitVec 32 → Nat) (v : Job → W) :
    s.issue c op (fun s j w => s.doneAt c (pc j w) (fun j => j.set (rd w) (v j))) =
      (s.wrote c j w (rd w) (v { j with lastPc := j.pc }) (pc { j with lastPc := j.pc } w)).recheck := by
  rw [State.issue_runs h, State.doneAt_eq (j := { j with lastPc := j.pc }) (by simp) (by simpa using hd)]
  rfl

/-- A branch that writes no register. -/
theorem State.issue_jump (h : s.atInstr c op j w) (hd : (s.ctx c).due = none) (pc : Job → BitVec 32 → BitVec 12) :
    s.issue c op (fun s j w => s.doneAt c (pc j w) id) = (s.wrote c j w 0 0 (pc { j with lastPc := j.pc } w)).recheck :=
  State.issue_doneAt h hd pc (fun _ => 0) (fun _ => 0)

/-- An instruction that writes one value to w(RD) and goes on at the next word. -/
theorem State.compute_eq (h : s.atInstr c op j w) (hd : (s.ctx c).due = none) (f : Job → BitVec 32 → W) :
    s.compute c op f = (s.wrote c j w (iRd w) (f { j with lastPc := j.pc } w) (j.pc + 1)).recheck := by
  unfold State.compute
  rw [State.issue_runs h, State.doneRd_eq (j := { j with lastPc := j.pc }) (by simp) (by simpa using hd), State.ctx_issued]
  rfl

end Completes

-- Instructions that trap.

/-- A trap ends the job: its record, the context freed, the locks of its ring broken (R280). -/
theorem State.trapWith_eq {s : State} {c : CtxId} {j : Job} (hj : (s.ctx c).job = some j) (cause : Nat) (word : BitVec 32) (detail : Nat) :
    s.trapWith c cause word detail =
      ((s.endRecord c j stTrapped cause (trapResult word detail)).freeCtx c).breakLocks j.ring.val := by
  unfold State.trapWith
  rw [hj]

/-- A PC outside the job's words stops the fetch (R277). -/
theorem State.issue_bound {s : State} {c : CtxId} {j : Job} (h : s.canIssue c = some j) (hpc : j.len ≤ j.pc.toNat)
    (op : Nat) (act : State → Job → BitVec 32 → State) :
    s.issue c op act = (s.trapWith c tBound 0 j.pc.toNat).recheck := by
  unfold State.issue
  simp only [h, hpc, if_true]

/-- A word with a field that its opcode does not define stops at the decode (R250, R277). -/
theorem State.issue_illegal {s : State} {c : CtxId} {j : Job} {op : Nat} {w : BitVec 32} (h : s.canIssue c = some j)
    (hpc : j.pc.toNat < j.len) (hw : s.fetchWord j = w) (hop : iOp w = op) (hdef : opDefined op = true) (hbad : s.dispBad op = false)
    (hvalid : s.dispValid op = true) (hmicro : s.microBad (s.dispStart op) = false) (hfields : fieldsOk op w = false)
    (act : State → Job → BitVec 32 → State) :
    s.issue c op act = ((s.issued c j w).trap c tIllegal 0).recheck := by
  have hf : s.fetched c j = s.issued c j w := by unfold State.fetched State.issued; rw [hw]
  unfold State.issue
  simp only [h, Nat.not_le.mpr hpc, hw, hop, hdef, hbad, hvalid, hmicro, hfields, hf, if_false, if_true, Bool.and_false, Bool.false_eq_true,
    Bool.true_eq_false, or_self, ne_eq, not_true_eq_false]

end Sys2Proof.Machine
end

section
/-! SUPPORT. Fields and constants (R251 to R253): LIH appends 18 bits below, so LI and three LIH spell every word from its top. -/
namespace Sys2Proof.Machine

/-- What LIH makes of a register and its 18 bits (R252). -/
def lihVal (x : W) (y : BitVec 18) : W := (x <<< 18) ||| y.setWidth 64

theorem execLih_eq {s : State} {c : CtxId} {j : Job} {w : BitVec 32} (h : s.atInstr c 0x1D j w) (hd : (s.ctx c).due = none) :
    execLih c s = .next (s.wrote c j w (iRd w) (lihVal (j.get (iRd w)) (lImm w)) (j.pc + 1)).recheck :=
  congrArg Host.Outcome.next (State.compute_eq h hd _)

/-- A word is its upper part with its low 18 bits appended. -/
theorem lihVal_shiftRight (v : W) : lihVal (v >>> 18) (v.setWidth 18) = v := by
  unfold lihVal
  ext i hi
  by_cases h : i < 18
  · simp [h, BitVec.getLsbD_eq_getElem hi]
  · simp [h, BitVec.getLsbD_eq_getElem hi, show 18 + (i - 18) = i by omega]

/-- Sign extension leaves the ten top bits of a word alone: they do not reach bit 17. -/
theorem signExtend_top (v : W) : ((v >>> 54).setWidth 18).signExtend 64 = v >>> 54 := by
  have hmsb : ((v >>> 54).setWidth 18).msb = false := by simp [BitVec.msb_eq_getLsbD_last]
  rw [BitVec.signExtend_eq_setWidth_of_msb_false hmsb]
  apply BitVec.eq_of_toNat_eq
  simp only [BitVec.toNat_setWidth, BitVec.toNat_ushiftRight, Nat.shiftRight_eq_div_pow]
  omega

/-- LI and three LIH build every constant (R253). -/
theorem lihVal_surjective (v : W) : ∃ p q r t : BitVec 18, lihVal (lihVal (lihVal (p.signExtend 64) q) r) t = v := by
  refine ⟨(v >>> 54).setWidth 18, (v >>> 36).setWidth 18, (v >>> 18).setWidth 18, v.setWidth 18, ?_⟩
  have hq : lihVal (v >>> 54) ((v >>> 36).setWidth 18) = v >>> 36 := by
    simpa only [← BitVec.shiftRight_add] using lihVal_shiftRight (v >>> 36)
  have hr : lihVal (v >>> 36) ((v >>> 18).setWidth 18) = v >>> 18 := by
    simpa only [← BitVec.shiftRight_add] using lihVal_shiftRight (v >>> 18)
  rw [signExtend_top, hq, hr, lihVal_shiftRight]

/-- Settles O8: each of the four writes the value of its formula, and LI with three LIH spells a word in pieces of 18 bits. -/
theorem fieldsAndConstants : Obligations.FieldsAndConstants := by
  intro s c j w hd
  have computes {op : Nat} (f : Job → BitVec 32 → W) (h : s.atInstr c op j w) : (.next (s.compute c op f) : Res) = _ :=
    congrArg Host.Outcome.next (State.compute_eq h hd f)
  exact ⟨computes _, computes _, computes _, (execLih_eq · hd), lihVal_surjective⟩

end Sys2Proof.Machine
end

section
/-! SUPPORT. Branches (R274): targets modulo 4,096, the conditions of BRC, and the traps that a branch can lead to. -/
namespace Sys2Proof.Machine

/-- The offset of a BRC is its IMM: modulo 4,096 the sign extension falls away. -/
theorem Job.target_iSext (j : Job) (w : BitVec 32) : j.target (iSext w) = j.pc + iImm w := by
  have hoff : (iSext w).setWidth 12 = iImm w := by
    ext i hi
    simp [iSext, BitVec.getElem_signExtend, hi, show i < 64 by omega]
  rw [Job.target, hoff]

-- The condition of each SUB (R274).

@[simp] theorem brcHolds_eq (a b : W) : brcHolds 0 a b = true ↔ a = b := by simp [brcHolds]
@[simp] theorem brcHolds_ne (a b : W) : brcHolds 1 a b = true ↔ a ≠ b := by simp [brcHolds]
@[simp] theorem brcHolds_lt (a b : W) : brcHolds 2 a b = true ↔ a.toInt < b.toInt := by simp [brcHolds, BitVec.slt]
@[simp] theorem brcHolds_ge (a b : W) : brcHolds 3 a b = true ↔ b.toInt ≤ a.toInt := by simp [brcHolds, BitVec.slt]
@[simp] theorem brcHolds_ltu (a b : W) : brcHolds 4 a b = true ↔ a.toNat < b.toNat := by simp [brcHolds, BitVec.ult]
@[simp] theorem brcHolds_geu (a b : W) : brcHolds 5 a b = true ↔ b.toNat ≤ a.toNat := by simp [brcHolds, BitVec.ult]

theorem execBrc_eq {s : State} {c : CtxId} {j : Job} {w : BitVec 32} (h : s.atInstr c 0x71 j w) (hd : (s.ctx c).due = none) :
    execBrc c s = .next (s.wrote c j w 0 0
      (if brcHolds (iSub w) (j.get (iRd w)) (j.get (iRa w)) then j.pc + iImm w else j.pc + 1)).recheck := by
  unfold execBrc
  rw [State.issue_jump h hd, Job.target_iSext]
  rfl

theorem execNop_eq {s : State} {c : CtxId} {j : Job} {w : BitVec 32} (h : s.atInstr c 0x76 j w) (hd : (s.ctx c).due = none) :
    execNop c s = .next (s.wrote c j w 0 0 (j.pc + 1)).recheck := by
  unfold execNop
  rw [State.issue_runs h, State.done_eq (j := { j with lastPc := j.pc }) (by simp) (by simpa using hd)]
  rfl

/-- A SUB above 5 is a field that BRC does not define (R250, R274). -/
theorem fieldsOk_brc_reserved {w : BitVec 32} (h : 6 ≤ iSub w) : fieldsOk 0x71 w = false :=
  decide_eq_false (by omega)

/-- Settles O9: each branch retires its instruction at its target; a PC outside the job is met by any instruction command, here NOP, and a reserved SUB by BRC's decode. -/
theorem branches : Obligations.Branches := by
  refine ⟨fun s c j w hd => ⟨fun h => ?br, fun h => ?call, fun h => ?ret, fun h => execNop_eq h hd, fun h => ?brc⟩,
    fun s c j hj => ⟨fun hpc => ⟨.nop c, ?bound⟩, fun hpc w hw hop hsub hbad hvalid hmicro => ⟨{ j with lastPc := j.pc }, .inr rfl, ?reserved⟩⟩⟩
  case br => exact congrArg Host.Outcome.next (State.issue_jump h hd _)
  case call => exact congrArg Host.Outcome.next (State.issue_doneAt h hd _ _ _)
  case ret => exact congrArg Host.Outcome.next (State.issue_jump h hd _)
  case brc =>
    have key : exec (.brc c) s = _ := execBrc_eq h hd
    refine ⟨fun hs => ?_, fun hs => ?_, fun hs => ?_, fun hs => ?_, fun hs => ?_, fun hs => ?_⟩ <;>
      simp only [key, hs, brcHolds_eq, brcHolds_ne, brcHolds_lt, brcHolds_ge, brcHolds_ltu, brcHolds_geu]
  case bound =>
    refine congrArg Host.Outcome.next ?_
    rw [State.issue_bound hj hpc, State.trapWith_eq (State.job_of_canIssue hj)]
    rfl
  case reserved =>
    refine congrArg Host.Outcome.next ?_
    rw [State.issue_illegal hj hpc hw hop rfl hbad hvalid hmicro (fieldsOk_brc_reserved hsub), State.trap,
      State.trapWith_eq (j := { j with lastPc := j.pc }) (by simp), State.ctx_issued]
    rfl

end Sys2Proof.Machine
end

section
/-! SUPPORT. One step (R1, R60): the arms of exec one by one, each a next state that keeps the queue, the parameter set and the canonical form, and what an idle cycle changes. -/
namespace Sys2Proof.Machine

/-- Every command answers a next state, which keeps what `Keeps` names. -/
theorem exec_next_keeps (i : Instr) (s : State) : ∃ t, exec i s = .next t ∧ Keeps s t := by
  cases i with
  | flitArrival _ _ _ _ => exact ⟨_, rfl, keeps_execFlitArrival (Keeps.refl s)⟩
  | creditReturn _ _ _ _ _ _ => exact ⟨_, rfl, keeps_execCreditReturn (Keeps.refl s)⟩
  | flint _ _ _ _ _ _ => exact ⟨_, rfl, keeps_execFlint (Keeps.refl s)⟩
  | packetEjection _ _ _ _ => exact ⟨_, rfl, keeps_execPacketEjection (Keeps.refl s)⟩
  | read _ _ _ => exact ⟨_, rfl, keeps_execRead (Keeps.refl s)⟩
  | write _ _ _ => exact ⟨_, rfl, keeps_execWrite (Keeps.refl s)⟩
  | writeNp _ _ _ => exact ⟨_, rfl, keeps_execWriteNp (Keeps.refl s)⟩
  | atomic _ _ _ => exact ⟨_, rfl, keeps_execAtomic (Keeps.refl s)⟩
  | message _ _ _ => exact ⟨_, rfl, keeps_execMessage (Keeps.refl s)⟩
  | doorbell _ _ _ => exact ⟨_, rfl, keeps_execDoorbell (Keeps.refl s)⟩
  | cell _ _ _ => exact ⟨_, rfl, keeps_execCell (Keeps.refl s)⟩
  | enqueue _ _ _ => exact ⟨_, rfl, keeps_execEnqueue (Keeps.refl s)⟩
  | dlastBeat _ _ _ _ => exact ⟨_, rfl, keeps_execDlastBeat (Keeps.refl s)⟩
  | injectHeader _ _ _ => exact ⟨_, rfl, keeps_execInjectHeader (Keeps.refl s)⟩
  | rd _ _ _ => exact ⟨_, rfl, keeps_execRd (Keeps.refl s)⟩
  | wr _ _ _ => exact ⟨_, rfl, keeps_execWr (Keeps.refl s)⟩
  | wrn _ _ _ => exact ⟨_, rfl, keeps_execWrn (Keeps.refl s)⟩
  | atm _ _ _ _ => exact ⟨_, rfl, keeps_execAtm (Keeps.refl s)⟩
  | msg _ _ => exact ⟨_, rfl, keeps_execMsg (Keeps.refl s)⟩
  | pkt _ _ _ => exact ⟨_, rfl, keeps_execPkt (Keeps.refl s)⟩
  | enq _ _ => exact ⟨_, rfl, keeps_execEnq (Keeps.refl s)⟩
  | internalEvent _ => exact ⟨_, rfl, keeps_execInternalEvent (Keeps.refl s)⟩
  | rdata _ _ => exact ⟨_, rfl, keeps_execRdata (Keeps.refl s)⟩
  | wack _ _ => exact ⟨_, rfl, keeps_execWack (Keeps.refl s)⟩
  | crsp _ _ => exact ⟨_, rfl, keeps_execCrsp (Keeps.refl s)⟩
  | responseTimeout _ _ _ => exact ⟨_, rfl, keeps_execResponseTimeout (Keeps.refl s)⟩
  | tagHoldExpiry _ _ _ => exact ⟨_, rfl, keeps_execTagHoldExpiry (Keeps.refl s)⟩
  | targetTimeout _ _ _ => exact ⟨_, rfl, keeps_execTargetTimeout (Keeps.refl s)⟩
  | targetResponse _ _ _ _ _ => exact ⟨_, rfl, keeps_execTargetResponse (Keeps.refl s)⟩
  | mailboxDelivery _ _ => exact ⟨_, rfl, keeps_execMailboxDelivery (Keeps.refl s)⟩
  | endpointResetAssert _ _ => exact ⟨_, rfl, keeps_execEndpointResetAssert (Keeps.refl s)⟩
  | endpointResetRelease _ _ => exact ⟨_, rfl, keeps_execEndpointResetRelease (Keeps.refl s)⟩
  | crossingReconnect _ => exact ⟨_, rfl, keeps_execCrossingReconnect (Keeps.refl s)⟩
  | portDisable _ _ _ => exact ⟨_, rfl, keeps_execPortDisable (Keeps.refl s)⟩
  | portEnable _ _ => exact ⟨_, rfl, keeps_execPortEnable (Keeps.refl s)⟩
  | disableComplete _ _ => exact ⟨_, rfl, keeps_execDisableComplete (Keeps.refl s)⟩
  | abortTimeout _ _ => exact ⟨_, rfl, keeps_execAbortTimeout (Keeps.refl s)⟩
  | allocate _ _ => exact ⟨_, rfl, keeps_execAllocate (Keeps.refl s)⟩
  | freeCells _ => exact ⟨_, rfl, keeps_execFreeCells (Keeps.refl s)⟩
  | pbcfgInit _ _ => exact ⟨_, rfl, keeps_execPbcfgInit (Keeps.refl s)⟩
  | ftEntryWrite _ _ _ => exact ⟨_, rfl, keeps_execFtEntryWrite (Keeps.refl s)⟩
  | recordRead _ _ => exact ⟨_, rfl, keeps_execRecordRead (Keeps.refl s)⟩
  | dequeueDecision _ => exact ⟨_, rfl, keeps_execDequeueDecision (Keeps.refl s)⟩
  | cellReadResponse _ _ _ _ => exact ⟨_, rfl, keeps_execCellReadResponse (Keeps.refl s)⟩
  | delivery _ => exact ⟨_, rfl, keeps_execDelivery (Keeps.refl s)⟩
  | lastDeliveryInjected _ => exact ⟨_, rfl, keeps_execLastDeliveryInjected (Keeps.refl s)⟩
  | shaperConfigWrite _ _ _ => exact ⟨_, rfl, keeps_execShaperConfigWrite (Keeps.refl s)⟩
  | meterConfigWrite _ _ _ _ => exact ⟨_, rfl, keeps_execMeterConfigWrite (Keeps.refl s)⟩
  | meterReset _ _ => exact ⟨_, rfl, keeps_execMeterReset (Keeps.refl s)⟩
  | policerReset _ _ => exact ⟨_, rfl, keeps_execPolicerReset (Keeps.refl s)⟩
  | qpartWrite _ _ _ => exact ⟨_, rfl, keeps_execQpartWrite (Keeps.refl s)⟩
  | qdescWrite _ _ _ _ => exact ⟨_, rfl, keeps_execQdescWrite (Keeps.refl s)⟩
  | gateListStart _ => exact ⟨_, rfl, keeps_execGateListStart (Keeps.refl s)⟩
  | puCtlWrite _ _ _ _ => exact ⟨_, rfl, keeps_execPuCtlWrite (Keeps.refl s)⟩
  | violationClear _ _ _ => exact ⟨_, rfl, keeps_execViolationClear (Keeps.refl s)⟩
  | registerWrite _ _ _ _ => exact ⟨_, rfl, keeps_execRegisterWrite (Keeps.refl s)⟩
  | jobStart _ => exact ⟨_, rfl, keeps_execJobStart (Keeps.refl s)⟩
  | ringSlotWrite _ _ _ _ => exact ⟨_, rfl, keeps_execRingSlotWrite (Keeps.refl s)⟩
  | ringtailWrite _ _ _ => exact ⟨_, rfl, keeps_execRingtailWrite (Keeps.refl s)⟩
  | cplheadWrite _ _ _ => exact ⟨_, rfl, keeps_execCplheadWrite (Keeps.refl s)⟩
  | add _ => exact ⟨_, rfl, keeps_execAdd (Keeps.refl s)⟩
  | sub _ => exact ⟨_, rfl, keeps_execSub (Keeps.refl s)⟩
  | and _ => exact ⟨_, rfl, keeps_execAnd (Keeps.refl s)⟩
  | or _ => exact ⟨_, rfl, keeps_execOr (Keeps.refl s)⟩
  | xor _ => exact ⟨_, rfl, keeps_execXor (Keeps.refl s)⟩
  | sll _ => exact ⟨_, rfl, keeps_execSll (Keeps.refl s)⟩
  | srl _ => exact ⟨_, rfl, keeps_execSrl (Keeps.refl s)⟩
  | sra _ => exact ⟨_, rfl, keeps_execSra (Keeps.refl s)⟩
  | mul _ => exact ⟨_, rfl, keeps_execMul (Keeps.refl s)⟩
  | ceq _ => exact ⟨_, rfl, keeps_execCeq (Keeps.refl s)⟩
  | clt _ => exact ⟨_, rfl, keeps_execClt (Keeps.refl s)⟩
  | cltu _ => exact ⟨_, rfl, keeps_execCltu (Keeps.refl s)⟩
  | addi _ => exact ⟨_, rfl, keeps_execAddi (Keeps.refl s)⟩
  | andi _ => exact ⟨_, rfl, keeps_execAndi (Keeps.refl s)⟩
  | ori _ => exact ⟨_, rfl, keeps_execOri (Keeps.refl s)⟩
  | xori _ => exact ⟨_, rfl, keeps_execXori (Keeps.refl s)⟩
  | slli _ => exact ⟨_, rfl, keeps_execSlli (Keeps.refl s)⟩
  | srli _ => exact ⟨_, rfl, keeps_execSrli (Keeps.refl s)⟩
  | srai _ => exact ⟨_, rfl, keeps_execSrai (Keeps.refl s)⟩
  | ceqi _ => exact ⟨_, rfl, keeps_execCeqi (Keeps.refl s)⟩
  | clti _ => exact ⟨_, rfl, keeps_execClti (Keeps.refl s)⟩
  | cltui _ => exact ⟨_, rfl, keeps_execCltui (Keeps.refl s)⟩
  | ext _ => exact ⟨_, rfl, keeps_execExt (Keeps.refl s)⟩
  | ins _ => exact ⟨_, rfl, keeps_execIns (Keeps.refl s)⟩
  | li _ => exact ⟨_, rfl, keeps_execLi (Keeps.refl s)⟩
  | lih _ => exact ⟨_, rfl, keeps_execLih (Keeps.refl s)⟩
  | ldc _ => exact ⟨_, rfl, keeps_execLdc (Keeps.refl s)⟩
  | ldcw _ => exact ⟨_, rfl, keeps_execLdcw (Keeps.refl s)⟩
  | stc _ => exact ⟨_, rfl, keeps_execStc (Keeps.refl s)⟩
  | stcw _ => exact ⟨_, rfl, keeps_execStcw (Keeps.refl s)⟩
  | stcs _ => exact ⟨_, rfl, keeps_execStcs (Keeps.refl s)⟩
  | tsend _ => exact ⟨_, rfl, keeps_execTsend (Keeps.refl s)⟩
  | tcall _ => exact ⟨_, rfl, keeps_execTcall (Keeps.refl s)⟩
  | tbcast _ => exact ⟨_, rfl, keeps_execTbcast (Keeps.refl s)⟩
  | tgsum _ => exact ⟨_, rfl, keeps_execTgsum (Keeps.refl s)⟩
  | tgor _ => exact ⟨_, rfl, keeps_execTgor (Keeps.refl s)⟩
  | tgmax _ => exact ⟨_, rfl, keeps_execTgmax (Keeps.refl s)⟩
  | tgand _ => exact ⟨_, rfl, keeps_execTgand (Keeps.refl s)⟩
  | lock _ => exact ⟨_, rfl, keeps_execLock (Keeps.refl s)⟩
  | unlk _ => exact ⟨_, rfl, keeps_execUnlk (Keeps.refl s)⟩
  | barr _ => exact ⟨_, rfl, keeps_execBarr (Keeps.refl s)⟩
  | waitc _ => exact ⟨_, rfl, keeps_execWaitc (Keeps.refl s)⟩
  | waitt _ => exact ⟨_, rfl, keeps_execWaitt (Keeps.refl s)⟩
  | fence _ => exact ⟨_, rfl, keeps_execFence (Keeps.refl s)⟩
  | stprep _ => exact ⟨_, rfl, keeps_execStprep (Keeps.refl s)⟩
  | stcommit _ => exact ⟨_, rfl, keeps_execStcommit (Keeps.refl s)⟩
  | stdrain _ => exact ⟨_, rfl, keeps_execStdrain (Keeps.refl s)⟩
  | stquery _ => exact ⟨_, rfl, keeps_execStquery (Keeps.refl s)⟩
  | trd _ => exact ⟨_, rfl, keeps_execTrd (Keeps.refl s)⟩
  | tload _ => exact ⟨_, rfl, keeps_execTload (Keeps.refl s)⟩
  | tadj _ => exact ⟨_, rfl, keeps_execTadj (Keeps.refl s)⟩
  | tslew _ => exact ⟨_, rfl, keeps_execTslew (Keeps.refl s)⟩
  | br _ => exact ⟨_, rfl, keeps_execBr (Keeps.refl s)⟩
  | brc _ => exact ⟨_, rfl, keeps_execBrc (Keeps.refl s)⟩
  | call _ => exact ⟨_, rfl, keeps_execCall (Keeps.refl s)⟩
  | ret _ => exact ⟨_, rfl, keeps_execRet (Keeps.refl s)⟩
  | halt _ => exact ⟨_, rfl, keeps_execHalt (Keeps.refl s)⟩
  | trap _ => exact ⟨_, rfl, keeps_execTrap (Keeps.refl s)⟩
  | nop _ => exact ⟨_, rfl, keeps_execNop (Keeps.refl s)⟩
  | yield _ => exact ⟨_, rfl, keeps_execYield (Keeps.refl s)⟩
  | waitTimeout _ => exact ⟨_, rfl, keeps_execWaitTimeout (Keeps.refl s)⟩
  | waitcPoll _ => exact ⟨_, rfl, keeps_execWaitcPoll (Keeps.refl s)⟩
  | waittTarget _ => exact ⟨_, rfl, keeps_execWaittTarget (Keeps.refl s)⟩
  | lockWaitExpiry _ => exact ⟨_, rfl, keeps_execLockWaitExpiry (Keeps.refl s)⟩
  | leaseExpiry _ => exact ⟨_, rfl, keeps_execLeaseExpiry (Keeps.refl s)⟩
  | calltoExpiry _ => exact ⟨_, rfl, keeps_execCalltoExpiry (Keeps.refl s)⟩
  | runlimExpiry _ => exact ⟨_, rfl, keeps_execRunlimExpiry (Keeps.refl s)⟩
  | scrubRead _ => exact ⟨_, rfl, keeps_execScrubRead (Keeps.refl s)⟩
  | microcodeReload _ => exact ⟨_, rfl, keeps_execMicrocodeReload (Keeps.refl s)⟩
  | hostResetAssert _ => exact ⟨_, rfl, keeps_execHostResetAssert (Keeps.refl s)⟩
  | hostResetRelease _ => exact ⟨_, rfl, keeps_execHostResetRelease (Keeps.refl s)⟩
  | ping _ => exact ⟨_, rfl, keeps_execPing (Keeps.refl s)⟩
  | rdreg _ => exact ⟨_, rfl, keeps_execRdreg (Keeps.refl s)⟩
  | wrreg _ => exact ⟨_, rfl, keeps_execWrreg (Keeps.refl s)⟩
  | rdfld _ => exact ⟨_, rfl, keeps_execRdfld (Keeps.refl s)⟩
  | snaparm _ => exact ⟨_, rfl, keeps_execSnaparm (Keeps.refl s)⟩
  | snapclr _ => exact ⟨_, rfl, keeps_execSnapclr (Keeps.refl s)⟩
  | evflush _ => exact ⟨_, rfl, keeps_execEvflush (Keeps.refl s)⟩
  | trst _ => exact ⟨_, rfl, keeps_execTrst (Keeps.refl s)⟩
  | hold _ => exact ⟨_, rfl, keeps_execHold (Keeps.refl s)⟩
  | configRead _ _ _ => exact ⟨_, rfl, keeps_execConfigRead (Keeps.refl s)⟩
  | configWrite _ _ _ _ _ => exact ⟨_, rfl, keeps_execConfigWrite (Keeps.refl s)⟩
  | barrierConfirm _ _ => exact ⟨_, rfl, keeps_execBarrierConfirm (Keeps.refl s)⟩
  | stcopy _ _ _ => exact ⟨_, rfl, keeps_execStcopy (Keeps.refl s)⟩
  | flip _ _ _ => exact ⟨_, rfl, keeps_execFlip (Keeps.refl s)⟩
  | release _ _ => exact ⟨_, rfl, keeps_execRelease (Keeps.refl s)⟩
  | oldCountGather _ _ => exact ⟨_, rfl, keeps_execOldCountGather (Keeps.refl s)⟩
  | flush _ => exact ⟨_, rfl, keeps_execFlush (Keeps.refl s)⟩
  | relayAnswer _ _ _ _ => exact ⟨_, rfl, keeps_execRelayAnswer (Keeps.refl s)⟩
  | relayTimeout _ _ _ => exact ⟨_, rfl, keeps_execRelayTimeout (Keeps.refl s)⟩
  | snapshotCapture _ => exact ⟨_, rfl, keeps_execSnapshotCapture (Keeps.refl s)⟩
  | childTimeout _ _ => exact ⟨_, rfl, keeps_execChildTimeout (Keeps.refl s)⟩
  | evcClaim _ _ => exact ⟨_, rfl, keeps_execEvcClaim (Keeps.refl s)⟩
  | evcComplete _ _ _ => exact ⟨_, rfl, keeps_execEvcComplete (Keeps.refl s)⟩
  | evcSetpend _ _ _ => exact ⟨_, rfl, keeps_execEvcSetpend (Keeps.refl s)⟩
  | evcClrpend _ _ _ => exact ⟨_, rfl, keeps_execEvcClrpend (Keeps.refl s)⟩
  | evcEnset _ _ _ _ => exact ⟨_, rfl, keeps_execEvcEnset (Keeps.refl s)⟩
  | evcEnclr _ _ _ _ => exact ⟨_, rfl, keeps_execEvcEnclr (Keeps.refl s)⟩
  | evcThresh _ _ _ => exact ⟨_, rfl, keeps_execEvcThresh (Keeps.refl s)⟩
  | prisplitWrite _ _ => exact ⟨_, rfl, keeps_execPrisplitWrite (Keeps.refl s)⟩
  | hostRequest _ _ => exact ⟨_, rfl, keeps_execHostRequest (Keeps.refl s)⟩
  | portGrant _ => exact ⟨_, rfl, keeps_execPortGrant (Keeps.refl s)⟩
  | watchdogFire _ => exact ⟨_, rfl, keeps_execWatchdogFire (Keeps.refl s)⟩
  | tileIdleEntry _ => exact ⟨_, rfl, keeps_execTileIdleEntry (Keeps.refl s)⟩
  | tileSleepEntry _ => exact ⟨_, rfl, keeps_execTileSleepEntry (Keeps.refl s)⟩
  | tileWakeDone _ => exact ⟨_, rfl, keeps_execTileWakeDone (Keeps.refl s)⟩
  | minstWrite _ _ _ => exact ⟨_, rfl, keeps_execMinstWrite (Keeps.refl s)⟩
  | pmFence _ _ => exact ⟨_, rfl, keeps_execPmFence (Keeps.refl s)⟩
  | pmOff _ _ => exact ⟨_, rfl, keeps_execPmOff (Keeps.refl s)⟩
  | pmOn _ _ => exact ⟨_, rfl, keeps_execPmOn (Keeps.refl s)⟩
  | pmUnfence _ _ => exact ⟨_, rfl, keeps_execPmUnfence (Keeps.refl s)⟩
  | pmWake _ _ => exact ⟨_, rfl, keeps_execPmWake (Keeps.refl s)⟩
  | fencingComplete _ => exact ⟨_, rfl, keeps_execFencingComplete (Keeps.refl s)⟩
  | powerOffComplete _ => exact ⟨_, rfl, keeps_execPowerOffComplete (Keeps.refl s)⟩
  | powerOnComplete _ => exact ⟨_, rfl, keeps_execPowerOnComplete (Keeps.refl s)⟩
  | restoreAccess _ _ _ => exact ⟨_, rfl, keeps_execRestoreAccess (Keeps.refl s)⟩
  | ctRoundTripEnd _ => exact ⟨_, rfl, keeps_execCtRoundTripEnd (Keeps.refl s)⟩
  | tbPeriodWrite _ _ => exact ⟨_, rfl, keeps_execTbPeriodWrite (Keeps.refl s)⟩
  | timeInvalidate _ => exact ⟨_, rfl, keeps_execTimeInvalidate (Keeps.refl s)⟩
  | todTransfer _ _ => exact ⟨_, rfl, keeps_execTodTransfer (Keeps.refl s)⟩
  | sfdpDiscovery _ => exact ⟨_, rfl, keeps_execSfdpDiscovery (Keeps.refl s)⟩
  | slotHeaderCheck _ _ => exact ⟨_, rfl, keeps_execSlotHeaderCheck (Keeps.refl s)⟩
  | sectionLoad _ _ => exact ⟨_, rfl, keeps_execSectionLoad (Keeps.refl s)⟩
  | faddr _ => exact ⟨_, rfl, keeps_execFaddr (Keeps.refl s)⟩
  | fdata _ => exact ⟨_, rfl, keeps_execFdata (Keeps.refl s)⟩
  | fprog _ => exact ⟨_, rfl, keeps_execFprog (Keeps.refl s)⟩
  | fuseProgramDone _ => exact ⟨_, rfl, keeps_execFuseProgramDone (Keeps.refl s)⟩
  | mbist _ _ => exact ⟨_, rfl, keeps_execMbist (Keeps.refl s)⟩
  | train _ _ _ member => exact ⟨_, rfl, keeps_execTrain (_member := member) (Keeps.refl s)⟩
  | ack _ _ => exact ⟨_, rfl, keeps_execAck (Keeps.refl s)⟩
  | nak _ _ => exact ⟨_, rfl, keeps_execNak (Keeps.refl s)⟩
  | enum _ _ _ _ => exact ⟨_, rfl, keeps_execEnum (Keeps.refl s)⟩
  | enumret _ _ _ _ _ _ _ _ => exact ⟨_, rfl, keeps_execEnumret (Keeps.refl s)⟩
  | req _ _ _ _ _ _ _ => exact ⟨_, rfl, keeps_execReq (Keeps.refl s)⟩
  | rsp _ _ _ _ _ => exact ⟨_, rfl, keeps_execRsp (Keeps.refl s)⟩
  | opdn _ _ _ _ _ => exact ⟨_, rfl, keeps_execOpdn (Keeps.refl s)⟩
  | opup _ _ _ _ _ _ => exact ⟨_, rfl, keeps_execOpup (Keeps.refl s)⟩
  | qreq _ _ => exact ⟨_, rfl, keeps_execQreq (Keeps.refl s)⟩
  | qdata _ _ _ => exact ⟨_, rfl, keeps_execQdata (Keeps.refl s)⟩
  | qend _ _ _ => exact ⟨_, rfl, keeps_execQend (Keeps.refl s)⟩
  | replayTimeout _ => exact ⟨_, rfl, keeps_execReplayTimeout (Keeps.refl s)⟩
  | linkSilence _ => exact ⟨_, rfl, keeps_execLinkSilence (Keeps.refl s)⟩
  | idleAckTimer _ => exact ⟨_, rfl, keeps_execIdleAckTimer (Keeps.refl s)⟩
  | chnReenum _ => exact ⟨_, rfl, keeps_execChnReenum (Keeps.refl s)⟩
  | enumretTimeout _ => exact ⟨_, rfl, keeps_execEnumretTimeout (Keeps.refl s)⟩
  | calibrationStep _ _ _ => exact ⟨_, rfl, keeps_execCalibrationStep (Keeps.refl s)⟩
  | repairApply _ => exact ⟨_, rfl, keeps_execRepairApply (Keeps.refl s)⟩
  | trainingEnd _ _ => exact ⟨_, rfl, keeps_execTrainingEnd (Keeps.refl s)⟩
  | reinitBuffersEmpty _ => exact ⟨_, rfl, keeps_execReinitBuffersEmpty (Keeps.refl s)⟩
  | lstat _ => exact ⟨_, rfl, keeps_execLstat (Keeps.refl s)⟩
  | lfence _ => exact ⟨_, rfl, keeps_execLfence (Keeps.refl s)⟩
  | lunfence _ => exact ⟨_, rfl, keeps_execLunfence (Keeps.refl s)⟩
  | ltest _ => exact ⟨_, rfl, keeps_execLtest (Keeps.refl s)⟩
  | ldtest _ => exact ⟨_, rfl, keeps_execLdtest (Keeps.refl s)⟩
  | lrepair _ => exact ⟨_, rfl, keeps_execLrepair (Keeps.refl s)⟩
  | lreinit _ => exact ⟨_, rfl, keeps_execLreinit (Keeps.refl s)⟩
  | lpeer _ _ _ _ => exact ⟨_, rfl, keeps_execLpeer (Keeps.refl s)⟩
  | linkTestDrained _ => exact ⟨_, rfl, keeps_execLinkTestDrained (Keeps.refl s)⟩
  | drainTimeout _ => exact ⟨_, rfl, keeps_execDrainTimeout (Keeps.refl s)⟩
  | testPatternEnd _ _ => exact ⟨_, rfl, keeps_execTestPatternEnd (Keeps.refl s)⟩
  | tlMbistStart _ _ => exact ⟨_, rfl, keeps_execTlMbistStart (Keeps.refl s)⟩
  | mbistDone _ _ _ => exact ⟨_, rfl, keeps_execMbistDone (Keeps.refl s)⟩
  | probeControlWrite _ _ _ => exact ⟨_, rfl, keeps_execProbeControlWrite (Keeps.refl s)⟩
  | probeBound _ => exact ⟨_, rfl, keeps_execProbeBound (Keeps.refl s)⟩
  | traceBufferArm _ _ _ => exact ⟨_, rfl, keeps_execTraceBufferArm (Keeps.refl s)⟩
  | traceRecord => exact ⟨_, rfl, keeps_execTraceRecord (Keeps.refl s)⟩
  | clockStop _ => exact ⟨_, rfl, keeps_execClockStop (Keeps.refl s)⟩
  | clockRestart _ => exact ⟨_, rfl, keeps_execClockRestart (Keeps.refl s)⟩
  | targetQTransfer _ _ _ => exact ⟨_, rfl, keeps_execTargetQTransfer (Keeps.refl s)⟩
  | responseLeavesOnS _ _ => exact ⟨_, rfl, keeps_execResponseLeavesOnS (Keeps.refl s)⟩
  | holdExpiry _ => exact ⟨_, rfl, keeps_execHoldExpiry (Keeps.refl s)⟩
  | snapshotWake _ => exact ⟨_, rfl, keeps_execSnapshotWake (Keeps.refl s)⟩
  | badFrame _ _ => exact ⟨_, rfl, keeps_execBadFrame (Keeps.refl s)⟩
  | dbl => exact ⟨_, rfl, keeps_execDbl (Keeps.refl s)⟩
  | bypass => exact ⟨_, rfl, keeps_execBypass (Keeps.refl s)⟩
  | slotBankSwitch => exact ⟨_, rfl, keeps_execSlotBankSwitch (Keeps.refl s)⟩
  | initComplete => exact ⟨_, rfl, keeps_execInitComplete (Keeps.refl s)⟩
  | learnInsert => exact ⟨_, rfl, keeps_execLearnInsert (Keeps.refl s)⟩
  | ageClockTick => exact ⟨_, rfl, keeps_execAgeClockTick (Keeps.refl s)⟩
  | ageScan => exact ⟨_, rfl, keeps_execAgeScan (Keeps.refl s)⟩
  | latchDoorbell => exact ⟨_, rfl, keeps_execLatchDoorbell (Keeps.refl s)⟩
  | mgmtRetentionEntry => exact ⟨_, rfl, keeps_execMgmtRetentionEntry (Keeps.refl s)⟩
  | mgmtWake => exact ⟨_, rfl, keeps_execMgmtWake (Keeps.refl s)⟩
  | evcRestore => exact ⟨_, rfl, keeps_execEvcRestore (Keeps.refl s)⟩
  | governorWindow => exact ⟨_, rfl, keeps_execGovernorWindow (Keeps.refl s)⟩
  | timeApply => exact ⟨_, rfl, keeps_execTimeApply (Keeps.refl s)⟩
  | ppsEdge => exact ⟨_, rfl, keeps_execPpsEdge (Keeps.refl s)⟩
  | ppsTimeout => exact ⟨_, rfl, keeps_execPpsTimeout (Keeps.refl s)⟩
  | powerOnResetAssert => exact ⟨_, rfl, keeps_execPowerOnResetAssert (Keeps.refl s)⟩
  | coldResetRelease => exact ⟨_, rfl, keeps_execColdResetRelease (Keeps.refl s)⟩
  | fabricResetAssert => exact ⟨_, rfl, keeps_execFabricResetAssert (Keeps.refl s)⟩
  | fabricResetRelease => exact ⟨_, rfl, keeps_execFabricResetRelease (Keeps.refl s)⟩
  | signatureCheck => exact ⟨_, rfl, keeps_execSignatureCheck (Keeps.refl s)⟩
  | handover => exact ⟨_, rfl, keeps_execHandover (Keeps.refl s)⟩
  | tapReset => exact ⟨_, rfl, keeps_execTapReset (Keeps.refl s)⟩
  | idcode => exact ⟨_, rfl, keeps_execIdcode (Keeps.refl s)⟩
  | fread => exact ⟨_, rfl, keeps_execFread (Keeps.refl s)⟩
  | enumStart => exact ⟨_, rfl, keeps_execEnumStart (Keeps.refl s)⟩
  | qendTimeout => exact ⟨_, rfl, keeps_execQendTimeout (Keeps.refl s)⟩
  | sharedStepBoundary => exact ⟨_, rfl, keeps_execSharedStepBoundary (Keeps.refl s)⟩
  | fuseVppLoss => exact ⟨_, rfl, keeps_execFuseVppLoss (Keeps.refl s)⟩

theorem step_keeps_canon {s t : State} (hs : s.canon) (h : step s = .next t) : t.canon := by
  unfold step at h
  split at h
  · obtain rfl := Host.Outcome.next.inj h
    exact (keeps_State_idle (Keeps.refl s)).canon hs
  · next c rest hp =>
    obtain ⟨u, hu, hk⟩ := exec_next_keeps c { s with pending := rest }
    obtain rfl := Host.Outcome.next.inj (hu.symm.trans h)
    exact hk.canon { hs with }

/-- Settles O1. -/
theorem stepRunsFrontCommand : Obligations.StepRunsFrontCommand := by
  intro c rest s hp
  simp only [step, hp]

/-- Settles O3: each command keeps the form, and so does an idle cycle. -/
theorem everyStepKeepsCanonicalForm : Obligations.EveryStepKeepsCanonicalForm :=
  fun _ _ hs h => step_keeps_canon hs h

/-- Settles O4: the tables are empty at reset. -/
theorem resetIsCanonical : Obligations.ResetIsCanonical where
  regs := rfl
  micro := rfl
  routers := rfl
  links := rfl
  nis := rfl
  agents := rfl
  xports := rfl
  hosts := rfl
  evc := ⟨rfl, rfl, rfl⟩
  seq := ⟨rfl, rfl⟩
  pm := rfl
  tm := by constructor <;> rfl
  tap := rfl
  obs := ⟨rfl, rfl, rfl⟩

/-- Settles O5: `Keeps` names the queue and the parameter set. -/
theorem commandsKeepQueueAndBuild : Obligations.CommandsKeepQueueAndBuild := by
  intro c s t h
  obtain ⟨u, hu, hk⟩ := exec_next_keeps c s
  obtain rfl := Host.Outcome.next.inj (hu.symm.trans h)
  exact ⟨hk.pending, hk.build⟩

-- An idle cycle (R453).

theorem probesAt_lt {s : State} {t pl port : Nat} {out : Bool} {k : Pkt} {str : Bool} {vc p : Nat}
    (h : p ∈ s.probesAt t pl port out k str vc) : p < 32 :=
  List.mem_range.mp ((List.mem_filter.mp h).1)

/-- The probes that a standing flit counts for exist. -/
theorem standing_lt {s : State} {t pl port v p : Nat} (h : p ∈ s.standing t pl port v) : p < 32 := by
  unfold State.standing at h
  dsimp only at h
  split at h
  · simp at h
  · split at h
    · obtain ⟨x, hx, rfl⟩ := List.mem_map.mp h
      have hr := (Bool.and_eq_true_iff.mp (List.mem_filter.mp hx).2).1
      simp only [State.probeRuns, Bool.and_eq_true, decide_eq_true_eq] at hr
      exact hr.1.1.1.1
    · exact probesAt_lt h

/-- A list collected without repeats holds nothing new. -/
theorem mem_foldl_addNew {l acc : List Nat} {p : Nat} (h : p ∈ l.foldl addNew acc) : p ∈ acc ∨ p ∈ l := by
  induction l generalizing acc with
  | nil => exact .inl h
  | cons a l ih =>
    rcases ih h with h | h
    · unfold addNew at h
      split at h
      · exact .inl h
      · simp only [List.mem_append, List.mem_singleton] at h
        exact h.imp_right (by rintro rfl; exact List.mem_cons_self)
    · exact .inr (List.mem_cons_of_mem _ h)

/-- Counting at probes below 32 writes registers only, and of those only their stall counters. -/
theorem foldl_probeAdd {ps : List Nat} (hps : ∀ p ∈ ps, p < 32) (s : State) :
    let t := ps.foldl (fun s p => s.probeAdd p 3 1) s
    t = { s with regs := t.regs } ∧ ∀ o, (∀ p, p < 32 → o ≠ aPrbCnt p 3) → t.rd o = s.rd o := by
  induction ps generalizing s with
  | nil => exact ⟨rfl, fun _ _ => rfl⟩
  | cons p ps ih =>
    obtain ⟨heq, hrd⟩ := ih (fun q hq => hps q (List.mem_cons_of_mem _ hq)) (s.probeAdd p 3 1)
    refine ⟨heq, fun o ho => (hrd o ho).trans ?_⟩
    exact State.rd_wr_ne s _ (ho p (hps p List.mem_cons_self))

/-- Settles O2: no arm of exec stops, and an idle cycle counts at probes below 32 only. -/
theorem stepsGoOn : Obligations.StepsGoOn := by
  constructor
  · intro s
    unfold StepsOn step
    split
    · exact ⟨_, rfl⟩
    · obtain ⟨u, hu, _⟩ := exec_next_keeps _ _
      exact ⟨u, hu⟩
  · intro s hp
    refine ⟨s.idle, by simp only [step, hp], ?_⟩
    have hlt : ∀ p ∈ (s.routers.flatMap (fun kr => kr.2.inv.flatMap (fun kv =>
        s.standing (kr.1 / 2) (kr.1 % 2) (kv.1 / 8) (kv.1 % 8)))).foldl addNew [], p < 32 := by
      intro p hmem
      obtain ⟨kr, _, hkr⟩ := List.mem_flatMap.mp ((mem_foldl_addNew hmem).resolve_left List.not_mem_nil)
      obtain ⟨kv, _, hkv⟩ := List.mem_flatMap.mp hkr
      exact standing_lt hkv
    obtain ⟨heq, hrd⟩ := foldl_probeAdd hlt s
    exact ⟨congrArg (fun u : State => { u with cyc := s.cyc + 1 }) heq, hrd⟩

end Sys2Proof.Machine
end

section
/-! SUPPORT. Reset values of the registers of a tile (R5, R80, R131): a tile window is found in the map once, whatever its number. -/
namespace Sys2Proof.Machine

/-- What a tile's register at offset k of its window reads after reset, from the value v of its fields. -/
def tileBuilt (b : Build) (t k : Nat) (v : W) : W :=
  if k = 0x40 then setFld (setFld v 24 4 (b.root.val / 12)) 20 4 (b.root.val % 12)
  else if 0x1000 ≤ k ∧ k < 0x4000 ∧ k % 0x1000 = 0 ∧ v ≠ 0 then setFld v 8 2 (kindOf b t (k / 0x1000 - 1)).code
  else if 0x4100 ≤ k ∧ k < 0x4400 ∧ (k - 0x4100) % 0x30 = 0x20 then setFld v 44 2 3
  else v

theorem inArr_above {o b st n : Nat} (h : b + st * n ≤ o) (hst : 0 < st) : inArr o b st n = false := by
  have : n ≤ (o - b) / st := (Nat.le_div_iff_mul_le hst).mpr (by rw [Nat.mul_comm]; omega)
  simp [inArr, Nat.not_lt.mpr this]

section TileWindow
variable {t k : Nat} (ht : t < 144) (hk : k < 0x10000)
include ht hk

theorem rowsAt_tile (b : Build) : rowsAt b (tlBase t + k) = rowsTl b t k := by
  have hlo : baseTl ≤ tlBase t + k := by unfold tlBase; omega
  have hhi : tlBase t + k < endTl := by unfold tlBase endTl; omega
  have hdiv : (tlBase t + k - baseTl) / 0x10000 = t := by unfold tlBase; omega
  have hmod : (tlBase t + k - baseTl) % 0x10000 = k := by unfold tlBase; omega
  have above {m : Nat} (h : m ≤ baseTl) : ¬ tlBase t + k < m := by omega
  unfold rowsAt
  simp only [above (m := baseBf) (by decide), above (m := baseChn) (by decide), above (m := basePm) (by decide), above (m := baseEvc) (by decide),
    above (m := baseSeq) (by decide), above (m := basePu) (by decide), above (m := baseObs) (by decide), above (m := 0x300000) (by decide),
    above (m := baseTl) (by decide), hhi, hdiv, hmod, if_true, if_false]

theorem builtVal_tile (b : Build) (v : W) : builtVal b (tlBase t + k) v = tileBuilt b t k v := by
  have hlo : baseTl ≤ tlBase t + k := by unfold tlBase; omega
  have hhi : tlBase t + k < endTl := by unfold tlBase endTl; omega
  have hdiv : (tlBase t + k - baseTl) / 0x10000 = t := by unfold tlBase; omega
  have hmod : (tlBase t + k - baseTl) % 0x10000 = k := by unfold tlBase; omega
  have ne {m : Nat} (h : m < baseTl) : tlBase t + k ≠ m := by omega
  have arr {m n : Nat} (h : m + 8 * n ≤ baseTl) : inArr (tlBase t + k) m 8 n = false := inArr_above (by omega) (by decide)
  unfold builtVal
  simp only [ne (m := aXbFabep) (by decide), arr (m := 0x100) (n := 11) (by decide), arr (m := 0x200) (n := 11) (by decide),
    ne (m := aEvcInfo) (by decide), ne (m := aRingcfg 8) (by decide), ne (m := aChnId) (by decide), hlo, hhi, hdiv, hmod, if_true, if_false,
    and_self, Bool.false_eq_true]
  rfl

theorem resetVal_tile (b : Build) : resetVal b (tlBase t + k) = tileBuilt b t k (rstOf (rowsTl b t k)) := by
  unfold resetVal
  rw [rowsAt_tile ht hk, builtVal_tile ht hk]

end TileWindow

/-- A router control word reads its fields' reset values (R80). -/
theorem resetVal_ctl (b : Build) (t : Tile) (pl bk : Fin 2) : resetVal b (aCtl t.val pl.val bk.val) = rstOf rowsTL_CTL := by
  obtain ⟨k, hk, hlt, hmod⟩ : ∃ k, aCtl t.val pl.val bk.val = tlBase t.val + k ∧ k < 0x20 ∧ k % 8 = 0 :=
    ⟨0x10 * pl.val + 8 * bk.val, by unfold aCtl; omega, by omega, by omega⟩
  rw [hk, resetVal_tile t.isLt (by omega)]
  have hrows : rowsTl b t.val k = rowsTL_CTL := by simp only [rowsTl, hlt, hmod, if_true]
  unfold tileBuilt
  rw [hrows, if_neg (by omega), if_neg (by omega), if_neg (by omega)]

/-- What the registers of an NI port read after reset, by what stands at its position (R131). -/
theorem resetVal_ni (b : Build) (t : Tile) (p : LPort) {o : Nat} (ho : o < 0x1000) :
    resetVal b (niBase t.val p.val + o) =
      (if o = 0 ∧ rstOf (rowsNi (kindOf b t.val p.val) o) ≠ 0 then
        setFld (rstOf (rowsNi (kindOf b t.val p.val) o)) 8 2 (kindOf b t.val p.val).code
      else rstOf (rowsNi (kindOf b t.val p.val) o)) := by
  have hp := p.isLt
  have hk : niBase t.val p.val + o = tlBase t.val + (0x1000 * (p.val + 1) + o) := by unfold niBase; omega
  have hdiv : (0x1000 * (p.val + 1) + o) / 0x1000 - 1 = p.val := by omega
  have hmod : (0x1000 * (p.val + 1) + o) % 0x1000 = o := by omega
  have hrows : rowsTl b t.val (0x1000 * (p.val + 1) + o) = rowsNi (kindOf b t.val p.val) o := by
    unfold rowsTl
    rw [if_neg (by omega), if_neg (by omega), if_neg (by omega), if_neg (by omega), if_neg (by omega), if_neg (by omega), if_neg (by omega),
      inArr_above (by omega) (by decide), inArr_above (by omega) (by decide), if_neg Bool.false_ne_true, if_neg Bool.false_ne_true,
      if_neg (by omega), if_pos (by omega), hdiv, hmod]
  rw [hk, resetVal_tile t.isLt (by omega), hrows]
  unfold tileBuilt
  rw [hmod, hdiv, if_neg (by omega)]
  by_cases h : o = 0 ∧ rstOf (rowsNi (kindOf b t.val p.val) o) ≠ 0
  · rw [if_pos h, if_pos ⟨by omega, by omega, h⟩]
  · rw [if_neg h, if_neg (fun hc => h hc.2.2), if_neg (by omega)]

theorem rd_reset (o : Nat) : State.reset.rd o = resetVal Build.sample o := rfl

/-- Settles O6: each register is the reset value of its fields, with KIND as built. -/
theorem resetRegisterValues : Obligations.ResetRegisterValues := by
  refine ⟨by decide +kernel, by decide +kernel, fun t pl b => ?ctl, fun t p => ?ni⟩
  case ctl =>
    have : resetVal Build.sample (aCtl t.val pl.val b.val) = rstOf rowsTL_CTL := resetVal_ctl _ t pl b
    simp only [State.g, rd_reset, this]
    decide
  case ni =>
    have hcfg : State.reset.rd (aNicfg t.val p.val) = _ := resetVal_ni Build.sample t p (o := 0) (by decide)
    have hlim : State.reset.rd (aNilim t.val p.val) = _ := resetVal_ni Build.sample t p (o := 0x18) (by decide)
    have hkind : State.reset.kind t.val p.val = kindOf Build.sample t.val p.val := rfl
    simp only [State.g, hcfg, hlim, hkind]
    generalize kindOf Build.sample t.val p.val = k
    cases k <;> decide +kernel

end Sys2Proof.Machine
end

section
/-! SUPPORT. Protection units (R225, R227 to R229): what an allowed page and an allowed request come to. -/
namespace Sys2Proof.Machine

/-- A page is open to an operation: the lowest rule that covers it grants it, or none covers it and PRIV is set (R225). -/
def State.pageOpen (s : State) (i b st : Nat) (op : BitVec 4) (page : Nat) : Prop :=
  (∃ r, r < 32 ∧ ruleCovers (s.puRule i b st r) page = true ∧ (∀ r', r' < r → ruleCovers (s.puRule i b st r') page = false) ∧
    fld (s.puRule i b st r).1 (permBit op).lo 1 = 1) ∨
  ((∀ r, r < 32 → ruleCovers (s.puRule i b st r) page = false) ∧
    s.g (aPuCtl i) (if st = 0 then PU_CTL.PRIV0 else PU_CTL.PRIV1) ≠ 0)

theorem ruleFor_some {s : State} {i b st page r : Nat} (h : s.ruleFor i b st page = some r) :
    r < 32 ∧ ruleCovers (s.puRule i b st r) page = true ∧ ∀ r', r' < r → ruleCovers (s.puRule i b st r') page = false := by
  obtain ⟨hc, hlt, hbefore⟩ := List.find?_range_eq_some.mp h
  exact ⟨List.mem_range.mp hlt, hc, fun r' hr' => by simpa using hbefore r' hr'⟩

theorem ruleFor_none {s : State} {i b st page : Nat} (h : s.ruleFor i b st page = none) :
    ∀ r, r < 32 → ruleCovers (s.puRule i b st r) page = false :=
  fun r hr => by simpa using List.find?_eq_none.mp h r (List.mem_range.mpr hr)

/-- A page that the unit allows is open. -/
theorem pageOpen_of_puPage {s : State} {i b st page off c o : Nat} {op : BitVec 4} (h : s.puPage i b st op page off = .allow c o) :
    s.pageOpen i b st op page := by
  unfold State.puPage at h
  dsimp only at h
  split at h
  · next r hr =>
    obtain ⟨hlt, hcov, hfirst⟩ := ruleFor_some hr
    split at h
    · contradiction
    · next hbit =>
      have hle : fld (s.puRule i b st r).1 (permBit op).lo 1 < 2 ^ 1 := BitVec.isLt _
      exact .inl ⟨r, hlt, hcov, hfirst, by omega⟩
  · next hr =>
    by_cases hpriv : s.g (aPuCtl i) (if st = 0 then PU_CTL.PRIV0 else PU_CTL.PRIV1) = 0
    · simp [hpriv] at h
    · exact .inr ⟨ruleFor_none hr, hpriv⟩

/-- An allowed request comes from a domain below 8, and its first and its last page are open. -/
theorem puCheck_allow {s : State} {i b st c o : Nat} {op : BitVec 4} {addr : BitVec 48} {len : BitVec 8}
    (h : s.puCheck i b st op addr len = .allow c o) :
    s.puDom i ≤ 7 ∧ s.pageOpen i b st op (addr.toNat / 4096) ∧ s.pageOpen i b st op ((addr.toNat + len.toNat) / 4096) := by
  unfold State.puCheck at h
  split at h
  · contradiction
  · next hdom =>
    refine ⟨Nat.not_lt.mp hdom, ?_⟩
    dsimp only at h
    split at h
    · contradiction
    · next hfirst =>
      have first := pageOpen_of_puPage hfirst
      split at h
      · next heq => exact ⟨first, heq ▸ first⟩
      · split at h
        · contradiction
        · next hlast => exact ⟨first, pageOpen_of_puPage hlast⟩

/-- Settles O59: at most 256 bytes lie in the first or in the last page. -/
theorem allowedAccessesArePermitted : Obligations.AllowedAccessesArePermitted := by
  intro s i b st op addr len c o h
  obtain ⟨hdom, hfirst, hlast⟩ := puCheck_allow h
  refine ⟨hdom, fun n hn => ?_⟩
  have hlen := len.isLt
  have hpage : (addr.toNat + n) / 4096 = addr.toNat / 4096 ∨ (addr.toNat + n) / 4096 = (addr.toNat + len.toNat) / 4096 := by omega
  change s.pageOpen i b st op ((addr.toNat + n) / 4096)
  rcases hpage with hp | hp <;> rw [hp] <;> assumption

end Sys2Proof.Machine
end

section
/-! SUPPORT. The header flit (R46, R47): a field put above what is there already reads back, and what is put above a field leaves it alone. -/
namespace Sys2Proof.Machine

/-- No bit of v is set from n on. -/
def Below {m : Nat} (v : BitVec m) (n : Nat) : Prop := ∀ i, n ≤ i → v.getLsbD i = false

/-- A header with field x put at bit lo. -/
def putAt {w : Nat} (v : Line) (lo : Nat) (x : BitVec w) : Line := v ||| (BitVec.ofNat 512 x.toNat <<< lo)

theorem getLsbD_putAt {w : Nat} (v : Line) (lo : Nat) (x : BitVec w) {i : Nat} (hi : i < 512) :
    (putAt v lo x).getLsbD i = (v.getLsbD i || (decide (lo ≤ i) && x.getLsbD (i - lo))) := by
  by_cases h : lo ≤ i
  · simp [putAt, hi, h, Nat.not_lt.mpr h]
  · simp [putAt, hi, h, Nat.lt_of_not_le h]

theorem below_zero (n : Nat) : Below (0 : Line) n := fun i _ => by simp

theorem Below.putAt {w : Nat} {v : Line} {lo hi : Nat} {x : BitVec w} (h : Below v lo) (hw : lo + w ≤ hi) : Below (putAt v lo x) hi := by
  intro i hi'
  by_cases hlt : i < 512
  · rw [getLsbD_putAt v lo x hlt, h i (by omega), BitVec.getLsbD_of_ge x (i - lo) (by omega)]
    simp
  · exact BitVec.getLsbD_of_ge _ _ (by omega)

/-- A field put above bit lo + w leaves the one at lo alone. -/
theorem extract_putAt_above {w w' : Nat} {v : Line} {lo lo' : Nat} {x : BitVec w'} (h : lo + w ≤ lo') :
    (putAt v lo' x).extractLsb' lo w = v.extractLsb' lo w := by
  apply BitVec.eq_of_getLsbD_eq
  intro i hi
  by_cases hlt : lo + i < 512
  · simp [BitVec.getLsbD_extractLsb', getLsbD_putAt v lo' x hlt, show ¬ lo' ≤ lo + i by omega]
  · simp [BitVec.getLsbD_extractLsb', BitVec.getLsbD_of_ge _ _ (Nat.not_lt.mp hlt)]

/-- A field put above everything that is set reads back. -/
theorem extract_putAt {w : Nat} {v : Line} {lo : Nat} {x : BitVec w} (h : Below v lo) (hw : lo + w ≤ 512) :
    (putAt v lo x).extractLsb' lo w = x := by
  apply BitVec.eq_of_getLsbD_eq
  intro i hi
  simp [getLsbD_putAt v lo x (show lo + i < 512 by omega), h (lo + i) (by omega), hi]

/-- A header is its fields, each put above the ones before (R46). -/
theorem pktHeadFlit_eq (k : Pkt) : pktHeadFlit k =
    putAt (putAt (putAt (putAt (putAt (putAt (putAt (putAt (putAt (putAt (putAt (putAt (putAt (putAt (putAt (putAt (putAt (putAt (putAt 0
      0 k.dest) 10 k.src) 20 k.cls) 22 k.cmd) 28 k.dfc) 32 k.tag) 44 k.resp) 48 k.pdom) 52 k.cache) 54 k.order) 56 k.atop) 64 k.addr)
      112 k.lenm1) 128 k.be) 192 k.qid) 224 k.tstamp) 256 k.fkey) 384 k.aux) 480 (pktCrc (pktHeader k) k.data) := rfl

/-- Settles O42: of the fields put one above the other, each reads back. -/
theorem headerFieldsReadBack : Obligations.HeaderFieldsReadBack := by
  intro k
  generalize hcrc : pktCrc (pktHeader k) k.data = crc
  rw [pktHeadFlit_eq, hcrc]
  unfold hdrOf
  simp (disch := repeat' first | omega | exact below_zero 0 | apply Below.putAt) only [extract_putAt_above, extract_putAt]

end Sys2Proof.Machine
end

section
/-! SUPPORT. The codes of the sideband and of the fuses (R43, R44, R418) are linear: a flipped bit moves the syndrome by its position and turns the parity. -/
namespace Sys2Proof.Machine

/-- w is v with bit i flipped. -/
structure FlippedAt {n : Nat} (v w : BitVec n) (i : Nat) : Prop where
  at_ : w.getLsbD i = !v.getLsbD i
  others : ∀ j, j ≠ i → w.getLsbD j = v.getLsbD j

theorem getLsbD_one_shiftLeft {n i : Nat} (hi : i < n) (j : Nat) : (1#n <<< i).getLsbD j = decide (j = i) := by
  rw [← BitVec.twoPow_eq, BitVec.getLsbD_twoPow, decide_eq_true hi, Bool.true_and]
  exact decide_eq_decide.mpr eq_comm

theorem flippedAt_xor {n : Nat} (v : BitVec n) {i : Nat} (hi : i < n) : FlippedAt v (v ^^^ (1#n <<< i)) i := by
  exact ⟨by rw [BitVec.getLsbD_xor, getLsbD_one_shiftLeft hi]; simp, fun j hj => by rw [BitVec.getLsbD_xor, getLsbD_one_shiftLeft hi]; simp [hj]⟩

theorem getLsbD_putBit {n : Nat} (v : BitVec n) {i j : Nat} (b : Bool) (hi : i < n) :
    (putBit v i b).getLsbD j = if j = i then b else v.getLsbD j := by
  by_cases hj : j < n
  · have hput : putBit v i b = (v &&& ~~~(1#n <<< i)) ||| (BitVec.ofNat n b.toNat <<< i) := by cases b <;> rfl
    rw [hput, BitVec.getLsbD_or, BitVec.getLsbD_and, BitVec.getLsbD_not, getLsbD_one_shiftLeft hi]
    cases b
    · by_cases h : j = i <;> simp [h, hj]
    · rw [show BitVec.ofNat n true.toNat = 1#n from rfl, getLsbD_one_shiftLeft hi]
      by_cases h : j = i <;> simp [h, hj]
  · have hne : j ≠ i := by omega
    simp [hne, BitVec.getLsbD_of_ge _ _ (Nat.not_lt.mp hj)]

theorem flippedAt_putBit {n : Nat} (v : BitVec n) {i : Nat} (hi : i < n) : FlippedAt v (putBit v i (!bitOf v i)) i :=
  ⟨by simp [getLsbD_putBit v _ hi, bitOf], fun j hj => by simp [getLsbD_putBit v _ hi, hj]⟩

/-- A bit flipped and flipped back. -/
theorem putBit_flipped {n : Nat} {v w : BitVec n} {i : Nat} (h : FlippedAt v w i) (hi : i < n) : putBit w i (!bitOf w i) = v := by
  apply BitVec.eq_of_getLsbD_eq
  intro j _
  rw [getLsbD_putBit w _ hi]
  split
  · next hj => rw [bitOf, h.at_, Bool.not_not, hj]
  · next hj => exact h.others j hj

/-- Flipping what is asked of one element of a list without repeats changes whether an even number passes. -/
theorem countP_flipped {l : List Nat} (hl : l.Nodup) {p q : Nat → Bool} {i : Nat} (hi : i ∈ l) (hq : q i = !p i) (ho : ∀ j, j ≠ i → q j = p j) :
    (l.countP q) % 2 ≠ (l.countP p) % 2 := by
  induction l with
  | nil => simp at hi
  | cons a l ih =>
    obtain ⟨ha, hl⟩ := List.nodup_cons.mp hl
    rw [List.countP_cons, List.countP_cons]
    by_cases hai : a = i
    · have hsame : l.countP q = l.countP p := List.countP_congr (fun j hj => by rw [ho j (fun e => ha (hai ▸ e ▸ hj))])
      rw [hsame, hai, hq]
      cases p i <;> simp <;> omega
    · have hmem : i ∈ l := (List.mem_cons.mp hi).resolve_left (Ne.symm hai)
      have hrest := ih hl hmem
      rw [ho a hai]
      omega

theorem parity_flipped {n : Nat} {v w : BitVec n} {i : Nat} (h : FlippedAt v w i) (hi : i < n) : parity w = !parity v := by
  have hc : (List.range n).countP (w.getLsbD ·) % 2 ≠ (List.range n).countP (v.getLsbD ·) % 2 :=
    countP_flipped List.nodup_range (List.mem_range.mpr hi) h.at_ h.others
  simp only [parity, popcount, bitsOf, ← List.countP_eq_length_filter]
  rw [Bool.eq_iff_iff, Bool.not_eq_true', beq_iff_eq, beq_eq_false_iff_ne]
  omega

/-- A sum by XOR takes an earlier summand out. -/
theorem foldl_xor_acc (g : Nat → Nat) (l : List Nat) (a x : Nat) :
    l.foldl (fun s i => Nat.xor s (g i)) (a ^^^ x) = l.foldl (fun s i => Nat.xor s (g i)) a ^^^ x := by
  induction l generalizing a with
  | nil => rfl
  | cons b l ih =>
    have hswap : (a ^^^ x) ^^^ g b = (a ^^^ g b) ^^^ x := by rw [Nat.xor_assoc, Nat.xor_comm x, ← Nat.xor_assoc]
    exact (congrArg (l.foldl _) hswap).trans (ih _)

/-- Flipping whether one element counts moves the sum by it. -/
theorem foldl_xor_flipped {l : List Nat} (hl : l.Nodup) {p q : Nat → Bool} {i : Nat} (hi : i ∈ l) (hq : q i = !p i) (ho : ∀ j, j ≠ i → q j = p j)
    (g : Nat → Nat) (a : Nat) :
    (l.filter q).foldl (fun s i => Nat.xor s (g i)) a = (l.filter p).foldl (fun s i => Nat.xor s (g i)) a ^^^ g i := by
  induction l generalizing a with
  | nil => simp at hi
  | cons b l ih =>
    obtain ⟨hb, hl⟩ := List.nodup_cons.mp hl
    by_cases hbi : b = i
    · have hsame : l.filter q = l.filter p := List.filter_congr (fun j hj => ho j (fun e => hb (hbi ▸ e ▸ hj)))
      rw [List.filter_cons, List.filter_cons, hsame, hbi, hq]
      have hacc := foldl_xor_acc g (l.filter p) a (g i)
      cases p i
      · exact hacc
      · change _ = (l.filter p).foldl _ (a ^^^ g i) ^^^ g i
        rw [hacc, Nat.xor_assoc, Nat.xor_self, Nat.xor_zero]
        rfl
    · have hmem : i ∈ l := (List.mem_cons.mp hi).resolve_left (Ne.symm hbi)
      rw [List.filter_cons, List.filter_cons, ho b hbi]
      split
      · exact ih hl hmem _
      · exact ih hl hmem _

-- The sideband (R43, R44).

/-- The check bits of a sideband byte move with each bit of it. -/
theorem sbCheck_xor : ∀ (d : BitVec 8) (i : Fin 8), sbCheck (d ^^^ (1#8 <<< i.val)) = sbCheck d ^^^ sbCheck (1#8 <<< i.val) := by decide +kernel

/-- Byte and check bits together have an even number of ones. -/
theorem parity_sbCheck : ∀ d : BitVec 8, parity (sbCheck d) = parity d := by decide +kernel

/-- What the decoder does with a byte whose check bits are off by e, of which `odd` says whether the number of flipped bits is odd. -/
def sbFix (d : BitVec 8) (e : BitVec 5) (odd : Bool) : SbRes :=
  let s := (e &&& 0xF#5).toNat
  if s = 0 then (if odd then .ok d (some 588) else .ok d none)
  else if odd ∧ s ≤ 12 then
    match sbData s with
    | some i => .ok (d ^^^ (1#8 <<< i)) (some (576 + i))
    | none => .ok d (some (if s = 1 then 584 else if s = 2 then 585 else if s = 4 then 586 else 587))
  else .bad

theorem sbDecode_eq {d : BitVec 8} {c e : BitVec 5} {odd : Bool} (hc : c = sbCheck d ^^^ e) (ho : Bool.xor (parity d) (parity c) = odd) :
    sbDecode d c = sbFix d e odd := by
  have he : c ^^^ sbCheck d = e := by rw [hc, BitVec.xor_comm (sbCheck d), BitVec.xor_assoc, BitVec.xor_self, BitVec.xor_zero]
  subst he ho
  rfl


theorem sbDecode_clean (d : BitVec 8) : sbDecode d (sbCheck d) = .ok d none :=
  sbDecode_eq (e := 0#5) (odd := false) BitVec.xor_zero.symm (by rw [parity_sbCheck, Bool.xor_self])

/-- The syndromes of the thirteen bits, one and two flipped: each names its bit, and two never read as none or as one. -/
theorem sbFix_one (d : BitVec 8) (i : Fin 8) : sbFix (d ^^^ (1#8 <<< i.val)) (sbCheck (1#8 <<< i.val)) true = .ok d (some (576 + i.val)) := by
  have hs : ((sbCheck (1#8 <<< i.val) &&& 0xF#5).toNat ≠ 0 ∧ (sbCheck (1#8 <<< i.val) &&& 0xF#5).toNat ≤ 12) ∧
      sbData (sbCheck (1#8 <<< i.val) &&& 0xF#5).toNat = some i.val := by revert i; decide
  simp only [sbFix, hs.1.1, hs.1.2, hs.2, if_false, and_self, if_true, BitVec.xor_assoc, BitVec.xor_self, BitVec.xor_zero]

theorem sbFix_check (d : BitVec 8) (i : Fin 5) : sbFix d (1#5 <<< i.val) true = .ok d (some (584 + i.val)) := by
  match i with
  | 0 => rfl
  | 1 => rfl
  | 2 => rfl
  | 3 => rfl
  | 4 => rfl

theorem sbFix_even (d : BitVec 8) {e : BitVec 5} (he : e &&& 0xF#5 ≠ 0) : sbFix d e false = .bad := by
  have hs : (e &&& 0xF#5).toNat ≠ 0 := fun h => he (BitVec.eq_of_toNat_eq h)
  simp only [sbFix, hs, if_false, Bool.false_eq_true, false_and]

/-- A byte with bit i flipped, against check bits off by e. -/
theorem sbDecode_flipped (d : BitVec 8) (i : Fin 8) (c e : BitVec 5) {odd : Bool} (hc : c = sbCheck d ^^^ e) (ho : Bool.xor (!parity d) (parity c) = odd) :
    sbDecode (d ^^^ (1#8 <<< i.val)) c = sbFix (d ^^^ (1#8 <<< i.val)) (sbCheck (1#8 <<< i.val) ^^^ e) odd := by
  refine sbDecode_eq ?_ (by rw [parity_flipped (flippedAt_xor d i.isLt) i.isLt, ho])
  rw [hc, sbCheck_xor, BitVec.xor_assoc, ← BitVec.xor_assoc (sbCheck (1#8 <<< i.val)), BitVec.xor_self, BitVec.zero_xor]

theorem parity_check_flipped (d : BitVec 8) (i : Fin 5) : parity (sbCheck d ^^^ (1#5 <<< i.val)) = !parity d := by
  rw [parity_flipped (flippedAt_xor _ i.isLt) i.isLt, parity_sbCheck]

/-- Two of the thirteen positions never cancel. -/
theorem sb_positions_differ : (∀ i j : Fin 8, i ≠ j → (sbCheck (1#8 <<< j.val) ^^^ sbCheck (1#8 <<< i.val)) &&& 0xF#5 ≠ 0) ∧
    (∀ (i : Fin 8) (j : Fin 5), (sbCheck (1#8 <<< i.val) ^^^ (1#5 <<< j.val)) &&& 0xF#5 ≠ 0) ∧
    (∀ i j : Fin 5, i ≠ j → ((1#5 <<< i.val) ^^^ (1#5 <<< j.val)) &&& 0xF#5 ≠ 0) := by decide

theorem sideband_corrects (d : BitVec 8) : sbDecode d (sbCheck d) = .ok d none ∧
    (∀ i : Fin 8, sbDecode (d ^^^ (1#8 <<< i.val)) (sbCheck d) = .ok d (some (576 + i.val))) ∧
    (∀ i : Fin 5, sbDecode d (sbCheck d ^^^ (1#5 <<< i.val)) = .ok d (some (584 + i.val))) ∧
    (∀ i j : Fin 8, i ≠ j → sbDecode (d ^^^ (1#8 <<< i.val) ^^^ (1#8 <<< j.val)) (sbCheck d) = .bad) ∧
    (∀ (i : Fin 8) (j : Fin 5), sbDecode (d ^^^ (1#8 <<< i.val)) (sbCheck d ^^^ (1#5 <<< j.val)) = .bad) ∧
    (∀ i j : Fin 5, i ≠ j → sbDecode d (sbCheck d ^^^ (1#5 <<< i.val) ^^^ (1#5 <<< j.val)) = .bad) := by
  refine ⟨sbDecode_clean d, fun i => ?byte, fun i => ?check, fun i j hij => ?bytes, fun i j => ?mixed, fun i j hij => ?checks⟩
  case byte =>
    rw [sbDecode_flipped d i _ 0#5 BitVec.xor_zero.symm (odd := true) (by rw [parity_sbCheck]; simp), BitVec.xor_zero]
    exact sbFix_one d i
  case check =>
    rw [sbDecode_eq rfl (odd := true) (by rw [parity_check_flipped]; simp)]
    exact sbFix_check d i
  case bytes =>
    have hc : sbCheck d = sbCheck (d ^^^ (1#8 <<< i.val)) ^^^ sbCheck (1#8 <<< i.val) := by
      rw [sbCheck_xor, BitVec.xor_assoc, BitVec.xor_self, BitVec.xor_zero]
    rw [sbDecode_flipped _ j _ _ hc (odd := false) (by rw [parity_flipped (flippedAt_xor d i.isLt) i.isLt, parity_sbCheck]; simp)]
    exact sbFix_even _ (sb_positions_differ.1 i j hij)
  case mixed =>
    rw [sbDecode_flipped d i _ _ rfl (odd := false) (by rw [parity_check_flipped]; simp)]
    exact sbFix_even _ (sb_positions_differ.2.1 i j)
  case checks =>
    rw [BitVec.xor_assoc, sbDecode_eq rfl (odd := false)
      (by rw [← BitVec.xor_assoc, parity_flipped (flippedAt_xor _ j.isLt) j.isLt, parity_check_flipped]; simp)]
    exact sbFix_even _ (sb_positions_differ.2.2 i j hij)

-- The fuses (R418).

/-- The position at which a bit of the check byte counts; the parity bit counts at none. -/
def checkPos (j : Nat) : Nat := if j < 7 then 2 ^ j else 0

/-- What the decoder does with a word whose syndrome is e, of which `odd` says whether the number of flipped bits is odd. -/
def fuseFix (d : W) (e : Nat) (odd : Bool) : W × Bool × Bool :=
  if e = 0 then (d, odd, false)
  else if odd = true ∧ e < 72 then
    match fusePos.findIdx? (· == e) with
    | some i => (putBit d i (!bitOf d i), true, false)
    | none => (d, true, false)
  else (d, false, true)

theorem fuseDecode_eq {d : W} {c : BitVec 8} {e : Nat} {odd : Bool} (he : fuseSyn d ^^^ c.toNat % 128 = e) (ho : (parity d != parity c) = odd) :
    fuseDecode d c = fuseFix d e odd := by
  subst he ho
  rfl

theorem fuseFix_even (d : W) {e : Nat} (he : e ≠ 0) : fuseFix d e false = (d, false, true) := by simp [fuseFix, he]

theorem fuseSyn_flipped {d w : W} {i : Nat} (h : FlippedAt d w i) (hi : i < 64) : fuseSyn w = fuseSyn d ^^^ fusePos.getD i 0 :=
  foldl_xor_flipped List.nodup_range (List.mem_range.mpr hi) h.at_ h.others _ 0

theorem fusePos_lt : ∀ i, fusePos.getD i 0 < 72 := by
  intro i
  by_cases hi : i < 64
  · revert i; decide
  · rw [List.getD_eq_getElem?_getD, List.getElem?_eq_none (by rw [show fusePos.length = 64 by decide]; omega)]
    decide

theorem fuseSyn_lt (d : W) : fuseSyn d < 128 := by
  have hfold (l : List Nat) (a : Nat) (ha : a < 2 ^ 7) : l.foldl (fun s i => Nat.xor s (fusePos.getD i 0)) a < 2 ^ 7 := by
    induction l generalizing a with
    | nil => exact ha
    | cons b l ih => exact ih _ (Nat.xor_lt_two_pow ha (Nat.lt_of_lt_of_le (fusePos_lt b) (by decide)))
  exact hfold _ 0 (by decide)


theorem fuseCheck_mod (d : W) : (fuseCheck d).toNat % 128 = fuseSyn d := by
  have hlt := fuseSyn_lt d
  apply Nat.eq_of_testBit_eq
  intro k
  rw [show (128 : Nat) = 2 ^ 7 from rfl, Nat.testBit_mod_two_pow]
  by_cases hk : k < 7
  · have hput := getLsbD_putBit (BitVec.ofNat 8 (fuseSyn d)) (i := 7) (j := k) (parity d != parity (BitVec.ofNat 8 (fuseSyn d))) (by decide)
    rw [if_neg (by omega), BitVec.getLsbD_ofNat, decide_eq_true (show k < 8 by omega), Bool.true_and] at hput
    rw [decide_eq_true hk, Bool.true_and]
    exact hput
  · have hbig : fuseSyn d < 2 ^ k := Nat.lt_of_lt_of_le hlt (Nat.pow_le_pow_right (n := 2) (by decide) (show 7 ≤ k by omega))
    simp [hk, Nat.testBit_lt_two_pow hbig]

theorem parity_fuseCheck (d : W) : parity (fuseCheck d) = parity d := by
  have hlt := fuseSyn_lt d
  have hbit : bitOf (BitVec.ofNat 8 (fuseSyn d)) 7 = false := by
    rw [bitOf, BitVec.getLsbD_ofNat, Nat.testBit_lt_two_pow hlt, Bool.and_false]
  unfold fuseCheck
  dsimp only
  cases hp : parity d != parity (BitVec.ofNat 8 (fuseSyn d))
  · have hsame : putBit (BitVec.ofNat 8 (fuseSyn d)) 7 false = BitVec.ofNat 8 (fuseSyn d) := by
      apply BitVec.eq_of_getLsbD_eq
      intro j _
      rw [getLsbD_putBit _ _ (by decide)]
      split
      · next hj => rw [hj]; exact hbit.symm
      · rfl
    rw [hsame]
    exact (bne_eq_false_iff_eq.mp hp).symm
  · have hflip := parity_flipped (flippedAt_putBit (BitVec.ofNat 8 (fuseSyn d)) (i := 7) (by decide)) (by decide)
    rw [hbit] at hflip
    rw [show true = !false from rfl, hflip]
    have := bne_iff_ne.mp hp
    revert this
    cases parity d <;> cases parity (BitVec.ofNat 8 (fuseSyn d)) <;> simp

/-- A flipped bit of a check byte moves the seven bits of its syndrome by that bit's position. -/
theorem mod_flipped {c x : BitVec 8} {j : Nat} (h : FlippedAt c x j) : x.toNat % 128 = c.toNat % 128 ^^^ checkPos j := by
  apply Nat.eq_of_testBit_eq
  intro k
  have hpos : (checkPos j).testBit k = (decide (j < 7) && decide (k = j)) := by
    unfold checkPos
    split
    · next hj => rw [Nat.testBit_two_pow, decide_eq_true hj, Bool.true_and]; exact decide_eq_decide.mpr eq_comm
    · next hj => simp [hj]
  rw [Nat.testBit_xor, hpos, show (128 : Nat) = 2 ^ 7 from rfl, Nat.testBit_mod_two_pow, Nat.testBit_mod_two_pow]
  by_cases hkj : k = j
  · have hat : x.toNat.testBit j = !c.toNat.testBit j := h.at_
    subst hkj
    rw [hat]
    by_cases hk : k < 7 <;> simp [hk]
  · have hother : x.toNat.testBit k = c.toNat.testBit k := h.others k hkj
    simp [hother, hkj]

/-- The positions of the 64 data bits and of the check bits all differ, and none of a data bit is 0. -/
theorem fusePos_nodup : fusePos.Nodup := by decide

theorem eq_of_xor_eq_zero {a b : Nat} (h : a ^^^ b = 0) : a = b := by
  calc a = a ^^^ b ^^^ b := by rw [Nat.xor_assoc, Nat.xor_self, Nat.xor_zero]
    _ = b := by rw [h, Nat.zero_xor]

theorem fusePos_ne {i j : Nat} (hi : i < 64) (hj : j < 64) (hij : i ≠ j) : fusePos.getD i 0 ^^^ fusePos.getD j 0 ≠ 0 := by
  have hlen : fusePos.length = 64 := by decide
  intro h
  have heq := eq_of_xor_eq_zero h
  have hget {k : Nat} (hk : k < fusePos.length) : fusePos.getD k 0 = fusePos[k] := by
    rw [List.getD_eq_getElem?_getD, List.getElem?_eq_getElem hk, Option.getD_some]
  rw [hget (by omega), hget (by omega)] at heq
  have hdiff := List.pairwise_iff_getElem.mp fusePos_nodup
  rcases Nat.lt_or_gt_of_ne hij with hlt | hlt
  · exact hdiff i j (by omega) (by omega) hlt heq
  · exact hdiff j i (by omega) (by omega) hlt heq.symm

theorem fusePos_ne_checkPos : ∀ i, i < 64 → ∀ j, j < 8 → fusePos.getD i 0 ^^^ checkPos j ≠ 0 := by decide

theorem checkPos_ne : ∀ i, i < 8 → ∀ j, j < 8 → i ≠ j → checkPos i ^^^ checkPos j ≠ 0 := by decide

theorem findIdx?_fusePos : ∀ i, i < 64 → fusePos.findIdx? (· == fusePos.getD i 0) = some i ∧ fusePos.getD i 0 ≠ 0 := by decide

/-- One flipped data bit is put back. -/
theorem fuseFix_data {d w : W} {i : Nat} (h : FlippedAt d w i) (hi : i < 64) : fuseFix w (fusePos.getD i 0) true = (d, true, false) := by
  obtain ⟨hfind, hne⟩ := findIdx?_fusePos i hi
  simp only [fuseFix, hne, fusePos_lt i, hfind, if_false, and_self, if_true, putBit_flipped h hi]

/-- One flipped check bit leaves the word. -/
theorem fuseFix_check (d : W) {j : Nat} (hj : j < 8) : fuseFix d (checkPos j) true = (d, true, false) := by
  have hfind : ∀ j, j < 8 → fusePos.findIdx? (· == checkPos j) = none ∧ checkPos j < 72 := by decide
  obtain ⟨hnone, hlt⟩ := hfind j hj
  unfold fuseFix
  split
  · rfl
  · rw [if_pos ⟨rfl, hlt⟩, hnone]

/-- The syndrome of a word with flipped bits of weight x against the check byte of d with flipped bits of weight y. -/
theorem fuse_syndrome {d w : W} {c : BitVec 8} {x y : Nat} (hw : fuseSyn w = fuseSyn d ^^^ x) (hc : c.toNat % 128 = fuseSyn d ^^^ y) :
    fuseSyn w ^^^ c.toNat % 128 = x ^^^ y := by
  rw [hw, hc, Nat.xor_comm (fuseSyn d) x, Nat.xor_assoc, ← Nat.xor_assoc (fuseSyn d), Nat.xor_self, Nat.zero_xor]

theorem fuse_corrects (d : W) : fuseDecode d (fuseCheck d) = (d, false, false) ∧
    (∀ i, i < 64 → fuseDecode (putBit d i (!bitOf d i)) (fuseCheck d) = (d, true, false)) ∧
    (∀ i, i < 8 → fuseDecode d (putBit (fuseCheck d) i (!bitOf (fuseCheck d) i)) = (d, true, false)) := by
  refine ⟨?clean, fun i hi => ?data, fun j hj => ?check⟩
  case clean => exact fuseDecode_eq (e := 0) (by rw [fuseCheck_mod, Nat.xor_self]) (by rw [parity_fuseCheck]; simp)
  case data =>
    have hf := flippedAt_putBit d hi
    have hsyn := fuse_syndrome (fuseSyn_flipped hf hi) (c := fuseCheck d) (y := 0) (by rw [fuseCheck_mod, Nat.xor_zero])
    rw [fuseDecode_eq (hsyn.trans (Nat.xor_zero _)) (odd := true) (by rw [parity_fuseCheck, parity_flipped hf hi]; simp)]
    exact fuseFix_data hf hi
  case check =>
    have hf := flippedAt_putBit (fuseCheck d) hj
    have hsyn := fuse_syndrome (d := d) (w := d) (x := 0) (Nat.xor_zero _).symm (by rw [mod_flipped hf, fuseCheck_mod])
    rw [fuseDecode_eq (hsyn.trans (Nat.zero_xor _)) (odd := true) (by rw [parity_flipped hf hj, parity_fuseCheck]; simp)]
    exact fuseFix_check d hj

/-- Two flips turn the parity back, and two positions never cancel: the word is left. -/
theorem fuse_detects (d : W) :
    let fl (x : W) (i : Nat) : W := putBit x i (!bitOf x i)
    let fc (x : BitVec 8) (i : Nat) : BitVec 8 := putBit x i (!bitOf x i)
    (∀ i j, i < 64 → j < 64 → i ≠ j → fuseDecode (fl (fl d i) j) (fuseCheck d) = (fl (fl d i) j, false, true)) ∧
    (∀ i j, i < 64 → j < 8 → fuseDecode (fl d i) (fc (fuseCheck d) j) = (fl d i, false, true)) ∧
    (∀ i j, i < 8 → j < 8 → i ≠ j → fuseDecode d (fc (fc (fuseCheck d) i) j) = (d, false, true)) := by
  intro fl fc
  have flips (x : W) {i : Nat} (hi : i < 64) : FlippedAt x (fl x i) i := flippedAt_putBit x hi
  have flipc (x : BitVec 8) {i : Nat} (hi : i < 8) : FlippedAt x (fc x i) i := flippedAt_putBit x hi
  refine ⟨fun i j hi hj hij => ?data, fun i j hi hj => ?mixed, fun i j hi hj hij => ?checks⟩
  case data =>
    have hw : fuseSyn (fl (fl d i) j) = fuseSyn d ^^^ (fusePos.getD i 0 ^^^ fusePos.getD j 0) := by
      rw [fuseSyn_flipped (flips _ hj) hj, fuseSyn_flipped (flips d hi) hi, Nat.xor_assoc]
    have hsyn := fuse_syndrome hw (c := fuseCheck d) (y := 0) (by rw [fuseCheck_mod, Nat.xor_zero])
    rw [fuseDecode_eq (hsyn.trans (Nat.xor_zero _)) (odd := false)
      (by rw [parity_fuseCheck, parity_flipped (flips _ hj) hj, parity_flipped (flips d hi) hi]; simp)]
    exact fuseFix_even _ (fusePos_ne hi hj hij)
  case mixed =>
    have hsyn := fuse_syndrome (fuseSyn_flipped (flips d hi) hi) (c := fc (fuseCheck d) j) (by rw [mod_flipped (flipc _ hj), fuseCheck_mod])
    rw [fuseDecode_eq hsyn (odd := false) (by rw [parity_flipped (flipc _ hj) hj, parity_fuseCheck, parity_flipped (flips d hi) hi]; simp)]
    exact fuseFix_even _ (fusePos_ne_checkPos i hi j hj)
  case checks =>
    have hc : (fc (fc (fuseCheck d) i) j).toNat % 128 = fuseSyn d ^^^ (checkPos i ^^^ checkPos j) := by
      rw [mod_flipped (flipc _ hj), mod_flipped (flipc _ hi), fuseCheck_mod, Nat.xor_assoc]
    have hsyn := fuse_syndrome (d := d) (w := d) (x := 0) (Nat.xor_zero _).symm hc
    rw [fuseDecode_eq (hsyn.trans (Nat.zero_xor _)) (odd := false)
      (by rw [parity_flipped (flipc _ hj) hj, parity_flipped (flipc _ hi) hi, parity_fuseCheck]; simp)]
    exact fuseFix_even _ (checkPos_ne i hi j hj hij)

/-- Settles O41: both codes are linear, and the positions of their bits differ. -/
theorem codesCorrectOneBit : Obligations.CodesCorrectOneBit :=
  ⟨sideband_corrects, fun d => let ⟨hclean, hdata, hcheck⟩ := fuse_corrects d; ⟨hclean, hdata, hcheck, fuse_detects d⟩⟩

end Sys2Proof.Machine
end

section
/-! SUPPORT. Arithmetic (R251, R252): the amounts of shifts and the values of compares, as their rules state them. -/
namespace Sys2Proof.Machine

theorem shAmt_eq (v : W) : shAmt v = (v &&& 63#64).toNat := by
  rw [shAmt, fld, BitVec.extractLsb'_toNat, BitVec.toNat_and]
  exact (Nat.and_two_pow_sub_one_eq_mod _ 6).symm

theorem shAmt_iZext (w : BitVec 32) : shAmt (iZext w) = (w &&& 63#32).toNat := by
  rw [shAmt, fld, iZext, iImm, BitVec.extractLsb'_toNat, BitVec.toNat_setWidth, BitVec.extractLsb'_toNat, BitVec.toNat_and]
  change _ = w.toNat &&& (2 ^ 6 - 1)
  rw [Nat.and_two_pow_sub_one_eq_mod]
  omega

theorem wCeq_eq (a b : W) : wCeq a b = if a = b then 1 else 0 := by simp [wCeq, cmp]
theorem wClt_eq (a b : W) : wClt a b = if a.toInt < b.toInt then 1 else 0 := by simp [wClt, cmp, BitVec.slt]
theorem wCltu_eq (a b : W) : wCltu a b = if a.toNat < b.toNat then 1 else 0 := by simp [wCltu, cmp, BitVec.ult]

/-- Settles O7: each instruction computes its value; shifts and compares take theirs from the lemmas above. -/
theorem arithmetic : Obligations.Arithmetic := by
  refine ⟨fun s c j w hd => ?A, fun s c j w hd => ?I⟩
  case A =>
    have computes {op : Nat} (f : W → W → W) {v : W} (hv : f (j.get (iRa w)) (j.get (iRb w)) = v) (h : s.atInstr c op j w) :
        (.next (s.aluA c op f) : Res) = .next (s.wrote c j w (iRd w) v (j.pc + 1)).recheck :=
      congrArg Host.Outcome.next ((State.compute_eq h hd _).trans (by subst hv; rfl))
    exact ⟨computes wAdd rfl, computes wSub rfl, computes wAnd rfl, computes wOr rfl, computes wXor rfl,
      computes wSll (by rw [wSll, shAmt_eq]), computes wSrl (by rw [wSrl, shAmt_eq]), computes wSra (by rw [wSra, shAmt_eq]),
      computes wMul rfl, computes wCeq (wCeq_eq _ _), computes wClt (wClt_eq _ _), computes wCltu (wCltu_eq _ _)⟩
  case I =>
    have computes {op : Nat} (ext : BitVec 32 → W) (f : W → W → W) {v : W} (hv : f (j.get (iRa w)) (ext w) = v) (h : s.atInstr c op j w) :
        (.next (s.aluI c op ext f) : Res) = .next (s.wrote c j w (iRd w) v (j.pc + 1)).recheck :=
      congrArg Host.Outcome.next ((State.compute_eq h hd _).trans (by subst hv; rfl))
    exact ⟨computes iSext wAdd rfl, computes iZext wAnd rfl, computes iZext wOr rfl, computes iZext wXor rfl,
      computes iZext wSll (by rw [wSll, shAmt_iZext]), computes iZext wSrl (by rw [wSrl, shAmt_iZext]),
      computes iZext wSra (by rw [wSra, shAmt_iZext]), computes iSext wCeq (wCeq_eq _ _), computes iSext wClt (wClt_eq _ _),
      computes iSext wCltu (wCltu_eq _ _)⟩

end Sys2Proof.Machine
end

section
/-! SUPPORT. Ends of jobs and the traps of a fetch (R275, R277, R278, R280). -/
namespace Sys2Proof.Machine

/-- The current instruction's trap ends its job. -/
theorem State.trap_issued (s : State) (c : CtxId) (j : Job) (w : BitVec 32) (cause detail : Nat) :
    (s.issued c j w).trap c cause detail =
      (((s.issued c j w).endRecord c { j with lastPc := j.pc } stTrapped cause (trapResult w detail)).freeCtx c).breakLocks j.ring.val := by
  rw [State.trap, State.trapWith_eq (j := { j with lastPc := j.pc }) (by simp), State.ctx_issued]

/-- A reserved opcode, an entry that is not valid, and a field that the opcode does not define stop at the decode (R278). -/
theorem State.issue_undecodable {s : State} {c : CtxId} {j : Job} {op : Nat} {w : BitVec 32} (h : s.canIssue c = some j)
    (hpc : j.pc.toNat < j.len) (hw : s.fetchWord j = w) (hbad : s.dispBad (iOp w) = false)
    (hmicro : s.dispValid (iOp w) = true → s.microBad (s.dispStart (iOp w)) = false)
    (hno : opDefined (iOp w) = false ∨ s.dispValid (iOp w) = false ∨ (iOp w = op ∧ fieldsOk op w = false))
    (act : State → Job → BitVec 32 → State) :
    s.issue c op act = ((s.issued c j w).trap c tIllegal 0).recheck := by
  have hf : s.fetched c j = s.issued c j w := by unfold State.fetched State.issued; rw [hw]
  have hm : (s.dispValid (iOp w) && s.microBad (s.dispStart (iOp w))) = false := by
    cases hv : s.dispValid (iOp w)
    · rfl
    · exact hmicro hv
  unfold State.issue
  simp only [h, Nat.not_le.mpr hpc, hw, hbad, hm, hf, if_false, Bool.false_eq_true]
  by_cases hdec : opDefined (iOp w) = false ∨ s.dispValid (iOp w) = false
  · rw [if_pos hdec]
  · obtain ⟨hop, hfields⟩ : iOp w = op ∧ fieldsOk op w = false := (or_assoc.mpr hno).resolve_left hdec
    rw [if_neg hdec, if_neg (by simpa using hop), if_pos hfields]

/-- Settles O10: HALT, TRAP and YIELD are their own actions after the issue; the fetch and the decode trap before any action. -/
theorem endsOfJobsAndFetchTraps : Obligations.EndsOfJobsAndFetchTraps := by
  refine ⟨fun s c j w => ⟨fun h => ?halt, fun h => ?trap, fun h => ?yield⟩, fun s c j op act hj => ⟨fun hpc => ?bound, fun hpc w hw hbad hmicro hno => ?illegal⟩⟩
  case halt => exact congrArg Host.Outcome.next (State.issue_runs h _)
  case trap => exact congrArg Host.Outcome.next ((State.issue_runs h _).trans (by rw [State.trap_issued]; rfl))
  case yield => exact congrArg Host.Outcome.next (State.issue_runs h _)
  case bound => rw [State.issue_bound hj hpc, State.trapWith_eq (State.job_of_canIssue hj)]; rfl
  case illegal => rw [State.issue_undecodable hj hpc hw hbad hmicro hno, State.trap_issued]; rfl

end Sys2Proof.Machine
end

section
/-! SUPPORT. Control-space accesses (R254 to R257): what is checked before one leaves, and how its answer ends the instruction. -/
namespace Sys2Proof.Machine

/-- An access of n bytes with its four outcomes, in the order of R278: without the right, off its grid, beyond the map, on its way. -/
theorem State.access_cases (s : State) (c : CtxId) (j : Job) (use : AccUse) (write : Bool) (n : Nat) (addr v : W) (strb : BitVec 8) :
    let may : Prop := s.chainAccess addr write = true → j.pchain = true
    (may ∧ addr.toNat % n = 0 ∧ fld addr 26 6 = 0 → s.access c j use write n addr v strb =
      (s.setCtx c { s.ctx c with wait := .access }).issueAcc c j use write addr v strb) ∧
    (¬ may → s.access c j use write n addr v strb = s.trap c tPerm 0) ∧
    (may ∧ addr.toNat % n ≠ 0 → s.access c j use write n addr v strb = s.trap c tAlign (addr.toNat % 2 ^ 32)) ∧
    (may ∧ addr.toNat % n = 0 ∧ fld addr 26 6 ≠ 0 → s.access c j use write n addr v strb =
      if use = .status then s.doneCode c rDecerr else s.trap c tCserr (addr.toNat % 2 ^ 32)) := by
  intro may
  have hmay : (s.chainAccess addr write && !j.pchain) = true ↔ ¬ may := by simp [may]
  unfold State.access State.accPre
  simp only [hmay]
  refine ⟨fun ⟨hm, ha, hf⟩ => ?_, fun hm => ?_, fun ⟨hm, ha⟩ => ?_, fun ⟨hm, ha, hf⟩ => ?_⟩
  · rw [if_neg (Classical.not_not.mpr hm), if_neg (Classical.not_not.mpr ha), if_neg (Classical.not_not.mpr hf)]
  · rw [if_pos hm]
  · rw [if_neg (Classical.not_not.mpr hm), if_pos ha]
  · rw [if_neg (Classical.not_not.mpr hm), if_neg (Classical.not_not.mpr ha), if_pos hf]

/-- The same for an instruction whose action is one access. -/
theorem State.issue_access {s : State} {c : CtxId} {op : Nat} {j : Job} {w : BitVec 32} (h : s.atInstr c op j w)
    {act : State → Job → BitVec 32 → State} {use : AccUse} {write : Bool} {n : Nat} {addr v : W} {strb : BitVec 8}
    (hact : act (s.issued c j w) { j with lastPc := j.pc } w = (s.issued c j w).access c { j with lastPc := j.pc } use write n addr v strb) :
    let s' := s.issued c j w
    let may : Prop := s.chainAccess addr write = true → j.pchain = true
    let go (t : State) : Res := .next t.recheck
    let issue : Res := .next (s.issue c op act)
    (may ∧ addr.toNat % n = 0 ∧ fld addr 26 6 = 0 → issue =
      go ((s'.setCtx c { s'.ctx c with wait := .access }).issueAcc c { j with lastPc := j.pc } use write addr v strb)) ∧
    (¬ may → issue = go (s'.trap c tPerm 0)) ∧
    (may ∧ addr.toNat % n ≠ 0 → issue = go (s'.trap c tAlign (addr.toNat % 2 ^ 32))) ∧
    (may ∧ addr.toNat % n = 0 ∧ fld addr 26 6 ≠ 0 → issue =
      go (if use = .status then s'.doneCode c rDecerr else s'.trap c tCserr (addr.toNat % 2 ^ 32))) := by
  intro s' may go issue
  have hgo {t : State} (ht : s'.access c { j with lastPc := j.pc } use write n addr v strb = t) : issue = go t := by
    rw [← ht, ← hact]
    exact congrArg Host.Outcome.next (State.issue_runs h act)
  obtain ⟨hissue, hperm, halign, hout⟩ := s'.access_cases c { j with lastPc := j.pc } use write n addr v strb
  exact ⟨fun hc => hgo (hissue hc), fun hc => hgo (hperm hc), fun hc => hgo (halign hc), fun hc => hgo (hout hc)⟩

theorem State.doneCode_issued {s : State} {c : CtxId} {j : Job} {w : BitVec 32} (hd : (s.ctx c).due = none) (n : Nat) :
    (s.issued c j w).doneCode c n = s.wrote c j w (iRd w) (BitVec.ofNat 64 n) (j.pc + 1) := by
  rw [State.doneCode_eq (j := { j with lastPc := j.pc }) (by simp) (by simpa using hd), State.ctx_issued]
  rfl

theorem State.accTrap_none {s : State} {c : CtxId} (hd : (s.ctx c).due = none) (addr : W) :
    s.accTrap c addr = s.trap c tCserr (addr.toNat % 2 ^ 32) := by
  unfold State.accTrap
  simp only [hd]

theorem State.accTrap_abort {s : State} {c : CtxId} {tail : Nat} (hd : (s.ctx c).due = some (.abort tail)) (addr : W) :
    s.accTrap c addr = s.abortJob c tail := by
  unfold State.accTrap
  simp only [hd]

theorem State.accTrap_mcheck {s : State} {c : CtxId} (hd : (s.ctx c).due = some .mcheck) (addr : W) :
    s.accTrap c addr = s.mcheckJob c 0 0 := by
  unfold State.accTrap
  simp only [hd]

/-- What an access that was refused at the crossbar counts (R256). -/
def Job.refused (j : Job) : Job := { j with sref := min 0xFFFF (j.sref + 1) }

section Answers
variable {s : State} {c : CtxId} {j : Job} {key code : Nat} {use : AccUse} {addr : W}
variable (hj : (s.ctx c).job = some j) (ha : (s.ctx c).acc = some (key, use, addr))

/-- The context whose access is answered awaits none. -/
def State.answered (s : State) (c : CtxId) : State := s.setCtx c { s.ctx c with acc := none }

include hj

theorem State.accAnswer_done (hd : (s.ctx c).due = none) {data : W} {f : Job → Job} (h : s.accAnswer c key code data = (s.answered c).done c f) :
    s.accAnswer c key code data = (s.answered c).retired c (f j) (j.pc + 1) :=
  h.trans (State.done_eq (by simpa [State.answered] using hj) (by simpa [State.answered] using hd) f)

include ha

/-- The use of the access decides what its answer does. -/
theorem State.accAnswer_eq (data : W) : s.accAnswer c key code data =
    match use with
    | .load => if code = 0 then (s.answered c).doneRd c data else (s.answered c).accTrap c addr
    | .half hi => if code = 0 then (s.answered c).doneRd c (BitVec.ofNat 64 (fld data (if hi then 32 else 0) 32)) else (s.answered c).accTrap c addr
    | .store =>
      if code = 0 then (s.answered c).done c id
      else if code = 1 then (s.answered c).done c Job.refused
      else (s.answered c).accTrap c addr
    | .status => (s.answered c).done c (fun j => (if code = 1 then j.refused else j).set (iRd (s.ctx c).word) (BitVec.ofNat 64 (accCode code)))
    | .poll =>
      if code ≠ 0 then (s.answered c).doneCode c (accCode code)
      else if pollHolds (s.ctx c).word j data then (s.answered c).doneCode c rOk
      else s.answered c := by
  unfold State.accAnswer
  dsimp only
  split
  · next k u a j' hacc hjob =>
    obtain ⟨rfl, rfl, rfl⟩ : key = k ∧ use = u ∧ addr = a := by simpa using ha.symm.trans hacc
    obtain rfl : j = j' := by simpa using hj.symm.trans hjob
    rw [if_neg (Classical.not_not.mpr rfl)]
    cases use <;> rfl
  · next hno => exact absurd hj (hno _ _ _ _ ha)

/-- An answer that is no OK traps a load, and a store unless it was refused. -/
theorem State.accAnswer_trap (data : W) (h : ((use = .load ∨ ∃ hi, use = .half hi) ∧ code ≠ 0) ∨ (use = .store ∧ 1 < code)) :
    s.accAnswer c key code data = (s.answered c).accTrap c addr := by
  rw [State.accAnswer_eq hj ha]
  obtain ⟨rfl | ⟨hi, rfl⟩, hc⟩ | ⟨rfl, hc⟩ := h
  · simp [hc]
  · simp [hc]
  · simp [show code ≠ 0 by omega, show code ≠ 1 by omega]

end Answers

@[simp] theorem State.ctx_answered (s : State) (c : CtxId) : (s.answered c).ctx c = { s.ctx c with acc := none } := by simp [State.answered]

theorem accCode_of_large {code : Nat} (h : 3 < code) : accCode code = rChainErr := by
  obtain ⟨n, rfl⟩ : ∃ n, code = n + 4 := ⟨code - 4, by omega⟩
  rfl

/-- Settles O11: the checks before an access, the ends that its answer brings, and the ends that are due in place of its trap. -/
theorem controlSpaceAccesses : Obligations.ControlSpaceAccesses := by
  refine ⟨fun s c j w hd => ?leaves, fun s c j key code use addr data hd hj ha => ?answers, fun s c j key code use addr data hj ha hu hcode => ?dues⟩
  case leaves =>
    intro addr v j' s' go may fits trap
    refine ⟨fun h => ?ldc, fun h => ?ldcw, fun h => ?stc, fun h => ?stcw, fun h => ?stcs⟩
    case ldc => exact State.issue_access h rfl
    case ldcw => exact State.issue_access h rfl
    case stc => exact State.issue_access h rfl
    case stcw => exact State.issue_access h rfl
    case stcs =>
      obtain ⟨hissue, hperm, halign, hout⟩ := State.issue_access h (act := fun s j w => s.access c j .status true 8 (accAddr j w) (j.get (iRd w)) 0xFF#8) rfl
      exact ⟨hissue, hperm, halign, fun hc => (hout hc).trans (by rw [if_pos rfl, State.doneCode_issued hd])⟩
  case answers =>
    have done {f : Job → Job} (h : s.accAnswer c key code data = (s.answered c).done c f) := State.accAnswer_done hj hd h
    have traps := State.accAnswer_trap (code := code) hj ha data
    have status {n : Nat} (hu : use = .status) (hn : accCode code = n) (h1 : code ≠ 1) :
        s.accAnswer c key code data = (s.answered c).retired c (j.set (iRd (s.ctx c).word) (BitVec.ofNat 64 n)) (j.pc + 1) :=
      done (f := fun j => j.set (iRd (s.ctx c).word) (BitVec.ofNat 64 n)) (by subst hu hn; rw [State.accAnswer_eq hj ha]; simp only [h1, if_false])
    have noDue := State.accTrap_none (s := s.answered c) (c := c) (by simpa using hd) addr
    refine ⟨fun hu h0 => done (f := fun j => j.set _ _) ?_, fun hi hu h0 => done (f := fun j => j.set _ _) ?_, fun hu h0 => done (f := id) ?_, fun hu h1 => done (f := Job.refused) ?_,
      fun hu h0 => status hu (by rw [h0]; rfl) (by omega), fun hu h1 => done (f := fun j => j.refused.set _ _) ?_, fun hu h2 => status hu (by rw [h2]; rfl) (by omega),
      fun hu h3 => status hu (by rw [h3]; rfl) (by omega), fun hu h => status hu (accCode_of_large h) (by omega),
      fun hu hc => (traps (.inl ⟨hu, hc⟩)).trans noDue, fun hu hc => (traps (.inr ⟨hu, hc⟩)).trans noDue⟩ <;>
      subst hu <;> rw [State.accAnswer_eq hj ha]
    · simp only [h0, if_true, State.doneRd, State.ctx_answered]
    · simp only [h0, if_true, State.doneRd, State.ctx_answered]
    · simp only [h0, if_true]
    · simp only [h1, Nat.one_ne_zero, if_false, if_true]
    · simp only [h1, if_true]
      rfl
  case dues =>
    have htrap := State.accAnswer_trap (code := code) hj ha data
      (hu.elim (fun h => .inl ⟨.inl h, by omega⟩) (fun h => .inr ⟨h, hcode⟩))
    exact ⟨fun tail hd => htrap.trans (State.accTrap_abort (by simpa using hd) addr), fun hd => htrap.trans (State.accTrap_mcheck (by simpa using hd) addr)⟩

end Sys2Proof.Machine
end

section
/-! SUPPORT. What a wake of a tile leaves alone (R370, R386): everything but the agents. -/
namespace Sys2Proof.Machine

theorem State.wake_eq (s : State) (t : Nat) (b : Bool) : s.wake t b = { s with agents := (s.wake t b).agents } := by
  unfold State.wake
  split
  · dsimp only
    split <;> rfl
  · rfl

@[simp] theorem State.wake_regs (s : State) (t : Nat) (b : Bool) : (s.wake t b).regs = s.regs := by rw [State.wake_eq]
@[simp] theorem State.wake_build (s : State) (t : Nat) (b : Bool) : (s.wake t b).build = s.build := by rw [State.wake_eq]
@[simp] theorem State.wake_seq (s : State) (t : Nat) (b : Bool) : (s.wake t b).seq = s.seq := by rw [State.wake_eq]
@[simp] theorem State.wake_nis (s : State) (t : Nat) (b : Bool) : (s.wake t b).nis = s.nis := by rw [State.wake_eq]
@[simp] theorem State.wake_routers (s : State) (t : Nat) (b : Bool) : (s.wake t b).routers = s.routers := by rw [State.wake_eq]
@[simp] theorem State.wake_cyc (s : State) (t : Nat) (b : Bool) : (s.wake t b).cyc = s.cyc := by rw [State.wake_eq]
@[simp] theorem State.wake_evc (s : State) (t : Nat) (b : Bool) : (s.wake t b).evc = s.evc := by rw [State.wake_eq]
@[simp] theorem State.wake_tm (s : State) (t : Nat) (b : Bool) : (s.wake t b).tm = s.tm := by rw [State.wake_eq]

end Sys2Proof.Machine
end

section
/-! SUPPORT. CTLs of the sequencer (R59, R258, R296): sent under a TAG that is free, or noted until there is one. -/
namespace Sys2Proof.Machine

/-- The TAGs of a CTL's head are found again from its first one. -/
theorem headOf_tagHead {eng : Bool} {spread op : Nat} (hs : spread < 8) (ho : op < 4) :
    headOf (BitVec.ofNat 12 (tagHead eng spread op).1) = tagHead eng spread op := by
  have hall : ∀ (eng : Bool) (spread : Fin 8) (op : Fin 4), headOf (BitVec.ofNat 12 (tagHead eng spread.val op.val).1) = tagHead eng spread.val op.val := by decide
  exact hall eng ⟨spread, hs⟩ ⟨op, ho⟩

/-- The packet of a CTL as the sequencer makes it. -/
def State.ctlPkt (s : State) (dest : BitVec 10) (func lenm1 : Nat) (data : Line) : Pkt :=
  { dest := dest, src := s.build.cfgep, cls := 1, cmd := Cmd.CTL, dfc := 1, pdom := 8, lenm1 := BitVec.ofNat 8 lenm1,
    aux := BitVec.ofNat 32 func, data := [data] }

section Send
variable (s : State) (c : CtxId) (kind : CtlKind) (key : Nat) (eng : Bool) (spread op : Nat) (dest : BitVec 10) (func lenm1 : Nat) (data : Line)
  (tiles : Nat) (opid : Option (BitVec 16))

/-- The CTL as it is noted before it is sent. -/
def State.ctlNote : OutCtl :=
  ⟨s.seq.nextId, BitVec.ofNat 12 (tagHead eng spread op).1, dest, kind, c, key, ((s.ctx c).job.map (·.ring.val)).getD 8, s.ticks, tiles, opid,
    some (s.ctlPkt dest func lenm1 data)⟩

/-- The state in which a CTL has been noted. -/
def State.ctlNoted (o : OutCtl) : State :=
  { s with seq := { s.seq with ctls := s.seq.ctls ++ [o], nextId := s.seq.nextId + 1 } }

/-- The state in which a packet has been sent and the CTLs outstanding are those given. -/
def State.ctlSent (ctls : List OutCtl) (k : Pkt) : State :=
  ({ s.nextFree with seq := { s.seq with ctls := ctls, nextId := s.seq.nextId + 1, outq := s.seq.outq ++ [k] } } : State).wake (epTile s.build.cfgep) true

theorem State.sendCtl_eq : s.sendCtl c kind key eng spread op dest func lenm1 data tiles opid =
    (s.ctlNoted (s.ctlNote c kind key eng spread op dest func lenm1 data tiles opid)).launchCtl s.seq.nextId := rfl

/-- A CTL that is noted and held bears no TAG yet. -/
theorem State.freshTag_ctlNoted {o : OutCtl} (hh : o.held.isSome = true) (head bits : Nat) : (s.ctlNoted o).freshTag head bits = s.freshTag head bits := by
  unfold State.freshTag State.ctlNoted
  simp only [List.all_append, List.all_cons, hh, Bool.true_or, List.all_nil, Bool.and_true]

theorem State.find?_ctlNoted {o : OutCtl} (hid : o.id = s.seq.nextId) (hnew : ∀ x ∈ s.seq.ctls, x.id ≠ s.seq.nextId) :
    (s.ctlNoted o).seq.ctls.find? (fun x => x.id == s.seq.nextId) = some o := by
  have hnone : s.seq.ctls.find? (fun x => x.id == s.seq.nextId) = none := List.find?_eq_none.mpr (fun x hx => by simpa using hnew x hx)
  simp [State.ctlNoted, hnone, hid]

variable {s c kind key eng spread op dest func lenm1 data tiles opid}
variable (hs : spread < 8) (hop : op < 4) (hnew : ∀ o ∈ s.seq.ctls, o.id ≠ s.seq.nextId)
include hs hop hnew

/-- With a free TAG the CTL leaves under it; without one it stays noted. -/
theorem State.sendCtl_cases :
    (s.tagRoom eng spread op = false ∧ s.sendCtl c kind key eng spread op dest func lenm1 data tiles opid =
      s.ctlNoted (s.ctlNote c kind key eng spread op dest func lenm1 data tiles opid)) ∨
    (∃ tag, s.freshTag (tagHead eng spread op).1 (tagHead eng spread op).2 = some tag ∧
      s.sendCtl c kind key eng spread op dest func lenm1 data tiles opid =
        s.ctlSent (s.seq.ctls ++ [{ s.ctlNote c kind key eng spread op dest func lenm1 data tiles opid with tag := tag, sent := s.ticks, held := none }])
          { s.ctlPkt dest func lenm1 data with tag := tag, tstamp := s.stamp }) := by
  have hhead : headOf (s.ctlNote c kind key eng spread op dest func lenm1 data tiles opid).tag = tagHead eng spread op := headOf_tagHead hs hop
  rw [State.sendCtl_eq]
  rcases launchCtl_cases (s.find?_ctlNoted (o := s.ctlNote c kind key eng spread op dest func lenm1 data tiles opid) rfl hnew) rfl with
    ⟨hnone, heq⟩ | ⟨tag, htag, heq⟩
  · rw [hhead, State.freshTag_ctlNoted _ rfl] at hnone
    exact .inl ⟨by rw [State.tagRoom, hnone]; rfl, heq⟩
  · rw [hhead, State.freshTag_ctlNoted _ rfl] at htag
    have hmap (f : OutCtl → OutCtl) : s.seq.ctls.map (fun x => if x.id = s.seq.nextId then f x else x) = s.seq.ctls :=
      (List.map_congr_left (fun x hx => if_neg (hnew x hx))).trans (List.map_id _)
    refine .inr ⟨tag, htag, heq.trans (congrArg (s.ctlSent · _) ?_)⟩
    change (s.seq.ctls ++ [_]).map _ = _
    rw [List.map_append, hmap, List.map_singleton]
    exact congrArg (s.seq.ctls ++ [·]) (if_pos rfl)

end Send

/-- What sending a CTL leaves alone, whether it leaves at once or not. -/
theorem State.ctlSent_frame (s : State) (ctls : List OutCtl) (k : Pkt) :
    (s.ctlSent ctls k).seq.nextId = s.seq.nextId + 1 ∧ (s.ctlSent ctls k).regs = s.regs ∧ (s.ctlSent ctls k).nis = s.nis ∧
      (s.ctlSent ctls k).routers = s.routers ∧ (s.ctlSent ctls k).seq.ctx = s.seq.ctx := by
  simp [State.ctlSent, State.nextFree]

@[simp] theorem State.ctlSent_ctls (s : State) (ctls : List OutCtl) (k : Pkt) : (s.ctlSent ctls k).seq.ctls = ctls := by simp [State.ctlSent]
@[simp] theorem State.ctlSent_outq (s : State) (ctls : List OutCtl) (k : Pkt) : (s.ctlSent ctls k).seq.outq = s.seq.outq ++ [k] := by simp [State.ctlSent]
@[simp] theorem State.ctlSent_ctx (s : State) (ctls : List OutCtl) (k : Pkt) (c : CtxId) : (s.ctlSent ctls k).ctx c = s.ctx c := by
  simp [State.ctlSent, State.ctx]

theorem State.awaitInject_eq {s : State} {c : CtxId} {l : List OutCtl} {o : OutCtl} (h : s.seq.ctls = l ++ [o]) :
    s.awaitInject c = s.setCtx c { s.ctx c with wait := .inject o.tag o.dest } := by
  unfold State.awaitInject
  rw [h, List.getLast?_concat]

/-- A context that awaits the injection of its CTL goes on once no such packet waits at the crossing (R260). -/
theorem State.recheck1_inject {s : State} {c : CtxId} {j : Job} {tag : BitVec 12} {dest : BitVec 10} (hj : (s.ctx c).job = some j)
    (hw : (s.ctx c).wait = .inject tag dest) : s.recheck1 c = if s.injected tag dest then s.done c id else s := by
  unfold State.recheck1
  simp only [hj, hw]

theorem State.injected_iff {s : State} {tag : BitVec 12} {dest : BitVec 10} :
    s.injected tag dest = true ↔ ∀ k ∈ s.seq.outq, ¬ (k.tag = tag ∧ k.dest = dest) := by
  simp only [State.injected, List.all_eq_true, Bool.not_eq_true', Bool.and_eq_false_iff, beq_eq_false_iff_ne, Classical.not_and_iff_not_or_not, ne_eq]

end Sys2Proof.Machine
end

section
/-! SUPPORT. Fabric messages (R143, R258 to R263): what each instruction does before anything leaves, and how it waits. -/
namespace Sys2Proof.Machine

/-- The context may send: no plane is held, or it runs the stratum instructions (R143). -/
theorem State.msgHeld_iff {s : State} {c : CtxId} : s.msgHeld c = false ↔ s.heldPlane = none ∨ s.seq.strCtx = some c := by
  cases h : s.heldPlane <;> simp [State.msgHeld, h]

/-- The issue of an instruction leaves every wait as it is, so the same broadcasts are awaited. -/
theorem State.bcasts_issued (s : State) (c : CtxId) (j : Job) (w : BitVec 32) : (s.issued c j w).bcasts = s.bcasts := by
  have hw (d : CtxId) : ((s.issued c j w).ctx d).wait = (s.ctx d).wait := by
    by_cases h : d = c
    · subst h; simp
    · unfold State.issued; rw [State.ctx_setCtx_ne s _ h]
  have hs (d : CtxId) (id : Nat) : (s.issued c j w).stepAwaits d id = s.stepAwaits d id := by
    unfold State.stepAwaits
    rw [hw]
  unfold State.bcasts
  simp only [hs]
  rfl

section Message
variable {s : State} {c : CtxId} {j : Job} {w : BitVec 32}

/-- TSEND in the order of its tests (R260). -/
theorem State.tsend_cases :
    (destOk (msgDest j w) = false → s.tsend c j w = (s.tsError j.key 1).done c id) ∧
    (destOk (msgDest j w) = true → (s.msgHeld c = true → s.tsend c j w = s) ∧
      (s.msgHeld c = false → (16 ≤ s.tsOut c ∨ s.tagRoom false 0 0 = false → s.tsend c j w = s.awaitRoom c) ∧
        (s.tsOut c < 16 → s.tagRoom false 0 0 = true → s.tsend c j w =
          (s.sendCtl c .send j.key false 0 0 (msgDest j w) (mFunc w).toNat (msgLenm1 w) (lineOf (msgArgs j w)) 1 none).awaitInject c))) := by
  unfold State.tsend
  refine ⟨fun h => if_pos h, fun h => ⟨fun hh => ?_, fun hh => ⟨fun hr => ?_, fun hn ht => ?_⟩⟩⟩
  · simp [h, hh]
  · simp [h, hh, hr]
  · simp [h, hh, ht, Nat.not_le.mpr hn]

/-- TCALL in the order of its tests (R261). -/
theorem State.tcall_cases :
    (destOk (msgDest j w) = false → s.tcall c j w = s.callEnds c (mL w) { resp := Resp.DECERR, data := [] }) ∧
    (destOk (msgDest j w) = true → (s.msgHeld c = true → s.tcall c j w = s) ∧
      (s.msgHeld c = false → (s.tagRoom false 0 0 = false → s.tcall c j w = s.awaitRoom c) ∧
        (s.tagRoom false 0 0 = true → s.tcall c j w =
          (s.sendCtl c .call j.key false 0 0 (msgDest j w) (mFunc w).toNat (msgLenm1 w) (lineOf (msgArgs j w)) 1 none).awaitCtl c
            (fun id => .call id (mL w))))) := by
  unfold State.tcall
  refine ⟨fun h => if_pos h, fun h => ⟨fun hh => ?_, fun hh => ⟨fun ht => ?_, fun ht => ?_⟩⟩⟩
  · simp [h, hh]
  · simp [h, hh, ht]
  · simp [h, hh, ht]

/-- TBCAST in the order of its tests (R262). -/
theorem State.tbcast_cases :
    let may : Prop := mCh w = true → j.pchain = true
    let tags := s.tagRoom false (scopeNo (msgScope w)) 0
    (¬ may → s.tbcast c j w = s.trap c tPerm 0) ∧
    (may → scopeExists (msgScope w) = false → s.tbcast c j w = (s.tsError j.key 1).done c id) ∧
    (may → scopeExists (msgScope w) = true → (s.msgHeld c = true → s.tbcast c j w = s) ∧
      (s.msgHeld c = false → (s.bcastRoom = false ∨ tags = false → s.tbcast c j w = s.awaitRoom c) ∧
        (s.bcastRoom = true → tags = true →
          (¬ (mCh w = true → s.chnReady = true) → s.tbcast c j w = (s.tsError j.key 1).done c id) ∧
          ((mCh w = true → s.chnReady = true) → s.tbcast c j w = (s.spreadOut c j w .bcast none).awaitInject c)))) := by
  intro may tags
  have hmay : (mCh w && !j.pchain) = true ↔ ¬ may := by simp [may]
  have hready : (mCh w && !s.chnReady) = true ↔ ¬ (mCh w = true → s.chnReady = true) := by simp
  unfold State.tbcast
  simp only [hmay, hready]
  refine ⟨fun h => if_pos h, fun h hx => ?_, fun h hx => ⟨fun hh => ?_, fun hh => ⟨fun hr => ?_, fun hb ht => ⟨fun hc => ?_, fun hc => ?_⟩⟩⟩⟩ <;>
    rw [if_neg (Classical.not_not.mpr h)]
  · rw [if_pos hx]
  · rw [hx, hh, if_neg Bool.noConfusion, if_pos rfl]
  · rw [hx, hh, if_neg Bool.noConfusion, if_neg Bool.noConfusion, if_pos hr]
  · rw [hx, hh, if_neg Bool.noConfusion, if_neg Bool.noConfusion, hb, if_neg (by simpa [tags] using ht), if_pos hc]
  · rw [hx, hh, if_neg Bool.noConfusion, if_neg Bool.noConfusion, hb, if_neg (by simpa [tags] using ht), if_neg (Classical.not_not.mpr hc)]

/-- A gather in the order of its tests (R262). -/
theorem State.tgather_cases (op : Nat) :
    let may : Prop := mCh w = true → j.pchain = true
    let tags := s.tagRoom false (scopeNo (msgScope w) + 3) op
    (¬ may → s.tgather c j w op = s.trap c tPerm 0) ∧
    (may → scopeExists (msgScope w) = false → s.tgather c j w op = (s.tsError j.key 1).gatherEnds c 0 0) ∧
    (may → scopeExists (msgScope w) = true → (s.msgHeld c = true → s.tgather c j w op = s) ∧
      (s.msgHeld c = false → (tags = false → s.tgather c j w op = s.awaitRoom c) ∧
        (tags = true →
          (¬ (mCh w = true → s.chnReady = true) → s.tgather c j w op = s.gatherEnds c 0 (countsWord 0 0 (s.scopeTiles (msgScope w)))) ∧
          ((mCh w = true → s.chnReady = true) → s.tgather c j w op = (s.spreadOut c j w .call (some op)).awaitCtl c Wait.gather)))) := by
  intro may tags
  have hmay : (mCh w && !j.pchain) = true ↔ ¬ may := by simp [may]
  have hready : (mCh w && !s.chnReady) = true ↔ ¬ (mCh w = true → s.chnReady = true) := by simp
  unfold State.tgather
  simp only [hmay, hready]
  refine ⟨fun h => if_pos h, fun h hx => ?_, fun h hx => ⟨fun hh => ?_, fun hh => ⟨fun ht => ?_, fun ht => ⟨fun hc => ?_, fun hc => ?_⟩⟩⟩⟩ <;>
    rw [if_neg (Classical.not_not.mpr h)]
  · rw [if_pos hx]
  · rw [hx, hh, if_neg Bool.noConfusion, if_pos rfl]
  · rw [hx, hh, if_neg Bool.noConfusion, if_neg Bool.noConfusion, if_pos ht]
  · rw [hx, hh, if_neg Bool.noConfusion, if_neg Bool.noConfusion, if_neg (by simpa [tags] using ht), if_pos hc]
  · rw [hx, hh, if_neg Bool.noConfusion, if_neg Bool.noConfusion, if_neg (by simpa [tags] using ht), if_neg (Classical.not_not.mpr hc)]

end Message

/-- An instruction whose action on the issued state is t. -/
theorem State.issue_eq {s : State} {c : CtxId} {op : Nat} {j : Job} {w : BitVec 32} (h : s.atInstr c op j w) {act : State → Job → BitVec 32 → State}
    {t : State} (ht : act (s.issued c j w) { j with lastPc := j.pc } w = t) : (.next (s.issue c op act) : Res) = .next t.recheck := by
  rw [← ht]
  exact congrArg Host.Outcome.next (State.issue_runs h act)

theorem State.done_issued {s : State} {c : CtxId} {j : Job} {w : BitVec 32} (hd : (s.ctx c).due = none) (f : Job → Job) :
    (s.issued c j w).done c f = (s.issued c j w).retired c (f { j with lastPc := j.pc }) (j.pc + 1) :=
  State.done_eq (j := { j with lastPc := j.pc }) (by simp) (by simpa using hd) f

theorem State.gatherEnds_issued {s : State} {c : CtxId} {j : Job} {w : BitVec 32} (hd : (s.ctx c).due = none) (v n : W) :
    (s.issued c j w).gatherEnds c v n =
      (s.issued c j w).retired c ((Job.set { j with lastPc := j.pc } (iRd w) v).set (iRd w + 1) n) (j.pc + 1) := by
  rw [State.gatherEnds, State.done_issued hd, State.ctx_issued]

/-- Settles O12: the tests of each message in their order, the CTL that leaves or is noted, and the end of the wait for its injection. -/
theorem fabricMessages : Obligations.FabricMessages := by
  refine ⟨fun s c j w hd => ?instructions, fun s c kind key eng spread op dest func lenm1 data tiles opid hs hop hnew => ?sends,
    fun s id o k ho hk => ?launches, fun s c j tag dest hj hd hw => ?injections⟩
  case instructions =>
    intro j' s' rs free held room none_ d args send may ready perm gather
    have sends : free → s'.msgHeld c = false := fun h => State.msgHeld_iff.mpr h
    have holds : ¬ free → s'.msgHeld c = true := fun h => by
      rw [← Bool.not_eq_false]; exact fun hf => h (State.msgHeld_iff.mp hf)
    have hgather (i : Instr) (op : Nat) (hop : ∀ h : s.atInstr c (0x33 + op) j w, exec i s = .next (s.issue c (0x33 + op) (fun s j w => s.tgather c j w op)))
        (h : s.atInstr c (0x33 + op) j w) : gather i op := by
      simp only [gather]
      obtain ⟨hperm, hscope, hrest⟩ := State.tgather_cases (s := s') (c := c) (j := j') (w := w) op
      have runs {t : State} (ht : s'.tgather c j' w op = t) : exec i s = .next t.recheck := (hop h).trans (State.issue_eq h ht)
      refine ⟨fun hm => runs (hperm hm), fun hm hx => runs (hscope hm hx), fun hm hx => ?_⟩
      obtain ⟨hheld, hfree⟩ := hrest hm hx
      refine ⟨fun hf => runs (hheld (holds hf)), fun hf ht => runs ((hfree (sends hf)).1 ht), fun hf ht hr => ?_,
        fun hf ht hr => runs (((hfree (sends hf)).2 ht).2 hr)⟩
      rw [runs (((hfree (sends hf)).2 ht).1 hr), State.gatherEnds_issued hd]
      rfl
    refine ⟨fun h => ?tsend, fun h => ?tcall, fun h => ?tbcast, fun h => hgather _ 0 (fun _ => rfl) h, fun h => hgather _ 1 (fun _ => rfl) h,
      fun h => hgather _ 2 (fun _ => rfl) h, fun h => hgather _ 3 (fun _ => rfl) h⟩
    case tsend =>
      obtain ⟨hbad, hgood⟩ := State.tsend_cases (s := s') (c := c) (j := j') (w := w)
      exact ⟨fun hd hf hn ht => State.issue_eq h (((hgood hd).2 (sends hf)).2 hn ht), fun hd hf hr => State.issue_eq h (((hgood hd).2 (sends hf)).1 hr),
        fun hd hf => State.issue_eq h ((hgood hd).1 (holds hf)), fun hd => State.issue_eq h (hbad hd)⟩
    case tcall =>
      obtain ⟨hbad, hgood⟩ := State.tcall_cases (s := s') (c := c) (j := j') (w := w)
      refine ⟨fun hd hf ht => State.issue_eq h (((hgood hd).2 (sends hf)).2 ht), fun hd hf ht => State.issue_eq h (((hgood hd).2 (sends hf)).1 ht),
        fun hd hf => State.issue_eq h ((hgood hd).1 (holds hf)), fun hdest => State.issue_eq h ((hbad hdest).trans ?_)⟩
      rw [State.callEnds, State.done_issued hd, State.ctx_issued]
      rfl
    case tbcast =>
      intro tags
      obtain ⟨hperm, hscope, hrest⟩ := State.tbcast_cases (s := s') (c := c) (j := j') (w := w)
      have hroom : s'.bcastRoom = s.bcastRoom := by rw [State.bcastRoom, State.bcasts_issued]; rfl
      rw [hroom] at hrest
      refine ⟨fun hm => State.issue_eq h (hperm hm), fun hm hx => State.issue_eq h (hscope hm hx), fun hm hx => ?_⟩
      obtain ⟨hheld, hfree⟩ := hrest hm hx
      exact ⟨fun hf => State.issue_eq h (hheld (holds hf)), fun hf hr => State.issue_eq h ((hfree (sends hf)).1 hr),
        fun hf hb ht hr => State.issue_eq h (((hfree (sends hf)).2 hb ht).1 hr), fun hf hb ht hr => State.issue_eq h (((hfree (sends hf)).2 hb ht).2 hr)⟩
  case sends =>
    intro t frame
    rcases State.sendCtl_cases (c := c) (kind := kind) (key := key) (eng := eng) (dest := dest) (func := func) (lenm1 := lenm1) (data := data)
      (tiles := tiles) (opid := opid) hs hop hnew with ⟨hroom, heq⟩ | ⟨tag, htag, heq⟩
    · refine ⟨fun h => absurd (hroom.symm.trans h) Bool.false_ne_true, fun _ => ?_⟩
      simp only [frame, t, heq]
      exact ⟨⟨rfl, rfl, rfl, rfl, rfl⟩, rfl, _, rfl, rfl, rfl, rfl, rfl, _, rfl, rfl, rfl, rfl⟩
    · have hroom : s.tagRoom eng spread op = true := by rw [State.tagRoom, htag]; rfl
      refine ⟨fun _ => ?_, fun h => absurd (hroom.symm.trans h) Bool.noConfusion⟩
      simp only [frame, t, heq]
      refine ⟨State.ctlSent_frame _ _ _, tag, (freshTag_some htag).2, ⟨_, State.ctlSent_outq _ _ _, rfl, rfl, rfl, rfl, rfl, rfl, rfl, rfl, rfl⟩,
        ⟨_, State.ctlSent_ctls _ _ _, rfl, rfl, rfl, rfl, rfl, rfl, rfl⟩, ?_⟩
      rw [State.awaitInject_eq (State.ctlSent_ctls _ _ _), State.ctlSent_ctx]
      rfl
  case launches =>
    intro head heads
    have hmem {p : BitVec 12 → Prop} : (∀ tag ∈ heads, p tag) ↔ ∀ i, i < 2 ^ head.2 → p (BitVec.ofNat 12 (head.1 + i)) := by simp [heads]
    have hnone := freshTag_none_iff (s := s) (head := head.1) (bits := head.2)
    rcases launchCtl_cases ho hk with ⟨hno, heq⟩ | ⟨tag, htag, heq⟩
    · refine ⟨fun _ => heq, fun ⟨tag, htag, hfree⟩ => ?_⟩
      obtain ⟨x, hx, hh, ht⟩ := (hmem (p := fun tag => ∃ x ∈ s.seq.ctls, x.held = none ∧ x.tag = tag)).mpr (hnone.mp hno) tag htag
      exact absurd ht (hfree x hx hh)
    · obtain ⟨⟨i, hi, rfl⟩, hfree⟩ := freshTag_some htag
      refine ⟨fun hall => ?_, fun _ => ⟨_, by simp only [heads, List.mem_map, List.mem_range]; exact ⟨i, hi, rfl⟩, hfree, ?_⟩⟩
      · obtain ⟨x, hx, hh, ht⟩ := hmem.mp hall i hi
        exact absurd ht (hfree x hx hh)
      · rw [heq]
        exact ⟨_, by rw [State.wake_seq], rfl, rfl, by rw [State.wake_seq]⟩
  case injections =>
    rw [State.recheck1_inject hj hw]
    refine ⟨fun ⟨k, hk, htag⟩ => if_neg (fun hi => State.injected_iff.mp hi k hk htag), fun hall => ?_⟩
    rw [if_pos (State.injected_iff.mpr hall)]
    exact State.done_eq hj hd id

end Sys2Proof.Machine
end

section
/-! SUPPORT. Locks (R269, R270): what a slot reads after it was taken, and what the ends of a job leave of the slots. -/
namespace Sys2Proof.Machine

-- Taking a slot.

theorem State.regsOk_setLeaseEnd {s : State} (h : s.regsOk) (l e : Nat) : (s.setLeaseEnd l e).regsOk := h

/-- What a slot reads after it was taken (R269). -/
theorem State.takeLock_reads {s : State} (h : s.canon) (l : Nat) {ring : Nat} (hr : ring < 16) (lease : Nat) :
    (s.takeLock l ring lease).lockState l = lkIsHeld ∧ (s.takeLock l ring lease).lockOwner l = ring ∧
      tget 0 (s.takeLock l ring lease).seq.leaseEnd l = if lease = 0 then 0 else s.ticks + lease := by
  have h1 : (s.p (aLock l) SEQ_LOCK.STATE lkIsHeld).regsOk := State.regsOk_p h.regs _ _ _
  have h2 : ((s.p (aLock l) SEQ_LOCK.STATE lkIsHeld).p (aLock l) SEQ_LOCK.OWNER ring).regsOk := State.regsOk_p h1 _ _ _
  have h3 := State.regsOk_setLeaseEnd h2 l (if lease = 0 then 0 else s.ticks + lease)
  refine ⟨?state, ?owner, ?lease⟩
  case state =>
    unfold State.takeLock State.setLease State.lockState State.pb
    rw [State.g_p_other _ _ _ _ _ h3 (by decide)]
    exact (State.g_p_other _ _ _ _ _ h1 (by decide)).trans (State.g_p _ _ _ _ h.regs (by decide))
  case owner =>
    unfold State.takeLock State.setLease State.lockOwner State.pb
    rw [State.g_p_other _ _ _ _ _ h3 (by decide)]
    exact (State.g_p _ _ _ _ h1 (by decide)).trans (Nat.mod_eq_of_lt hr)
  case lease => exact tget_tput (d := fun _ => 0) l _ h.seq.leaseEnd

@[simp] theorem State.takeLock_ctx (s : State) (l ring lease : Nat) (c : CtxId) : (s.takeLock l ring lease).ctx c = s.ctx c := by
  simp [State.takeLock, State.setLease, State.setLeaseEnd, State.ctx]
@[simp] theorem State.takeLock_lockq (s : State) (l ring lease : Nat) : (s.takeLock l ring lease).seq.lockq = s.seq.lockq := by
  simp [State.takeLock, State.setLease, State.setLeaseEnd]

-- A slot's next holder.

theorem State.grantLock_none {s : State} {l : Nat} (hn : s.seq.lockq.find? (fun x => x.1 == l) = none) : s.grantLock l = s := by
  unfold State.grantLock
  simp only [hn, ite_self]

@[simp] theorem Job.set_pc (j : Job) (n : Nat) (v : W) : (j.set n v).pc = j.pc := by unfold Job.set; split <;> rfl

/-- The LOCK that has waited longest takes a slot that is free or broken (R269). -/
theorem State.grantLock_some {s : State} {c : CtxId} {j : Job} {l l' lease : Nat} (hl : s.lockState l ≠ lkIsHeld)
    (hq : s.seq.lockq.find? (fun x => x.1 == l) = some (l, c)) (hj : (s.ctx c).job = some j) (hw : (s.ctx c).wait = .lock l' lease) :
    s.grantLock l = State.retired { s.takeLock l j.ring.val lease with seq := { (s.takeLock l j.ring.val lease).seq with
        lockq := s.seq.lockq.filter (fun x => x.2 != c) } } c
      (j.set (iRd (s.ctx c).word) (BitVec.ofNat 64 (if s.lockState l = lkFree then rOk else rBroken))) (j.pc + 1) := by
  unfold State.grantLock
  simp only [hl, if_false, hq, hj, hw]
  have hctx := s.takeLock_ctx l j.ring.val lease c
  have hlockq := s.takeLock_lockq l j.ring.val lease
  generalize s.takeLock l j.ring.val lease = t at hctx hlockq ⊢
  rw [← hctx, ← hlockq, ← Job.set_pc j (iRd (t.ctx c).word) (BitVec.ofNat 64 (if s.lockState l = lkFree then rOk else rBroken))]
  rfl

/-- A LOCK that waited too long leaves the queue of its slot with HELD (R264, R269). -/
theorem State.lockGivesUp_eq {s : State} {c : CtxId} {j : Job} (hj : (s.ctx c).job = some j) (hd : (s.ctx c).due = none) :
    s.lockGivesUp c = State.retired { s with seq := { s.seq with lockq := s.seq.lockq.filter (fun x => x.2 != c) } } c
      (j.set (iRd (s.ctx c).word) (BitVec.ofNat 64 rHeld)) (j.pc + 1) :=
  State.doneCode_eq (s := { s with seq := { s.seq with lockq := s.seq.lockq.filter (fun x => x.2 != c) } }) hj hd _

-- What else happens to a slot when a job ends.

theorem aLock_lt {l : Nat} (hl : l < 64) : aLock l < baseSeq + 0x700 ∧ baseSeq + 0x500 ≤ aLock l := by unfold aLock; omega

/-- A completion record writes its words, CPLTAIL and the count of jobs (R289). -/
theorem State.rd_record {s : State} {r : Nat} {c : CtxId} {jobid status cause pc : Nat} {result : W} {evt : Bool} {insns tserr sref o : Nat}
    (hcpl : ∀ i k, o ≠ aCpl r i k) (htail : o ≠ aCpltail r) (hstatus : o ≠ aSeqStatus) :
    (s.record r c jobid status cause pc result evt insns tserr sref).rd o = s.rd o := by
  have hwords : ∀ t : State, ∀ i k v, (t.wr (aCpl r i k) v).rd o = t.rd o := fun t i k v => t.rd_wr_ne v (hcpl i k)
  have hcounts : ∀ t : State, ∀ v, ((t.setPtr (aCpltail r) v).bump aSeqStatus SEQ_STATUS.JOBS).rd o = t.rd o := fun t v =>
    (State.rd_wr_ne _ _ hstatus).trans (t.rd_wr_ne _ htail)
  unfold State.record
  dsimp only
  split
  · rw [State.rd_raise, hcounts, hwords, hwords, hwords, hwords]
  · rw [hcounts, hwords, hwords, hwords, hwords]

theorem State.endRecord_seq (s : State) (c : CtxId) (j : Job) (status cause : Nat) (result : W) : (s.endRecord c j status cause result).seq = s.seq := by
  unfold State.endRecord State.record
  dsimp only
  split <;> simp [State.setPtr]

theorem State.sendFrame_regs (s : State) (p dst src : Nat) (b : FrameBody) : (s.sendFrame p dst src b).regs = s.regs ∧ (s.sendFrame p dst src b).build = s.build := by
  unfold State.sendFrame
  split <;> exact ⟨rfl, rfl⟩

section Slots
variable {l : Nat} (hl : l < 64)
include hl

/-- A job's record writes completion slots, pointers and counters, no lock slot (R289). -/
theorem State.endRecord_slot (s : State) (c : CtxId) (j : Job) (status cause : Nat) (result : W) :
    (s.endRecord c j status cause result).rd (aLock l) = s.rd (aLock l) := by
  obtain ⟨hlt, hge⟩ := aLock_lt hl
  have hring := j.ring.isLt
  have hcpl (i k : Nat) : aLock l ≠ aCpl j.ring.val i k := by unfold aCpl; omega
  have htail : aLock l ≠ aCpltail j.ring.val := by unfold aCpltail; omega
  have hhead : aLock l ≠ aRinghead j.ring.val := by unfold aRinghead; omega
  have hstatus : aLock l ≠ aSeqStatus := by unfold aSeqStatus; omega
  generalize aLock l = o at *
  exact (State.rd_wr_ne _ _ hhead).trans (State.rd_record hcpl htail hstatus)

theorem State.reloadStart_slot (s : State) : s.reloadStart.rd (aLock l) = s.rd (aLock l) := by
  obtain ⟨hlt, hge⟩ := aLock_lt hl
  have status : aLock l ≠ aSeqStatus := by unfold aSeqStatus; omega
  have boot : aLock l ≠ aBootStat := by have : aBootStat < baseSeq := by decide
                                        omega
  unfold State.reloadStart
  split
  · rfl
  · have hwr : ((s.pb aSeqStatus SEQ_STATUS.RELOADING true).p aBootStat BOOT_STAT.STATE bsReload).rd (aLock l) = s.rd (aLock l) := by
      simp only [State.pb, State.p, State.rd_wr_ne _ _ status, State.rd_wr_ne _ _ boot]
    dsimp only
    split
    · obtain ⟨hregs, hbuild⟩ := State.sendFrame_regs (State.mk _ _ _ _ _ _ _ _ _ _ _ _ _ _ _ _ _ _ _ _ _ _ _ _ _ _) 0 1 _ .qreq
      exact (State.rd_of hregs hbuild _).trans hwr
    · exact hwr

end Slots

/-- Sending what waited for a TAG writes no register. -/
theorem State.launchCtl_regs (s : State) (id : Nat) : (s.launchCtl id).regs = s.regs ∧ (s.launchCtl id).build = s.build := by
  unfold State.launchCtl
  split
  · exact ⟨rfl, rfl⟩
  · dsimp only
    split <;> simp [State.nextFree]

theorem State.launchHeld_regs (s : State) : s.launchHeld.regs = s.regs ∧ s.launchHeld.build = s.build := by
  unfold State.launchHeld
  generalize ((s.seq.ctls.filter (·.held.isSome)).map (·.id)) = ids
  induction ids generalizing s with
  | nil => exact ⟨rfl, rfl⟩
  | cons i ids ih =>
    obtain ⟨hregs, hbuild⟩ := ih (s.launchCtl i)
    obtain ⟨hregs', hbuild'⟩ := s.launchCtl_regs i
    exact ⟨hregs.trans hregs', hbuild.trans hbuild'⟩

/-- With no job there is no wait whose condition could have come. -/
theorem State.recheck_idle {s : State} (h : ∀ c, (s.ctx c).job = none) : s.recheck = s.launchHeld.reloadStart := by
  have one (c : CtxId) : s.recheck1 c = s := by
    unfold State.recheck1
    simp only [h c]
  have all : ctxIds.foldl State.recheck1 s = s := by simp only [ctxIds, List.foldl_cons, List.foldl_nil, one]
  unfold State.recheck
  simp only [List.foldl_cons, List.foldl_nil, all]

@[simp] theorem State.ctx_freeCtx (s : State) (c : CtxId) : (s.freeCtx c).ctx c = Ctx.reset := by simp [State.freeCtx]
theorem State.ctx_freeCtx_ne (s : State) {c d : CtxId} (h : d ≠ c) : (s.freeCtx c).ctx d = s.ctx d := by
  unfold State.freeCtx
  rw [State.ctx_setCtx_ne _ _ h]
  rfl
@[simp] theorem State.rd_freeCtx (s : State) (c : CtxId) (o : Nat) : (s.freeCtx c).rd o = s.rd o := rfl

/-- The last job's end leaves every lock slot (R269). -/
theorem State.freeCtx_recheck_slot {s : State} {c : CtxId} (h : ∀ d, d ≠ c → (s.ctx d).job = none) {l : Nat} (hl : l < 64) :
    (s.freeCtx c).recheck.rd (aLock l) = s.rd (aLock l) := by
  have idle (d : CtxId) : ((s.freeCtx c).ctx d).job = none := by
    by_cases hd : d = c
    · subst hd; simp [Ctx.reset]
    · rw [State.ctx_freeCtx_ne s hd]; exact h d hd
  obtain ⟨hregs, hbuild⟩ := (s.freeCtx c).launchHeld_regs
  rw [State.recheck_idle idle, State.reloadStart_slot hl, State.rd_of hregs hbuild, State.rd_freeCtx]

-- LOCK and UNLK.

section Slot
variable {s : State} {c : CtxId} {j : Job} {w : BitVec 32}

/-- LOCK by the state of the slot (R269). -/
theorem State.lock_cases :
    let l := fld w 0 6
    let taken := s.takeLock l j.ring.val (fld (j.get (iRa w)) 0 32)
    (s.lockState l = lkFree → s.lock c j w = taken.doneCode c rOk) ∧ (s.lockState l = lkBroken → s.lock c j w = taken.doneCode c rBroken) ∧
    (s.lockState l = lkIsHeld → s.lockOwner l = j.ring.val → s.lock c j w = taken.doneCode c rOwned) ∧
    (s.lockState l = lkIsHeld → s.lockOwner l ≠ j.ring.val →
      (fld w 6 6 = 0 → s.lock c j w = s.doneCode c rHeld) ∧
      (fld w 6 6 ≠ 0 → s.lock c j w = State.await { s with seq := { s.seq with lockq := s.seq.lockq ++ [(l, c)] } } c
        (.lock l (fld (j.get (iRa w)) 0 32)) (s.ticks + 256 * fld w 6 6))) := by
  intro l taken
  unfold State.lock
  have hfree : lkIsHeld ≠ lkFree := by decide
  have hbroken : lkIsHeld ≠ lkBroken := by decide
  refine ⟨fun h => if_pos h, fun h => ?_, fun h ho => ?_, fun h ho => ⟨fun hn => ?_, fun hn => ?_⟩⟩
  · simp only [l] at h
    simp only [h, show lkBroken ≠ lkFree by decide, if_false, if_true]
    rfl
  all_goals
    simp only [l] at h ho
    simp only [h, ho, hfree, hbroken, if_false, if_true]
  · rfl
  · rw [if_pos hn]
  · rw [if_neg hn]

end Slot

/-- Settles O13: LOCK and UNLK by the state of the slot, the hand-over and the end of a wait, and the ends of a job, which write no slot. -/
theorem locksTakeAndRelease : Obligations.LocksTakeAndRelease := by
  refine ⟨fun s c j w hd => ?instructions, fun s c j l lease hc hl hj hd hw => ⟨?reads, fun hs hq => State.grantLock_some hs hq hj hw,
    fun _ hq => State.grantLock_none hq, ?expires⟩, fun s c j w h hidle => ?kept⟩
  case instructions =>
    intro l n lease j' s' taken other
    have doneCode (t : State) (ht : t.ctx c = s'.ctx c) (n : Nat) : t.doneCode c n = t.retired c (j'.set (iRd w) (BitVec.ofNat 64 n)) (j.pc + 1) := by
      rw [State.doneCode_eq (j := j') (by rw [ht]; simp [s', j']) (by rw [ht]; simpa [s'] using hd), ht, State.ctx_issued]
    refine ⟨fun h => ?lock, fun h => ?unlk⟩
    case lock =>
      obtain ⟨hfree, hbroken, howned, hheld⟩ := State.lock_cases (s := s') (c := c) (j := j') (w := w)
      have take {code : Nat} := doneCode (s'.takeLock l j.ring.val lease) (State.takeLock_ctx _ _ _ _ _) code
      exact ⟨fun hs => State.issue_eq h ((hfree hs).trans take), fun hs => State.issue_eq h ((hbroken hs).trans take), fun hs ho => State.issue_eq h ((howned hs ho).trans take),
        fun ho hn => State.issue_eq h (((hheld ho.1 ho.2).1 hn).trans (doneCode s' rfl _)), fun ho hn => State.issue_eq h ((hheld ho.1 ho.2).2 hn)⟩
    case unlk =>
      have hfields : (iSub w == 0 && fld w 6 6 == 0 && iRa w == 0) = true := h.fields
      simp only [Bool.and_eq_true, beq_iff_eq] at hfields
      obtain ⟨⟨_, hn⟩, hra⟩ := hfields
      refine ⟨fun hs ho => State.issue_eq h ?_, fun ho => State.issue_eq h ?_, hra, hn⟩
      · exact (if_pos ⟨hs, ho⟩).trans (congrArg (State.grantLock · l) (doneCode ((s'.p (aLock l) SEQ_LOCK.STATE lkFree).setLease l 0) rfl _))
      · exact (if_neg ho).trans (doneCode s' rfl _)
  case reads => exact State.takeLock_reads hc l (by have := j.ring.isLt; omega) lease
  case expires =>
    intro late
    have hexec : exec (.lockWaitExpiry c) s = .next (late.lockGivesUp c).recheck := by
      change (Host.Outcome.next _ : Res) = _
      simp only [hw]
      rfl
    exact hexec.trans (congrArg (fun t : State => (.next t.recheck : Res)) (State.lockGivesUp_eq (s := late) hj hd))
  case kept =>
    have idle (d : CtxId) (hne : d ≠ c) : ((s.issued c j w).ctx d).job = none := by
      rw [State.issued, State.ctx_setCtx_ne s _ hne]
      exact hidle d hne
    rcases h with h | h <;> have hop := h.opcode
    · refine ⟨_, by rw [if_pos hop]; exact State.issue_eq h rfl, fun l hl => ?_⟩
      rw [State.freeCtx_recheck_slot (fun d hne => ?_) hl, State.endRecord_slot hl]
      · rfl
      · rw [State.ctx, State.endRecord_seq]
        exact idle d hne
    · refine ⟨_, by rw [if_neg (by rw [hop]; decide)]; exact State.issue_eq h rfl, fun l hl => ?_⟩
      rw [State.freeCtx_recheck_slot (fun d hne => ?_) hl]
      · rfl
      · exact idle d hne

end Sys2Proof.Machine
end

section
/-! SUPPORT. Time instructions (R273, R394): what TRD reads, and the changes that TLOAD, TADJ and TSLEW ask for. -/
namespace Sys2Proof.Machine

theorem State.timeIssue_refused {s : State} {c : CtxId} {j : Job} {x : TimeChange} (h : j.ptime = false) : s.timeIssue c j x = s.trap c tPerm 0 := if_pos h

theorem State.timeIssue_granted {s : State} {c : CtxId} {j : Job} {x : TimeChange} (h : j.ptime = true) :
    s.timeIssue c j x = (s.timeChange x).await c (.time (s.fcc + applyDelay)) 0 := if_neg (by rw [h]; exact Bool.noConfusion)

/-- TLOAD with ATPPS clear asks for a load; with it set it arms one, unless one is armed (R273, R397). -/
theorem State.tloadIssue_cases {s : State} {c : CtxId} {j : Job} {w : BitVec 32} :
    (j.ptime = false → s.tloadIssue c j w = s.trap c tPerm 0) ∧
    (j.ptime = true → (bitOf w 0 = false → s.tloadIssue c j w = (s.timeChange (.load (j.get (iRa w)).toNat s.runNow)).await c (.time (s.fcc + applyDelay)) 0) ∧
      (bitOf w 0 = true → (s.tb.armed.isSome = true → s.tloadIssue c j w = s.doneCode c rBusy) ∧
        (s.tb.armed = none → s.tloadIssue c j w = (s.armPps (j.get (iRa w)).toNat).doneCode c rOk))) := by
  unfold State.tloadIssue
  refine ⟨fun h => ?_, fun h => ⟨fun hb => ?_, fun hb => ⟨fun ha => ?_, fun ha => ?_⟩⟩⟩
  · cases hb : bitOf w 0
    · exact State.timeIssue_refused h
    · exact if_pos h
  · simp only [hb, Bool.false_eq_true, if_false, State.timeIssue_granted h]
  · simp only [hb, h, ha, Bool.true_eq_false, if_false, if_true]
  · simp only [hb, h, ha, Bool.true_eq_false, if_false, if_true, Option.isSome_none, Bool.false_eq_true]

/-- Settles O16: each instruction after its issue, by PTIME and ATPPS. -/
theorem timeInstructions : Obligations.TimeInstructions := by
  intro s c j w hd v s' j' rd change perm
  have doneCode (t : State) (ht : t.ctx c = s'.ctx c) (n : Nat) : t.doneCode c n = t.retired c (j'.set (iRd w) (BitVec.ofNat 64 n)) (j.pc + 1) := by
    rw [State.doneCode_eq (j := j') (by rw [ht]; simp [s', j']) (by rw [ht]; simpa [s'] using hd), ht, State.ctx_issued]
  have reads (x : W) : s'.doneRd c x = s.wrote c j w (iRd w) x (j.pc + 1) := by
    rw [State.doneRd_eq (j := j') (by simp [s', j']) (by simpa [s'] using hd), State.ctx_issued]
    rfl
  have changes {act : State → Job → BitVec 32 → State} {op : Nat} {x : TimeChange} (h : s.atInstr c op j w) (hact : act s' j' w = s'.timeIssue c j' x) :
      (j.ptime = false → (.next (s.issue c op act) : Res) = perm) ∧ (j.ptime = true → (.next (s.issue c op act) : Res) = change x) :=
    ⟨fun hp => State.issue_eq h (hact.trans (State.timeIssue_refused hp)), fun hp => State.issue_eq h (hact.trans (State.timeIssue_granted hp))⟩
  refine ⟨fun h => ⟨fun hsrc => ?net, fun hsrc => ?ticks, fun hsrc => ?pps⟩, fun h => ?tload, fun h => changes h rfl, fun h => changes h rfl⟩
  case net => exact State.issue_eq h (by rw [hsrc]; exact reads _)
  case ticks => exact State.issue_eq h (by rw [hsrc]; exact reads _)
  case pps => exact State.issue_eq h (by rw [hsrc]; exact reads _)
  case tload =>
    obtain ⟨hperm, hgranted⟩ := State.tloadIssue_cases (s := s') (c := c) (j := j') (w := w)
    exact ⟨fun hp => State.issue_eq h (hperm hp), fun hp hb => State.issue_eq h ((hgranted hp).1 hb),
      fun hp hb ha => State.issue_eq h ((((hgranted hp).2 hb).1 ha).trans (doneCode s' rfl _)),
      fun hp hb ha => State.issue_eq h ((((hgranted hp).2 hb).2 ha).trans (doneCode (s'.armPps v.toNat) rfl _))⟩

end Sys2Proof.Machine
end

section
/-! SUPPORT. Writes of registers and nothing else: one word, one field, and one after the other. -/
namespace Sys2Proof.Machine

theorem State.writesOnly_wr (s : State) (o : Nat) (v : W) : s.writesOnly (s.wr o v) [o] :=
  ⟨rfl, fun _ hi => s.rd_wr_ne v (List.ne_of_not_mem_cons hi)⟩

theorem State.writesOnly_p (s : State) (o : Nat) (f : Fd) (x : Nat) : s.writesOnly (s.p o f x) [o] := s.writesOnly_wr o _

theorem State.gb_pb_true (s : State) (o : Nat) (f : Fd) (h : s.regsOk) (hf : f.lo + f.w ≤ 64) (hw : 0 < f.w) : (s.pb o f true).gb o f = true := by
  have hpow : 1 < 2 ^ f.w := Nat.one_lt_two_pow (by omega)
  rw [State.gb, State.pb, State.g_p _ _ _ _ h hf, Bool.toNat_true, Nat.mod_eq_of_lt hpow]
  rfl

/-- A word with another field in it: the field reads back, one beside it reads as before. -/
theorem extract_setFld {n : Nat} (v : BitVec n) (lo w : Nat) (x : BitVec w) (h : lo + w ≤ n) : (setFld v lo w x.toNat).extractLsb' lo w = x :=
  BitVec.eq_of_toNat_eq ((fld_setFld v lo w x.toNat h).trans (Nat.mod_eq_of_lt x.isLt))

theorem extract_setFld_ne {n : Nat} (v : BitVec n) (lo w x lo' w' : Nat) (h : lo' + w' ≤ lo ∨ lo + w ≤ lo') :
    (setFld v lo w x).extractLsb' lo' w' = v.extractLsb' lo' w' :=
  BitVec.eq_of_toNat_eq (fld_setFld_ne v lo w x lo' w' h)

end Sys2Proof.Machine
end

section
/-! SUPPORT. Program rings and the start of jobs (R247, R248, R285 to R289). -/
namespace Sys2Proof.Machine

section Owner
variable {s : State} {m : Master} {r : RingId}

theorem State.ringtailWrite_cases (ho : s.ownsRing m r.val = true) (v : Nat) :
    let n := (v + 65536 - s.head r.val) % 65536
    (s.ringCount r.val ≤ n ∧ n ≤ 4096 → s.ringtailWrite m r.val v = s.setPtr (aRingtail r.val) v) ∧
    (n < s.ringCount r.val ∨ 4096 < n → s.ringtailWrite m r.val v = s.ringError r.val) := by
  intro n
  unfold State.ringtailWrite
  rw [if_neg (Classical.not_not.mpr ho)]
  exact ⟨fun ⟨hlo, hhi⟩ => if_neg (by omega), fun h => if_pos h.symm⟩

theorem State.cplheadWrite_cases (ho : s.ownsRing m r.val = true) (v : Nat) :
    let h := s.ptr (aCplhead r.val)
    let fits : Prop := (v + 65536 - h) % 65536 ≤ (s.ptr (aCpltail r.val) + 65536 - h) % 65536
    (fits → s.cplheadWrite m r.val v = s.setPtr (aCplhead r.val) v) ∧ (¬ fits → s.cplheadWrite m r.val v = s.ringError r.val) := by
  intro h fits
  unfold State.cplheadWrite
  rw [if_neg (Classical.not_not.mpr ho)]
  exact ⟨fun hf => if_pos hf, fun hf => if_neg hf⟩

end Owner

theorem State.ptr_setPtr {s : State} (h : s.regsOk) (o : Nat) (v : Nat) : (s.setPtr o v).ptr o = v % 65536 := s.g_p o SEQ_PTR.PTR v h (by decide)

/-- A write that a ring refuses sets RERR and raises event 939; another pointer stays (R286, R289). -/
theorem State.ringError_facts {s : State} (h : s.regsOk) (r : Nat) :
    (s.ringError r).gb (aRinghead r) SEQ_PTR.RERR = true ∧ (s.ringError r).evc = { s.evc with evq := s.evc.evq ++ [939] } ∧
      ∀ o, o ≠ aRinghead r → (s.ringError r).ptr o = s.ptr o :=
  ⟨s.gb_pb_true _ _ h (by decide) (by decide), rfl, fun _ ho => s.g_p_ne _ _ _ ho⟩

theorem State.foreignRing {s : State} {m : Master} {r : Nat} (h : s.ownsRing m r = false) :
    (∀ slot w, s.slotWrite m r slot w = s) ∧ (∀ v, s.ringtailWrite m r v = s) ∧ (∀ v, s.cplheadWrite m r v = s) := by
  refine ⟨fun slot w => if_pos (.inl h), fun v => if_pos ?_, fun v => if_pos ?_⟩ <;> rw [h] <;> exact Bool.noConfusion

-- Jobs.

/-- A register of a new job: w1 has the argument, every other one is zero (R247). -/
theorem newJob_get (s : State) (r : RingId) {n : Nat} (hn : n < 16) :
    (s.newJob r).get n = if n = 1 then s.ringWord r.val (s.head r.val + 2) ++ s.ringWord r.val (s.head r.val + 1) else 0 := by
  unfold Job.get State.newJob
  dsimp only
  by_cases h0 : n = 0
  · subst h0; rfl
  · rw [if_neg h0, Vector.getD, ← Array.getElem_eq_getD (h := by simpa using hn), Vector.getElem_toArray, Vector.getElem_set]
    by_cases h1 : n = 1
    · subst h1; simp
    · rw [if_neg (Ne.symm h1), if_neg h1, Vector.getElem_replicate]

theorem State.jobStart_picks {s : State} {c : CtxId} {r : RingId} (hdisp : s.dispatching = true) (hfree : (s.ctx c).job = none)
    (hpick : s.pickRing c = some r.val) : exec (.jobStart c) s = .next (s.takeJob c r) := by
  change (Host.Outcome.next _ : Res) = _
  rw [if_neg (by simp [hdisp, hfree]), hpick]
  exact congrArg Host.Outcome.next (dif_pos r.isLt)

@[simp] theorem State.ctx_loadJob (s : State) (c : CtxId) (j : Job) :
    (s.loadJob c j).ctx c = { Ctx.reset with job := some { j with lastCtx := c }, started := s.ticks } := by simp [State.loadJob]
theorem State.ctx_loadJob_ne (s : State) {c d : CtxId} (j : Job) (h : d ≠ c) : (s.loadJob c j).ctx d = s.ctx d := State.ctx_setCtx_ne s _ h

/-- A record of a status other than DONE raises its ring's event (R290). -/
theorem State.record_evq {s : State} {r : Nat} {c : CtxId} {jobid status cause pc : Nat} {result : W} {evt : Bool} {insns tserr sref : Nat}
    (h : status ≠ 0) : (s.record r c jobid status cause pc result evt insns tserr sref).evc.evq = s.evc.evq ++ [928 + r] := by
  unfold State.record
  dsimp only
  rw [if_pos (.inr h)]
  simp [State.raise, State.setPtr]

theorem State.record_seq (s : State) (r : Nat) (c : CtxId) (jobid status cause pc : Nat) (result : W) (evt : Bool) (insns tserr sref : Nat) :
    (s.record r c jobid status cause pc result evt insns tserr sref).seq = s.seq := by
  unfold State.record
  dsimp only
  split <;> simp [State.setPtr]

theorem State.regsOk_setPtr {s : State} (h : s.regsOk) (o v : Nat) : (s.setPtr o v).regsOk := State.regsOk_p h _ _ _
theorem State.regsOk_bump {s : State} (h : s.regsOk) (o : Nat) (f : Fd) : (s.bump o f).regsOk := State.regsOk_p h _ _ _
theorem State.regsOk_raise {s : State} (h : s.regsOk) (ev : Nat) : (s.raise ev).regsOk := h

theorem State.regsOk_record {s : State} (hs : s.regsOk) (r : Nat) (c : CtxId) (jobid status cause pc : Nat) (result : W) (evt : Bool)
    (insns tserr sref : Nat) : (s.record r c jobid status cause pc result evt insns tserr sref).regsOk := by
  unfold State.record
  dsimp only
  have hwords (t i w0 w2 w3 : Nat) := State.regsOk_bump (State.regsOk_setPtr (State.regsOk_wr (State.regsOk_wr (State.regsOk_wr (State.regsOk_wr hs
    (aCpl r i 0) (BitVec.ofNat 64 w0)) (aCpl r i 1) result) (aCpl r i 2) (BitVec.ofNat 64 w2)) (aCpl r i 3) (BitVec.ofNat 64 w3)) (aCpltail r) (t + 1))
    aSeqStatus SEQ_STATUS.JOBS
  split
  · exact State.regsOk_raise (hwords _ _ _ _ _) _
  · exact hwords _ _ _ _ _

theorem aRinghead_ne_cpl {r : Nat} (hr : r < 9) (i k : Nat) : aRinghead r ≠ aCpl r i k := by unfold aRinghead aCpl; omega
theorem aRinghead_ne_cpltail {r : Nat} : aRinghead r ≠ aCpltail r := by unfold aRinghead aCpltail; omega
theorem aRinghead_ne_status {r : Nat} : aRinghead r ≠ aSeqStatus := by unfold aRinghead aSeqStatus; omega

theorem State.head_of_rd {s t : State} {r : Nat} (h : t.rd (aRinghead r) = s.rd (aRinghead r)) : t.head r = s.head r :=
  congrArg (fun v => fld v SEQ_PTR.PTR.lo SEQ_PTR.PTR.w) h

theorem State.head_record (s : State) {r : Nat} (hr : r < 9) (c : CtxId) (jobid status cause pc : Nat) (result : W) (evt : Bool) (insns tserr sref : Nat) :
    (s.record r c jobid status cause pc result evt insns tserr sref).head r = s.head r :=
  State.head_of_rd (State.rd_record (aRinghead_ne_cpl hr) aRinghead_ne_cpltail aRinghead_ne_status)

theorem State.head_raise (s : State) (r ev : Nat) : (s.raise ev).head r = s.head r := rfl
theorem State.head_setPtr {s : State} (h : s.regsOk) (r v : Nat) : (s.setPtr (aRinghead r) v).head r = v % 65536 := State.ptr_setPtr h _ _
theorem State.evq_raise (s : State) (ev : Nat) : (s.raise ev).evc.evq = s.evc.evq ++ [ev] := rfl
theorem State.setPtr_evc (s : State) (o v : Nat) : (s.setPtr o v).evc = s.evc := rfl

/-- What a ring's descriptor that is no job leads to: its record, HEAD past its four words, and event 939 (R289). -/
def State.noJob (s : State) (c : CtxId) (r : RingId) : State :=
  let t := s.record r.val c (fld (s.ringWord r.val (s.head r.val)) 0 16) stBadjob 0 0 0 false 0 0 0
  (t.setPtr (aRinghead r.val) (t.head r.val + 4)).raise 939

theorem State.noJob_facts {s : State} (hs : s.regsOk) (c : CtxId) (r : RingId) :
    (s.noJob c r).seq = s.seq ∧ (s.noJob c r).head r.val = (s.head r.val + 4) % 65536 ∧ (s.noJob c r).evc.evq = s.evc.evq ++ [928 + r.val, 939] := by
  unfold State.noJob
  generalize ht : s.record r.val c (fld (s.ringWord r.val (s.head r.val)) 0 16) stBadjob 0 0 0 false 0 0 0 = t
  have hseq : t.seq = s.seq := ht ▸ State.record_seq ..
  have hhead : t.head r.val = s.head r.val := ht ▸ State.head_record _ r.isLt ..
  have hregs : t.regsOk := ht ▸ State.regsOk_record hs ..
  have hevq : t.evc.evq = s.evc.evq ++ [928 + r.val] := ht ▸ State.record_evq (by decide)
  dsimp only
  refine ⟨?_, ?_, ?_⟩
  · rw [State.raise_seq, State.setPtr, State.p_seq, hseq]
  · rw [State.head_raise, State.head_setPtr hregs, hhead]
  · rw [State.evq_raise, State.setPtr_evc, hevq, List.append_assoc]
    rfl

section Take
variable {s : State} {c : CtxId} {r : RingId}

/-- A suspended job goes on with the rights that its ring has now (R275). -/
theorem State.takeJob_saved {j : Job} (h : s.savedJob r.val = some j) : ∃ n, s.takeJob c r =
    State.loadJob { s with seq := { s.seq with lastRing := n, saved := tput none s.seq.saved r.val none } } c { j with
      pchain := s.gb (aRingcfg r.val) SEQ_RINGCFG.PCHAIN, ptime := s.gb (aRingcfg r.val) SEQ_RINGCFG.PTIME } := by
  have hj : tget none s.seq.saved r.val = some j := h
  unfold State.takeJob
  by_cases h8 : r.val < 8
  · exact ⟨r.val, by rw [if_pos h8]; simp only [State.savedJob, hj]; rfl⟩
  · exact ⟨s.seq.lastRing, by rw [if_neg h8]; simp only [State.savedJob, hj]; rfl⟩

/-- A ring without a suspended job and with a free completion slot starts a job, or records that the descriptor is none (R287, R288). -/
theorem State.takeJob_new (h : s.savedJob r.val = none) (hslot : s.slotFree r.val = true) : ∃ n, s.takeJob c r =
    if s.descOk r.val then State.loadJob { s with seq := { s.seq with lastRing := n, nextKey := s.seq.nextKey + 1 } } c (s.newJob r)
    else State.noJob { s with seq := { s.seq with lastRing := n } } c r := by
  have hj : tget none s.seq.saved r.val = none := h
  have hfree (n : Nat) : State.slotFree { s with seq := { s.seq with lastRing := n } } r.val = true := hslot
  unfold State.takeJob
  by_cases h8 : r.val < 8
  · exact ⟨r.val, by rw [if_pos h8]; simp only [State.savedJob, hj]; rw [if_pos (hfree _)]; rfl⟩
  · exact ⟨s.seq.lastRing, by rw [if_neg h8]; simp only [State.savedJob, hj]; rw [if_pos hslot]; rfl⟩

end Take

/-- Settles O17: ring writes by owner and bound, and what JOB_START takes. -/
theorem ringsAndJobs : Obligations.RingsAndJobs := by
  refine ⟨fun s m r hs => ⟨fun slot w ho hslot => ?slot, fun v ho => ?tail, fun v ho => ?cplhead, fun hno => ?foreign⟩,
    fun s c r hdisp hfree hpick => ⟨fun j hj => ?saved, fun hj hslot hdesc => ?new, fun hj hslot hdesc hs => ?bad⟩⟩
  case slot =>
    have hwr : exec (.ringSlotWrite m r slot w) s = .next (s.wr (aRing r.val (slot.toNat / 2))
        (setFld (s.rd (aRing r.val (slot.toNat / 2))) (32 * (slot.toNat % 2)) 32 w.toNat)) :=
      congrArg Host.Outcome.next (if_neg (by rw [ho]; simpa using hslot))
    refine ⟨_, hwr, s.writesOnly_wr _ _, ?_, ?_⟩ <;> rw [State.rd_wr _ _ _ hs]
    · exact extract_setFld _ _ _ w (by omega)
    · exact extract_setFld_ne _ _ _ _ _ _ (by omega)
  case tail =>
    have hv := v.isLt
    obtain ⟨hin, hout⟩ := State.ringtailWrite_cases ho v.toNat
    obtain ⟨hrerr, hevc, hptr⟩ := State.ringError_facts hs r.val
    exact ⟨fun h => ⟨_, congrArg Host.Outcome.next (hin h), s.writesOnly_p _ _ _, (State.ptr_setPtr hs _ _).trans (Nat.mod_eq_of_lt hv)⟩,
      fun h => ⟨_, congrArg Host.Outcome.next (hout h), hptr _ (by unfold aRingtail aRinghead; omega), hrerr, hevc⟩⟩
  case cplhead =>
    have hv := v.isLt
    obtain ⟨hin, hout⟩ := State.cplheadWrite_cases ho v.toNat
    obtain ⟨hrerr, hevc, hptr⟩ := State.ringError_facts hs r.val
    exact ⟨fun h => ⟨_, congrArg Host.Outcome.next (hin h), s.writesOnly_p _ _ _, (State.ptr_setPtr hs _ _).trans (Nat.mod_eq_of_lt hv)⟩,
      fun h => ⟨_, congrArg Host.Outcome.next (hout h), hptr _ (by unfold aCplhead aRinghead; omega), hrerr, hevc⟩⟩
  case foreign =>
    obtain ⟨hslot, htail, hcpl⟩ := State.foreignRing hno
    exact ⟨fun slot w => congrArg Host.Outcome.next (hslot _ w), fun v => congrArg Host.Outcome.next (htail _), fun v => congrArg Host.Outcome.next (hcpl _)⟩
  case saved =>
    obtain ⟨n, hn⟩ := State.takeJob_saved (c := c) hj
    rw [State.jobStart_picks hdisp hfree hpick, hn]
    exact ⟨_, _, rfl, congrArg Ctx.job (State.ctx_loadJob _ _ _), congrArg Ctx.wait (State.ctx_loadJob _ _ _), rfl, rfl, rfl, rfl, rfl, fun d hd => State.ctx_loadJob_ne _ _ hd⟩
  case new =>
    obtain ⟨n, hn⟩ := State.takeJob_new (c := c) hj hslot
    rw [if_pos hdesc] at hn
    rw [State.jobStart_picks hdisp hfree hpick, hn]
    refine ⟨_, _, rfl, congrArg Ctx.job (State.ctx_loadJob _ _ _), congrArg Ctx.wait (State.ctx_loadJob _ _ _), by rw [State.ctx_loadJob]; rfl, rfl, rfl, rfl, rfl, rfl,
      (newJob_get s r (by decide)).trans (if_pos rfl), fun n hn hne => (newJob_get s r hn).trans (if_neg hne), rfl, fun d hd => State.ctx_loadJob_ne _ _ hd⟩
  case bad =>
    obtain ⟨n, hn⟩ := State.takeJob_new (c := c) hj hslot
    rw [if_neg (by rw [hdesc]; exact Bool.noConfusion)] at hn
    rw [State.jobStart_picks hdisp hfree hpick, hn]
    obtain ⟨hseq, hhead, hevq⟩ := State.noJob_facts (s := { s with seq := { s.seq with lastRing := n } }) hs c r
    exact ⟨_, rfl, congrArg (·.ctx) hseq, hhead, hevq⟩

end Sys2Proof.Machine
end

section
/-! SUPPORT. The scrubber and the reload (R283, R284). -/
namespace Sys2Proof.Machine

/-- Settles O19: the next entry is good or a machine check, and a reload without jobs ends. -/
theorem scrubAndReload : Obligations.ScrubAndReload := by
  intro s n s' wrong
  have read (bad : Bool) : exec (.scrubRead bad) s =
      .next (if bad || wrong then (s'.machineCheck .scrub (decide (8192 ≤ n)) (if n < 8192 then n else n - 8192)).recheck else s') := rfl
  refine ⟨fun hw => ?good, fun bad hbad => ?bad, fun hrel hdead hch hjobs => ?reload⟩
  case good => rw [read, hw]; rfl
  case bad => rw [read, if_pos (by simpa using hbad)]
  case reload =>
    have hno : ctxIds.any (fun c => (s.ctx c).job.isSome) = false := by simp [ctxIds, hjobs]
    have ends (ok : Bool) : exec (.microcodeReload ok) s = .next (s.reloadEnds (if ok then some (heldSects s.boot.image) else none)) :=
      congrArg Host.Outcome.next (if_neg (by rw [hrel, hdead, hch, hno]; simp))
    exact ⟨ends true, ends false⟩

end Sys2Proof.Machine
end

section
/-! SUPPORT. The answer of a tile agent to a CTL for one tile (R295, R299). -/
namespace Sys2Proof.Machine

/-- A wake of a tile notes itself in the agent and changes nothing else of it. -/
theorem State.agent_wake {s : State} (h : s.canon) (t : Nat) (b : Bool) : ∃ w, (s.wake t b).agent t = { s.agent t with waking := w } := by
  unfold State.wake
  split
  · dsimp only
    split
    · exact ⟨_, rfl⟩
    · exact ⟨true, s.agent_setAgent t _ h⟩
  · exact ⟨_, rfl⟩

/-- A packet that an agent sends is the last of those it has to inject. -/
theorem State.agentSend_outq {s : State} (h : s.canon) (t : Nat) (k : Pkt) : ((s.agentSend t k).agent t).outq = (s.agent t).outq ++ [k] := by
  have hset : (s.setAgent t { s.agent t with outq := (s.agent t).outq ++ [k] }).canon := ((Keeps.refl s).setAgent ..).canon h
  obtain ⟨w, hw⟩ := State.agent_wake hset t true
  unfold State.agentSend
  rw [hw, s.agent_setAgent t _ h]

@[simp] theorem State.agentSend_regs (s : State) (t : Nat) (k : Pkt) : (s.agentSend t k).regs = s.regs := State.wake_regs ..
@[simp] theorem State.agentSend_build (s : State) (t : Nat) (k : Pkt) : (s.agentSend t k).build = s.build := State.wake_build ..
@[simp] theorem State.agentSend_nis (s : State) (t : Nat) (k : Pkt) : (s.agentSend t k).nis = s.nis := State.wake_nis ..
@[simp] theorem State.agentSend_routers (s : State) (t : Nat) (k : Pkt) : (s.agentSend t k).routers = s.routers := State.wake_routers ..
@[simp] theorem State.agentSend_seq (s : State) (t : Nat) (k : Pkt) : (s.agentSend t k).seq = s.seq := State.wake_seq ..

@[simp] theorem State.forgetPower_regs (s : State) (t : Nat) (k : Pkt) : (s.forgetPower t k).regs = s.regs := rfl
@[simp] theorem State.forgetPower_build (s : State) (t : Nat) (k : Pkt) : (s.forgetPower t k).build = s.build := rfl
@[simp] theorem State.forgetPower_nis (s : State) (t : Nat) (k : Pkt) : (s.forgetPower t k).nis = s.nis := rfl
@[simp] theorem State.forgetPower_routers (s : State) (t : Nat) (k : Pkt) : (s.forgetPower t k).routers = s.routers := rfl
@[simp] theorem State.forgetPower_seq (s : State) (t : Nat) (k : Pkt) : (s.forgetPower t k).seq = s.seq := rfl

/-- FUNC and REFUSED of the status word (R299). -/
theorem statusWord_fields (s : State) (t : Nat) (k : Pkt) (a : AgAns) :
    fld (s.statusWord t k a) 0 8 = ctlFunc k % 256 ∧ bitOf (s.statusWord t k a) 8 = a.refused := by
  have hfunc : ctlFunc k < 256 := BitVec.isLt _
  unfold State.statusWord State.statusBase fld bitOf
  generalize ctlFunc k = n at hfunc ⊢
  refine ⟨?_, ?_⟩
  · simp only [BitVec.extractLsb'_toNat, BitVec.toNat_ofNat, Nat.shiftRight_zero]
    omega
  · rw [BitVec.getLsbD_ofNat, Nat.testBit_eq_decide_div_mod_eq]
    have hdiv : (n + 2 ^ 9 * s.ctlPower t k + 2 ^ 8 * a.refused.toNat + 2 ^ 11 * a.late.toNat + 2 ^ 16 * a.detail) / 2 ^ 8 % 2 = a.refused.toNat := by
      have := a.refused.toNat_lt
      omega
    rw [hdiv]
    cases a.refused <;> rfl

/-- The CRSP with which an agent answers a CTL for one tile (R299). -/
def State.crspOf (s : State) (t : Nat) (k : Pkt) (a : AgAns) : Pkt :=
  { dest := k.src, src := k.dest, cls := k.cls, cmd := Cmd.CRSP, dfc := 0, tag := k.tag, pdom := k.pdom, tstamp := k.tstamp, resp := a.resp,
    lenm1 := if a.resp = Resp.OK then 7 else 0, aux := s.statusWord t k a, data := if a.resp = Resp.OK then [lineOf [a.value]] else [] }

theorem State.agentCrsp_eq (s : State) (t : Nat) {k : Pkt} (a : AgAns) (hcmd : k.cmd = Cmd.CTL) :
    s.agentCrsp t k a = (s.agentSend t (s.crspOf t k a)).forgetPower t k := by
  have hans : answerOf k.cmd = some Cmd.CRSP := hcmd ▸ rfl
  unfold State.agentCrsp State.agentAnswer State.crspOf respTo
  rw [hans]
  by_cases hok : a.resp = Resp.OK <;> simp [hok]

theorem State.agentOwn_single (s : State) (t : Nat) {k : Pkt} (a : AgAns) (h : ctlSpread k = 0 ∨ ctlSpread k = 7) :
    s.agentOwn t k a = (s.setAgent t ((s.agent t).finish k)).agentCrsp t k a := if_pos h

theorem State.agentStart_single (s : State) (t : Nat) {k : Pkt} (a : AgAns) (h : ctlSpread k = 0 ∨ ctlSpread k = 7) :
    s.agentStart t k (some a) = (s.bump (aAgstat t) TL_AGSTAT.CTLCNT).agentOwn t k a := by
  unfold State.agentStart
  simp only [if_pos h]

/-- Settles O21: the count of CTLs grows, and the CRSP is the last packet to inject. -/
theorem agentAnswersBearTheStatusWord : Obligations.AgentAnswersBearTheStatusWord := by
  intro s t k a hs hone hcmd u
  let s1 := s.bump (aAgstat t) TL_AGSTAT.CTLCNT
  let s2 := s1.setAgent t ((s1.agent t).finish k)
  have hs1 : s1.canon := ((Keeps.refl s).wr _ _).canon hs
  have hs2 : s2.canon := ((Keeps.refl s1).setAgent ..).canon hs1
  have hs3 : (s2.agentSend t (s2.crspOf t k a)).canon := (keeps_State_agentSend (Keeps.refl s2)).canon hs2
  have hu : u = (s2.agentSend t (s2.crspOf t k a)).forgetPower t k := by
    rw [← State.agentCrsp_eq s2 t a hcmd]
    exact (s.agentStart_single t a hone).trans (s1.agentOwn_single t a hone)
  have hagent : (u.agent t).outq = (s.agent t).outq ++ [s2.crspOf t k a] := by
    rw [hu]
    unfold State.forgetPower
    rw [State.agent_setAgent _ _ _ hs3, State.agentSend_outq hs2, State.agent_setAgent _ _ _ hs1]
    rfl
  obtain ⟨hfunc, href⟩ := statusWord_fields s2 t k a
  refine ⟨_, hagent, rfl, rfl, rfl, rfl, rfl, fun hok => ⟨if_pos hok, if_pos hok⟩, fun hok => if_neg hok, hfunc, href, ?_, ?_, ?_, ?_⟩
  · have hregs : u.regs = s1.regs := by rw [hu, State.forgetPower_regs, State.agentSend_regs, State.setAgent_regs]
    have hbuild : u.build = s1.build := by rw [hu, State.forgetPower_build, State.agentSend_build, State.setAgent_build]
    rw [State.g_of hregs hbuild]
    exact s.g_p _ TL_AGSTAT.CTLCNT _ hs.regs (by decide)
  · rw [hu, State.forgetPower_nis, State.agentSend_nis]
    rfl
  · rw [hu, State.forgetPower_routers, State.agentSend_routers]
    rfl
  · rw [hu, State.forgetPower_seq, State.agentSend_seq]
    rfl

end Sys2Proof.Machine
end

section
/-! SUPPORT. A window of the power governor (R389, R391): the throttle level, the saturation count and the event of a level that stays at its end. -/
namespace Sys2Proof.Machine

theorem State.throttle_lt (s : State) : s.throttle < 64 := BitVec.isLt _

theorem nextTl_lt {tl : Nat} (h : tl < 64) (pavg : Rat) (cap : Nat) : nextTl tl pavg cap < 64 := by
  unfold nextTl
  split
  · omega
  · split
    · omega
    · split <;> omega

section Level
variable {tl cap : Nat} {pavg : Rat}

theorem nextTl_above (h0 : cap ≠ 0) (h : (cap : Rat) < pavg) : nextTl tl pavg cap = min 63 (tl + max 1 ((16 * (pavg - cap) / cap).ceil.toNat)) :=
  (if_neg h0).trans (if_pos h)

theorem nextTl_below (h0 : cap ≠ 0) (h : pavg < (cap : Rat) * 96 / 100) : nextTl tl pavg cap = tl - 1 := by
  have hcap : (0 : Rat) ≤ cap := Rat.natCast_nonneg
  exact (if_neg h0).trans ((if_neg (by grind)).trans (if_pos h))

theorem nextTl_between (h0 : cap ≠ 0) (hlo : (cap : Rat) * 96 / 100 ≤ pavg) (hhi : pavg ≤ cap) : nextTl tl pavg cap = tl :=
  (if_neg h0).trans ((if_neg (Rat.not_lt.mpr hhi)).trans (if_neg (Rat.not_lt.mpr hlo)))

end Level

/-- The governor's registers after a window: the level, the count of windows at its end, and event 994. -/
def State.governed (s : State) (tl : Nat) (top seen : Bool) : State :=
  let s := s.p aGovstat PM_GOVSTAT.TL tl
  let s := if top then s.sat aGovstat PM_GOVSTAT.SATCNT else s
  if top && !seen then s.raise 994 else s

/-- The governor touches its status register and the event queue. -/
theorem State.governed_eq (s : State) (tl : Nat) (top seen : Bool) :
    s.governed tl top seen = { s with regs := (s.governed tl top seen).regs, evc := { s.evc with evq := if top && !seen then s.evc.evq ++ [994] else s.evc.evq } } := by
  cases top <;> cases seen <;> rfl

theorem State.governed_rd (s : State) (tl : Nat) (top seen : Bool) {o : Nat} (h : o ≠ aGovstat) : (s.governed tl top seen).rd o = s.rd o := by
  have hp := s.rd_wr_ne (setFld (s.rd aGovstat) PM_GOVSTAT.TL.lo PM_GOVSTAT.TL.w tl) h
  cases top <;> cases seen
  · exact hp
  · exact hp
  · exact (State.rd_wr_ne _ _ h).trans hp
  · exact (State.rd_wr_ne _ _ h).trans hp

theorem State.governed_throttle {s : State} (hs : s.regsOk) {tl : Nat} (h : tl < 64) (top seen : Bool) : (s.governed tl top seen).throttle = tl := by
  have hp : (s.p aGovstat PM_GOVSTAT.TL tl).throttle = tl := (s.g_p _ _ _ hs (by decide)).trans (Nat.mod_eq_of_lt h)
  have hsat : ((s.p aGovstat PM_GOVSTAT.TL tl).sat aGovstat PM_GOVSTAT.SATCNT).throttle = tl :=
    (State.g_p_other _ _ _ _ _ (State.regsOk_p hs _ _ _) (.inr (by decide))).trans hp
  cases top <;> cases seen
  · exact hp
  · exact hp
  · exact hsat
  · exact hsat

theorem State.governed_satcnt {s : State} (hs : s.regsOk) (tl : Nat) (top seen : Bool) :
    (s.governed tl top seen).g aGovstat PM_GOVSTAT.SATCNT =
      if top then satSum PM_GOVSTAT.SATCNT.w (s.g aGovstat PM_GOVSTAT.SATCNT) 1 else s.g aGovstat PM_GOVSTAT.SATCNT := by
  have hp : (s.p aGovstat PM_GOVSTAT.TL tl).g aGovstat PM_GOVSTAT.SATCNT = s.g aGovstat PM_GOVSTAT.SATCNT := State.g_p_other _ _ _ _ _ hs (.inl (by decide))
  have hsat : ((s.p aGovstat PM_GOVSTAT.TL tl).sat aGovstat PM_GOVSTAT.SATCNT).g aGovstat PM_GOVSTAT.SATCNT =
      satSum PM_GOVSTAT.SATCNT.w (s.g aGovstat PM_GOVSTAT.SATCNT) 1 := by
    refine (State.g_p _ _ _ _ (State.regsOk_p hs _ _ _) (by decide)).trans ((Nat.mod_eq_of_lt ?_).trans (by rw [hp]))
    have hmax : satSum 16 ((s.p aGovstat PM_GOVSTAT.TL tl).g aGovstat PM_GOVSTAT.SATCNT) 1 ≤ 2 ^ 16 - 1 := Nat.min_le_right _ _
    exact Nat.lt_of_le_of_lt hmax (by decide)
  cases top <;> cases seen
  · exact hp
  · exact hp
  · exact hsat
  · exact hsat

/-- Settles O33: the new average decides the level; at its end, above the cap, the window counts. -/
theorem governorWindows : Obligations.GovernorWindows := by
  intro s hs p pavg cap tl
  let tl' := nextTl tl pavg cap
  let top := decide (tl' = 63) && decide (cap ≠ 0) && decide ((cap : Rat) < pavg)
  let seen := s.pm.satSeen && decide (tl' = 63)
  let s1 := s.until (s.bas0 + (s.ticks / 64 + 1) * 64 * Config.cyclesPerTick)
  let t := s1.governed tl' top seen
  have htl : t.throttle = tl' := State.governed_throttle (s := s1) hs.regs (nextTl_lt s.throttle_lt _ _) _ _
  have hcnt := State.governed_satcnt (s := s1) hs.regs tl' top seen
  have hcap : t.rd aGovcap = s.rd aGovcap := State.governed_rd s1 _ _ _ (by decide)
  have hcoef : t.rd aGovcoef = s.rd aGovcoef := State.governed_rd s1 _ _ _ (by decide)
  have ht : t = _ := State.governed_eq s1 tl' top seen
  have hevq : t.evc.evq = if top && !seen then s.evc.evq ++ [994] else s.evc.evq := by rw [ht]; rfl
  have hfull : tl' = 63 → cap ≠ 0 → (cap : Rat) < pavg → top = true ∧ seen = s.pm.satSeen := fun h63 h0 h => by simp [top, seen, h63, h0, h]
  have hpart : tl' ≠ 63 ∨ cap = 0 ∨ pavg ≤ (cap : Rat) → top = false := fun h => by
    rcases h with h | h | h
    · simp [top, h]
    · simp [top, h]
    · simp [top, Rat.not_lt.mpr h]
  let u : State := { t with pm := { t.pm with
    pavg := pavg, hops := 0, niflits := 0, cells := 0, cap := t.rd aGovcap, coef := t.rd aGovcoef, satSeen := seen || top } }
  have hu : u.throttle = tl' ∧ u.g aGovstat PM_GOVSTAT.SATCNT = t.g aGovstat PM_GOVSTAT.SATCNT ∧ u.evc.evq = t.evc.evq ∧ u.pm.satSeen = (seen || top) :=
    ⟨htl, rfl, rfl, rfl⟩
  have hframe : u.routers = s.routers ∧ u.nis = s.nis ∧ u.agents = s.agents ∧ u.tm = s.tm ∧ u.seq = s.seq := by
    show t.routers = _ ∧ t.nis = _ ∧ t.agents = _ ∧ t.tm = _ ∧ t.seq = _
    rw [ht]
    exact ⟨rfl, rfl, rfl, rfl, rfl⟩
  obtain ⟨hutl, hucnt, huevq, huseen⟩ := hu
  refine ⟨u, rfl, rfl, rfl, rfl, rfl, ?_⟩
  rw [hutl, hucnt, huevq, huseen, hcnt, hevq]
  refine ⟨fun h0 => if_pos h0, nextTl_above, nextTl_below, nextTl_between, fun h0 h h63 => ?full, fun h => ?part, fun h63 => ?unseen, hcap, hcoef, hframe⟩
  case full =>
    obtain ⟨htop, hseen⟩ := hfull h63 h0 h
    rw [htop, hseen]
    exact ⟨rfl, Bool.or_true _, fun h => by rw [h]; rfl, fun h => by rw [h]; rfl⟩
  case part =>
    rw [hpart h]
    exact ⟨rfl, rfl⟩
  case unseen =>
    rw [hpart (.inl h63)]
    simp [seen, h63]

end Sys2Proof.Machine
end

section
/-! SUPPORT. The look at the contexts that follows an instruction, where no job is due to end: waits end, held CTLs leave, and nothing else happens. -/
namespace Sys2Proof.Machine

/-- t is s after waits have ended: of the block only the sequencer, the agents (woken by a CTL) and the next free value may differ; a context that waited for nothing is as it was, and no job has become due to end. -/
structure WaitsEnd (s t : State) : Prop where
  frame : t = { s with seq := t.seq, agents := t.agents, free := t.free }
  due : ∀ x, (t.ctx x).due = (s.ctx x).due
  idle : ∀ x, (s.ctx x).wait = .none → t.ctx x = s.ctx x

theorem WaitsEnd.refl (s : State) : WaitsEnd s s := ⟨rfl, fun _ => rfl, fun _ _ => rfl⟩

theorem WaitsEnd.trans {s t u : State} (h : WaitsEnd s t) (k : WaitsEnd t u) : WaitsEnd s u where
  frame := by
    obtain ⟨ht, -, -⟩ := h
    obtain ⟨hu, -, -⟩ := k
    rw [ht] at hu
    exact hu
  due x := (k.due x).trans (h.due x)
  idle x hx := (k.idle x ((congrArg Ctx.wait (h.idle x hx)).trans hx)).trans (h.idle x hx)

/-- Nothing is due to end in any context. -/
def State.noneDue (s : State) : Prop := ∀ x, (s.ctx x).due = none

theorem WaitsEnd.noneDue {s t : State} (h : WaitsEnd s t) (hs : s.noneDue) : t.noneDue := fun x => (h.due x).trans (hs x)

section Frame
variable {s t : State} (h : WaitsEnd s t)
include h
theorem WaitsEnd.regs : t.regs = s.regs := by rw [h.frame]
theorem WaitsEnd.build : t.build = s.build := by rw [h.frame]
theorem WaitsEnd.evc : t.evc = s.evc := by rw [h.frame]
theorem WaitsEnd.tb : t.tb = s.tb := by rw [h.frame]
theorem WaitsEnd.cyc : t.cyc = s.cyc := by rw [h.frame]
theorem WaitsEnd.rst0 : t.rst0 = s.rst0 := by rw [h.frame]
theorem WaitsEnd.nis : t.nis = s.nis := by rw [h.frame]
theorem WaitsEnd.routers : t.routers = s.routers := by rw [h.frame]
theorem WaitsEnd.xports : t.xports = s.xports := by rw [h.frame]
theorem WaitsEnd.hosts : t.hosts = s.hosts := by rw [h.frame]
theorem WaitsEnd.rd (o : Nat) : t.rd o = s.rd o := State.rd_of h.regs h.build o
theorem WaitsEnd.g (o : Nat) (f : Fd) : t.g o f = s.g o f := State.g_of h.regs h.build o f
theorem WaitsEnd.gb (o : Nat) (f : Fd) : t.gb o f = s.gb o f := congrArg (· != 0) (h.g o f)
theorem WaitsEnd.fcc : t.fcc = s.fcc := by unfold State.fcc; rw [h.cyc, h.rst0]
end Frame

/-- A step over a list ends waits where each of its steps does, as long as nothing is due. -/
theorem WaitsEnd.foldl {α : Type} {f : State → α → State} (hf : ∀ s a, s.noneDue → WaitsEnd s (f s a)) (l : List α) {s : State} (hs : s.noneDue) :
    WaitsEnd s (l.foldl f s) := by
  induction l generalizing s with
  | nil => exact .refl s
  | cons a l ih => exact (hf s a hs).trans (ih ((hf s a hs).noneDue hs))

theorem WaitsEnd.setCtx {s : State} {c : CtxId} {x : Ctx} (hdue : x.due = (s.ctx c).due) (hw : (s.ctx c).wait ≠ .none) : WaitsEnd s (s.setCtx c x) where
  frame := rfl
  due y := by
    by_cases hy : y = c
    · rw [hy, State.ctx_setCtx, hdue]
    · rw [State.ctx_setCtx_ne s _ hy]
  idle y hy := State.ctx_setCtx_ne s _ (fun h => hw (h ▸ hy))

/-- An instruction that waited is over. -/
theorem WaitsEnd.retired {s : State} {c : CtxId} (hw : (s.ctx c).wait ≠ .none) (j : Job) (pc : BitVec 12) : WaitsEnd s (s.retired c j pc) := .setCtx rfl hw

theorem WaitsEnd.doneCode {s : State} {c : CtxId} (hd : (s.ctx c).due = none) (hw : (s.ctx c).wait ≠ .none) (n : Nat) : WaitsEnd s (s.doneCode c n) := by
  cases hj : (s.ctx c).job with
  | none =>
    have hstay : s.doneCode c n = s := by unfold State.doneCode State.doneRd State.done State.doneAt; rw [hj]
    rw [hstay]
    exact .refl s
  | some j =>
    rw [State.doneCode_eq hj hd]
    exact .retired hw _ _

theorem WaitsEnd.recheck1 {s : State} (hs : s.noneDue) (c : CtxId) : WaitsEnd s (s.recheck1 c) := by
  unfold State.recheck1
  cases hj : (s.ctx c).job with
  | none => exact .refl s
  | some j =>
    have away {w : Wait} (h : (s.ctx c).wait = w) (hw : w ≠ .none) : (s.ctx c).wait ≠ .none := h ▸ hw
    split
    next heq =>
      split
      · exact .doneCode (hs c) (away heq nofun) _
      · exact .refl s
    next heq =>
      split
      · exact .doneCode (hs c) (away heq nofun) _
      · exact .refl s
    next heq =>
      split
      · rw [State.done_eq hj (hs c)]
        exact .retired (away heq nofun) _ _
      · exact .refl s
    next heq =>
      split
      · exact .setCtx rfl (away heq nofun)
      · exact .refl s
    next => exact .refl s

/-- A CTL that leaves is no context's matter. -/
theorem WaitsEnd.of_ctx {s t : State} (hframe : t = { s with seq := t.seq, agents := t.agents, free := t.free }) (hctx : t.seq.ctx = s.seq.ctx) : WaitsEnd s t :=
  have all (x : CtxId) : t.ctx x = s.ctx x := by unfold State.ctx; rw [hctx]
  ⟨hframe, fun x => congrArg Ctx.due (all x), fun x _ => all x⟩

theorem WaitsEnd.launchCtl (s : State) (id : Nat) : WaitsEnd s (s.launchCtl id) := by
  unfold State.launchCtl
  split
  · exact .refl s
  · dsimp only
    split
    · exact .of_ctx (by rw [State.wake_eq]; rfl) (by rw [State.wake_seq])
    · exact .refl s

theorem WaitsEnd.launchHeld {s : State} (hs : s.noneDue) : WaitsEnd s s.launchHeld := .foldl (fun s id _ => .launchCtl s id) _ hs

theorem State.reloadStart_off {s : State} (h : s.gb aSeqStatus SEQ_STATUS.MCHK = false) : s.reloadStart = s := if_pos (.inl h)

/-- Nothing is due and no machine check is in progress: the look at the contexts only ends waits. -/
theorem WaitsEnd.recheck {s : State} (hs : s.noneDue) (hm : s.gb aSeqStatus SEQ_STATUS.MCHK = false) : WaitsEnd s s.recheck := by
  unfold State.recheck
  have hlook : WaitsEnd s ([0, 1, 2, 3].foldl (fun s (_ : Nat) => ctxIds.foldl State.recheck1 s) s) :=
    .foldl (fun _ _ h => .foldl (fun _ c h => .recheck1 h c) _ h) _ hs
  have hheld := hlook.trans (.launchHeld (hlook.noneDue hs))
  rw [State.reloadStart_off ((hheld.gb _ _).trans hm)]
  exact hheld

end Sys2Proof.Machine
end

section
/-! SUPPORT. Network time (R392, R394, R398, R399): the running time of a timebase, and what a change at its apply cycle leaves. -/
namespace Sys2Proof.Machine

theorem Slew.absorbed_zero (sl : Slew) (period : Nat) : sl.absorbed period 0 = 0 := by simp [Slew.absorbed]

/-- At the cycle from which a timebase counts no time has passed. -/
theorem TimeBase.elapsed_cb {b : TimeBase} {f : Nat} (h : b.cb = f) : b.elapsed f = 0 := by
  unfold TimeBase.elapsed
  rw [h, Nat.sub_self]
  split
  · exact Nat.zero_mul _
  · simp [Slew.absorbed_zero]

theorem TimeBase.nt_cb {b : TimeBase} {f : Nat} (h : b.cb = f) : b.nt f = b.base := by rw [TimeBase.nt, TimeBase.elapsed_cb h, Nat.add_zero]
theorem TimeBase.runAt_cb {b : TimeBase} {f : Nat} (h : b.cb = f) : b.runAt f = b.run := by rw [TimeBase.runAt, TimeBase.elapsed_cb h, Nat.add_zero]

/-- With a slew of at most 1,000,000 ppm, what n cycles absorb is no more than they last. -/
theorem Slew.absorbed_le (sl : Slew) (h : sl.ppm ≤ 1000000) (period n : Nat) : sl.absorbed period n ≤ n * period := by
  have hle : n * period * sl.ppm / 1000000 ≤ n * period * 1000000 / 1000000 := Nat.div_le_div_right (Nat.mul_le_mul_left _ h)
  rw [Nat.mul_div_cancel _ (by decide)] at hle
  exact Nat.le_trans (Nat.min_le_right _ _) hle

/-- Network time under a slew: the cycles that passed, and what they absorbed, forwards or back. -/
theorem TimeBase.nt_slew {b : TimeBase} {sl : Slew} (hs : b.slew = some sl) (hp : sl.ppm ≤ 1000000) (f : Nat) :
    (b.nt f : Int) = b.base + ((f - b.cb) * b.period : Nat) + sl.rem.sign * (sl.absorbed b.period (f - b.cb) : Nat) := by
  have hle := sl.absorbed_le hp b.period (f - b.cb)
  unfold TimeBase.nt TimeBase.elapsed
  rw [hs]
  dsimp only
  generalize hn : (f - b.cb) * b.period = n at hle ⊢
  have habs : sl.rem = 0 → sl.absorbed b.period (f - b.cb) = 0 := fun h => by simp [Slew.absorbed, h]
  generalize sl.absorbed b.period (f - b.cb) = a at hle habs ⊢
  rcases Int.lt_trichotomy sl.rem 0 with h | h | h
  · rw [if_neg (by omega), Int.sign_eq_neg_one_of_neg h]
    omega
  · rw [if_pos (by omega), h, habs h]
    simp
  · rw [if_pos (by omega), Int.sign_eq_one_of_pos h]
    omega

/-- The cycle in which a slew ends is the first by which it can have absorbed its offset (R398). -/
theorem Slew.absorbed_end {sl : Slew} {period n : Nat} (h : 0 < period * sl.ppm) (hn : n = (sl.rem.natAbs * 1000000 + period * sl.ppm - 1) / (period * sl.ppm)) :
    sl.absorbed period n = sl.rem.natAbs := by
  have hceil : sl.rem.natAbs * 1000000 ≤ n * (period * sl.ppm) := by
    have hdiv := Nat.lt_div_mul_add (a := sl.rem.natAbs * 1000000 + period * sl.ppm - 1) h
    rw [← hn] at hdiv
    omega
  refine Nat.min_eq_left ((Nat.le_div_iff_mul_le (by decide)).mpr ?_)
  rw [Nat.mul_assoc]
  exact hceil

end Sys2Proof.Machine
end

section
/-! SUPPORT. What follows an apply cycle (R394): the instructions that waited for it complete. -/
namespace Sys2Proof.Machine

/-- The instruction of a context completes where it waited for an apply cycle that has passed. -/
def State.timeEnds (s : State) (c : CtxId) : State :=
  match (s.ctx c).wait with
  | .time f => if f ≤ s.fcc then s.doneCode c rOk else s
  | _ => s

theorem WaitsEnd.timeEnds {s : State} (hs : s.noneDue) (c : CtxId) : WaitsEnd s (s.timeEnds c) := by
  unfold State.timeEnds
  split
  next heq =>
    split
    · exact .doneCode (hs c) (by rw [heq]; nofun) _
    · exact .refl s
  next => exact .refl s

section Completes
variable {x : CtxId} {j : Job} {g : Nat}

/-- What a context is once the instruction that waited for an apply cycle has completed with OK. -/
def Ctx.timeDone (k : Ctx) (j : Job) : Ctx :=
  { k with job := some { j.set (iRd k.word) (BitVec.ofNat 64 rOk) with pc := j.pc + 1, insns := j.insns + 1 }, wait := .none, acc := none }

theorem State.timeEnds_same {s : State} (hs : s.noneDue) (hj : (s.ctx x).job = some j) (hw : (s.ctx x).wait = .time g) (hg : g ≤ s.fcc) :
    (s.timeEnds x).ctx x = (s.ctx x).timeDone j := by
  have h : s.timeEnds x = s.doneCode x rOk := by
    unfold State.timeEnds
    rw [hw]
    exact if_pos hg
  rw [h, State.doneCode_eq hj (hs x), State.retired, State.ctx_setCtx]
  simp only [Ctx.timeDone, Job.set]
  split <;> rfl

theorem State.timeEnds_ne {s : State} (hs : s.noneDue) {c : CtxId} (h : x ≠ c) : (s.timeEnds c).ctx x = s.ctx x := by
  unfold State.timeEnds
  split
  next heq =>
    split
    · cases hj : (s.ctx c).job with
      | none => unfold State.doneCode State.doneRd State.done State.doneAt; rw [hj]
      | some j => rw [State.doneCode_eq hj (hs c)]; exact State.ctx_setCtx_ne s _ h
    · rfl
  next => rfl

theorem State.timeEnds_all {s : State} (hs : s.noneDue) {l : List CtxId} (hx : x ∈ l) (hj : (s.ctx x).job = some j) (hw : (s.ctx x).wait = .time g)
    (hg : g ≤ s.fcc) : (l.foldl State.timeEnds s).ctx x = (s.ctx x).timeDone j := by
  induction l generalizing s with
  | nil => cases hx
  | cons c l ih =>
    have hstep := WaitsEnd.timeEnds hs c
    by_cases hc : x = c
    · subst hc
      have hdone := State.timeEnds_same hs hj hw hg
      exact ((WaitsEnd.foldl (fun _ c h => .timeEnds h c) l (hstep.noneDue hs)).idle x (congrArg Ctx.wait hdone)).trans hdone
    · have hsame := State.timeEnds_ne hs hc
      rw [← hsame] at hj hw ⊢
      exact ih (hstep.noneDue hs) ((List.mem_cons.mp hx).resolve_left hc) hj hw (by rw [hstep.fcc]; exact hg)

end Completes

theorem mem_ctxIds (x : CtxId) : x ∈ ctxIds := by revert x; decide

/-- After an apply cycle at which the block is t, where nothing is due and no write waits at port 3, waits end and nothing else happens. -/
theorem State.timeApply_then {s t : State} (ht : s.timeApply = t) (hd : t.noneDue) (hx : (t.xport 3).holder = none) (hm : t.gb aSeqStatus SEQ_STATUS.MCHK = false) :
    ∃ u, exec .timeApply s = .next u ∧ WaitsEnd t u ∧
      ∀ (x : CtxId) (j : Job) (g : Nat), (t.ctx x).job = some j → (t.ctx x).wait = .time g → g ≤ t.fcc → u.ctx x = (t.ctx x).timeDone j := by
  have hends : WaitsEnd t (ctxIds.foldl State.timeEnds t) := .foldl (fun _ c h => .timeEnds h c) _ hd
  have hlook := WaitsEnd.recheck (hends.noneDue hd) ((hends.gb _ _).trans hm)
  refine ⟨(ctxIds.foldl State.timeEnds t).recheck, ?_, hends.trans hlook, fun x j g hj hw hg => ?_⟩
  · have hexec : exec .timeApply s = (.next (State.recheck (match ((ctxIds.foldl State.timeEnds s.timeApply).xport 3).holder, ((ctxIds.foldl State.timeEnds s.timeApply).xport 3).waits with
        | some a, some f => if f ≤ (ctxIds.foldl State.timeEnds s.timeApply).fcc then (ctxIds.foldl State.timeEnds s.timeApply).finishPort 3 a.done else ctxIds.foldl State.timeEnds s.timeApply
        | _, _ => ctxIds.foldl State.timeEnds s.timeApply)) : Res) := rfl
    have hport : ((ctxIds.foldl State.timeEnds t).xport 3).holder = none := by unfold State.xport; rw [hends.xports]; exact hx
    rw [hexec, ht]
    refine congrArg (fun v : State => (.next v.recheck : Res)) ?_
    rw [hport]
  · have hdone := State.timeEnds_all hd (mem_ctxIds x) hj hw hg
    exact (hlook.idle x (congrArg Ctx.wait hdone)).trans hdone

end Sys2Proof.Machine
end

section
/-! SUPPORT. The change that an apply cycle makes, and the end of a slew (R394, R397 to R399). -/
namespace Sys2Proof.Machine

theorem State.applyChange_cb (s : State) (f : Nat) (c : TimeChange) : (s.applyChange f c).tb.cb = f := by
  cases c with
  | pps v r =>
    show ((s.tb.rebase f).load v r).disarm.cb = f
    unfold TimeBase.disarm
    split <;> rfl
  | _ => rfl

theorem State.applyChange_run (s : State) (f : Nat) (c : TimeChange) : (s.applyChange f c).tb.run = s.tb.runAt f := by
  cases c with
  | pps v r =>
    show ((s.tb.rebase f).load v r).disarm.run = _
    unfold TimeBase.disarm
    split <;> rfl
  | _ => rfl

theorem State.applyChange_pend (s : State) (f : Nat) (c : TimeChange) : (s.applyChange f c).tb.pend = s.tb.pend := by
  cases c with
  | pps v r =>
    show ((s.tb.rebase f).load v r).disarm.pend = _
    unfold TimeBase.disarm
    split <;> rfl
  | _ => rfl

/-- A change touches the timebase, its registers and, at a PPS edge, the events. -/
theorem State.applyChange_eq (s : State) (f : Nat) (c : TimeChange) :
    s.applyChange f c = { s with tb := (s.applyChange f c).tb, regs := (s.applyChange f c).regs, evc := (s.applyChange f c).evc } := by
  cases c <;> rfl

theorem State.applyChange_rd (s : State) (f : Nat) (c : TimeChange) {o : Nat} (h : o ≠ aTbStat) (h' : o ≠ aTbPeriod) : (s.applyChange f c).rd o = s.rd o := by
  cases c with
  | load v r => exact State.rd_wr_ne _ _ h
  | pps v r =>
    show (State.raise _ 997).rd o = s.rd o
    rw [State.rd_raise]
    exact State.rd_wr_ne _ _ h
  | step d => rfl
  | period p => exact State.rd_wr_ne _ _ h'
  | slew d => rfl

/-- A load at a PPS edge clears ARMED, unless a load has been armed anew since (R397). -/
theorem TimeBase.disarm_facts (b : TimeBase) : b.disarm.base = b.base ∧ b.disarm.slew = b.slew ∧ b.disarm.cb = b.cb ∧
    (b.edged = true → b.disarm.armed = none ∧ b.disarm.edged = false) ∧ (b.edged = false → b.disarm.armed = b.armed) := by
  unfold TimeBase.disarm
  cases he : b.edged <;> simp

/-- The change that comes first is made, where no slew ends before it. -/
theorem State.timeApply_change {s : State} {f : Nat} {c : TimeChange} {rest : List (Nat × TimeChange)} (hp : s.tb.pend = (f, c) :: rest)
    (hslew : ∀ e, s.tb.slewEnd = some e → f ≤ e) :
    s.timeApply = (State.until { s with tb := { s.tb with pend := rest } } (s.rst0 + f)).applyChange f c := by
  unfold State.timeApply
  rw [hp]
  cases he : s.tb.slewEnd with
  | none => rfl
  | some e => exact if_neg (Nat.not_lt.mpr (hslew e he))

theorem State.timeApply_slew {s : State} {e : Nat} (hp : s.tb.pend = []) (he : s.tb.slewEnd = some e) : s.timeApply = (s.until (s.rst0 + e)).endSlew e := by
  unfold State.timeApply
  rw [hp, he]

theorem State.gb_raise (s : State) (ev o : Nat) (f : Fd) : (s.raise ev).gb o f = s.gb o f := rfl

theorem State.applyChange_valid {s : State} (h : s.regsOk) (f v r : Nat) :
    (s.applyChange f (.load v r)).gb aTbStat TB_STAT.VALID = true ∧ (s.applyChange f (.pps v r)).gb aTbStat TB_STAT.VALID = true := by
  have hpb (b : TimeBase) : (State.pb { s with tb := b } aTbStat TB_STAT.VALID true).gb aTbStat TB_STAT.VALID = true :=
    State.gb_pb_true { s with tb := b } _ _ h (by decide) (by decide)
  refine ⟨hpb _, ?_⟩
  unfold State.applyChange
  dsimp only
  rw [State.gb_raise]
  exact hpb _

theorem State.applyChange_period {s : State} (h : s.regsOk) (f p : Nat) : (s.applyChange f (.period p)).g aTbPeriod TB_PERIOD.PERIOD = p % 2 ^ 36 :=
  State.g_p { s with tb := { s.tb.rebase f with period := p } } _ _ _ h (by decide)

theorem State.slewMax_le (s : State) : s.slewMax ≤ 1000000 := by unfold State.slewMax; omega

/-- Settles O35: the change that comes first is made at its cycle, and a slew without one ends. -/
theorem timeChangesApply : Obligations.TimeChangesApply := by
  refine ⟨fun s f c rest hs hd hx hm hp hslew => ?change, fun s e sl hd hx hm hp hsl he hrate hppm => ?ends⟩
  case change =>
    let t0 : State := State.until { s with tb := { s.tb with pend := rest } } (s.rst0 + f)
    let t := t0.applyChange f c
    have ht : s.timeApply = t := State.timeApply_change hp hslew
    have heq : t = { t0 with tb := t.tb, regs := t.regs, evc := t.evc } := t0.applyChange_eq f c
    have hctx (x : CtxId) : t.ctx x = s.ctx x := by rw [heq]; rfl
    have hxport : t.xport 3 = s.xport 3 := by rw [heq]; rfl
    have hcyc : s.rst0 + f ≤ t.cyc := by rw [heq]; exact Nat.le_max_right _ _
    have hrst : t.rst0 = s.rst0 := by rw [heq]; rfl
    have hmchk : t.gb aSeqStatus SEQ_STATUS.MCHK = false := by
      rw [← hm]
      exact congrArg (fun v => fld v _ _ != 0) (State.applyChange_rd t0 f c (by decide) (by decide))
    have hcb : t.tb.cb = f := t0.applyChange_cb f c
    have hrun : t.tb.run = s.tb.runAt f := t0.applyChange_run f c
    obtain ⟨u, hu, hends, hwait⟩ := State.timeApply_then ht (fun x => (congrArg Ctx.due (hctx x)).trans (hd x)) (hxport ▸ hx) hmchk
    have hnt : t.tb.nt f = t.tb.base := TimeBase.nt_cb hcb
    refine ⟨u, hu, by rw [hends.cyc]; exact hcyc, ?_⟩
    rw [hends.tb, hends.regs, hends.evc, hnt, TimeBase.runAt_cb hcb]
    refine ⟨t0.applyChange_pend f c, hcb, hrun, fun v r hc => ?load, fun v r hc => ?pps, fun d hc => ?step, fun p hc => ?period, fun d hc => ?slew, fun x j g hj hw hg => ?waits⟩
    case load =>
      subst hc
      exact ⟨rfl, (hends.gb _ _).trans (State.applyChange_valid (s := t0) hs.regs f v r).1, rfl, rfl⟩
    case pps =>
      subst hc
      obtain ⟨hbase, hslew', -, hclear, hkeep⟩ := ((t0.tb.rebase f).load v r).disarm_facts
      refine ⟨hbase, (hends.gb _ _).trans (State.applyChange_valid (s := t0) hs.regs f v r).2, hslew', rfl, hclear, hkeep⟩
    case step =>
      subst hc
      exact ⟨Int.toNat_of_nonneg (Int.emod_nonneg _ (by decide)), rfl, rfl⟩
    case period =>
      subst hc
      exact ⟨rfl, rfl, (hends.g _ _).trans (State.applyChange_period (s := t0) hs.regs f p)⟩
    case slew =>
      subst hc
      have hslew' : t.tb.slew = some ⟨d * 2 ^ 32, s.slewMax⟩ := rfl
      refine ⟨rfl, hslew', rfl, fun g _ => ?_⟩
      have h := TimeBase.nt_slew hslew' s.slewMax_le g
      rw [hcb] at h
      refine h.trans ?_
      dsimp only
      rw [Int.sign_mul, Slew.absorbed, Int.natAbs_mul, Int.sign_eq_one_of_pos (by decide : (0 : Int) < 2 ^ 32), Int.mul_one]
      rfl
    case waits =>
      rw [← hctx] at hj hw
      have h := hwait x j g hj hw (by unfold State.fcc; omega)
      rw [h]
      exact ⟨_, rfl, rfl, rfl, by rw [← hctx]⟩
  case ends =>
    have ht := State.timeApply_slew hp he
    generalize hn : (sl.rem.natAbs * 1000000 + s.tb.period * sl.ppm - 1) / (s.tb.period * sl.ppm) = n at *
    have hend : e = s.tb.cb + n := by
      unfold TimeBase.slewEnd at he
      rw [hsl] at he
      simp only [Option.map_some, Option.some.injEq, if_neg (Nat.ne_of_gt hrate), hn] at he
      exact he.symm
    obtain ⟨u, hu, hends, -⟩ := State.timeApply_then ht hd hx hm
    refine ⟨u, hu, by rw [hends.tb]; rfl, by rw [hends.evc]; rfl, hends.regs, ?_⟩
    have hnow : u.tb.nt e = s.tb.nt e := by
      rw [hends.tb]
      exact TimeBase.nt_cb rfl
    rw [hnow, TimeBase.nt_slew hsl hppm, show e - s.tb.cb = n by omega, Slew.absorbed_end hrate hn.symm, Int.sign_mul_natAbs]
    simp only [Int.natCast_add, Int.natCast_mul]

end Sys2Proof.Machine
end

section
/-! SUPPORT. Frames that a chain port keeps (R429, R435). -/
namespace Sys2Proof.Machine

theorem vectorGetD_of_lt {α : Type} {n i : Nat} (v : Vector α n) (d : α) (h : i < n) : v.getD i d = v[i] := by
  rw [Vector.getD, ← Array.getElem_eq_getD (h := by simpa using h), Vector.getElem_toArray]

theorem vectorGetD_of_ge {α : Type} {n i : Nat} (v : Vector α n) (d : α) (h : n ≤ i) : v.getD i d = d := by
  rw [Vector.getD, Array.getD, dif_neg (by simpa using h)]

theorem vectorGetD_set_self {α : Type} {n i : Nat} (v : Vector α n) (d x : α) (h : i < n) : (v.setIfInBounds i x).getD i d = x := by
  rw [vectorGetD_of_lt _ _ h, Vector.getElem_setIfInBounds_self]

theorem vectorGetD_set_ne {α : Type} {n i j : Nat} (v : Vector α n) (d x : α) (h : i ≠ j) : (v.setIfInBounds i x).getD j d = v.getD j d := by
  rcases Nat.lt_or_ge j n with hj | hj
  · rw [vectorGetD_of_lt _ _ hj, vectorGetD_of_lt _ _ hj, Vector.getElem_setIfInBounds_ne hj h]
  · rw [vectorGetD_of_ge _ _ hj, vectorGetD_of_ge _ _ hj]

theorem State.cport_setCport_self (s : State) {p : Nat} (x : CPort) (h : p < 3) : (s.setCport p x).cport p = x := vectorGetD_set_self _ _ _ h
theorem State.cport_setCport_ne (s : State) {p q : Nat} (x : CPort) (h : q ≠ p) : (s.setCport p x).cport q = s.cport q := vectorGetD_set_ne _ _ _ (Ne.symm h)

/-- A port that is written reads back, where it exists; every other one stays. -/
theorem State.cport_setCport (s : State) (p q : Nat) (x : CPort) : (s.setCport p x).cport q = x ∨ (s.setCport p x).cport q = s.cport q := by
  by_cases hq : q = p
  · subst hq
    rcases Nat.lt_or_ge q 3 with hlt | hge
    · exact .inl (s.cport_setCport_self x hlt)
    · exact .inr ((vectorGetD_of_ge _ _ hge).trans (vectorGetD_of_ge _ _ hge).symm)
  · exact .inr (s.cport_setCport_ne x hq)

/-- Launching fills up the four places for kept frames and no more (R429). -/
theorem CPort.launch_replay (n : Nat) {x : CPort} (h : x.replay.length ≤ 4) : (CPort.launch n x).replay.length ≤ 4 := by
  induction n generalizing x with
  | zero => exact h
  | succ n ih =>
    unfold CPort.launch
    split
    · exact h
    · split
      · exact h
      · exact ih (by simp; omega)

theorem CPort.acked_replay {x : CPort} (seq : BitVec 8) (h : x.replay.length ≤ 4) : (x.acked seq).replay.length ≤ 4 := by
  unfold CPort.acked
  split
  · exact CPort.launch_replay 4 (by rw [List.length_drop]; omega)
  · exact h

theorem State.sendFrame_replay {s : State} (p dst src : Nat) (b : FrameBody) (h : ∀ q, (s.cport q).replay.length ≤ 4) (q : Nat) :
    ((s.sendFrame p dst src b).cport q).replay.length ≤ 4 := by
  unfold State.sendFrame
  split
  · exact h q
  · rcases s.cport_setCport p q _ with hq | hq
    · rw [hq]
      exact CPort.launch_replay 4 (h p)
    · rw [hq]
      exact h q

/-- Settles O44: what takeFrame does by the port's state, the SEQ and the domain's state; and at most four frames are kept. -/
theorem keptFramesInSequence : Obligations.KeptFramesInSequence := by
  refine ⟨fun s p k f => ?_, fun s p dst src b sq h => ⟨s.sendFrame_replay p dst src b h, CPort.acked_replay sq (h p)⟩⟩
  intro i x
  refine ⟨fun hu => if_pos hu, fun hu hup => ?down, fun hu hup hseq => ?nak, fun hu hup hseq hst => ⟨fun hroom => ?waits, fun hfull => ?full⟩,
    fun h => takeFrame_takes h f⟩ <;> (unfold State.takeFrame; dsimp only; rw [if_neg (by rw [hu]; exact Bool.noConfusion)])
  case down => exact if_pos (by rw [hup]; exact Bool.noConfusion)
  all_goals rw [if_neg (Classical.not_not.mpr hup)]
  case nak => exact if_pos hseq
  case waits => rw [if_neg (Classical.not_not.mpr hseq), if_neg hst, if_neg (by omega)]; rfl
  case full => rw [if_neg (Classical.not_not.mpr hseq), if_neg hst, if_pos hfull]

end Sys2Proof.Machine
end

section
/-! SUPPORT. Arbitration of the crossbar (R350 to R353) and its watchdog (R358). -/
namespace Sys2Proof.Machine

-- Largest elements and searches.

theorem le_foldl_max {l : List Nat} {x a : Nat} (h : x ∈ l ∨ x ≤ a) : x ≤ l.foldl max a := by
  induction l generalizing a with
  | nil => exact h.resolve_left List.not_mem_nil
  | cons b l ih =>
    refine ih ?_
    rcases h with h | h
    · rcases List.mem_cons.mp h with rfl | h
      · exact .inr (Nat.le_max_right _ _)
      · exact .inl h
    · exact .inr (Nat.le_trans h (Nat.le_max_left _ _))

/-- A fold whose every step leaves the state leaves it. -/
theorem foldl_stays {α β : Type} {f : β → α → β} {l : List α} {s : β} (h : ∀ a ∈ l, f s a = s) : l.foldl f s = s := by
  induction l with
  | nil => rfl
  | cons a l ih => rw [List.foldl_cons, h a List.mem_cons_self, ih (fun b hb => h b (List.mem_cons_of_mem _ hb))]

section Port
variable {s : State} {j : Nat}

theorem any_master {l : List Acc} {m : Nat} : l.any (fun a => a.master == m) = true ↔ ∃ a ∈ l, a.master = m := by simp

theorem State.winner_decided {d : Nat × Bool} (h : (s.xport j).next = some d) (hp : ∃ a ∈ (s.xport j).pend, a.master = d.1) : s.winner j = some d := by
  unfold State.winner
  rw [h]
  exact if_pos (any_master.mpr hp)

theorem State.winner_gone {d : Nat × Bool} (h : (s.xport j).next = some d) (hp : ∀ a ∈ (s.xport j).pend, a.master ≠ d.1) : s.winner j = s.winnerNow j := by
  unfold State.winner
  rw [h]
  exact if_neg (fun k => by obtain ⟨a, ha, hm⟩ := any_master.mp k; exact hp a ha hm)

theorem State.winner_undecided (h : (s.xport j).next = none) : s.winner j = s.winnerNow j := by
  unfold State.winner
  rw [h]

/-- What it takes for the last holder to keep the port (R353). -/
theorem State.keepsPort_facts (h : s.keepsPort j = true) : (∃ a ∈ (s.xport j).pend, a.master = (s.xport j).last) ∧ 0 < (s.xport j).cons ∧
    (s.xport j).cons < max 1 (s.g (aXbTcfg j) XB_TCFG.BLIM) ∧ ∀ a ∈ (s.xport j).pend, s.prio j a.master ≤ s.prio j (s.xport j).last := by
  unfold State.keepsPort at h
  simp only [Bool.and_eq_true, decide_eq_true_eq, any_master, List.all_eq_true] at h
  obtain ⟨⟨⟨hcons, hpend⟩, hprio⟩, hlim⟩ := h
  exact ⟨hpend, hcons, hlim, hprio⟩

/-- The round robin finds a master that waits, of the highest priority among those that wait (R351). -/
theorem State.roundRobin_facts {m : Nat} (h : s.roundRobin j = some m) :
    m < 11 ∧ (∃ a ∈ (s.xport j).pend, a.master = m) ∧ ∀ a ∈ (s.xport j).pend, a.master < 11 → s.prio j a.master ≤ s.prio j m := by
  unfold State.roundRobin at h
  have hm := List.mem_of_find?_eq_some h
  have hp := List.find?_some h
  simp only [Bool.and_eq_true, List.contains_iff_mem, List.mem_filter, List.mem_range, any_master, beq_iff_eq] at hp
  obtain ⟨⟨hlt, hpend⟩, htop⟩ := hp
  refine ⟨hlt, hpend, fun a ha hlt' => ?_⟩
  rw [htop]
  refine le_foldl_max (.inl (List.mem_map.mpr ⟨a.master, List.mem_filter.mpr ⟨List.mem_range.mpr hlt', any_master.mpr ⟨a, ha, rfl⟩⟩, rfl⟩))

/-- A held port grants nothing, nor does one at which nothing waits (R353). -/
theorem State.portGrant_held (h : (s.xport j).holder.isSome = true) : s.portGrant j = s := if_pos (.inr h)

theorem State.portGrant_empty (h : (s.xport j).pend = []) : s.portGrant j = s := by
  unfold State.portGrant
  dsimp only
  rw [h]
  split
  · rfl
  · split <;> rfl

theorem State.portGrant_winner {m : Nat} {keep : Bool} {a : Acc} {rest : List Acc} (hm : s.pm.mstate = .running) (hh : (s.xport j).holder = none)
    (hw : s.winner j = some (m, keep)) (he : extract (fun (a : Acc) => a.master == m) (s.xport j).pend = some (a, rest)) :
    s.portGrant j = (s.setXport j (({ s.xport j with pend := rest } : XPort).grant a (if keep = true then (s.xport j).cons + 1 else 1) m)).presentAt j := by
  have hgo : ¬ (s.pm.mstate ≠ .running ∨ (s.xport j).holder.isSome = true) := by simp [hm, hh]
  unfold State.portGrant
  simp only [if_neg hgo, hw, he]

end Port

/-- A port without the request takes no beat of it. -/
theorem State.beatTo_none {s : State} {h n : Nat} (b : W × BitVec 8)
    (hno : ∀ j, j < 11 → ∀ a ∈ (s.xport j).holder.toList ++ (s.xport j).pend, ¬ (a.master = h ∧ a.req = n)) : s.beatTo h n b = s := by
  unfold State.beatTo
  dsimp only
  refine foldl_stays (fun j hj => if_neg ?_)
  rw [Bool.not_eq_true, List.any_eq_false]
  intro a ha
  simpa using hno j (List.mem_range.mp hj) a ha

end Sys2Proof.Machine
end

section
/-! SUPPORT. Reading a table that was filtered, or mapped without its default entries. -/
namespace Sys2Proof.Machine

theorem tget_filter_key {α : Type} {d : α} {t : Tab α} {p : Nat → Bool} {k : Nat} (h : p k = true) : tget d (t.filter (fun kv => p kv.1)) k = tget d t k := by
  induction t with
  | nil => rfl
  | cons kv t ih =>
    obtain ⟨j, a⟩ := kv
    by_cases hj : j = k
    · subst hj
      rw [List.filter_cons, if_pos h]
      simp [tget]
    · rw [List.filter_cons]
      split
      · simp [tget, hj, ih]
      · simp [tget, hj, ih]

/-- A map over the entries, its default ones left out, reads as the map of what was read, where the default maps to the default. -/
theorem tget_mapEntries {α β : Type} [DecidableEq α] [DecidableEq β] {d : α} {e : β} {f : α → β} (hf : f d = e) {t : Tab α} (ht : t.wf (fun _ => d) = true) (k : Nat) :
    tget e ((t.map (fun kv => (kv.1, f kv.2))).filter (fun kv => kv.2 != e)) k = f (tget d t k) := by
  unfold Tab.wf at ht
  generalize 0 = b at ht
  induction t generalizing b with
  | nil => exact hf.symm
  | cons kv t ih =>
    obtain ⟨j, a⟩ := kv
    simp only [Tab.okAbove, Bool.and_eq_true, decide_eq_true_eq] at ht
    obtain ⟨⟨_, _⟩, hrest⟩ := ht
    rw [List.map_cons, List.filter_cons]
    by_cases hj : j = k
    · subst hj
      rw [tget, if_pos rfl]
      split
      · rw [tget, if_pos rfl]
      · next he =>
        have hdef : f a = e := by simpa using he
        rw [tget_below (okAbove_map (fun _ => f) hrest) (Nat.lt_succ_self j), hdef]
    · have hget : tget d ((j, a) :: t) k = tget d t k := by rw [tget, if_neg hj]
      rw [hget]
      split
      · rw [tget, if_neg hj]
        exact ih _ hrest
      · exact ih _ hrest

end Sys2Proof.Machine
end

section
/-! SUPPORT. The resets (R367, R403, R405, R424): what each keeps. -/
namespace Sys2Proof.Machine

-- The power-on reset stops what programs fuses, and clears none of them.

/-- Programming a fuse word clears no bit of any. -/
theorem State.fuse_blow {s : State} (hs : Tab.wf (fun _ => (0 : W)) s.tap.fuses = true) (w : Nat) (v : W) (i : Nat) : s.fuse i &&& ~~~(s.blow w v).fuse i = 0 := by
  unfold State.blow State.setFuse State.fuse
  by_cases h : i = w
  · subst h
    rw [tget_tput (d := fun _ => (0 : W)) _ _ hs]
    ext b hb
    simp only [BitVec.getElem_and, BitVec.getElem_not, BitVec.getElem_or]
    cases (tget 0 s.tap.fuses i)[b] <;> simp
  · rw [tget_tput_ne _ h]
    ext b hb
    simp

theorem State.blow_wf {s : State} (hs : Tab.wf (fun _ => (0 : W)) s.tap.fuses = true) (w : Nat) (v : W) : Tab.wf (fun _ => (0 : W)) (s.blow w v).tap.fuses = true :=
  wf_tput (d := fun _ => (0 : W)) _ _ hs

/-- No bit of x is missing in z, when none of x is missing in y and none of y in z. -/
theorem keepsBits_trans {x y z : W} (h : x &&& ~~~y = 0) (k : y &&& ~~~z = 0) : x &&& ~~~z = 0 := by
  ext b hb
  have hxy : x[b] = true → y[b] = true := fun hx => by
    have := congrArg (fun v : W => v.getLsbD b) h
    simpa [hx, hb] using this
  have hyz : y[b] = true → z[b] = true := fun hy => by
    have := congrArg (fun v : W => v.getLsbD b) k
    simpa [hy, hb] using this
  simp
  exact fun hx => hyz (hxy hx)

/-- Programming that stops has changed the fuse array, the status of the TAP and the next free value (R424). -/
theorem State.fuseStops_eq (s : State) (st : BitVec 8) : ∃ fz status fr, s.fuseStops st = { s with tap := { s.tap with fuses := fz, status := status, prog := none }, free := fr } ∧
    (Tab.wf (fun _ => (0 : W)) s.tap.fuses = true → ∀ i, s.fuse i &&& ~~~tget 0 fz i = 0) := by
  unfold State.fuseStops
  cases hp : s.tap.prog with
  | none =>
    have htap : s.tap = { s.tap with prog := none } := by rw [← hp]
    exact ⟨s.tap.fuses, s.tap.status, s.free, congrArg (fun x : Tap => { s with tap := x }) htap, fun _ i => BitVec.and_not_self _⟩
  | some w =>
    dsimp only
    unfold State.blowSome
    dsimp only
    split
    · refine ⟨_, st, _, rfl, fun hs i => ?_⟩
      exact keepsBits_trans (State.fuse_blow (s := s.nextFree) hs _ _ i) (State.fuse_blow (State.blow_wf (s := s.nextFree) hs _ _) _ _ i)
    · exact ⟨_, st, _, rfl, fun hs i => State.fuse_blow (s := s.nextFree) hs _ _ i⟩

theorem State.fuseStops_idle {s : State} (h : s.tap.prog = none) (st : BitVec 8) : s.fuseStops st = s := by
  unfold State.fuseStops
  rw [h]

/-- What a host's pins say, in a port that is otherwise reset (R365, R382, R387). -/
def XHost.pins (x : XHost) : XHost :=
  { XHost.reset with low := x.low, waitClear := x.low, stopped := x.stopped, hold := x.hold, irqKept := if x.stopped then some 0 else none }

theorem State.host_blank {s : State} (hs : s.canon) (h : Nat) : s.blank.host h = (s.host h).pins := tget_mapEntries (f := XHost.pins) rfl hs.hosts h

theorem State.ni_blank {s : State} (hs : s.canon) (t p : Nat) : s.blank.ni t p = (s.ni t p).pins := tget_mapEntries (f := Ni.pins) rfl hs.nis _

-- The links train.

/-- A direction's links train: both ends in REINIT, first pass. -/
structure State.trains (s : State) (t pl d : Nat) : Prop where
  state : s.linkState t pl d = lkReinit
  passes : (s.link t pl d).passes = 1

/-- A field of a register that is written lkReinit, or another register written, keeps lkReinit. -/
theorem State.g_p_again {s : State} (hs : s.regsOk) (o o' : Nat) (f : Fd) (x : Nat) (hf : f.lo + f.w ≤ 64) (hx : x < 2 ^ f.w) (h : s.g o f = x) :
    (s.p o' f x).g o f = x := by
  by_cases ho : o = o'
  · subst ho
    rw [s.g_p _ _ _ hs hf, Nat.mod_eq_of_lt hx]
  · rw [s.g_p_ne _ _ _ ho, h]

theorem State.linkState_setLink (s : State) (t pl d t' pl' d' : Nat) (x : LinkX) : (s.setLink t' pl' d' x).linkState t pl d = s.linkState t pl d := rfl

theorem State.linkState_train_same {s : State} (hs : s.regsOk) (t pl d : Nat) : (s.setLinkState t pl d lkReinit).linkState t pl d = lkReinit := by
  unfold State.linkState State.setLinkState
  generalize aLnkstat t pl 0 d = o
  generalize aLnkstat (neighbour t d) pl 1 (opposite d) = o'
  exact State.g_p_again (State.regsOk_p hs _ _ _) _ _ _ _ (by decide) (by decide) ((s.g_p _ _ _ hs (by decide)).trans rfl)

theorem State.linkState_train {s : State} (hs : s.regsOk) {t pl d : Nat} (h : s.linkState t pl d = lkReinit) (t' pl' d' : Nat) :
    (s.setLinkState t' pl' d' lkReinit).linkState t pl d = lkReinit := by
  unfold State.linkState at h ⊢
  unfold State.setLinkState
  generalize aLnkstat t pl 0 d = o at *
  generalize aLnkstat t' pl' 0 d' = o₁
  generalize aLnkstat (neighbour t' d') pl' 1 (opposite d') = o₂
  exact State.g_p_again (State.regsOk_p hs _ _ _) _ _ _ _ (by decide) (by decide) (State.g_p_again hs _ _ _ _ (by decide) (by decide) h)

theorem State.trains_startTraining_same {s : State} (hs : s.canon) (t pl d : Nat) : (s.startTraining t pl d).trains t pl d := by
  have hset : (s.setLinkState t pl d lkReinit).canon := (keeps_State_setLinkState (Keeps.refl s)).canon hs
  refine ⟨?_, by rw [State.startTraining, State.link_setLink _ _ _ _ _ hset]⟩
  rw [State.startTraining, State.linkState_setLink]
  exact State.linkState_train_same hs.regs t pl d

/-- Training of any direction leaves one that trains so. -/
theorem State.trains_startTraining {s : State} (hs : s.canon) {t pl d : Nat} (h : s.trains t pl d) (t' pl' d' : Nat) :
    (s.startTraining t' pl' d').trains t pl d := by
  have hset : (s.setLinkState t' pl' d' lkReinit).canon := (keeps_State_setLinkState (Keeps.refl s)).canon hs
  refine ⟨?_, ?_⟩
  · rw [State.startTraining, State.linkState_setLink]
    exact State.linkState_train hs.regs h.state t' pl' d'
  · unfold State.startTraining State.link State.setLink
    by_cases hk : lkey t pl d = lkey t' pl' d'
    · rw [hk, tget_tput (d := fun _ => LinkX.reset) _ _ hset.links]
    · rw [tget_tput_ne _ hk]
      exact h.passes

/-- A fold of steps, each of which keeps an invariant, and under it a property. -/
theorem foldl_keepsUnder {α β : Type} {f : β → α → β} {I P : β → Prop} (hI : ∀ s a, I s → I (f s a)) (hP : ∀ s a, I s → P s → P (f s a)) (l : List α) {s : β}
    (hs : I s) (h : P s) : P (l.foldl f s) := by
  induction l generalizing s with
  | nil => exact h
  | cons b l ih => exact ih (hI s b hs) (hP s b hs h)

/-- A fold of such steps, one of which gives the property, gives it. -/
theorem foldl_reaches {α β : Type} {f : β → α → β} {I P : β → Prop} (hI : ∀ s a, I s → I (f s a)) (hP : ∀ s a, I s → P s → P (f s a)) {l : List α} {a : α}
    (ha : a ∈ l) (hset : ∀ s, I s → P (f s a)) {s : β} (hs : I s) : P (l.foldl f s) := by
  induction l generalizing s with
  | nil => cases ha
  | cons b l ih =>
    rcases List.mem_cons.mp ha with rfl | ha
    · exact foldl_keepsUnder hI hP l (hI s a hs) (hset s hs)
    · exact ih ha (hI s b hs)

theorem foldl_keeps {α β : Type} {f : β → α → β} {I : β → Prop} (hI : ∀ s a, I s → I (f s a)) (l : List α) {s : β} (hs : I s) : I (l.foldl f s) := by
  induction l generalizing s with
  | nil => exact hs
  | cons b l ih => exact ih (hI s b hs)

/-- One tile's directions in one plane train, and one plane after the other. -/
def State.trainPlane (t : Nat) (s : State) (pl : Nat) : State := (List.range 4).foldl (fun s d => s.startTraining t pl d) s
def State.trainTile (s : State) (t : Nat) : State := [0, 1].foldl (State.trainPlane t) s
theorem State.trainLinks_eq (s : State) : s.trainLinks = (List.range 144).foldl State.trainTile s := rfl

theorem State.canon_startTraining {s : State} (hs : s.canon) (t pl d : Nat) : (s.startTraining t pl d).canon := (keeps_State_startTraining (Keeps.refl s)).canon hs

theorem State.canon_trainPlane {s : State} (hs : s.canon) (t pl : Nat) : (State.trainPlane t s pl).canon := by
  unfold State.trainPlane
  exact foldl_keeps (I := State.canon) (fun _ _ h => State.canon_startTraining h _ _ _) _ hs

theorem State.canon_trainTile {s : State} (hs : s.canon) (t : Nat) : (s.trainTile t).canon := by
  unfold State.trainTile
  exact foldl_keeps (I := State.canon) (fun _ _ h => State.canon_trainPlane h _ _) _ hs

section Trains
variable {s : State} (hs : s.canon) {t pl d : Nat}
include hs

theorem State.trains_trainPlane (h : s.trains t pl d) (t' pl' : Nat) : (State.trainPlane t' s pl').trains t pl d := by
  unfold State.trainPlane
  exact foldl_keepsUnder (I := State.canon) (P := fun s => s.trains t pl d) (fun _ _ h => State.canon_startTraining h _ _ _)
    (fun _ _ h k => State.trains_startTraining h k _ _ _) _ hs h

theorem State.trains_trainTile (h : s.trains t pl d) (t' : Nat) : (s.trainTile t').trains t pl d := by
  unfold State.trainTile
  exact foldl_keepsUnder (I := State.canon) (P := fun s => s.trains t pl d) (fun _ _ h => State.canon_trainPlane h _ _)
    (fun _ _ h k => State.trains_trainPlane h k _ _) _ hs h

theorem State.trains_trainPlane_same (hd : d < 4) : (State.trainPlane t s pl).trains t pl d := by
  unfold State.trainPlane
  refine foldl_reaches (I := State.canon) (P := fun s => s.trains t pl d) (a := d) (fun _ _ h => State.canon_startTraining h _ _ _)
    (fun _ _ h k => State.trains_startTraining h k _ _ _) ?_ ?_ hs
  · exact List.mem_range.mpr hd
  · exact fun _ hs => State.trains_startTraining_same hs t pl d

theorem State.trains_trainTile_same (hp : pl < 2) (hd : d < 4) : (s.trainTile t).trains t pl d := by
  unfold State.trainTile
  refine foldl_reaches (I := State.canon) (P := fun s => s.trains t pl d) (a := pl) (fun _ _ h => State.canon_trainPlane h _ _)
    (fun _ _ h k => State.trains_trainPlane h k _ _) ?_ ?_ hs
  · rw [List.mem_cons, List.mem_singleton]
    omega
  · exact fun _ hs => State.trains_trainPlane_same hs hd

/-- Every direction of every tile trains (R445). -/
theorem State.trains_trainLinks (ht : t < 144) (hp : pl < 2) (hd : d < 4) : s.trainLinks.trains t pl d := by
  rw [State.trainLinks_eq]
  refine foldl_reaches (I := State.canon) (P := fun s => s.trains t pl d) (a := t) (fun _ _ h => State.canon_trainTile h _)
    (fun _ _ h k => State.trains_trainTile h k _) ?_ ?_ hs
  · exact List.mem_range.mpr ht
  · exact fun _ hs => State.trains_trainTile_same hs hp hd

end Trains

end Sys2Proof.Machine
end

section
/-! SUPPORT. The release of a reset (R403, R405, R418, R429, R445): which registers starting the links, the chain and the loader may write. -/
namespace Sys2Proof.Machine

/-- t is s after steps of a start, which touch the links, the chain, events, the power controller, the loader, and of the registers those at which P holds. -/
structure Starts (P : Nat → Prop) (s t : State) : Prop where
  frame : t = { s with regs := t.regs, links := t.links, chn := t.chn, evc := t.evc, pm := t.pm, boot := t.boot }
  rd : ∀ o, ¬ P o → t.rd o = s.rd o

section Rules
variable {P : Nat → Prop}

theorem Starts.refl (s : State) : Starts P s s := ⟨rfl, fun _ _ => rfl⟩

theorem Starts.trans {s t u : State} (h : Starts P s t) (k : Starts P t u) : Starts P s u where
  frame := by
    obtain ⟨ht, -⟩ := h
    obtain ⟨hu, -⟩ := k
    rw [ht] at hu
    exact hu
  rd o ho := (k.rd o ho).trans (h.rd o ho)

theorem Starts.mono {Q : Nat → Prop} {s t : State} (h : Starts P s t) (hPQ : ∀ o, P o → Q o) : Starts Q s t := ⟨h.frame, fun o ho => h.rd o (fun hp => ho (hPQ o hp))⟩

theorem Starts.wr {s t : State} (h : Starts P s t) {o : Nat} (ho : P o) (v : W) : Starts P s (t.wr o v) :=
  h.trans ⟨rfl, fun _ hi => t.rd_wr_ne v (fun he => hi (he ▸ ho))⟩

theorem Starts.p {s t : State} (h : Starts P s t) {o : Nat} (ho : P o) (f : Fd) (x : Nat) : Starts P s (t.p o f x) := h.wr ho _
theorem Starts.pb {s t : State} (h : Starts P s t) {o : Nat} (ho : P o) (f : Fd) (b : Bool) : Starts P s (t.pb o f b) := h.wr ho _
theorem Starts.sat {s t : State} (h : Starts P s t) {o : Nat} (ho : P o) (f : Fd) : Starts P s (t.sat o f) := h.wr ho _

theorem Starts.setLink {s t : State} (h : Starts P s t) (i pl d : Nat) (x : LinkX) : Starts P s (t.setLink i pl d x) := h.trans ⟨rfl, fun _ _ => rfl⟩
theorem Starts.setCport {s t : State} (h : Starts P s t) (p : Nat) (x : CPort) : Starts P s (t.setCport p x) := h.trans ⟨rfl, fun _ _ => rfl⟩
theorem Starts.raise {s t : State} (h : Starts P s t) (ev : Nat) : Starts P s (t.raise ev) := h.trans ⟨rfl, fun _ _ => rfl⟩
theorem Starts.setOnce {s t : State} (h : Starts P s t) (k n : Nat) : Starts P s (t.setOnce k n) := h.trans ⟨rfl, fun _ _ => rfl⟩
theorem Starts.setCt {s t : State} (h : Starts P s t) (k : Nat) (c : Ct) : Starts P s (t.setCt k c) := h.trans ⟨rfl, fun _ _ => rfl⟩

theorem Starts.wakeMgmt {s t : State} (h : Starts P s t) : Starts P s t.wakeMgmt := by
  refine h.trans ?_
  unfold State.wakeMgmt
  split
  · exact ⟨rfl, fun _ _ => rfl⟩
  · exact .refl _

theorem Starts.foldl {α : Type} {f : State → α → State} {l : List α} (hf : ∀ s, ∀ a ∈ l, Starts P s (f s a)) (s : State) : Starts P s (l.foldl f s) := by
  induction l generalizing s with
  | nil => exact .refl s
  | cons a l ih => exact (hf s a List.mem_cons_self).trans (ih (fun s b hb => hf s b (List.mem_cons_of_mem _ hb)) _)

theorem Starts.build {s t : State} (h : Starts P s t) : t.build = s.build := by rw [h.frame]
theorem Starts.g {s t : State} (h : Starts P s t) {o : Nat} (ho : ¬ P o) (f : Fd) : t.g o f = s.g o f := congrArg (fun v => fld v f.lo f.w) (h.rd o ho)

end Rules

/-- A block of a tile; the chain's ports and errors, the counts of crossings and the power controller; the loader's status. -/
def InTile (o : Nat) : Prop := baseTl ≤ o
def InChain (o : Nat) : Prop := aChnCtl ≤ o ∧ o < baseTl
def InBoot (o : Nat) : Prop := o = aBootStat

theorem aLnkstat_inTile (t pl e d : Nat) : InTile (aLnkstat t pl e d) := by unfold InTile aLnkstat tlBase; omega

theorem Starts.trainLinks (s : State) : Starts InTile s s.trainLinks := by
  have one (s : State) (t pl d : Nat) : Starts InTile s (s.startTraining t pl d) := by
    unfold State.startTraining State.setLinkState
    exact (((Starts.refl s).p (aLnkstat_inTile ..) _ _).p (aLnkstat_inTile ..) _ _).setLink ..
  rw [State.trainLinks_eq]
  refine .foldl (fun s t _ => ?_) s
  unfold State.trainTile
  refine .foldl (fun s pl _ => ?_) s
  unfold State.trainPlane
  exact .foldl (fun s d _ => one s t pl d) s

theorem aChnPort_inChain {p : Nat} (hp : p < 3) : InChain (aChnPort p) := by unfold InChain aChnCtl aChnPort baseChn baseTl; omega

theorem Starts.trainChain (s : State) : Starts InChain s s.trainChain := by
  unfold State.trainChain
  refine .foldl (fun s p hp => ?_) s
  have hlt : p < 3 := by
    simp only [List.mem_cons, List.not_mem_nil, or_false] at hp
    omega
  split
  · exact .refl s
  · unfold State.trainPort State.sendTrain State.setCpState
    exact ((Starts.refl s).p (aChnPort_inChain hlt) _ _).setCport _ _

theorem aDomstat_inChain : InChain (aDomstat 577) := by unfold InChain; decide

theorem Starts.raiseBasalt (s : State) (ev : Nat) : Starts InChain s (s.raiseBasalt ev) := by
  have pulse : Starts InChain s (s.ctPulse 65 577) := by
    unfold State.ctPulse
    dsimp only
    split
    · exact (Starts.refl s).setCt _ _
    · split
      · exact (Starts.refl s).setCt _ _
      · have hlost := ((Starts.refl s).pb aDomstat_inChain PM_DOMSTAT.OVF true).sat aDomstat_inChain PM_DOMSTAT.OVFCNT
        unfold State.oncePer
        split
        · exact hlost
        · exact (hlost.setOnce _ _).raise _
  unfold State.raiseBasalt
  dsimp only
  split
  · exact pulse
  · exact (pulse.raise _).wakeMgmt

theorem Starts.fuseEvents (s : State) : Starts InChain s s.fuseEvents := by
  have event (s : State) (o ev : Nat) : Starts InChain s (if s.rd o = 0 then s else s.raiseBasalt ev) := by
    split
    · exact .refl s
    · exact .raiseBasalt s ev
  exact (event s aFuseCorr 1001).trans (event _ aFuseUnc 1002)

theorem aBootStat_inBoot : InBoot aBootStat := rfl

theorem Starts.setBootState (s : State) (n : Nat) : Starts InBoot s (s.setBootState n) := (Starts.refl s).p aBootStat_inBoot _ _

theorem Starts.chainRequest (s : State) : Starts InBoot s s.chainRequest := by
  have asked (x : State) : Starts InBoot x (x.sendFrame 0 1 s.chnAddr .qreq) := by
    unfold State.sendFrame
    split
    · exact .refl x
    · exact (Starts.refl x).setCport _ _
  unfold State.chainRequest
  split
  · have hwait : Starts InBoot s { s with chn := { s.chn with qtries := 1 }, boot := { s.boot with image := [] } } := ⟨rfl, fun _ _ => rfl⟩
    exact ((hwait.trans (.setBootState _ _)).pb aBootStat_inBoot _ _).trans (asked _)
  · exact .refl s

-- Sensing the fuses, and the fields that they fix.

/-- A word of the fuse shadow; what fields a fuse fixes. -/
def InShadow (o : Nat) : Prop := aFuseW 0 ≤ o ∧ o < aFuseCtl
def InFused (o : Nat) : Prop := o = aFuseCtl ∨ o = aBootStat ∨ aGovcap ≤ o

theorem Starts.loadFz (s : State) : Starts InFused s s.loadFz := by
  have hctl : InFused aFuseCtl := .inl rfl
  have hboot : InFused aBootStat := .inr (.inl rfl)
  have hcap : InFused aGovcap := .inr (.inr (Nat.le_refl _))
  have hmap : InFused aDommap := .inr (.inr (by decide))
  have hpu (i : Nat) : InFused (aPuCtl i) := .inr (.inr (by unfold aPuCtl puBase aGovcap basePm; omega))
  have pus (l : List Nat) (t : State) : Starts InFused t (l.foldl (fun s i => s.p (aPuCtl i) PU_CTL.DOM (s.fuseDom i)) t) :=
    .foldl (fun s i _ => (Starts.refl s).p (hpu i) _ _) t
  have taken (t : State) (h : Starts InFused s t) : Starts InFused s { t with pm := { t.pm with cap := t.rd aGovcap } } := h.trans ⟨rfl, fun _ _ => rfl⟩
  unfold State.loadFz
  exact ((taken _ (((((Starts.refl s).wr hctl _).pb hboot _ _).p hcap _ _).p hcap _ _)).wr hmap _).trans (pus _ _)

theorem aFuseW_inShadow {w : Nat} (h : w < 64) : InShadow (aFuseW w) := by unfold InShadow aFuseW aFuseCtl; omega
theorem aFuseW_not_inFused {w : Nat} (h : w < 64) : ¬ InFused (aFuseW w) := by
  unfold InFused aFuseW aFuseCtl aBootStat aGovcap basePm baseBf
  omega
theorem aFuseW_not_inTile {w : Nat} (h : w < 64) : ¬ InTile (aFuseW w) := by unfold InTile aFuseW baseTl baseBf; omega
theorem aFuseW_not_inChain {w : Nat} (h : w < 64) : ¬ InChain (aFuseW w) := by unfold InChain aFuseW aChnCtl baseChn baseBf; omega
theorem aFuseW_not_inBoot {w : Nat} : ¬ InBoot (aFuseW w) := by unfold InBoot aFuseW aBootStat; omega

/-- What sensing takes a fuse word for (R418). -/
def State.sensedWord (s : State) (w : Nat) : W := if isSealed w = true then (fuseDecode (s.fuse w) (s.checkByte w)).1 else s.fuse w

/-- One word is sensed. -/
def State.senseWord (s : State) (w : Nat) : State :=
  if isSealed w then
    let r := fuseDecode (s.fuse w) (s.checkByte w)
    ((s.wr (aFuseW w) r.1).putBitAt aFuseCorr w r.2.1).putBitAt aFuseUnc w r.2.2
  else s.wr (aFuseW w) (s.fuse w)

theorem State.sense_eq (s : State) : s.sense = (List.range 64).foldl State.senseWord s := rfl

section Sense
variable {s : State} {w : Nat}

theorem State.senseWord_tap (s : State) (w : Nat) : (s.senseWord w).tap = s.tap := by
  unfold State.senseWord
  split <;> rfl

theorem State.senseWord_regsOk (h : s.regsOk) (w : Nat) : (s.senseWord w).regsOk := by
  unfold State.senseWord
  split
  · exact State.regsOk_wr (State.regsOk_wr (State.regsOk_wr h _ _) _ _) _ _
  · exact State.regsOk_wr h _ _

theorem aFuseW_ne {w v : Nat} (h : w ≠ v) : aFuseW w ≠ aFuseW v := by unfold aFuseW; omega
theorem aFuseW_ne_corr (h : w < 64) : aFuseW w ≠ aFuseCorr := by unfold aFuseW aFuseCorr; omega
theorem aFuseW_ne_unc (h : w < 64) : aFuseW w ≠ aFuseUnc := by unfold aFuseW aFuseUnc; omega

theorem State.senseWord_same (hs : s.regsOk) (h : w < 64) : (s.senseWord w).rd (aFuseW w) = s.sensedWord w := by
  unfold State.senseWord State.sensedWord
  split
  · dsimp only
    rw [State.putBitAt, State.rd_wr_ne _ _ (aFuseW_ne_unc h), State.putBitAt, State.rd_wr_ne _ _ (aFuseW_ne_corr h), State.rd_wr _ _ _ hs]
  · exact State.rd_wr _ _ _ hs

theorem State.senseWord_ne (h : w < 64) {v : Nat} (hv : w ≠ v) : (s.senseWord v).rd (aFuseW w) = s.rd (aFuseW w) := by
  unfold State.senseWord
  split
  · dsimp only
    rw [State.putBitAt, State.rd_wr_ne _ _ (aFuseW_ne_unc h), State.putBitAt, State.rd_wr_ne _ _ (aFuseW_ne_corr h), State.rd_wr_ne _ _ (aFuseW_ne hv)]
  · exact State.rd_wr_ne _ _ (aFuseW_ne hv)

theorem State.sensedWord_of {t : State} (h : t.tap = s.tap) : t.sensedWord w = s.sensedWord w := by
  unfold State.sensedWord State.checkByte State.fuse
  rw [h]

/-- Sensing fills the shadow (R403, R418). -/
theorem State.sense_rd (hs : s.regsOk) (h : w < 64) : s.sense.rd (aFuseW w) = s.sensedWord w := by
  rw [State.sense_eq]
  refine foldl_reaches (I := fun t : State => t.tap = s.tap ∧ t.regsOk) (P := fun t : State => t.rd (aFuseW w) = s.sensedWord w) (a := w) ?inv ?keep ?_ ?set ⟨rfl, hs⟩
  case inv => exact fun t v ⟨htap, hregs⟩ => ⟨(t.senseWord_tap v).trans htap, State.senseWord_regsOk hregs v⟩
  case keep =>
    intro t v ⟨htap, hregs⟩ hw
    by_cases hv : w = v
    · subst hv
      rw [State.senseWord_same hregs h, State.sensedWord_of htap]
    · rw [State.senseWord_ne h hv, hw]
  case set => exact fun t ⟨htap, hregs⟩ => (State.senseWord_same hregs h).trans (State.sensedWord_of htap)
  · exact List.mem_range.mpr h

end Sense

end Sys2Proof.Machine
end

section
/-! SUPPORT. The resets and their releases (R367, R403, R405, R418). -/
namespace Sys2Proof.Machine

-- A release.

theorem aLnkstat_not_inChain (t pl e d : Nat) : ¬ InChain (aLnkstat t pl e d) := fun h => Nat.not_lt.mpr (aLnkstat_inTile t pl e d) h.2
theorem aLnkstat_not_inBoot (t pl e d : Nat) : ¬ InBoot (aLnkstat t pl e d) := by
  have h := aLnkstat_inTile t pl e d
  have hlt : aBootStat < baseTl := by decide
  unfold InTile InBoot at *
  omega
theorem aBootStat_not_inTile : ¬ InTile aBootStat := by unfold InTile; decide
theorem aBootStat_not_inChain : ¬ InChain aBootStat := by unfold InChain; decide
theorem aChnId_not_inTile : ¬ InTile aChnId := by unfold InTile; decide
theorem aChnId_not_inChain : ¬ InChain aChnId := by unfold InChain; decide

theorem Starts.linkState {P : Nat → Prop} {s t : State} (h : Starts P s t) {i pl d : Nat} (ho : ¬ P (aLnkstat i pl 0 d)) : t.linkState i pl d = s.linkState i pl d := h.g ho _
theorem Starts.bootState {P : Nat → Prop} {s t : State} (h : Starts P s t) (ho : ¬ P aBootStat) : t.bootState = s.bootState := h.g ho _
theorem Starts.chainBoots {P : Nat → Prop} {s t : State} (h : Starts P s t) (ho : ¬ P aChnId) : t.chainBoots = s.chainBoots := by
  unfold State.chainBoots State.isRoot State.gb
  rw [h.g ho, h.g ho]

/-- The links, the chain and the events of a release, before the loader goes on. -/
def State.started (s : State) : State := ({ s with rst0 := s.cyc }.trainLinks.trainChain).fuseEvents

/-- The loader goes on from the step that R403 or R405 gives. -/
def State.loaderGoes (s : State) : State :=
  if s.bootState ≠ bsFuses ∨ s.chainBoots = true then s else s.setBootState (if s.g aBootSpi BOOT_SPI.OPCODE = 0 then bsSfdp else bsHeaders)

theorem State.leaveFabricReset_eq (s : State) : s.leaveFabricReset = s.started.loaderGoes.chainRequest := rfl

theorem Starts.loaderGoes (s : State) : Starts InBoot s s.loaderGoes := by
  unfold State.loaderGoes
  split
  · exact .refl s
  · exact .setBootState s _

/-- After training, the rest of a start touches no tile. -/
theorem State.started_from (s : State) : Starts InChain { s with rst0 := s.cyc }.trainLinks s.started := (Starts.trainChain _).trans (.fuseEvents _)

theorem State.leave_from (s : State) : Starts InBoot s.started s.leaveFabricReset := (Starts.loaderGoes _).trans (.chainRequest _)

theorem State.leave_starts (s : State) : Starts (fun o => InTile o ∨ InChain o ∨ InBoot o) { s with rst0 := s.cyc } s.leaveFabricReset :=
  ((Starts.trainLinks _).mono (fun _ h => .inl h)).trans ((s.started_from.mono (fun _ h => .inr (.inl h))).trans (s.leave_from.mono (fun _ h => .inr (.inr h))))

theorem State.leave_frame (s : State) : s.leaveFabricReset.porstLow = s.porstLow ∧ s.leaveFabricReset.rstLow = s.rstLow ∧
    s.leaveFabricReset.bas0 = s.bas0 ∧ s.leaveFabricReset.rst0 = s.cyc := by
  rw [s.leave_starts.frame]
  exact ⟨rfl, rfl, rfl, rfl⟩

theorem State.leave_shadow (s : State) {w : Nat} (h : w < 64) : s.leaveFabricReset.rd (aFuseW w) = s.rd (aFuseW w) :=
  s.leave_starts.rd _ (by
    rintro (hp | hp | hp)
    · exact aFuseW_not_inTile h hp
    · exact aFuseW_not_inChain h hp
    · exact aFuseW_not_inBoot hp)

theorem State.leave_links {s : State} (hs : s.canon) {t pl d : Nat} (ht : t < 144) (hp : pl < 2) (hd : d < 4) : s.leaveFabricReset.linkState t pl d = lkReinit := by
  have hcanon : ({ s with rst0 := s.cyc } : State).canon := { hs with }
  rw [s.leave_from.linkState (aLnkstat_not_inBoot t pl 0 d), s.started_from.linkState (aLnkstat_not_inChain t pl 0 d)]
  exact (State.trains_trainLinks hcanon ht hp hd).state

theorem State.loaderGoes_past {s : State} (h : s.bootState ≠ bsFuses) : s.loaderGoes = s := if_pos (.inl h)

theorem State.chainRequest_alone {s : State} (h : s.chainBoots = false) : s.chainRequest = s := by
  unfold State.chainRequest
  rw [h]
  rfl

/-- A loader that is not at its first step, in an instance that does not boot over the chain, is left where it is. -/
theorem State.leave_boot {s : State} (hb : s.bootState ≠ bsFuses) (hc : s.chainBoots = false) : s.leaveFabricReset.bootState = s.bootState := by
  have htrain := Starts.trainLinks { s with rst0 := s.cyc }
  have hstate : s.started.bootState = s.bootState := by
    rw [s.started_from.bootState aBootStat_not_inChain, htrain.bootState aBootStat_not_inTile]
    rfl
  have hchain : s.started.chainBoots = false := by
    rw [s.started_from.chainBoots aChnId_not_inChain, htrain.chainBoots aChnId_not_inTile]
    exact hc
  rw [State.leaveFabricReset_eq, State.loaderGoes_past (by rw [hstate]; exact hb), State.chainRequest_alone hchain]
  exact hstate

-- What a power-on reset and a fabric reset keep.

section Kept
variable (s : State)

/-- The block of a fabric reset before its fuses are loaded again. -/
def State.fabricBlank : State := { s.blank with rstLow := true, regs := s.regs.filter (fun kv => keptByFabricReset kv.1) }

theorem State.fabricBlank_rd {o : Nat} (h : keptByFabricReset o = true) : s.fabricBlank.rd o = s.rd o := tget_filter_key h

theorem fuseW_kept {w : Nat} (h : w < 64) : keptByFabricReset (aFuseW w) = true := by
  have hlt : aFuseW 0 ≤ aFuseW w ∧ aFuseW w ≤ aFuseCtl := by unfold aFuseW aFuseCtl; omega
  unfold keptByFabricReset
  simp only [hlt, decide_true, Bool.true_or, and_self]

/-- A chain port's record is kept, another register of the chain or the loader is left alone. -/
def InPorts (o : Nat) : Prop := o = aChnPort 1 ∨ o = aChnPort 2

theorem Starts.keepRange (s old : State) (p : Nat) : Starts (fun o => o = aChnPort p) s (s.keepRange old p) := by
  unfold State.keepRange State.setRange
  have here : (fun o => o = aChnPort p) (aChnPort p) := rfl
  exact ((((Starts.refl (P := fun o => o = aChnPort p) s).p here _ _).p here _ _).p here _ _).p here _ _

end Kept

-- Settling O37.

theorem aBootSpi_kept : keptByFabricReset aBootSpi = true := by decide
theorem aBootCfg_kept : keptByFabricReset aBootCfg = true := by decide
theorem aChnId_kept : keptByFabricReset aChnId = true := by decide

/-- The block that a fabric reset leaves (R367, R405, R431). -/
def State.fabricReset (s : State) : State := ((s.fabricBlank.keepRange s 1).keepRange s 2).loadFz

theorem State.fabricReset_starts (s : State) : Starts (fun o => InPorts o ∨ InFused o) s.fabricBlank s.fabricReset :=
  (((Starts.keepRange _ _ 1).mono (fun _ h => .inl (.inl h))).trans ((Starts.keepRange _ _ 2).mono (fun _ h => .inl (.inr h)))).trans
    ((Starts.loadFz _).mono (fun _ h => .inr h))

theorem State.fabricReset_rd (s : State) {o : Nat} (hk : keptByFabricReset o = true) (hp : ¬ InPorts o) (hf : ¬ InFused o) : s.fabricReset.rd o = s.rd o :=
  (s.fabricReset_starts.rd o (not_or.mpr ⟨hp, hf⟩)).trans (s.fabricBlank_rd hk)

theorem Starts.sense (s : State) : Starts InShadow s s.sense := by
  have hcorr : InShadow aFuseCorr := by unfold InShadow; decide
  have hunc : InShadow aFuseUnc := by unfold InShadow; decide
  rw [State.sense_eq]
  refine .foldl (fun s w hw => ?_) s
  have hword := aFuseW_inShadow (List.mem_range.mp hw)
  unfold State.senseWord
  split
  · exact (((Starts.refl s).wr hword _).wr hcorr _).wr hunc _
  · exact (Starts.refl s).wr hword _

/-- The fuses are sensed, and the fields that they fix loaded (R403); and the loader is set to its step. -/
def State.coldSensed (s : State) : State := ({ s with porstLow := false, bas0 := s.cyc }.sense).loadFz
def State.coldStart (s : State) : State := if s.coldSensed.chainBoots = true then s.coldSensed else s.coldSensed.setBootState bsSfdp

section Cold
variable (s : State)

theorem State.coldSensed_starts : Starts (fun o => InShadow o ∨ InFused o) { s with porstLow := false, bas0 := s.cyc } s.coldSensed :=
  ((Starts.sense _).mono (fun _ h => .inl h)).trans ((Starts.loadFz _).mono (fun _ h => .inr h))

theorem State.coldStart_starts : Starts InBoot s.coldSensed s.coldStart := by
  unfold State.coldStart
  split
  · exact .refl _
  · exact .setBootState _ _

theorem State.coldStart_frame : s.coldStart.porstLow = false ∧ s.coldStart.rstLow = s.rstLow ∧ s.coldStart.bas0 = s.cyc ∧ s.coldStart.cyc = s.cyc := by
  rw [s.coldStart_starts.frame, s.coldSensed_starts.frame]
  exact ⟨rfl, rfl, rfl, rfl⟩

theorem State.exec_coldResetRelease {s : State} (h : s.porstLow = true) :
    exec .coldResetRelease s = .next (if s.rstLow = true then s.coldStart else s.coldStart.leaveFabricReset) := by
  have hgo : ¬ s.porstLow = false := by rw [h]; exact Bool.noConfusion
  obtain ⟨-, hrst, -, -⟩ := s.coldStart_frame
  rw [← hrst]
  exact congrArg Host.Outcome.next (if_neg hgo)

theorem State.coldStart_shadow (hs : s.canon) {w : Nat} (h : w < 64) : s.coldStart.rd (aFuseW w) = s.sensedWord w := by
  have hregs : ({ s with porstLow := false, bas0 := s.cyc } : State).regsOk := hs.regs
  rw [s.coldStart_starts.rd _ aFuseW_not_inBoot, State.coldSensed, (Starts.loadFz _).rd _ (aFuseW_not_inFused h), State.sense_rd hregs h]
  rfl

theorem State.coldSensed_canon (hs : s.canon) : s.coldSensed.canon := by
  have hbase : ({ s with porstLow := false, bas0 := s.cyc } : State).canon := { hs with }
  exact (keeps_State_loadFz (keeps_State_sense (Keeps.refl _))).canon hbase

theorem State.coldStart_canon (hs : s.canon) : s.coldStart.canon := by
  unfold State.coldStart
  split
  · exact s.coldSensed_canon hs
  · exact ((Keeps.refl _).wr _ _).canon (s.coldSensed_canon hs)

theorem aChnId_not_inBoot : ¬ InBoot aChnId := by unfold InBoot; decide

theorem State.coldStart_boot (hs : s.canon) (h : s.coldSensed.chainBoots = false) : s.coldStart.bootState = bsSfdp ∧ s.coldStart.chainBoots = false := by
  refine ⟨?_, (s.coldStart_starts.chainBoots aChnId_not_inBoot).trans h⟩
  have hstart : s.coldStart = s.coldSensed.setBootState bsSfdp := if_neg (by rw [h]; exact Bool.noConfusion)
  rw [hstart]
  exact (State.g_p _ _ _ _ (s.coldSensed_canon hs).regs (by decide)).trans rfl

end Cold

-- What the fabric reset leaves beside the registers.

/-- Of s and t only the registers differ. -/
def RegsOnly (s t : State) : Prop := t = { s with regs := t.regs }

theorem RegsOnly.refl (s : State) : RegsOnly s s := rfl
theorem RegsOnly.trans {s t u : State} (h : RegsOnly s t) (k : RegsOnly t u) : RegsOnly s u := by
  unfold RegsOnly at *
  rw [h] at k
  exact k
theorem RegsOnly.wr {s t : State} (h : RegsOnly s t) (o : Nat) (v : W) : RegsOnly s (t.wr o v) := h.trans rfl
theorem RegsOnly.p {s t : State} (h : RegsOnly s t) (o : Nat) (f : Fd) (x : Nat) : RegsOnly s (t.p o f x) := h.wr _ _
theorem RegsOnly.pb {s t : State} (h : RegsOnly s t) (o : Nat) (f : Fd) (b : Bool) : RegsOnly s (t.pb o f b) := h.wr _ _
theorem RegsOnly.foldl {α : Type} {f : State → α → State} (hf : ∀ s a, RegsOnly s (f s a)) (l : List α) (s : State) : RegsOnly s (l.foldl f s) := by
  induction l generalizing s with
  | nil => exact .refl s
  | cons a l ih => exact (hf s a).trans (ih _)

/-- The fields of word 1, before the domains; the domains. -/
def State.loadWords (s : State) : State :=
  let v := s.fuse1
  let s := (s.wr aFuseCtl s.fuseCtl).pb aBootStat BOOT_STAT.SECURE (bitOf v 0)
  (s.p aGovcap PM_GOVCAP.FCAP (fld v 16 16)).p aGovcap PM_GOVCAP.CAP (fld v 32 16)

def State.loadDomains (s : State) : State :=
  ((List.range 432).filter (puExists s.build)).foldl (fun s i => s.p (aPuCtl i) PU_CTL.DOM (s.fuseDom i))
    (s.wr aDommap (if s.fuseBad 17 then 0 else (s.rd (aFuseW 17)) &&& 0xFFFFFFFF#64))

theorem State.loadFz_split (s : State) : s.loadFz = State.loadDomains { s.loadWords with pm := { s.loadWords.pm with cap := s.loadWords.rd aGovcap } } := rfl

theorem RegsOnly.loadWords (s : State) : RegsOnly s s.loadWords := by
  unfold State.loadWords
  exact ((((RegsOnly.refl s).wr _ _).pb _ _ _).p _ _ _).p _ _ _

theorem RegsOnly.loadDomains (s : State) : RegsOnly s s.loadDomains := by
  unfold State.loadDomains
  exact ((RegsOnly.refl s).wr _ _).trans (.foldl (fun t i => (RegsOnly.refl t).p _ _ _) _ _)

theorem RegsOnly.keepRange (s old : State) (p : Nat) : RegsOnly s (s.keepRange old p) := by
  unfold State.keepRange State.setRange
  exact ((((RegsOnly.refl s).p _ _ _).p _ _ _).p _ _ _).p _ _ _

theorem aPuCtl_ne_govcap (i : Nat) : aGovcap ≠ aPuCtl i := by unfold aPuCtl puBase aGovcap basePm; omega
theorem aDommap_ne_govcap : aGovcap ≠ aDommap := by decide

theorem State.loadDomains_govcap (s : State) : s.loadDomains.rd aGovcap = s.rd aGovcap := by
  unfold State.loadDomains
  exact foldl_keeps (I := fun t : State => t.rd aGovcap = s.rd aGovcap) (fun t i h => (State.rd_wr_ne t _ (aPuCtl_ne_govcap i)).trans h) _
    (State.rd_wr_ne s _ aDommap_ne_govcap)

theorem eq_regsThenCap {a b c : State} {v : W} (hb : RegsOnly a b) (hc : RegsOnly { b with pm := { b.pm with cap := v } } c) :
    c = { a with regs := c.regs, pm := { a.pm with cap := v } } := by
  unfold RegsOnly at *
  rw [hb] at hc
  exact hc

/-- The fields that a fuse fixes are registers and the cap in force (R391, R403). -/
theorem State.loadFz_eq (s : State) : s.loadFz = { s with regs := s.loadFz.regs, pm := { s.pm with cap := s.loadFz.rd aGovcap } } := by
  have hcap : s.loadFz.rd aGovcap = s.loadWords.rd aGovcap := by
    rw [State.loadFz_split, State.loadDomains_govcap]
    rfl
  rw [hcap]
  exact eq_regsThenCap (.loadWords s) (.loadDomains _)

section Fabric
variable (s : State)

theorem State.fabricReset_eq : s.fabricReset = { s.fabricBlank with regs := s.fabricReset.regs, pm := { Pm.reset with cap := s.fabricReset.rd aGovcap } } := by
  have hkeep : RegsOnly s.fabricBlank ((s.fabricBlank.keepRange s 1).keepRange s 2) := (RegsOnly.keepRange ..).trans (.keepRange ..)
  have h := ((s.fabricBlank.keepRange s 1).keepRange s 2).loadFz_eq
  unfold State.fabricReset
  generalize (s.fabricBlank.keepRange s 1).keepRange s 2 = t at hkeep h ⊢
  generalize t.loadFz.rd aGovcap = v at h ⊢
  generalize t.loadFz = u at h ⊢
  rw [RegsOnly] at hkeep
  rw [hkeep] at h
  exact h

variable {s} in
theorem State.fabricBlank_regsOk (hs : s.canon) : s.fabricBlank.regsOk := wf_filter _ hs.regs

/-- The four fields of a chain port's record are written apart. -/
theorem State.setRange_reads {s : State} (hs : s.regsOk) (p lo hi h tiles : Nat) :
    (s.setRange p lo hi h tiles).g (aChnPort p) CHN_PORT.LO = lo % 2 ^ 8 ∧ (s.setRange p lo hi h tiles).g (aChnPort p) CHN_PORT.HI = hi % 2 ^ 8 ∧
      (s.setRange p lo hi h tiles).g (aChnPort p) CHN_PORT.SUBH = h % 2 ^ 8 ∧ (s.setRange p lo hi h tiles).g (aChnPort p) CHN_PORT.SUBTILES = tiles % 2 ^ 16 := by
  unfold State.setRange
  generalize aChnPort p = o
  have h1 := State.regsOk_p hs o CHN_PORT.LO lo
  have h2 := State.regsOk_p h1 o CHN_PORT.HI hi
  have h3 := State.regsOk_p h2 o CHN_PORT.SUBH h
  dsimp only
  refine ⟨?_, ?_, ?_, ?_⟩
  · rw [State.g_p_other _ _ _ _ _ h3 (.inl (by decide)), State.g_p_other _ _ _ _ _ h2 (.inl (by decide)), State.g_p_other _ _ _ _ _ h1 (.inl (by decide)),
      State.g_p _ _ _ _ hs (by decide)]
    rfl
  · rw [State.g_p_other _ _ _ _ _ h3 (.inl (by decide)), State.g_p_other _ _ _ _ _ h2 (.inl (by decide)), State.g_p _ _ _ _ h1 (by decide)]
    rfl
  · rw [State.g_p_other _ _ _ _ _ h3 (.inl (by decide)), State.g_p _ _ _ _ h2 (by decide)]
    rfl
  · rw [State.g_p _ _ _ _ h3 (by decide)]
    rfl

theorem State.g_lt (s : State) (o : Nat) (f : Fd) : s.g o f < 2 ^ f.w := BitVec.isLt _

/-- A chain port's record is what it was in the state from which it is kept. -/
theorem State.keepRange_reads {s : State} (hs : s.regsOk) (old : State) (p : Nat) :
    ∀ f ∈ [CHN_PORT.LO, CHN_PORT.HI, CHN_PORT.SUBH, CHN_PORT.SUBTILES], (s.keepRange old p).g (aChnPort p) f = old.g (aChnPort p) f := by
  obtain ⟨hlo, hhi, hh, ht⟩ := State.setRange_reads hs p (old.g (aChnPort p) CHN_PORT.LO) (old.g (aChnPort p) CHN_PORT.HI) (old.g (aChnPort p) CHN_PORT.SUBH)
    (old.g (aChnPort p) CHN_PORT.SUBTILES)
  intro f hf
  simp only [List.mem_cons, List.not_mem_nil, or_false] at hf
  rcases hf with rfl | rfl | rfl | rfl
  · exact hlo.trans (Nat.mod_eq_of_lt (old.g_lt _ CHN_PORT.LO))
  · exact hhi.trans (Nat.mod_eq_of_lt (old.g_lt _ CHN_PORT.HI))
  · exact hh.trans (Nat.mod_eq_of_lt (old.g_lt _ CHN_PORT.SUBH))
  · exact ht.trans (Nat.mod_eq_of_lt (old.g_lt _ CHN_PORT.SUBTILES))

theorem State.keepRange_regsOk {s : State} (hs : s.regsOk) (old : State) (p : Nat) : (s.keepRange old p).regsOk :=
  State.regsOk_p (State.regsOk_p (State.regsOk_p (State.regsOk_p hs _ _ _) _ _ _) _ _ _) _ _ _

/-- The records of the chain's downstream ports survive a fabric reset (R431). -/
theorem State.fabricReset_ports {s : State} (hs : s.canon) {p : Nat} (hp : p = 1 ∨ p = 2) {f : Fd}
    (hf : f ∈ [CHN_PORT.LO, CHN_PORT.HI, CHN_PORT.SUBH, CHN_PORT.SUBTILES]) : s.fabricReset.g (aChnPort p) f = s.g (aChnPort p) f := by
  have h1 := State.keepRange_regsOk (s.fabricBlank_regsOk hs) s 1
  have hfused : ¬ InFused (aChnPort p) := by
    rcases hp with rfl | rfl <;> (unfold InFused; decide)
  have hne : ¬ aChnPort 1 = aChnPort 2 := by decide
  unfold State.fabricReset
  rw [(Starts.loadFz _).g hfused]
  rcases hp with rfl | rfl
  · rw [(Starts.keepRange _ s 2).g hne]
    exact State.keepRange_reads (s.fabricBlank_regsOk hs) s 1 f hf
  · exact State.keepRange_reads h1 s 2 f hf

end Fabric

/-- Settles O37: what the two resets keep, and what the release that ends the last of them starts. -/
theorem resetsAndReleases : Obligations.ResetsAndReleases := by
  intro s
  refine ⟨?power, ?fabric, fun h => ?cold0, fun h => ?fab0, fun hp hr => ?cold1, fun hp hr => ?cold2, fun hr hp => ?fab1, fun hr hp => ?fab2,
    fun hs t pl d ht hpl hd => ?train⟩
  case power =>
    obtain ⟨fz, status, fr, heq, hbits⟩ := s.fuseStops_eq 0
    have hhost (hs : s.canon) (h : Nat) : (s.fuseStops 0).blank.host h = (s.host h).pins := by
      rw [State.host_blank ((keeps_State_fuseStops (Keeps.refl s)).canon hs), heq]
      rfl
    have hni (hs : s.canon) (t p : Nat) : (s.fuseStops 0).blank.ni t p = (s.ni t p).pins := by
      rw [State.ni_blank ((keeps_State_fuseStops (Keeps.refl s)).canon hs), heq]
      rfl
    refine ⟨{ (s.fuseStops 0).blank with porstLow := true }, rfl, rfl, rfl, rfl, rfl, rfl, rfl, rfl, rfl, rfl, rfl, rfl, ?_, ?_, rfl, rfl, rfl, rfl, rfl, ?_, ?_, fun hp => ?_,
      fun hs => ⟨fun i => ?_, hhost hs, hni hs⟩⟩
    · rw [heq]; rfl
    · rw [heq]; rfl
    · rw [heq]; rfl
    · rw [heq]; rfl
    · rw [State.fuseStops_idle hp]; rfl
    · rw [heq]; exact hbits hs.tap i
  case fabric =>
    have hports {o : Nat} (h : o < aChnPort 1) : ¬ InPorts o := by
      have h12 : aChnPort 1 < aChnPort 2 := by decide
      unfold InPorts
      omega
    have hspi : s.fabricReset.rd aBootSpi = s.rd aBootSpi := s.fabricReset_rd aBootSpi_kept (hports (by decide)) (by unfold InFused; decide)
    have hid : s.fabricReset.rd aChnId = s.rd aChnId := s.fabricReset_rd aChnId_kept (hports (by decide)) (by unfold InFused; decide)
    have hcfg : s.fabricReset.rd aBootCfg = s.rd aBootCfg := s.fabricReset_rd aBootCfg_kept (hports (by decide)) (by unfold InFused; decide)
    have hfuse (w : Nat) (hw : w < 64) : s.fabricReset.rd (aFuseW w) = s.rd (aFuseW w) :=
      s.fabricReset_rd (fuseW_kept hw) (hports (by unfold aFuseW aChnPort baseBf baseChn; omega)) (aFuseW_not_inFused hw)
    have hports' (hs : s.canon) (p : Nat) (hp : p = 1 ∨ p = 2) (f : Fd) (hf : f ∈ [CHN_PORT.LO, CHN_PORT.HI, CHN_PORT.SUBH, CHN_PORT.SUBTILES]) :
        s.fabricReset.g (aChnPort p) f = s.g (aChnPort p) f := State.fabricReset_ports hs hp hf
    have hexec : exec .fabricResetAssert s = .next s.fabricReset := rfl
    have hframe := s.fabricReset_eq
    generalize s.fabricReset = u at *
    have frame {α : Type} (g : State → α) := congrArg g hframe
    refine ⟨u, hexec, frame State.rstLow, frame State.routers, frame State.agents, frame State.seq, frame State.tm,
      frame State.evc, frame State.pm, frame State.tb, frame State.pending, hspi, hfuse, hid, frame State.links, frame State.xports,
      frame State.micro, frame State.boot, frame State.obs, frame State.tap, frame State.build,
      fun hs => ⟨hcfg, hports' hs⟩⟩
  case cold0 => exact congrArg Host.Outcome.next (if_pos h)
  case fab0 => exact congrArg Host.Outcome.next (if_pos h)
  case cold1 =>
    obtain ⟨hporst, hrst, hbas, -⟩ := s.coldStart_frame
    exact ⟨s.coldStart, (State.exec_coldResetRelease hp).trans (congrArg Host.Outcome.next (if_pos hr)), hporst, hrst.trans hr, hbas⟩
  case cold2 =>
    intro sensed t
    obtain ⟨hporst, hrst, hbas, hcyc⟩ := s.coldStart_frame
    obtain ⟨hporst', hrst', hbas', hrst0⟩ := s.coldStart.leave_frame
    refine ⟨(State.exec_coldResetRelease hp).trans (congrArg Host.Outcome.next (if_neg (by rw [hr]; exact Bool.noConfusion))), fun hs =>
      ⟨hporst'.trans hporst, (hrst'.trans hrst).trans hr, hbas'.trans hbas, hrst0.trans hcyc, fun w hw => ?_, fun hc => ?_, fun i pl d hi hpl hd => ?_⟩⟩
    · exact (s.coldStart.leave_shadow hw).trans (s.coldStart_shadow hs hw)
    · obtain ⟨hboot, hchain⟩ := s.coldStart_boot hs hc
      exact (State.leave_boot (by rw [hboot]; decide) hchain).trans hboot
    · exact State.leave_links (s.coldStart_canon hs) hi hpl hd
  case fab1 =>
    have h : ¬ s.rstLow = false := by rw [hr]; exact Bool.noConfusion
    exact congrArg Host.Outcome.next ((if_neg h).trans (if_pos hp))
  case fab2 =>
    have h : ¬ s.rstLow = false := by rw [hr]; exact Bool.noConfusion
    exact congrArg Host.Outcome.next ((if_neg h).trans (if_neg (by rw [hp]; exact Bool.noConfusion)))
  case train =>
    have h := State.trains_trainLinks hs ht hpl hd
    exact ⟨h.state, h.passes⟩

end Sys2Proof.Machine
end

section
/-! SUPPORT. The best source of a target (R322, R324, R325). -/
namespace Sys2Proof.Machine

-- The largest of a rising list.

/-- The first element with the largest value, in a list that rises. -/
theorem foldl_best {f : Nat → Nat} {l : List Nat} {b : Nat} (hl : (b :: l).Pairwise (· < ·)) :
    ∃ i ∈ b :: l, l.foldl (fun b i => match b with | none => some i | some j => if f j < f i then some i else b) (some b) = some i ∧
      ∀ j ∈ b :: l, f j < f i ∨ f j = f i ∧ i ≤ j := by
  induction l generalizing b with
  | nil => exact ⟨b, List.mem_cons_self, rfl, fun j hj => .inr (by simp_all)⟩
  | cons c l ih =>
    obtain ⟨hb, hcl⟩ := List.pairwise_cons.mp hl
    have hbl : (b :: l).Pairwise (· < ·) := List.pairwise_cons.mpr ⟨fun j hj => hb j (List.mem_cons_of_mem _ hj), (List.pairwise_cons.mp hcl).2⟩
    rw [List.foldl_cons]
    by_cases hlt : f b < f c
    · obtain ⟨i, hi, hfold, hbest⟩ := ih hcl
      refine ⟨i, List.mem_cons_of_mem _ hi, by rw [← hfold]; simp only [hlt, if_true], fun j hj => ?_⟩
      rcases List.mem_cons.mp hj with rfl | hj
      · rcases hbest c List.mem_cons_self with h | h
        · exact .inl (Nat.lt_trans hlt h)
        · exact .inl (h.1 ▸ hlt)
      · exact hbest j hj
    · obtain ⟨i, hi, hfold, hbest⟩ := ih hbl
      refine ⟨i, ?_, by rw [← hfold]; simp only [hlt, if_false], fun j hj => ?_⟩
      · rcases List.mem_cons.mp hi with rfl | hi
        · exact List.mem_cons_self
        · exact List.mem_cons_of_mem _ (List.mem_cons_of_mem _ hi)
      · rcases List.mem_cons.mp hj with rfl | hj
        · exact hbest j List.mem_cons_self
        · rcases List.mem_cons.mp hj with rfl | hj
          · have hbc := hb j List.mem_cons_self
            rcases hbest b List.mem_cons_self with h | ⟨h, hle⟩
            · exact .inl (by omega)
            · rcases Nat.lt_or_ge (f j) (f i) with h' | h'
              · exact .inl h'
              · exact .inr ⟨by omega, by omega⟩
          · exact hbest j (List.mem_cons_of_mem _ hj)

-- Sources that wait.

theorem mem_bitsOf {n : Nat} {v : BitVec n} {i : Nat} : i ∈ bitsOf v ↔ i < n ∧ bitOf v i = true := by simp [bitsOf, bitOf]

/-- The sources that await a claim are those that are pending and not active. -/
theorem State.mem_pendList {s : State} {i : Nat} : i ∈ s.pendList ↔ i < 1024 ∧ s.pendBit i = true ∧ s.activeBit i = false := by
  unfold State.pendList State.pendBit State.activeBit State.bitAt
  rw [List.mem_flatMap]
  constructor
  · rintro ⟨k, hk, hi⟩
    obtain ⟨b, hb, rfl⟩ := List.mem_map.mp hi
    obtain ⟨hlt, hbit⟩ := mem_bitsOf.mp hb
    have hk := List.mem_range.mp hk
    have hdiv : (64 * k + b) / 64 = k := by omega
    have hmod : (64 * k + b) % 64 = b := by omega
    rw [hdiv, hmod]
    simp only [bitOf, BitVec.getLsbD_and, BitVec.getLsbD_not, Bool.and_eq_true, decide_eq_true_eq, Bool.not_eq_true'] at hbit ⊢
    exact ⟨by omega, hbit.1, by simpa [hlt] using hbit.2⟩
  · rintro ⟨hi, hp, ha⟩
    refine ⟨i / 64, List.mem_range.mpr (by omega), List.mem_map.mpr ⟨i % 64, mem_bitsOf.mpr ⟨Nat.mod_lt _ (by decide), ?_⟩, by omega⟩⟩
    have hlt : i % 64 < 64 := Nat.mod_lt _ (by decide)
    unfold bitOf at hp ha ⊢
    rw [BitVec.getLsbD_and, BitVec.getLsbD_not, hp, ha]
    simpa using hlt

/-- They are listed in rising order. -/
theorem State.pendList_rises (s : State) : s.pendList.Pairwise (· < ·) := by
  unfold State.pendList
  rw [List.pairwise_flatMap]
  have hrange : (List.range 16).Pairwise (· < ·) := List.pairwise_lt_range
  refine ⟨fun k _ => ?_, hrange.imp (fun {k l} hkl x hx y hy => ?_)⟩
  · rw [List.pairwise_map]
    have hbits : (bitsOf (s.rd (aPend k) &&& ~~~(s.rd (aActive k)))).Pairwise (· < ·) := List.pairwise_lt_range.filter _
    exact hbits.imp (fun h => by omega)
  · obtain ⟨a, ha, rfl⟩ := List.mem_map.mp hx
    obtain ⟨b, hb, rfl⟩ := List.mem_map.mp hy
    have := (mem_bitsOf.mp ha).1
    omega

section Target
variable {s : State} {i t : Nat}

/-- What a source that is offered to a target is, and that the target admits it (R324). -/
theorem State.target_facts (h : s.target i = some t) : s.pendBit i = true ∧ s.activeBit i = false ∧ s.pri i ≠ 0 ∧ s.admits t i = true ∧ t < 64 := by
  unfold State.target at h
  split at h
  · next hc =>
    simp only [Bool.and_eq_true, Bool.not_eq_true', bne_iff_ne, ne_eq] at hc
    obtain ⟨⟨hpend, hact⟩, hpri⟩ := hc
    have hadmits : s.admits t i = true := List.find?_some (p := fun t => s.admits t i) h
    obtain ⟨k, hk, rfl⟩ := List.mem_map.mp (List.mem_of_find?_eq_some h)
    exact ⟨hpend, hact, hpri, hadmits, Nat.mod_lt _ (by decide)⟩
  · cases h

theorem State.admits_facts (h : s.admits t i = true) : s.enBit t i = true ∧ s.grp (fld (s.rd (aThresh t)) 0 8) < s.grp (s.pri i) ∧
    (∀ x ∈ (s.stack t).head?, s.grp x.2 < s.grp (s.pri i)) ∧ (s.stack t).length < 8 := by
  unfold State.admits at h
  simp only [Bool.and_eq_true, decide_eq_true_eq] at h
  obtain ⟨⟨⟨hen, hthr⟩, htop⟩, hlen⟩ := h
  refine ⟨hen, hthr, fun x hx => ?_, hlen⟩
  cases hs : s.stack t with
  | nil => rw [hs] at hx; cases hx
  | cons y ys =>
    rw [hs] at hx htop
    have hxy : y = x := by simpa using hx
    exact hxy ▸ (by simpa using htop)

/-- The best source is offered to the target, and none so offered comes before it (R325). -/
theorem State.best_facts (h : s.best t = some i) : s.target i = some t ∧ i < 1024 ∧ ∀ j, j < 1024 → s.target j = some t → s.pri j < s.pri i ∨ s.pri j = s.pri i ∧ i ≤ j := by
  unfold State.best at h
  have hrises := s.pendList_rises.filter (fun i => s.target i == some t)
  have hmem {j : Nat} : j ∈ s.pendList.filter (fun i => s.target i == some t) ↔ j < 1024 ∧ s.target j = some t := by
    rw [List.mem_filter, State.mem_pendList, beq_iff_eq]
    constructor
    · exact fun ⟨⟨hlt, _, _⟩, ht⟩ => ⟨hlt, ht⟩
    · intro ⟨hlt, ht⟩
      obtain ⟨hpend, hact, -, -, -⟩ := State.target_facts ht
      exact ⟨⟨hlt, hpend, hact⟩, ht⟩
  generalize s.pendList.filter (fun i => s.target i == some t) = l at *
  cases l with
  | nil => cases h
  | cons b l =>
    obtain ⟨k, hk, hfold, hbest⟩ := foldl_best (f := s.pri) hrises
    have hik : k = i := by
      rw [List.foldl_cons] at h
      exact Option.some.inj (hfold.symm.trans h)
    subst hik
    obtain ⟨hlt, ht⟩ := hmem.mp hk
    exact ⟨ht, hlt, fun j hj htj => hbest j (hmem.mpr ⟨hj, htj⟩)⟩

end Target

end Sys2Proof.Machine
end

section
/-! SUPPORT. A management cycle of the event controller (R320, R325, R339): the levels, EVC_IRQ, SPUR, and the wake pulses. -/
namespace Sys2Proof.Machine

/-- t is s after steps of a cycle: pending bits, the statuses of the hosts' domains, crossings, and the outputs of the event controller. -/
structure EvcTurns (P : Nat → Prop) (s t : State) : Prop where
  frame : t = { s with regs := t.regs, pm := { s.pm with cts := t.pm.cts }, evc := { s.evc with irq := t.evc.irq, spur := t.evc.spur, wakes := t.evc.wakes, evq := t.evc.evq, once := t.evc.once } }
  rd : ∀ o, ¬ P o → t.rd o = s.rd o

theorem EvcTurns.refl {P : Nat → Prop} (s : State) : EvcTurns P s s := ⟨rfl, fun _ _ => rfl⟩

theorem EvcTurns.trans {P : Nat → Prop} {s t u : State} (h : EvcTurns P s t) (k : EvcTurns P t u) : EvcTurns P s u where
  frame := by
    obtain ⟨ht, -⟩ := h
    obtain ⟨hu, -⟩ := k
    rw [ht] at hu
    exact hu
  rd o ho := (k.rd o ho).trans (h.rd o ho)

theorem EvcTurns.mono {P Q : Nat → Prop} {s t : State} (h : EvcTurns P s t) (hPQ : ∀ o, P o → Q o) : EvcTurns Q s t :=
  ⟨h.frame, fun o ho => h.rd o (fun hp => ho (hPQ o hp))⟩

theorem EvcTurns.wr {P : Nat → Prop} (s : State) {o : Nat} (ho : P o) (v : W) : EvcTurns P s (s.wr o v) := ⟨rfl, fun _ hi => s.rd_wr_ne v (fun he => hi (he ▸ ho))⟩

theorem EvcTurns.foldl {P : Nat → Prop} {α : Type} {f : State → α → State} {l : List α} (hf : ∀ s, ∀ a ∈ l, EvcTurns P s (f s a)) (s : State) : EvcTurns P s (l.foldl f s) := by
  induction l generalizing s with
  | nil => exact .refl s
  | cons a l ih => exact (hf s a List.mem_cons_self).trans (ih (fun s b hb => hf s b (List.mem_cons_of_mem _ hb)) _)

/-- The pending words; the statuses of the hosts' domains. -/
def InPend (o : Nat) : Prop := ∃ k, k < 16 ∧ o = aPend k
def InHostDoms (o : Nat) : Prop := ∃ h, h < 8 ∧ o = aDomstat (580 + h)

theorem EvcTurns.levelPend (s : State) : EvcTurns InPend s s.levelPend := by
  unfold State.levelPend
  refine .foldl (fun s k hk => .foldl (fun s b hb => ?_) s) s
  have hb : b < 64 := (mem_bitsOf.mp hb).1
  have hk := List.mem_range.mp hk
  split
  · exact .wr s ⟨(64 * k + b) / 64, by omega, rfl⟩ _
  · exact .refl s

/-- A wake pulse counts, and enters or misses its crossing (R325, R384). -/
theorem EvcTurns.wakePulse (s : State) {t : Nat} (ht : t < 64) : EvcTurns InHostDoms s (s.wakePulse t) := by
  have hdom : InHostDoms (aDomstat (580 + t / 8)) := ⟨t / 8, by omega, rfl⟩
  have hct (s : State) (k : Nat) (c : Ct) : EvcTurns InHostDoms s (s.setCt k c) := ⟨rfl, fun _ _ => rfl⟩
  have hold (s : State) : EvcTurns InHostDoms s (if (s.host (t / 8)).waitClear then s.ctHold t else s) := by
    split
    · exact hct s _ _
    · exact .refl s
  have hpulse (s : State) : EvcTurns InHostDoms s (s.ctPulse t (580 + t / 8)) := by
    unfold State.ctPulse
    dsimp only
    split
    · exact hct s _ _
    · split
      · exact hct s _ _
      · have hlost : EvcTurns InHostDoms s ((s.pb (aDomstat (580 + t / 8)) PM_DOMSTAT.OVF true).sat (aDomstat (580 + t / 8)) PM_DOMSTAT.OVFCNT) :=
          (EvcTurns.wr s hdom _).trans (.wr _ hdom _)
        unfold State.oncePer
        split
        · exact hlost
        · exact hlost.trans ⟨rfl, fun _ _ => rfl⟩
  unfold State.wakePulse
  split
  · exact .refl s
  · exact ((hold s).trans (hpulse _)).trans ⟨rfl, fun _ _ => rfl⟩

/-- The outputs of the event controller as a cycle sets them. -/
def State.irqSet (s : State) : State := { s with evc := { s.evc with irq := s.irqNow, spur := s.evc.spur ||| (s.irqNow &&& ~~~s.evc.irq) } }

theorem State.evcCycle_runs {s : State} (h : s.pm.mstate = .running) :
    s.evcCycle = (bitsOf (s.levelPend.irqNow &&& ~~~s.levelPend.evc.irq)).foldl State.wakePulse s.levelPend.irqSet := by
  have hgo : ¬ s.pm.mstate ≠ .running := Classical.not_not.mpr h
  exact if_neg hgo

theorem State.evcCycle_rests {s : State} (h : s.pm.mstate ≠ .running) : s.evcCycle = s := if_pos h

theorem EvcTurns.wakes (l : List Nat) (hl : ∀ t ∈ l, t < 64) (s : State) : EvcTurns InHostDoms s (l.foldl State.wakePulse s) :=
  .foldl (fun s t ht => .wakePulse s (hl t ht)) s

theorem EvcTurns.irqSet {P : Nat → Prop} (s : State) : EvcTurns P s s.irqSet := ⟨rfl, fun _ _ => rfl⟩

theorem EvcTurns.evcCycle (s : State) : EvcTurns (fun o => InPend o ∨ InHostDoms o) s s.evcCycle := by
  by_cases h : s.pm.mstate = .running
  · rw [State.evcCycle_runs h]
    exact (((EvcTurns.levelPend s).mono (fun _ h => .inl h)).trans (.irqSet _)).trans
      ((EvcTurns.wakes _ (fun t ht => (mem_bitsOf.mp ht).1) _).mono (fun _ h => .inr h))
  · rw [State.evcCycle_rests h]
    exact .refl s

-- What the wake pulses leave of the event controller.

/-- A wake pulse sets no output of the event controller. -/
theorem State.wakePulse_irq (s : State) (t : Nat) : (s.wakePulse t).evc.irq = s.evc.irq ∧ (s.wakePulse t).evc.spur = s.evc.spur := by
  have hpulse (s : State) (k d : Nat) : (s.ctPulse k d).evc.irq = s.evc.irq ∧ (s.ctPulse k d).evc.spur = s.evc.spur := by
    unfold State.ctPulse State.oncePer
    dsimp only
    split
    · exact ⟨rfl, rfl⟩
    · split
      · exact ⟨rfl, rfl⟩
      · split <;> exact ⟨rfl, rfl⟩
  unfold State.wakePulse
  split
  · exact ⟨rfl, rfl⟩
  · have hhold : (if (s.host (t / 8)).waitClear = true then s.ctHold t else s).evc = s.evc := by split <;> rfl
    obtain ⟨hirq, hspur⟩ := hpulse (if (s.host (t / 8)).waitClear = true then s.ctHold t else s) t (580 + t / 8)
    rw [hhold] at hirq hspur
    exact ⟨hirq, hspur⟩

theorem State.wakes_irq (l : List Nat) (s : State) : (l.foldl State.wakePulse s).evc.irq = s.evc.irq ∧ (l.foldl State.wakePulse s).evc.spur = s.evc.spur :=
  foldl_keeps (I := fun t : State => t.evc.irq = s.evc.irq ∧ t.evc.spur = s.evc.spur)
    (fun u t ⟨hi, hs⟩ => ⟨(u.wakePulse_irq t).1.trans hi, (u.wakePulse_irq t).2.trans hs⟩) l ⟨rfl, rfl⟩

-- EVC_IRQ says which targets have a source presented to them.

theorem not_inHostDoms {o : Nat} (h : baseEvc ≤ o) : ¬ InHostDoms o := by
  rintro ⟨k, hk, rfl⟩
  unfold aDomstat basePm baseEvc at h
  omega

/-- What the wake pulses touch says nothing about who is offered a source. -/
theorem EvcTurns.target {s t : State} (h : EvcTurns InHostDoms s t) (i : Nat) : t.target i = s.target i := by
  have hrd (o : Nat) (ho : baseEvc ≤ o) : t.rd o = s.rd o := h.rd o (not_inHostDoms ho)
  have hg (o : Nat) (ho : baseEvc ≤ o) (f : Fd) : t.g o f = s.g o f := congrArg (fun v => fld v f.lo f.w) (hrd o ho)
  have hpend : t.pendBit i = s.pendBit i := congrArg (bitOf · (i % 64)) (hrd _ (by unfold aPend; omega))
  have hact : t.activeBit i = s.activeBit i := congrArg (bitOf · (i % 64)) (hrd _ (by unfold aActive; omega))
  have hpri : t.pri i = s.pri i := hg _ (by unfold aSrc; omega) _
  have hlast : t.g (aSrc i) EVC_SRC.LASTT = s.g (aSrc i) EVC_SRC.LASTT := hg _ (by unfold aSrc; omega) _
  have hgrp (x : Nat) : t.grp x = s.grp x := congrArg (fun n => x / 2 ^ (8 - max 1 n)) (hg aEvcCfg (Nat.le_refl _) EVC_CFG.PRISPLIT)
  have hadmits (k : Nat) : t.admits k i = s.admits k i := by
    have hen : t.enBit k i = s.enBit k i := congrArg (bitOf · (i % 64)) (hrd _ (by unfold aEn; omega))
    have hthr : t.rd (aThresh k) = s.rd (aThresh k) := hrd _ (by unfold aThresh aClaim; omega)
    have hstk : t.stack k = s.stack k := by unfold State.stack; rw [h.frame]
    unfold State.admits
    simp only [hen, hthr, hstk, hgrp, hpri]
  unfold State.target
  simp only [hpend, hact, hpri, hlast, hadmits]

/-- A bit is set by one of the listed sources, or was set before. -/
theorem bitOf_foldl_irq (s : State) (l : List Nat) (v : BitVec 64) (t : Nat) :
    bitOf (l.foldl (fun v i => match s.target i with | some t => if (s.host (t / 8)).low then v else putBit v t true | none => v) v) t = true ↔
      bitOf v t = true ∨ (s.host (t / 8)).low = false ∧ ∃ i ∈ l, s.target i = some t := by
  induction l generalizing v with
  | nil => simp
  | cons i l ih =>
    rw [List.foldl_cons, ih]
    cases ht : s.target i with
    | none => simp [ht]
    | some k =>
      obtain ⟨-, -, -, -, hk⟩ := State.target_facts ht
      cases hlow : (s.host (k / 8)).low with
      | true =>
        have hne : (s.host (t / 8)).low = false → k ≠ t := fun h he => by rw [he, h] at hlow; cases hlow
        simp only [hlow, if_true, List.mem_cons, exists_eq_or_imp, ht, Option.some.injEq]
        constructor
        · rintro (h | ⟨h, h'⟩)
          · exact .inl h
          · exact .inr ⟨h, .inr h'⟩
        · rintro (h | ⟨h, h' | h'⟩)
          · exact .inl h
          · exact absurd h' (hne h)
          · exact .inr ⟨h, h'⟩
      | false =>
        have hbit : bitOf (putBit v k true) t = true ↔ t = k ∨ bitOf v t = true := by
          rw [bitOf, getLsbD_putBit v true hk]
          by_cases htk : t = k <;> simp [htk, bitOf]
        simp only [hlow, Bool.false_eq_true, if_false, List.mem_cons, exists_eq_or_imp, ht, Option.some.injEq, hbit]
        constructor
        · rintro ((rfl | h) | ⟨h, h'⟩)
          · exact .inr ⟨hlow, .inl rfl⟩
          · exact .inl h
          · exact .inr ⟨h, .inr h'⟩
        · rintro (h | ⟨h, h' | h'⟩)
          · exact .inl (.inr h)
          · exact .inl (.inl h'.symm)
          · exact .inr ⟨h, h'⟩

theorem State.irqNow_bit (s : State) (t : Nat) : bitOf s.irqNow t = true ↔ (s.host (t / 8)).low = false ∧ ∃ i, i < 1024 ∧ s.target i = some t := by
  have h := bitOf_foldl_irq s s.pendList 0 t
  have hzero : ¬ bitOf (0 : BitVec 64) t = true := by simp [bitOf]
  rw [or_iff_right hzero] at h
  refine h.trans ?_
  refine and_congr_right (fun _ => exists_congr (fun i => ?_))
  rw [State.mem_pendList]
  constructor
  · exact fun ⟨⟨hlt, _, _⟩, ht⟩ => ⟨hlt, ht⟩
  · intro ⟨hlt, ht⟩
    obtain ⟨hpend, hact, -, -, -⟩ := State.target_facts ht
    exact ⟨⟨hlt, hpend, hact⟩, ht⟩

-- Event 995 is raised at most once in a cycle.

/-- Event 995 has been raised since, and noted, or it has not. -/
def State.lostOnce (e : List Nat) (t : State) : Prop := t.evc.evq = e ∨ t.evc.evq = e ++ [995] ∧ tget 0 t.evc.once 995 = t.mgtCycle + 1

theorem State.lostOnce_wakePulse {e : List Nat} {s : State} (hs : s.canon) (h : s.lostOnce e) (t : Nat) : (s.wakePulse t).lostOnce e := by
  have hpulse {s : State} (hs : s.canon) (h : s.lostOnce e) (k d : Nat) : (s.ctPulse k d).lostOnce e := by
    unfold State.ctPulse State.oncePer
    dsimp only
    split
    · exact h
    · split
      · exact h
      · split
        · exact h
        · next hnot =>
          have hevq : s.evc.evq = e := h.resolve_right (fun ⟨_, hnoted⟩ => hnot hnoted)
          have hnoted : tget 0 (tput 0 s.evc.once 995 (s.mgtCycle + 1)) 995 = s.mgtCycle + 1 := tget_tput (d := fun _ => 0) _ _ hs.evc.once
          exact .inr ⟨congrArg (· ++ [995]) hevq, hnoted⟩
  unfold State.wakePulse
  split
  · exact h
  · have hhold : (if (s.host (t / 8)).waitClear = true then s.ctHold t else s).canon ∧ (if (s.host (t / 8)).waitClear = true then s.ctHold t else s).lostOnce e := by
      split
      · exact ⟨(keeps_State_ctHold (Keeps.refl s)).canon hs, h⟩
      · exact ⟨hs, h⟩
    exact hpulse hhold.1 hhold.2 t (580 + t / 8)

theorem State.lostOnce_wakes {e : List Nat} (l : List Nat) {s : State} (hs : s.canon) (h : s.lostOnce e) : (l.foldl State.wakePulse s).lostOnce e :=
  foldl_keepsUnder (I := State.canon) (P := State.lostOnce e) (fun _ _ h => (keeps_State_wakePulse (Keeps.refl _)).canon h)
    (fun _ t h k => State.lostOnce_wakePulse h k t) l hs h

theorem State.levelPend_evc (s : State) : s.levelPend.evc = s.evc := by
  unfold State.levelPend
  refine foldl_keeps (I := fun t : State => t.evc = s.evc) (fun u k hu => ?_) _ rfl
  refine foldl_keeps (I := fun t : State => t.evc = s.evc) (fun v b hv => ?_) _ hu
  split <;> exact hv

/-- The events that a cycle raises: 995 once, where a wake pulse was lost. -/
theorem State.evcCycle_evq {s : State} (hs : s.canon) : s.evcCycle.evc.evq = s.evc.evq ∨ s.evcCycle.evc.evq = s.evc.evq ++ [995] := by
  by_cases h : s.pm.mstate = .running
  · have hlevel : s.levelPend.canon := (keeps_State_levelPend (Keeps.refl s)).canon hs
    have hset : s.levelPend.irqSet.canon := { hlevel with evc := { hlevel.evc with } }
    have hevq : s.levelPend.evc.evq = s.evc.evq := by rw [s.levelPend_evc]
    rw [State.evcCycle_runs h]
    rcases State.lostOnce_wakes (e := s.evc.evq) _ hset (.inl hevq) with h | h
    · exact .inl h
    · exact .inr h.1
  · rw [State.evcCycle_rests h]
    exact .inl rfl

/-- Settles O27: the best source; and the outputs that a cycle sets, the rest that it leaves. -/
theorem sourcesArePresentedByPriority : Obligations.SourcesArePresentedByPriority := by
  refine ⟨fun s t i h => ?best, fun s hs => ⟨State.evcCycle_rests, fun hm t ht => ?outputs, ?frame⟩⟩
  case best =>
    obtain ⟨htarget, hlt, hbest⟩ := State.best_facts h
    obtain ⟨hpend, hact, hpri, hadmits, -⟩ := State.target_facts htarget
    obtain ⟨hen, hthr, htop, hlen⟩ := State.admits_facts hadmits
    exact ⟨hpend, hact, hpri, hen, hlt, hthr, htop, hlen, hbest⟩
  case outputs =>
    let s' := s.levelPend
    have hwakes : EvcTurns InHostDoms s' s.evcCycle := by
      rw [State.evcCycle_runs hm]
      exact (EvcTurns.irqSet s').trans (.wakes _ (fun t ht => (mem_bitsOf.mp ht).1) _)
    obtain ⟨hirq, hspur⟩ := State.wakes_irq (bitsOf (s'.irqNow &&& ~~~s'.evc.irq)) s'.irqSet
    rw [← State.evcCycle_runs hm] at hirq hspur
    have hevc : s'.evc = s.evc := s.levelPend_evc
    have hhosts := congrArg State.hosts (EvcTurns.levelPend s).frame
    have hhost : s'.host (t / 8) = s.host (t / 8) := congrArg (tget XHost.reset · (t / 8)) hhosts
    refine ⟨?_, ?_⟩
    · rw [hirq]
      refine (State.irqNow_bit s' t).trans ?_
      rw [hhost]
      exact and_congr_right (fun _ => exists_congr (fun i => and_congr_right (fun _ => by rw [hwakes.target])))
    · rw [hspur, hirq]
      show bitOf (s'.evc.spur ||| (s'.irqNow &&& ~~~s'.evc.irq)) t = (bitOf s.evc.spur t || (bitOf s'.irqNow t && !bitOf s.evc.irq t))
      rw [hevc]
      simp [bitOf, ht]
  case frame =>
    refine ⟨(EvcTurns.evcCycle s).frame, fun o hp hd => (EvcTurns.evcCycle s).rd o ?_, State.evcCycle_evq hs⟩
    rintro (⟨k, hk, h⟩ | ⟨k, hk, h⟩)
    · exact hp k hk h
    · exact hd k hk h

end Sys2Proof.Machine
end

section
/-! SUPPORT. Configuration of the traffic manager (R171, R172, R206, R209, R210). -/
namespace Sys2Proof.Machine

/-- A field that a mask covers reads through it. -/
theorem fld_and_mask {n : Nat} (v m : BitVec n) (lo w : Nat) (h : m.extractLsb' lo w = BitVec.allOnes w) : fld (v &&& m) lo w = fld v lo w := by
  unfold fld
  rw [BitVec.extractLsb'_and, h, BitVec.and_allOnes]

theorem State.rd_setSh (s : State) (i : Nat) (x : Int) (o : Nat) : (s.setSh i x).rd o = s.rd o := rfl
theorem State.rd_setOwed (s : State) (i n o : Nat) : (s.setOwed i n).rd o = s.rd o := rfl
theorem State.rd_putMtr (s : State) (i : Nat) (z : Nat × Nat × Nat) (o : Nat) : (s.putMtr i z).rd o = s.rd o := rfl

-- Shapers.

/-- Tokens of a bucket refilled now: no time has passed since. -/
theorem refill_now (x : Int) (now rate ceil : Nat) : refill (x, now) now rate ceil = min x ((ceil * shUnit : Nat) : Int) := by simp [refill]

theorem aShpcfg_ne {i j : Nat} (h : j ≠ i) : aShpcfg j ≠ aShpcfg i := by unfold aShpcfg; omega

section ShaperWrite
variable {s : State} (i : Nat) (v : W)

/-- The tokens that a shaper holds just after it was set. -/
theorem State.shTok_setSh (hs : Tab.wf (fun _ => ((0, 0) : Int × Nat)) s.tm.sh = true) (x : Int) :
    (s.setSh i x).shTok i = min x ((s.g (aShpcfg i) TM_SHPCFG.CEIL * shUnit : Nat) : Int) := by
  unfold State.shTok State.setSh
  dsimp only
  rw [tget_tput (d := fun _ => ((0, 0) : Int × Nat)) _ _ hs]
  exact refill_now _ _ _ _

/-- Another shaper's tokens follow from its register, its bucket and the time. -/
theorem State.shTok_of {s t : State} {j : Nat} (hreg : t.rd (aShpcfg j) = s.rd (aShpcfg j)) (hsh : tget (0, 0) t.tm.sh j = tget (0, 0) s.tm.sh j)
    (hnow : t.runNow = s.runNow) : t.shTok j = s.shTok j := by
  unfold State.shTok State.g
  rw [hreg, hsh, hnow]

/-- A shaper whose register is written keeps what it accrued, up to the new ceiling. -/
def State.shaperSet (s : State) (i : Nat) (v : W) : State := (s.setSh i (s.shTok i)).wr (aShpcfg i) (v &&& maskOf .sq rowsTM_SHPCFG)

theorem State.shaperSet_rd (hs : s.canon) : (s.shaperSet i v).rd (aShpcfg i) = v &&& maskOf .sq rowsTM_SHPCFG := by
  have hset : (s.setSh i (s.shTok i)).regsOk := hs.regs
  exact State.rd_wr _ _ _ hset

theorem State.shaperSet_ceil (hs : s.canon) : (s.shaperSet i v).g (aShpcfg i) TM_SHPCFG.CEIL = fld v 32 24 := by
  unfold State.g
  rw [State.shaperSet_rd i v hs]
  exact fld_and_mask v _ 32 24 (by decide)

theorem State.shaperSet_shTok (hs : s.canon) : (s.shaperSet i v).shTok i = min (s.shTok i) ((fld v 32 24 * shUnit : Nat) : Int) := by
  have hget : tget ((0, 0) : Int × Nat) (s.shaperSet i v).tm.sh i = (s.shTok i, s.runNow) := tget_tput (d := fun _ => ((0, 0) : Int × Nat)) _ _ hs.tm.sh
  unfold State.shTok at hget ⊢
  rw [State.shaperSet_ceil i v hs, hget]
  exact refill_now _ _ _ _

/-- The tokens after a write: those kept, and none owed where FORGIVE is written. -/
def State.shaperKeeps (s : State) (i : Nat) (v : W) : Int := if bitOf v 63 && decide ((s.shaperSet i v).shTok i < 0) then 0 else (s.shaperSet i v).shTok i

theorem State.shaperWrite_eq : s.shaperWrite i v = ((s.shaperSet i v).setOwed i 0).setSh i (s.shaperKeeps i v) := rfl

theorem State.shaperKeeps_eq (hs : s.canon) : s.shaperKeeps i v =
    if bitOf v 63 = true then max 0 (min (s.shTok i) ((fld v 32 24 * shUnit : Nat) : Int)) else min (s.shTok i) ((fld v 32 24 * shUnit : Nat) : Int) := by
  unfold State.shaperKeeps
  rw [State.shaperSet_shTok i v hs]
  generalize min (s.shTok i) ((fld v 32 24 * shUnit : Nat) : Int) = t
  cases bitOf v 63
  · rfl
  · by_cases h : t < 0
    · have hm : max 0 t = 0 := Int.max_eq_left (Int.le_of_lt h)
      simp [h, hm]
    · have hm : max 0 t = t := Int.max_eq_right (Int.not_lt.mp h)
      simp [h, hm]

theorem State.shaperWrite_facts (hs : s.canon) : (s.shaperWrite i v).rd (aShpcfg i) = v &&& maskOf .sq rowsTM_SHPCFG ∧
    (s.shaperWrite i v).shTok i =
      (if bitOf v 63 = true then max 0 (min (s.shTok i) ((fld v 32 24 * shUnit : Nat) : Int)) else min (s.shTok i) ((fld v 32 24 * shUnit : Nat) : Int)) ∧
    (∀ j, j ≠ i → (s.shaperWrite i v).shTok j = s.shTok j) ∧ (∀ o, o ≠ aShpcfg i → (s.shaperWrite i v).rd o = s.rd o) := by
  have hrd (o : Nat) (ho : o ≠ aShpcfg i) : (s.shaperWrite i v).rd o = s.rd o := by
    rw [State.shaperWrite_eq, State.rd_setSh, State.rd_setOwed, State.shaperSet, State.rd_wr_ne _ _ ho, State.rd_setSh]
  refine ⟨by rw [State.shaperWrite_eq, State.rd_setSh, State.rd_setOwed, State.shaperSet_rd i v hs], ?_, fun j hj => ?_, hrd⟩
  · have hsh : Tab.wf (fun _ => ((0, 0) : Int × Nat)) ((s.shaperSet i v).setOwed i 0).tm.sh = true := wf_tput (d := fun _ => ((0, 0) : Int × Nat)) _ _ hs.tm.sh
    have hceil : ((s.shaperSet i v).setOwed i 0).g (aShpcfg i) TM_SHPCFG.CEIL = fld v 32 24 := by
      rw [State.g, State.rd_setOwed]
      exact State.shaperSet_ceil (s := s) i v hs
    rw [State.shaperWrite_eq, State.shTok_setSh i hsh, hceil, State.shaperKeeps_eq i v hs]
    generalize s.shTok i = x
    have hpos : (0 : Int) ≤ ((fld v 32 24 * shUnit : Nat) : Int) := Int.natCast_nonneg _
    generalize ((fld v 32 24 * shUnit : Nat) : Int) = c at hpos ⊢
    split <;> omega
  · refine State.shTok_of (hrd _ (aShpcfg_ne hj)) ?_ rfl
    exact (tget_tput_ne _ hj).trans (tget_tput_ne _ hj)

end ShaperWrite

-- Meters.

section Meter
variable {s : State} (i : Nat) (v : W)

theorem State.cbs_of {t : State} (h : t.rd (aMtr i 1) = v) : t.cbs i = fld v 0 32 * mtUnit ∧ t.xbs i = fld v 32 32 * mtUnit := by
  subst h
  exact ⟨rfl, rfl⟩

theorem State.xbs_putMtr (z : Nat × Nat × Nat) : (s.putMtr i z).xbs i = s.xbs i := by
  unfold State.xbs State.g
  rw [State.rd_putMtr]

/-- A bucket whose excess was cut stays cut when it is refilled (R208, R209). -/
theorem State.mtrTok_le (t : State) (h : (tget (0, 0, 0) t.tm.mtr i).2.1 ≤ t.xbs i) : (t.mtrTok i).1 ≤ t.cbs i ∧ (t.mtrTok i).2 ≤ t.xbs i := by
  unfold State.mtrTok
  dsimp only
  split
  · exact ⟨Nat.min_le_left _ _, Nat.min_le_left _ _⟩
  · split
    · exact ⟨Nat.le_refl _, Nat.min_le_left _ _⟩
    · next hle => exact ⟨Nat.not_lt.mp hle, h⟩

theorem State.mtrTok_of {s t : State} {j : Nat} (hrd : ∀ w, w < 4 → t.rd (aMtr j w) = s.rd (aMtr j w)) (hm : tget (0, 0, 0) t.tm.mtr j = tget (0, 0, 0) s.tm.mtr j)
    (hnow : t.runNow = s.runNow) : t.mtrTok j = s.mtrTok j := by
  unfold State.mtrTok State.cbs State.xbs State.g
  simp only [hrd 0 (by decide), hrd 1 (by decide), hrd 3 (by decide), hm, hnow]

theorem aMtr_ne {i j : Nat} {w : Nat} (hw : w < 4) (h : j ≠ i) : aMtr j w ≠ aMtr i 1 := by unfold aMtr; omega

theorem State.meterWrite_eq : s.meterWrite i 1 v = (s.wr (aMtr i 1) v).putMtr i (min ((s.wr (aMtr i 1) v).cbs i) (tget (0, 0, 0) s.tm.mtr i).1,
    min ((s.wr (aMtr i 1) v).xbs i) (tget (0, 0, 0) s.tm.mtr i).2.1, (tget (0, 0, 0) s.tm.mtr i).2.2) := rfl

theorem State.meterWrite_sizes (hs : s.canon) : (s.meterWrite i 1 v).rd (aMtr i 1) = v ∧
    ((s.meterWrite i 1 v).mtrTok i).1 ≤ fld v 0 32 * mtUnit ∧ ((s.meterWrite i 1 v).mtrTok i).2 ≤ fld v 32 32 * mtUnit ∧
    (∀ j, j ≠ i → (s.meterWrite i 1 v).mtrTok j = s.mtrTok j) ∧ (∀ o, o ≠ aMtr i 1 → (s.meterWrite i 1 v).rd o = s.rd o) := by
  rw [State.meterWrite_eq]
  generalize hz : (min ((s.wr (aMtr i 1) v).cbs i) (tget (0, 0, 0) s.tm.mtr i).1, min ((s.wr (aMtr i 1) v).xbs i) (tget (0, 0, 0) s.tm.mtr i).2.1,
    (tget (0, 0, 0) s.tm.mtr i).2.2) = z
  have hv : ((s.wr (aMtr i 1) v).putMtr i z).rd (aMtr i 1) = v := by rw [State.rd_putMtr, State.rd_wr _ _ _ hs.regs]
  have hrd (o : Nat) (ho : o ≠ aMtr i 1) : ((s.wr (aMtr i 1) v).putMtr i z).rd o = s.rd o := by rw [State.rd_putMtr, State.rd_wr_ne _ _ ho]
  obtain ⟨hcbs, hxbs⟩ := State.cbs_of i v hv
  have hget : tget ((0, 0, 0) : Nat × Nat × Nat) ((s.wr (aMtr i 1) v).putMtr i z).tm.mtr i = z := tget_tput (d := fun _ => ((0, 0, 0) : Nat × Nat × Nat)) _ _ hs.tm.mtr
  have hcut : (tget (0, 0, 0) ((s.wr (aMtr i 1) v).putMtr i z).tm.mtr i).2.1 ≤ ((s.wr (aMtr i 1) v).putMtr i z).xbs i := by
    rw [hget, ← hz, State.xbs_putMtr]
    exact Nat.min_le_left _ _
  obtain ⟨hc, hx⟩ := State.mtrTok_le i _ hcut
  rw [hcbs] at hc
  rw [hxbs] at hx
  refine ⟨hv, hc, hx, fun j hj => ?_, hrd⟩
  exact State.mtrTok_of (fun w hw => hrd _ (aMtr_ne hw hj)) (tget_tput_ne _ hj) rfl

end Meter

end Sys2Proof.Machine
end

section
/-! SUPPORT. Blocks of queues and queue descriptors (R171 to R173). -/
namespace Sys2Proof.Machine

section Writes
variable (s : State)

/-- A write that a block of queues refuses (R171), and one that it takes. -/
theorem State.qpartWrite_busy {i : Nat} {v : W} (h : s.blockBusy i = true) (hne : v &&& maskOf .sq rowsTM_QPART ≠ s.rd (aQpart i)) : s.qpartWrite i v = s.cfgRej := by
  unfold State.qpartWrite
  exact if_pos (by rw [h, decide_eq_true hne, Bool.true_and, Bool.or_true])

/-- The other blocks that a scheduler owns. -/
def State.otherBlocks (i es : Nat) : Nat := ((List.range 1024).filter (fun j => j != i && s.gb (aQpart j) TM_QPART.V && s.g (aQpart j) TM_QPART.ES == es)).length

theorem State.qpartWrite_full {i : Nat} {v : W} (hv : bitOf v 5 = true) (h : 32 ≤ s.otherBlocks i (fld v 0 5)) : s.qpartWrite i v = s.cfgRej := by
  unfold State.otherBlocks at h
  unfold State.qpartWrite
  exact if_pos (by rw [hv, decide_eq_true h, Bool.true_and, Bool.true_or])

theorem State.qpartWrite_taken {i : Nat} {v : W} (hb : s.blockBusy i = false ∨ v &&& maskOf .sq rowsTM_QPART = s.rd (aQpart i))
    (hv : bitOf v 5 = false ∨ s.otherBlocks i (fld v 0 5) < 32) : s.qpartWrite i v = s.wr (aQpart i) (v &&& maskOf .sq rowsTM_QPART) := by
  have hbusy : (decide (v &&& maskOf .sq rowsTM_QPART ≠ s.rd (aQpart i)) && s.blockBusy i) = false := by
    rcases hb with h | h
    · rw [h, Bool.and_false]
    · rw [decide_eq_false (Classical.not_not.mpr h), Bool.false_and]
  have hfull : (bitOf v 5 && decide (32 ≤ s.otherBlocks i (fld v 0 5))) = false := by
    rcases hv with h | h
    · rw [h, Bool.false_and]
    · rw [decide_eq_false (Nat.not_le.mpr h), Bool.and_false]
  unfold State.otherBlocks at hfull
  unfold State.qpartWrite
  exact if_neg (by rw [hfull, hbusy]; exact Bool.noConfusion)

-- Descriptors.

/-- The ring that a descriptor names, and whether its queue is in use (R172). -/
def ringOf (x : W) : Nat × Nat := (fld x 56 5, fld x 0 31)
def State.ringUsed (q : Nat) : Bool := bitOf (s.rd (aQdesc q 0)) 63 || !(s.queue q).recs.isEmpty

theorem ringOf_eq {x y : W} : ringOf x = ringOf y ↔ fld x 56 5 = fld y 56 5 ∧ fld x 0 31 = fld y 0 31 := Prod.mk.injEq .. ▸ Iff.rfl

theorem State.qdescWrite_taken {q : Nat} {v : W} (h : ringOf (s.rd (aQdesc q 0)) = ringOf (v &&& maskOf .sq rowsTM_QDESC0) ∨ s.ringUsed q = false) :
    s.qdescWrite q 0 v = s.wr (aQdesc q 0) (v &&& maskOf .sq rowsTM_QDESC0) := by
  unfold State.qdescWrite
  by_cases hr : ringOf (s.rd (aQdesc q 0)) = ringOf (v &&& maskOf .sq rowsTM_QDESC0)
  · exact if_pos hr
  · exact (if_neg hr).trans (if_neg (by rw [← State.ringUsed, h.resolve_left hr]; exact Bool.noConfusion))

/-- The word that a refused change of a ring leaves: everything but the ring. -/
def State.qdescKept (q : Nat) (v : W) : W :=
  setFld (setFld (v &&& maskOf .sq rowsTM_QDESC0) 56 5 (fld (s.rd (aQdesc q 0)) 56 5)) 0 31 (fld (s.rd (aQdesc q 0)) 0 31)

theorem State.qdescWrite_refused {q : Nat} {v : W} (hr : ringOf (s.rd (aQdesc q 0)) ≠ ringOf (v &&& maskOf .sq rowsTM_QDESC0)) (hu : s.ringUsed q = true) :
    s.qdescWrite q 0 v = (s.wr (aQdesc q 0) (s.qdescKept q v)).cfgRej := by
  unfold State.qdescWrite
  exact (if_neg hr).trans (if_pos hu)

theorem State.qdescKept_ring (q : Nat) (v : W) : fld (s.qdescKept q v) 56 5 = fld (s.rd (aQdesc q 0)) 56 5 ∧ fld (s.qdescKept q v) 0 31 = fld (s.rd (aQdesc q 0)) 0 31 ∧
    fld (s.qdescKept q v) 63 1 = fld v 63 1 := by
  have hrsz : fld (s.rd (aQdesc q 0)) 56 5 < 2 ^ 5 := BitVec.isLt _
  have hbase : fld (s.rd (aQdesc q 0)) 0 31 < 2 ^ 31 := BitVec.isLt _
  unfold State.qdescKept
  generalize fld (s.rd (aQdesc q 0)) 56 5 = x at *
  generalize fld (s.rd (aQdesc q 0)) 0 31 = y at *
  refine ⟨?_, ?_, ?_⟩
  · rw [fld_setFld_ne _ _ _ _ _ _ (.inr (by decide)), fld_setFld _ _ _ _ (by decide), Nat.mod_eq_of_lt hrsz]
  · rw [fld_setFld _ _ _ _ (by decide), Nat.mod_eq_of_lt hbase]
  · rw [fld_setFld_ne _ _ _ _ _ _ (.inr (by decide)), fld_setFld_ne _ _ _ _ _ _ (.inr (by decide))]
    exact fld_and_mask v _ 63 1 (by decide)

theorem State.raiseTm_regs (port ev : Nat) : (s.raiseTm port ev).regs = s.regs ∧ (s.raiseTm port ev).build = s.build := by
  unfold State.raiseTm State.tmSend
  rw [State.wake_regs, State.wake_build]
  exact ⟨rfl, rfl⟩

theorem State.cfgRej_rd {o : Nat} (h : o ≠ aBmstat) : s.cfgRej.rd o = s.rd o := by
  obtain ⟨hregs, hbuild⟩ := (s.pb aBmstat TM_BMSTAT.CFGREJ true).raiseTm_regs 0 837
  exact (State.rd_of hregs hbuild o).trans (s.rd_wr_ne _ h)

theorem State.cfgRej_set {s : State} (h : s.regsOk) : s.cfgRej.gb aBmstat TM_BMSTAT.CFGREJ = true := by
  obtain ⟨hregs, hbuild⟩ := (s.pb aBmstat TM_BMSTAT.CFGREJ true).raiseTm_regs 0 837
  have hpb := s.gb_pb_true aBmstat TM_BMSTAT.CFGREJ h (by decide) (by decide)
  exact (congrArg (· != 0) (State.g_of hregs hbuild _ _)).trans hpb

theorem aQdesc_ne_bmstat (q : Nat) : aQdesc q 0 ≠ aBmstat := by unfold aQdesc aBmstat; omega

theorem bitOf_eq_fld (v : W) (i : Nat) : (fld v i 1 != 0) = bitOf v i := by
  unfold fld bitOf
  rw [BitVec.extractLsb'_toNat, BitVec.getLsbD, Nat.testBit, Nat.one_and_eq_mod_two, Nat.pow_one]

end Writes

/-- Settles O58: each write by its right, and by what it finds. -/
theorem trafficManagerConfiguration : Obligations.TrafficManagerConfiguration := by
  intro s m v
  refine ⟨fun hr i j k l qid w => ?refused, fun hr => ?taken⟩
  case refused =>
    have stays (t : State) : (.next (if s.sqRight m then t else s) : Res) = .next s := by rw [hr]; rfl
    exact ⟨stays _, stays _, stays _, stays _, stays _, stays _⟩
  case taken =>
    have acts (t : State) : (.next (if s.sqRight m then t else s) : Res) = .next t := by rw [hr]; rfl
    refine ⟨fun i hs => ?shaper, fun j => ⟨acts _, acts _, acts _, acts _, fun hs => ?meter⟩, fun k => acts _,
      fun l hb hne => (acts _).trans (congrArg Host.Outcome.next (s.qpartWrite_busy hb hne)), fun l hv h => (acts _).trans (congrArg Host.Outcome.next (s.qpartWrite_full hv h)),
      fun l hb hv => (acts _).trans (congrArg Host.Outcome.next (s.qpartWrite_taken hb hv)), fun qid => ⟨acts _, acts _, acts _, ?_⟩⟩
    case shaper =>
      obtain ⟨hrd, htok, hothers, hregs⟩ := State.shaperWrite_facts i.val v hs
      exact ⟨s.shaperWrite i.val v, acts _, hrd, htok, hothers, hregs, rfl⟩
    case meter =>
      obtain ⟨hrd, hc, hx, hothers, hregs⟩ := State.meterWrite_sizes j.val v hs
      exact ⟨s.meterWrite j.val 1 v, acts _, hrd, hc, hx, hothers, hregs, rfl⟩
    intro old new sameRing inUse
    have hring : sameRing ↔ ringOf old = ringOf new := ringOf_eq.symm
    refine ⟨fun h => (acts _).trans (congrArg Host.Outcome.next (s.qdescWrite_taken (h.imp hring.mp id))),
      fun hne hu => (acts _).trans (congrArg Host.Outcome.next (s.qdescWrite_refused (mt hring.mpr hne) hu)), fun hne hu hs => ?_⟩
    obtain ⟨hrsz, hbase, hen⟩ := s.qdescKept_ring qid.toNat v
    have hq := aQdesc_ne_bmstat qid.toNat
    have hrd : (s.wr (aQdesc qid.toNat 0) (s.qdescKept qid.toNat v)).cfgRej.rd (aQdesc qid.toNat 0) = s.qdescKept qid.toNat v :=
      (State.cfgRej_rd _ hq).trans (State.rd_wr _ _ _ hs.regs)
    refine ⟨_, (acts _).trans (congrArg Host.Outcome.next (s.qdescWrite_refused (mt hring.mpr hne) hu)), ?_, ?_, ?_, State.cfgRej_set (State.regsOk_wr hs.regs _ _),
      fun o ho hb => (State.cfgRej_rd _ hb).trans (State.rd_wr_ne _ _ ho)⟩
    · rw [State.g, hrd]
      exact hrsz
    · rw [State.g, hrd]
      exact hbase
    · rw [State.gb, State.g, hrd]
      exact (congrArg (· != 0) hen).trans (bitOf_eq_fld v 63)

end Sys2Proof.Machine
end

section
/-! SUPPORT. The buffer manager (R161 to R164): what an allocation takes, and the lists that INIT builds. -/
namespace Sys2Proof.Machine

section Cells
variable (s : State)

/-- A cell that is taken: HELD of its pool grows, and the configuration of INIT stays. -/
theorem State.takeCell_cfg (pool c : Nat) : (s.takeCell pool c).tm.cfg = s.tm.cfg := by
  unfold State.takeCell
  dsimp only
  split <;> rfl

/-- The cell has left its channel's list, and the pool has used the channel. -/
def State.cellLeaves (pool c : Nat) : State :=
  let r := (s.freeList (s.chOf c)).take c
  let t := s.setFreeList (s.chOf c) r.1
  (if r.2 then { t with tm := { t.tm with alloc := t.tm.alloc ++ [c] } } else t).setLastCh pool (s.chOf c)

theorem State.takeCell_eq (pool c : Nat) :
    s.takeCell pool c = (s.cellLeaves pool c).p (aPoolq pool) TM_POOLQ.HELD ((s.cellLeaves pool c).g (aPoolq pool) TM_POOLQ.HELD + 1) := rfl

theorem State.cellLeaves_regs (pool c : Nat) : (s.cellLeaves pool c).regs = s.regs ∧ (s.cellLeaves pool c).build = s.build := by
  unfold State.cellLeaves
  dsimp only
  split <;> exact ⟨rfl, rfl⟩

theorem State.cpData_of {t : State} (h : t.tm.cfg = s.tm.cfg) (c : Nat) : t.cpData c = s.cpData c := by
  unfold State.cpData State.nch State.clog State.recBase
  rw [h]

end Cells

theorem State.takeCell_held {s : State} (hs : s.regsOk) {pool c : Nat} (h : s.g (aPoolq pool) TM_POOLQ.HELD + 1 ≤ s.g (aPoolq pool) TM_POOLQ.MAXHELD) :
    (s.takeCell pool c).g (aPoolq pool) TM_POOLQ.HELD = s.g (aPoolq pool) TM_POOLQ.HELD + 1 ∧
      (s.takeCell pool c).g (aPoolq pool) TM_POOLQ.MAXHELD = s.g (aPoolq pool) TM_POOLQ.MAXHELD ∧ (s.takeCell pool c).regsOk := by
  obtain ⟨hregs, hbuild⟩ := s.cellLeaves_regs pool c
  rw [State.takeCell_eq]
  generalize s.cellLeaves pool c = t at hregs hbuild ⊢
  have ht : t.regsOk := State.regsOk_of hs hregs hbuild
  have hg (f : Fd) : t.g (aPoolq pool) f = s.g (aPoolq pool) f := State.g_of hregs hbuild _ _
  have hmax : s.g (aPoolq pool) TM_POOLQ.MAXHELD < 2 ^ 30 := State.g_lt _ _ _
  refine ⟨?_, ?_, State.regsOk_p ht _ _ _⟩
  · rw [State.g_p _ _ _ _ ht (by decide), hg, show TM_POOLQ.HELD.w = 30 from rfl]
    exact Nat.mod_eq_of_lt (by omega)
  · rw [State.g_p_other _ _ _ _ _ ht (.inl (by decide)), hg]

/-- What an allocation takes (R163): data cells, no more than asked, and HELD grows by as many, up to MAXHELD. -/
theorem State.allocCells_facts {s : State} (hs : s.regsOk) {pool n : Nat} {picks : List Nat} {u : State} {cps : List Nat} (h : s.allocCells pool n picks = some (u, cps)) :
    cps.length ≤ n ∧ (∀ c ∈ cps, s.cpData c = true) ∧ u.g (aPoolq pool) TM_POOLQ.HELD = s.g (aPoolq pool) TM_POOLQ.HELD + cps.length ∧
      (cps ≠ [] → u.g (aPoolq pool) TM_POOLQ.HELD ≤ s.g (aPoolq pool) TM_POOLQ.MAXHELD) := by
  induction n generalizing s picks cps with
  | zero =>
    obtain ⟨rfl, rfl⟩ := Prod.mk.inj (Option.some.inj h)
    exact ⟨Nat.le_refl _, nofun, rfl, fun h => absurd rfl h⟩
  | succ n ih =>
    have nothing (h : some (s, []) = some (u, cps)) : cps.length ≤ n + 1 ∧ (∀ c ∈ cps, s.cpData c = true) ∧
        u.g (aPoolq pool) TM_POOLQ.HELD = s.g (aPoolq pool) TM_POOLQ.HELD + cps.length ∧
        (cps ≠ [] → u.g (aPoolq pool) TM_POOLQ.HELD ≤ s.g (aPoolq pool) TM_POOLQ.MAXHELD) := by
      obtain ⟨rfl, rfl⟩ := Prod.mk.inj (Option.some.inj h)
      exact ⟨Nat.zero_le _, nofun, rfl, fun h => absurd rfl h⟩
    unfold State.allocCells at h
    dsimp only at h
    cases hch : s.nextCh pool with
    | none => rw [hch] at h; exact nothing h
    | some ch =>
      rw [hch] at h
      dsimp only at h
      split at h
      · exact nothing h
      · next hroom =>
        cases picks with
        | nil =>
          dsimp only at h
          split at h
          · exact nothing h
          · cases h
        | cons c cs =>
          dsimp only at h
          split at h
          · next htake =>
            obtain ⟨⟨v, l⟩, hrec, hmap⟩ := Option.map_eq_some_iff.mp h
            obtain ⟨rfl, rfl⟩ := Prod.mk.inj hmap
            obtain ⟨hheld, hmax, hregs⟩ := State.takeCell_held (c := c) hs (Nat.not_lt.mp hroom)
            obtain ⟨hlen, hdata, hsum, hle⟩ := ih hregs hrec
            rw [hmax] at hle
            dsimp only at hsum hlen hdata hle ⊢
            have hc : s.cpData c = true := by
              simp only [Bool.and_eq_true] at htake
              unfold State.onList at htake
              simp only [Bool.and_eq_true] at htake
              exact htake.1.1
            refine ⟨Nat.succ_le_succ hlen, fun x hx => ?_, by rw [hsum, hheld, List.length_cons]; omega, fun _ => ?_⟩
            · rcases List.mem_cons.mp hx with rfl | hx
              · exact hc
              · rw [← State.cpData_of s (s.takeCell_cfg pool c)]
                exact hdata x hx
            · by_cases hl : l = []
              · subst hl
                rw [hsum, hheld]
                exact Nat.not_lt.mp hroom
              · exact hle hl
          · cases h

-- INIT.

/-- The list that INIT builds for a channel of n cells. -/
def builtList (n : Nat) : FreeList := ⟨[], topLeft n, [], n⟩

theorem tget_builtLists (s : State) {c : Nat} (h : c < 64) : tget FreeList.reset s.builtLists c = builtList (s.chCells c) := by
  unfold State.builtLists
  refine foldl_reaches (I := fun t : Tab FreeList => Tab.wf (fun _ => FreeList.reset) t = true) (P := fun t => tget FreeList.reset t c = builtList (s.chCells c)) (a := c)
    ?_ ?_ ?_ ?_ rfl
  · exact fun t i ht => wf_tput (d := fun _ => FreeList.reset) _ _ ht
  · intro t i ht hc
    by_cases hi : c = i
    · subst hi
      exact tget_tput (d := fun _ => FreeList.reset) c _ ht
    · exact (tget_tput_ne _ hi).trans hc
  · exact List.mem_range.mpr h
  · exact fun t ht => tget_tput (d := fun _ => FreeList.reset) c _ ht

theorem FreeList.offers_built {n cp : Nat} {p : Nat → Bool} (hn : 0 < n) (hp : p cp = true) : (builtList n).offers p cp = true := by
  unfold builtList FreeList.offers
  simp [hn, hp]

theorem State.chCells_pos {s : State} {cp : Nat} (h : s.cpData cp = true) : 0 < s.chCells (s.chOf cp) := by
  unfold State.cpData at h
  simp only [Bool.and_eq_true, decide_eq_true_eq] at h
  obtain ⟨-, hbase⟩ := h
  have hpow : 0 < 2 ^ s.nch := Nat.two_pow_pos _
  have hlt : s.chOf cp < 2 ^ s.nch := Nat.mod_lt _ hpow
  have hle : s.chOf cp ≤ cp := Nat.mod_le _ _
  unfold State.chCells
  rw [if_pos hlt]
  refine Nat.lt_min.mpr ⟨Nat.two_pow_pos _, Nat.div_pos ?_ hpow⟩
  omega

theorem State.chOf_lt (s : State) (cp : Nat) : s.chOf cp < 64 := by
  have hpow : 2 ^ s.nch ≤ 2 ^ 6 := Nat.pow_le_pow_right (by decide) (Nat.min_le_left _ _)
  exact Nat.lt_of_lt_of_le (Nat.mod_lt _ (Nat.two_pow_pos _)) hpow

/-- HELD of every pool is 0. -/
def State.noneHeld (s : State) : State := (List.range 32).foldl (fun s p => s.p (aPoolq p) TM_POOLQ.HELD 0) s

theorem State.noneHeld_held {s : State} (hs : s.regsOk) {p : Nat} (hp : p < 32) : s.noneHeld.g (aPoolq p) TM_POOLQ.HELD = 0 := by
  unfold State.noneHeld
  refine foldl_reaches (I := State.regsOk) (P := fun t => t.g (aPoolq p) TM_POOLQ.HELD = 0) (a := p) (fun _ _ h => State.regsOk_p h _ _ _)
    (fun _ _ h k => State.g_p_again h _ _ _ _ (by decide) (by decide) k) (List.mem_range.mpr hp) (fun _ h => (State.g_p _ _ _ _ h (by decide)).trans rfl) hs

theorem aPbcfg_ne_poolq (p : Nat) : aPbcfg ≠ aPoolq p := by unfold aPbcfg aPoolq; omega

theorem State.noneHeld_cfg (s : State) : s.noneHeld.rd aPbcfg = s.rd aPbcfg :=
  foldl_keeps (I := fun t : State => t.rd aPbcfg = s.rd aPbcfg) (fun t p h => (t.rd_wr_ne _ (aPbcfg_ne_poolq p)).trans h) _ rfl

/-- INIT takes the configuration over, and builds the lists. -/
def State.initTakes (t : State) : State := { t with tm := { t.tm with cfg := t.rd aPbcfg, alloc := [], built := true, initBusy := true, lastCh := [] } }
def State.initBuilds (t : State) : State := { t with tm := { t.tm with lists := t.builtLists } }

theorem State.startInit_eq (s : State) : s.startInit = s.noneHeld.initTakes.initBuilds := rfl

theorem State.initTakes_facts (t : State) : t.initTakes.initBuilds.tm.cfg = t.rd aPbcfg ∧ t.initTakes.initBuilds.tm.alloc = [] ∧
    t.initTakes.initBuilds.tm.initBusy = true ∧ ∀ o f, t.initTakes.initBuilds.g o f = t.g o f := ⟨rfl, rfl, rfl, fun _ _ => rfl⟩

/-- Once the lists are built, every data cell stands on its channel's. -/
theorem State.initBuilds_onList {t : State} (hb : t.tm.built = true) (ha : t.tm.alloc = []) {cp : Nat} (h : t.initBuilds.cpData cp = true) :
    t.initBuilds.onList cp = true := by
  have hdata : t.cpData cp = true := h
  have hlist : t.initBuilds.freeList (t.chOf cp) = builtList (t.chCells (t.chOf cp)) := tget_builtLists t (State.chOf_lt t cp)
  have hch : t.initBuilds.chOf cp = t.chOf cp := rfl
  have hin : t.initBuilds.inBuilt cp = (t.cpData cp && t.tm.built && !t.tm.alloc.contains cp) := rfl
  unfold State.onList
  rw [h, hch, hlist, Bool.true_and]
  refine FreeList.offers_built (State.chCells_pos hdata) ?_
  rw [hin, hdata, hb, ha]
  rfl

/-- INIT takes the configuration over, and every data cell is free (R161). -/
theorem State.startInit_facts {s : State} (hs : s.regsOk) : s.startInit.tm.cfg = s.rd aPbcfg ∧ s.startInit.tm.alloc = [] ∧ s.startInit.tm.initBusy = true ∧
    (∀ p, p < 32 → s.startInit.g (aPoolq p) TM_POOLQ.HELD = 0) ∧ (∀ cp, s.startInit.cpData cp = true → s.startInit.onList cp = true) := by
  obtain ⟨hcfg, halloc, hbusy, hg⟩ := s.noneHeld.initTakes_facts
  rw [State.startInit_eq]
  refine ⟨hcfg.trans s.noneHeld_cfg, halloc, hbusy, fun p hp => (hg _ _).trans (State.noneHeld_held hs hp), fun cp => State.initBuilds_onList rfl rfl⟩

end Sys2Proof.Machine
end

section
/-! SUPPORT. An ENQ (R165, R167 to R169, R179). -/
namespace Sys2Proof.Machine

-- The record joins its queue.

theorem State.queue_setQueue (s : State) (q : Nat) (x : Queue) (h : Tab.wf (fun _ => Queue.reset) s.tm.qs = true) : (s.setQueue q x).queue q = x :=
  tget_tput (d := fun _ => Queue.reset) _ x h

section Frame
variable (s : State)

/-- A packet sent by the traffic manager is in its output; queues and registers stay. -/
theorem State.tmSend_qs (port : Nat) (k : Pkt) : (s.tmSend port k).tm.qs = s.tm.qs ∧ (s.tmSend port k).regs = s.regs ∧ (s.tmSend port k).build = s.build := by
  unfold State.tmSend
  rw [State.wake_tm, State.wake_regs, State.wake_build]
  exact ⟨rfl, rfl, rfl⟩

theorem State.writeRecord_qs (port k q idx : Nat) (r : Rec) : (s.writeRecord port k q idx r).tm.qs = s.tm.qs ∧ (s.writeRecord port k q idx r).regs = s.regs ∧
    (s.writeRecord port k q idx r).build = s.build := by
  unfold State.writeRecord
  exact State.tmSend_qs (State.mk _ _ _ _ _ _ _ _ _ _ _ _ _ _ _ _ _ _ _ _ _ _ _ _ _ _) _ _

theorem State.treeErr_qs (k : Nat) : (s.treeErr k).tm.qs = s.tm.qs := by
  unfold State.treeErr State.raiseTm
  exact (State.tmSend_qs _ _ _).1

theorem State.treeErr_rd (k : Nat) {o : Nat} (h : o ≠ aEsstat k) : (s.treeErr k).rd o = s.rd o := by
  unfold State.treeErr
  obtain ⟨hregs, hbuild⟩ := (s.pb (aEsstat k) TM_ESSTAT.TREEERR true).raiseTm_regs (16 + k) 850
  exact (State.rd_of hregs hbuild o).trans (s.rd_wr_ne _ h)

theorem State.joinGroup_regs (k q : Nat) (b : Bool) : (s.joinGroup k q b).regs = s.regs ∧ (s.joinGroup k q b).build = s.build := by
  unfold State.joinGroup
  dsimp only
  split <;> exact ⟨rfl, rfl⟩

theorem State.queueWakes_rd (k q : Nat) {o : Nat} (h : o ≠ aEsstat k) : (s.queueWakes k q).rd o = s.rd o := by
  unfold State.queueWakes
  split
  · obtain ⟨hregs, hbuild⟩ := s.joinGroup_regs k q (s.treeBank k)
    exact State.rd_of hregs hbuild o
  · exact s.treeErr_rd k h

end Frame

/-- A queue that wakes keeps its records. -/
theorem State.queueWakes_recs {s : State} (h : Tab.wf (fun _ => Queue.reset) s.tm.qs = true) (k q : Nat) : ((s.queueWakes k q).queue q).recs = (s.queue q).recs := by
  have tail {u : State} (hu : u.tm.qs = s.tm.qs) (b : Bool) : ((u.toTail k q b).queue q).recs = (s.queue q).recs := by
    have hq : u.queue q = s.queue q := by unfold State.queue; rw [hu]
    unfold State.toTail
    dsimp only
    rw [State.queue_setQueue _ _ _ (by exact hu ▸ h), ← hq]
  unfold State.queueWakes
  split
  · unfold State.joinGroup
    dsimp only
    split
    · exact tail (u := s.wakeGroup k (s.qmap (s.treeBank k) q TM_QMAP.GROUP) (s.treeBank k)) rfl (s.treeBank k)
    · exact tail rfl (s.treeBank k)
  · unfold State.queue
    rw [s.treeErr_qs]

/-- The queue after a record joined it: one record more, TAIL and CELLS moved on (R167, R168). -/
def State.queueGrows (s : State) (es q : Nat) (r : Rec) : State :=
  ((s.bump (aQdesc q 2) TM_QDESC2.TAIL).bump (aQdesc q 3) TM_QDESC3.CELLS (cellsOf r.ncells)).setQueue q { s.queue q with
    recs := (s.queue q).recs ++ [⟨r, if (s.queue q).recs.all (fun e => e.at_ != .memory) && s.storeRoom es q then .store else .memory, s.g (aQdesc q 2) TM_QDESC2.TAIL⟩] }

/-- A record that does not go to the store is written to memory, and a queue that was empty wakes. -/
theorem State.enqueueRec_eq (s : State) (port es q : Nat) (r : Rec) : s.enqueueRec port es q r =
    let u := if (s.queue q).recs.isEmpty then (s.queueGrows es q r).queueWakes es q else s.queueGrows es q r
    if (s.queue q).recs.all (fun e => e.at_ != .memory) && s.storeRoom es q then u else u.writeRecord port es q (s.g (aQdesc q 2) TM_QDESC2.TAIL) r := rfl

theorem aQdesc_ne_esstat {q w : Nat} (hq : q < 65536) (hw : w < 4) (k : Nat) : aQdesc q w ≠ aEsstat k := by unfold aQdesc aEsstat esBase; omega
theorem aQdesc_word_ne (q : Nat) {v w : Nat} (h : v ≠ w) : aQdesc q v ≠ aQdesc q w := by unfold aQdesc; omega

section Grows
variable {s : State} (hs : s.canon) (es q : Nat) (r : Rec)
include hs

theorem State.queueGrows_facts : ((s.queueGrows es q r).queue q).recs = (s.queue q).recs ++
      [⟨r, if (s.queue q).recs.all (fun e => e.at_ != .memory) && s.storeRoom es q then .store else .memory, s.g (aQdesc q 2) TM_QDESC2.TAIL⟩] ∧
    (s.queueGrows es q r).g (aQdesc q 2) TM_QDESC2.TAIL = (s.g (aQdesc q 2) TM_QDESC2.TAIL + 1) % 2 ^ 24 ∧
    (s.queueGrows es q r).g (aQdesc q 2) TM_QDESC2.HEAD = s.g (aQdesc q 2) TM_QDESC2.HEAD ∧
    (s.queueGrows es q r).g (aQdesc q 3) TM_QDESC3.CELLS = (s.g (aQdesc q 3) TM_QDESC3.CELLS + cellsOf r.ncells) % 2 ^ 30 ∧
    Tab.wf (fun _ => Queue.reset) (s.queueGrows es q r).tm.qs = true := by
  have h23 : aQdesc q 2 ≠ aQdesc q 3 := aQdesc_word_ne q (by decide)
  have hrec : ∀ (t : State) (o : Nat) (f : Fd) (x : Queue), (t.setQueue q x).g o f = t.g o f := fun _ _ _ _ => rfl
  have htail := State.regsOk_bump hs.regs (aQdesc q 2) TM_QDESC2.TAIL
  unfold State.queueGrows
  generalize hx : ({ s.queue q with recs := (s.queue q).recs ++ [_] } : Queue) = x
  refine ⟨?_, ?_, ?_, ?_, wf_tput (d := fun _ => Queue.reset) _ _ hs.tm.qs⟩
  · refine (congrArg Queue.recs (State.queue_setQueue _ q x ?_)).trans ?_
    · exact hs.tm.qs
    · rw [← hx]
  · rw [hrec, State.bump, State.g_p_ne _ _ _ _ h23]
    exact State.g_p _ _ _ _ hs.regs (by decide)
  · rw [hrec, State.bump, State.g_p_ne _ _ _ _ h23]
    exact State.g_p_other _ _ _ _ _ hs.regs (.inl (by decide))
  · rw [hrec, State.bump, State.g_p _ _ _ _ htail (by decide), State.bump, State.g_p_ne _ _ _ _ h23.symm]
    rfl

/-- What an ENQ leaves of the queue (R167 to R169). -/
theorem State.enqueueRec_facts (port : Nat) (hq : (s.queue q).recs ≠ [] ∨ q < 65536 ∧ es < 32) :
    ((s.enqueueRec port es q r).queue q).recs = (s.queue q).recs ++
      [⟨r, if (s.queue q).recs.all (fun e => e.at_ != .memory) && s.storeRoom es q then .store else .memory, s.g (aQdesc q 2) TM_QDESC2.TAIL⟩] ∧
    (s.enqueueRec port es q r).g (aQdesc q 2) TM_QDESC2.TAIL = (s.g (aQdesc q 2) TM_QDESC2.TAIL + 1) % 2 ^ 24 ∧
    (s.enqueueRec port es q r).g (aQdesc q 2) TM_QDESC2.HEAD = s.g (aQdesc q 2) TM_QDESC2.HEAD ∧
    (s.enqueueRec port es q r).g (aQdesc q 3) TM_QDESC3.CELLS = (s.g (aQdesc q 3) TM_QDESC3.CELLS + cellsOf r.ncells) % 2 ^ 30 := by
  obtain ⟨hrecs, htail, hhead, hcells, hwf⟩ := State.queueGrows_facts hs es q r
  have hwakes : let u := if (s.queue q).recs.isEmpty then (s.queueGrows es q r).queueWakes es q else s.queueGrows es q r
      (u.queue q).recs = ((s.queueGrows es q r).queue q).recs ∧ ∀ w, w < 4 → u.rd (aQdesc q w) = (s.queueGrows es q r).rd (aQdesc q w) := by
    dsimp only
    split
    · next hempty =>
      obtain ⟨hlt, -⟩ := hq.resolve_left (Classical.not_not.mpr (List.isEmpty_iff.mp hempty))
      exact ⟨State.queueWakes_recs hwf es q, fun w hw => State.queueWakes_rd _ es q (aQdesc_ne_esstat hlt hw es)⟩
    · exact ⟨rfl, fun _ _ => rfl⟩
  rw [State.enqueueRec_eq]
  dsimp only at hwakes ⊢
  generalize (if (s.queue q).recs.isEmpty = true then (s.queueGrows es q r).queueWakes es q else s.queueGrows es q r) = u at hwakes ⊢
  obtain ⟨huq, hurd⟩ := hwakes
  have hwritten (t : State) (ht : t = u ∨ t = u.writeRecord port es q (s.g (aQdesc q 2) TM_QDESC2.TAIL) r) :
      t.queue q = u.queue q ∧ ∀ o f, t.g o f = u.g o f := by
    rcases ht with rfl | rfl
    · exact ⟨rfl, fun _ _ => rfl⟩
    · obtain ⟨hqs, hregs, hbuild⟩ := u.writeRecord_qs port es q (s.g (aQdesc q 2) TM_QDESC2.TAIL) r
      exact ⟨by unfold State.queue; rw [hqs], fun o f => State.g_of hregs hbuild o f⟩
  have hug (w : Nat) (hw : w < 4) (f : Fd) : u.g (aQdesc q w) f = (s.queueGrows es q r).g (aQdesc q w) f := congrArg (fun v => fld v f.lo f.w) (hurd w hw)
  generalize hd : ((s.queue q).recs.all (fun e => e.at_ != .memory) && s.storeRoom es q) = direct at *
  obtain ⟨htq, htg⟩ := hwritten (if direct = true then u else u.writeRecord port es q (s.g (aQdesc q 2) TM_QDESC2.TAIL) r) (by cases direct <;> simp)
  rw [htq, huq, htg, htg, htg, hug 2 (by decide), hug 2 (by decide), hug 3 (by decide)]
  exact ⟨hrecs, htail, hhead, hcells⟩

end Grows

end Sys2Proof.Machine
end

section
/-! SUPPORT. The answers to an ENQ, and what becomes of its packet (R167, R177, R210). -/
namespace Sys2Proof.Machine

/-- A metered packet is dropped, or joins its queue. -/
def State.enqEnds (m : State) (port es q l color : Nat) (k : Pkt) (hit : Option Nat) : State :=
  let pol := m.policerOf es q
  if m.policerDrops pol l || m.admissionDrops q (cellsOf (enqCells k)) then
    (((match pol with
      | some i => if m.policerDrops pol l then m.sat (aPolb i) TM_POLB.DROPPED else m
      | none => m).dropCells port es q k).dropAt port q).tmAnswer port k Resp.OK 0 []
  else
    ((match pol with
      | some i => m.setPol i (m.polTok i - l * mtUnit)
      | none => m).enqueueRec port es q (enqRec k q color hit)).tmAnswer port k Resp.OK 0 []

section Ends
variable {m : State} {port es q l color : Nat} {k : Pkt} {hit : Option Nat}

theorem State.enqEnds_free (hp : m.policerOf es q = none) (hf : m.admissionDrops q (cellsOf (enqCells k)) = false) :
    m.enqEnds port es q l color k hit = (m.enqueueRec port es q (enqRec k q color hit)).tmAnswer port k Resp.OK 0 [] := by
  unfold State.enqEnds
  rw [hp, hf]
  rfl

theorem State.enqEnds_policed {i : Nat} (hp : m.policerOf es q = some i) (ht : l * mtUnit ≤ m.polTok i) (hf : m.admissionDrops q (cellsOf (enqCells k)) = false) :
    m.enqEnds port es q l color k hit = ((m.setPol i (m.polTok i - l * mtUnit)).enqueueRec port es q (enqRec k q color hit)).tmAnswer port k Resp.OK 0 [] := by
  have hkeeps : m.policerDrops (some i) l = false := decide_eq_false (Nat.not_lt.mpr ht)
  unfold State.enqEnds
  rw [hp, hf]
  dsimp only
  rw [hkeeps]
  rfl

theorem State.enqEnds_overPolicer {i : Nat} (hp : m.policerOf es q = some i) (ht : m.polTok i < l * mtUnit) :
    m.enqEnds port es q l color k hit = (((m.sat (aPolb i) TM_POLB.DROPPED).dropCells port es q k).dropAt port q).tmAnswer port k Resp.OK 0 [] := by
  have hdrops : m.policerDrops (some i) l = true := decide_eq_true ht
  unfold State.enqEnds
  rw [hp]
  dsimp only
  rw [hdrops]
  rfl

theorem State.enqEnds_full (hp : m.policerDrops (m.policerOf es q) l = false) (hf : m.admissionDrops q (cellsOf (enqCells k)) = true) :
    m.enqEnds port es q l color k hit = ((m.dropCells port es q k).dropAt port q).tmAnswer port k Resp.OK 0 [] := by
  unfold State.enqEnds
  dsimp only
  rw [hf, hp, Bool.false_or, if_pos rfl]
  cases m.policerOf es q <;> rfl

end Ends

/-- The queue of an ENQ: the one that its flow's entry names, or its own. -/
def State.enqQueue (u : State) (hit : Option Nat) (k : Pkt) : Nat :=
  match hit with
  | some i => if u.bitAt (aFt i 2) 61 then fld (u.rd (aFt i 2)) 0 16 else k.qid.toNat
  | none => k.qid.toNat

/-- A packet whose cells are counted is metered. -/
def State.enqMetered (u : State) (es q : Nat) (k : Pkt) : State × Nat :=
  State.enqMeter { u with pm := { u.pm with cells := u.pm.cells + enqCells k } } es q (u.lenAt es (enqLen k)) (enqColor k)

section Enq
variable {s : State} {port : Nat} {cls : BitVec 2} {k : Pkt} {rest : List Pkt}

theorem State.enq_waits (h : s.qpTagFree port = false) : s.enq port cls = s := if_pos h

theorem State.enq_malformed (hx : extract (fun (k : Pkt) => k.cmd == Cmd.ENQ && k.cls == cls) (s.tmRx port) = some (k, rest)) (ht : s.qpTagFree port = true)
    (hw : s.enqWellFormed k = false) : s.enq port cls = (s.setTmRx port rest).tmAnswer port k Resp.DECERR 0 [] := by
  have hw' : (s.setTmRx port rest).enqWellFormed k = false := hw
  unfold State.enq
  rw [if_neg (by rw [ht]; exact Bool.noConfusion), hx]
  exact if_pos hw'

/-- A well-formed ENQ goes by its flow's entry, and by the owner of its queue. -/
theorem State.enq_looks (hx : extract (fun (k : Pkt) => k.cmd == Cmd.ENQ && k.cls == cls) (s.tmRx port) = some (k, rest)) (ht : s.qpTagFree port = true)
    (hw : s.enqWellFormed k = true) {r : State × Option Nat} (hr : (s.setTmRx port rest).ftLookup port k.fkey (enqLen k) (enqLearn k) = r) {q : Nat}
    (hq : r.1.enqQueue r.2 k = q) :
    s.enq port cls = match r.1.ownerOf q with
      | none => r.1.tmAnswer port k Resp.DECERR 0 []
      | some es => if r.1.gb (aQdesc q 0) TM_QDESC0.EN then r.1.enqAdmit port es q k r.2 else r.1.tmAnswer port k Resp.DECERR 0 [] := by
  have hw' : ¬ (s.setTmRx port rest).enqWellFormed k = false := fun h => by rw [show (s.setTmRx port rest).enqWellFormed k = true from hw] at h; cases h
  subst hr hq
  unfold State.enq
  rw [if_neg (by rw [ht]; exact Bool.noConfusion), hx]
  exact if_neg hw'

/-- A queue whose map does not police it has no colour but the packet's, and no policer. -/
theorem State.enqMeter_none {x : State} {es q l pre : Nat} (h : x.qmap (x.treeBank es) q TM_QMAP.POLICE = 0) : x.enqMeter es q l pre = (x, pre) ∧ x.policerOf es q = none := by
  unfold State.enqMeter State.policerOf
  dsimp only
  rw [h]
  exact ⟨rfl, if_neg (fun hp => absurd hp.1 (by decide))⟩

theorem State.enqMetered_none {u : State} {es q : Nat} {k : Pkt} (h : u.qmap (u.treeBank es) q TM_QMAP.POLICE = 0) :
    (u.enqMetered es q k).2 = enqColor k ∧ (u.enqMetered es q k).1.policerOf es q = none := by
  obtain ⟨hm, hp⟩ := State.enqMeter_none (x := { u with pm := { u.pm with cells := u.pm.cells + enqCells k } }) (l := u.lenAt es (enqLen k)) (pre := enqColor k) h
  unfold State.enqMetered
  rw [hm]
  exact ⟨rfl, hp⟩

end Enq

/-- The cells of a dropped packet: freed at once, or after the read of its extension cell. -/
theorem State.dropCells_facts (s : State) (port es q : Nat) (k : Pkt) :
    (enqCells k ≤ 17 → s.dropCells port es q k = s.freeAll (enqPool k) (enqCp0 k :: enqSlots k)) ∧
    (17 < enqCells k → let u := s.dropCells port es q k
      u.regs = s.regs ∧ u.tm.lists = s.tm.lists ∧ ∃ tag, u.tm.xdrops = s.tm.xdrops ++ [⟨port, tag, enqPool k, enqCp0 k :: enqSlots k, enqCells k - 16⟩]) := by
  unfold State.dropCells
  refine ⟨fun h => if_pos h, fun h => ?_⟩
  dsimp only
  rw [if_neg (Nat.not_le.mpr h)]
  unfold State.tmSend
  rw [State.wake_regs, State.wake_tm]
  exact ⟨rfl, rfl, _, rfl⟩

/-- Settles O55: allocations, frees and INIT; and each end of an ENQ. -/
theorem bufferAndEnqueue : Obligations.BufferAndEnqueue := by
  refine ⟨⟨fun s q picks k rest => ⟨fun hx => ?allocate, fun f u => ⟨fun h => if_pos h, fun h => if_neg h⟩, fun hx => ?free⟩,
      fun s pool n picks u cps hs h => State.allocCells_facts hs h, fun s m v => ?init⟩,
    fun s qp cls k rest => ⟨fun h => congrArg Host.Outcome.next (State.enq_waits h), fun hx ht => ?enq⟩,
    fun s port es q k => s.dropCells_facts port es q k, fun s port es q r hs hq => State.enqueueRec_facts hs es q r port hq⟩
  case allocate =>
    intro n u cps ha a
    refine congrArg Host.Outcome.next ?_
    unfold State.allocate
    rw [hx]
    dsimp only
    rw [ha]
  case free =>
    change (Host.Outcome.next _ : Res) = _
    rw [hx]
  case init =>
    have acts (hr : s.sqRight m = true) : exec (.pbcfgInit m v) s = .next (s.pbcfgWrite v) := congrArg Host.Outcome.next (if_pos hr)
    refine ⟨fun hr => congrArg Host.Outcome.next (if_neg (by rw [hr]; exact Bool.noConfusion)), fun hr hv => (acts hr).trans (congrArg Host.Outcome.next (if_pos hv)),
      fun hr hv he => (acts hr).trans ?_, fun hr hv he hs => ⟨_, acts hr, ?_⟩, fun h => congrArg Host.Outcome.next (if_pos h),
      fun h => congrArg Host.Outcome.next (if_neg (by rw [h]; exact Bool.noConfusion))⟩
    · exact congrArg Host.Outcome.next ((if_neg (by rw [hv]; exact Bool.noConfusion)).trans (if_neg (by rw [he]; exact Bool.noConfusion)))
    · have hinit : s.pbcfgWrite v = (s.wr aPbcfg (v &&& maskOf .sq rowsTM_PBCFG)).startInit := (if_neg (by rw [hv]; exact Bool.noConfusion)).trans (if_pos he)
      obtain ⟨hcfg, halloc, hbusy, hheld, hlists⟩ := State.startInit_facts (State.regsOk_wr hs aPbcfg (v &&& maskOf .sq rowsTM_PBCFG))
      rw [hinit]
      exact ⟨hcfg.trans (State.rd_wr _ _ _ hs), halloc, hbusy, hheld, hlists⟩
  case enq =>
    intro s1 r q
    refine ⟨fun hw => congrArg Host.Outcome.next (State.enq_malformed hx ht hw), fun hw hno => ?refused, fun es hw ho he => ?admitted⟩
    case refused =>
      refine congrArg Host.Outcome.next ((State.enq_looks hx ht hw rfl (q := q) rfl).trans ?_)
      cases ho : r.1.ownerOf q with
      | none => rfl
      | some es =>
        have hen := hno.resolve_left (by rw [ho]; nofun)
        exact if_neg (by rw [hen]; exact Bool.noConfusion)
    case admitted =>
      intro l m pol full
      have hends : exec (.enq qp cls) s = .next (m.1.enqEnds qp.val es q l m.2 k r.2) := by
        refine congrArg Host.Outcome.next ((State.enq_looks hx ht hw rfl (q := q) rfl).trans ?_)
        rw [ho]
        exact if_pos he
      exact ⟨State.enqMetered_none, fun hp hf => hends.trans (congrArg Host.Outcome.next (State.enqEnds_free hp hf)),
        fun i hp hl hf => hends.trans (congrArg Host.Outcome.next (State.enqEnds_policed hp hl hf)),
        fun i hp hl => hends.trans (congrArg Host.Outcome.next (State.enqEnds_overPolicer hp hl)),
        fun hp hf => hends.trans (congrArg Host.Outcome.next (State.enqEnds_full hp hf))⟩

end Sys2Proof.Machine
end


section
/-! SUPPORT. The flow table: what its operations write, and O56. -/
namespace Sys2Proof.Machine

theorem aFt_eq {i j w v : Nat} (hw : w < 4) (hv : v < 4) : aFt i w = aFt j v ↔ i = j ∧ w = v := by unfold aFt; omega

theorem aFt_lt {i w : Nat} (hi : i < 131072) (hw : w < 4) : aFt i w < baseFt + 0x400000 := by unfold aFt; omega

theorem aFt_ne_of_slot {i j w v : Nat} (h : i ≠ j) (hw : w < 4) (hv : v < 4) : aFt i w ≠ aFt j v := fun e => h ((aFt_eq hw hv).mp e).1

theorem aFt_ne_of_word {i j w v : Nat} (h : w ≠ v) (hw : w < 4) (hv : v < 4) : aFt i w ≠ aFt j v := fun e => h ((aFt_eq hw hv).mp e).2

/-- The registers of the flow table that count and configure stand above its entries. -/
theorem aFt_ne_above {i w o : Nat} (hi : i < 131072) (hw : w < 4) (ho : baseFt + 0x400000 ≤ o) : aFt i w ≠ o := Nat.ne_of_lt (Nat.lt_of_lt_of_le (aFt_lt hi hw) ho)

theorem aFtStat_above : baseFt + 0x400000 ≤ aFtStat := by decide
theorem aFtCnt_above : baseFt + 0x400000 ≤ aFtCnt := by decide
theorem aFtCnt_ne_aFtStat : aFtCnt ≠ aFtStat := by decide

theorem aFtSeed_above (k : Nat) : baseFt + 0x400000 ≤ aFtSeed k := by unfold aFtSeed; omega
theorem aFtSeed_ne {k : Nat} (h : k < 2) : aFtSeed k ≠ aFtStat ∧ aFtSeed k ≠ aFtCnt := by unfold aFtSeed aFtStat aFtCnt; omega

theorem bucketSlots_lt {t b i : Nat} (ht : t < 2) (hb : b < 8192) (h : i ∈ bucketSlots t b) : i < 131072 := by
  simp only [bucketSlots, List.mem_map, List.mem_range] at h
  obtain ⟨j, hj, rfl⟩ := h
  omega

theorem bucketSlots_nodup (t b : Nat) : (bucketSlots t b).Nodup :=
  List.Pairwise.map _ (fun i j h e => h (by omega)) List.nodup_range

theorem bitOf_putBit_ne {n : Nat} (v : BitVec n) {i j : Nat} (b : Bool) (hi : i < n) (h : j ≠ i) : bitOf (putBit v i b) j = bitOf v j := by
  unfold bitOf
  rw [getLsbD_putBit v b hi, if_neg h]

theorem bitOf_putBit_self {n : Nat} (v : BitVec n) {i : Nat} (b : Bool) (hi : i < n) : bitOf (putBit v i b) i = b := by
  unfold bitOf
  rw [getLsbD_putBit v b hi, if_pos rfl]

/-- A key is what its two words hold. -/
theorem ofNat_halves (key : BitVec 128) : BitVec.ofNat 128 ((key.extractLsb' 0 64).toNat + 2 ^ 64 * (key.extractLsb' 64 64).toNat) = key := by
  have hk := key.isLt
  apply BitVec.eq_of_toNat_eq
  simp only [BitVec.extractLsb'_toNat, Nat.shiftRight_eq_div_pow, BitVec.toNat_ofNat]
  omega

namespace State
variable {s t u : State}

theorem ftV_of {i j : Nat} (h : t.rd (aFt j 2) = s.rd (aFt i 2)) : t.ftV j = s.ftV i := congrArg (bitOf · 63) h

theorem ftKey_of {i j : Nat} (h0 : t.rd (aFt j 0) = s.rd (aFt i 0)) (h1 : t.rd (aFt j 1) = s.rd (aFt i 1)) : t.ftKey j = s.ftKey i := by
  unfold State.ftKey
  rw [h0, h1]

/-- Between the two states only registers of the flow table above its entries, and words of the entries of `is`, differ. -/
structure FtWrites (is : Nat → Prop) (s t : State) : Prop where
  frame : RegsOnly s t
  regsOk : s.regsOk → t.regsOk
  entry : ∀ j, j < 131072 → ¬ is j → ∀ w, w < 4 → t.rd (aFt j w) = s.rd (aFt j w)
  cfg : ∀ o, baseFt + 0x400000 ≤ o → o ≠ aFtStat → o ≠ aFtCnt → t.rd o = s.rd o

namespace FtWrites
variable {is : Nat → Prop}

theorem refl (s : State) : FtWrites is s s := ⟨.refl s, id, fun _ _ _ _ _ => rfl, fun _ _ _ _ => rfl⟩

theorem trans (h : FtWrites is s t) (k : FtWrites is t u) : FtWrites is s u where
  frame := h.frame.trans k.frame
  regsOk hs := k.regsOk (h.regsOk hs)
  entry j hj hi w hw := (k.entry j hj hi w hw).trans (h.entry j hj hi w hw)
  cfg o ho h1 h2 := (k.cfg o ho h1 h2).trans (h.cfg o ho h1 h2)

theorem wr {i w : Nat} (h : FtWrites is s t) (hi : i < 131072) (his : is i) (hw : w < 4) (v : W) : FtWrites is s (t.wr (aFt i w) v) :=
  h.trans ⟨rfl, fun hs => State.regsOk_wr hs _ _,
    fun _ _ hj _ hv => State.rd_wr_ne _ _ (aFt_ne_of_slot (fun e => hj (e ▸ his)) hv hw),
    fun _ ho _ _ => State.rd_wr_ne _ _ (aFt_ne_above hi hw ho).symm⟩

theorem above {o : Nat} (h : FtWrites is s t) (ho : o = aFtStat ∨ o = aFtCnt) (v : W) : FtWrites is s (t.wr o v) := by
  have hab : baseFt + 0x400000 ≤ o := ho.elim (fun h => h ▸ aFtStat_above) (fun h => h ▸ aFtCnt_above)
  refine h.trans ⟨rfl, fun hs => State.regsOk_wr hs _ _, fun _ hj _ _ hv => State.rd_wr_ne _ _ (aFt_ne_above hj hv hab),
    fun o' _ h1 h2 => State.rd_wr_ne _ _ ?_⟩
  rcases ho with rfl | rfl <;> assumption

theorem ftCount (h : FtWrites is s t) (up : Bool) : FtWrites is s (t.ftCount up) := h.above (.inl rfl) _

theorem mono {js : Nat → Prop} (h : FtWrites is s t) (k : ∀ j, is j → js j) : FtWrites js s t :=
  ⟨h.frame, h.regsOk, fun j hj hi => h.entry j hj (fun e => hi (k j e)), h.cfg⟩

theorem ft (h : FtWrites is s t) : t.ft = s.ft := by rw [h.frame]
theorem cyc (h : FtWrites is s t) : t.cyc = s.cyc := by rw [h.frame]

theorem ftV {j : Nat} (h : FtWrites is s t) (hj : j < 131072) (hi : ¬ is j) : t.ftV j = s.ftV j := ftV_of (h.entry j hj hi 2 (by decide))
theorem ftKey {j : Nat} (h : FtWrites is s t) (hj : j < 131072) (hi : ¬ is j) : t.ftKey j = s.ftKey j :=
  ftKey_of (h.entry j hj hi 0 (by decide)) (h.entry j hj hi 1 (by decide))

end FtWrites

/-- COUNT moves, and no entry. -/
theorem rd_ftCount (s : State) (up : Bool) {o : Nat} (h : o ≠ aFtStat) : (s.ftCount up).rd o = s.rd o := State.rd_wr_ne _ _ h

theorem rd_aFt_ftCount (s : State) (up : Bool) {i w : Nat} (hi : i < 131072) (hw : w < 4) : (s.ftCount up).rd (aFt i w) = s.rd (aFt i w) :=
  s.rd_ftCount up (aFt_ne_above hi hw aFtStat_above)

-- The copy of an entry.

/-- One word of the copy of an entry. -/
def copyWord (a b : Nat) (s : State) (w : Nat) : State := s.wr (aFt b w) (s.rd (aFt a w))

theorem copyWord_writes {a b w : Nat} (hb : b < 131072) (hw : w < 4) (s : State) : FtWrites (· = b) s (s.copyWord a b w) := FtWrites.wr (is := (· = b)) (.refl s) hb rfl hw _

end State

variable {s : State} {a b : Nat}

theorem State.copyWords_writes (hb : b < 131072) {l : List Nat} (hl : ∀ w ∈ l, w < 4) : ∀ s : State, FtWrites (· = b) s (l.foldl (State.copyWord a b) s) := by
  induction l with
  | nil => exact fun s => .refl s
  | cons w l ih =>
    rw [List.forall_mem_cons] at hl
    exact fun s => (State.copyWord_writes hb hl.1 s).trans (ih hl.2 _)

/-- A word that no step of the copy names stays. -/
theorem State.copyWords_rd_ne {l : List Nat} (hl : ∀ w ∈ l, w < 4) {v : Nat} (hv : v < 4) (h : v ∉ l) : ∀ s : State, (l.foldl (State.copyWord a b) s).rd (aFt b v) = s.rd (aFt b v) := by
  induction l with
  | nil => exact fun _ => rfl
  | cons w l ih =>
    rw [List.forall_mem_cons] at hl
    rw [List.mem_cons, not_or] at h
    exact fun s => (ih hl.2 h.2 _).trans (State.rd_wr_ne _ _ (aFt_ne_of_word h.1 hv hl.1))

theorem State.copyWords_rd (hab : a ≠ b) (ha : a < 131072) (hb : b < 131072) {l : List Nat} (hl : ∀ w ∈ l, w < 4) (hn : l.Nodup) {v : Nat} (h : v ∈ l) :
    ∀ s : State, s.regsOk → (l.foldl (State.copyWord a b) s).rd (aFt b v) = s.rd (aFt a v) := by
  induction l with
  | nil => nomatch h
  | cons w l ih =>
    intro s hs
    rw [List.forall_mem_cons] at hl
    rw [List.nodup_cons] at hn
    obtain rfl | hv := List.mem_cons.mp h
    · exact (State.copyWords_rd_ne hl.2 hl.1 hn.1 _).trans (State.rd_wr _ _ _ hs)
    · have hw := State.copyWord_writes (a := a) hb hl.1 s
      exact (ih hl.2 hn.2 hv _ (hw.regsOk hs)).trans (hw.entry a ha hab v (hl.2 v hv))

-- What each operation on the table writes.

theorem State.ftCopy_writes (hb : b < 131072) (s : State) (a : Nat) : FtWrites (· = b) s (s.ftCopy a b) := by
  have h := (State.copyWords_writes (a := a) hb (l := List.range 4) (fun w hw => List.mem_range.mp hw) s).wr hb rfl (w := 2) (by decide)
    (putBit (((List.range 4).foldl (State.copyWord a b) s).rd (aFt b 2)) 59 true)
  unfold State.ftCopy
  dsimp only
  split
  · exact h.ftCount true
  · exact h

theorem State.ftCopy_rd (hs : s.regsOk) (hab : a ≠ b) (ha : a < 131072) (hb : b < 131072) {w : Nat} (hw : w < 4) :
    (s.ftCopy a b).rd (aFt b w) = if w = 2 then putBit (s.rd (aFt a 2)) 59 true else s.rd (aFt a w) := by
  have hl : ∀ w ∈ List.range 4, w < 4 := fun w hw => List.mem_range.mp hw
  have hc {v : Nat} (hv : v < 4) := State.copyWords_rd hab ha hb hl List.nodup_range (List.mem_range.mpr hv) s hs
  have hk := (State.copyWords_writes (a := a) hb hl s).regsOk hs
  have hput : ({ (List.range 4).foldl (State.copyWord a b) s with } : State).putBitAt (aFt b 2) 59 true = ((List.range 4).foldl (State.copyWord a b) s).putBitAt (aFt b 2) 59 true := rfl
  have hrd : (s.ftCopy a b).rd (aFt b w) = (((List.range 4).foldl (State.copyWord a b) s).putBitAt (aFt b 2) 59 true).rd (aFt b w) := by
    unfold State.ftCopy
    dsimp only
    split
    · exact State.rd_aFt_ftCount _ true hb hw
    · rfl
  rw [hrd]
  split
  · subst w
    exact (State.rd_wr _ _ _ hk).trans (by rw [hc (by decide)])
  next h => exact (State.rd_wr_ne _ _ (aFt_ne_of_word h hw (by decide))).trans (hc hw)

/-- After the first write of a move slot b holds what slot a holds. -/
theorem State.ftCopy_copies (hs : s.regsOk) (hab : a ≠ b) (ha : a < 131072) (hb : b < 131072) : (s.ftCopy a b).ftV b = s.ftV a ∧ (s.ftCopy a b).ftKey b = s.ftKey a := by
  have hrd {w : Nat} (hw : w < 4) := State.ftCopy_rd hs hab ha hb hw
  refine ⟨?_, State.ftKey_of (hrd (by decide)) (hrd (by decide))⟩
  exact (congrArg (bitOf · 63) (hrd (w := 2) (by decide))).trans (bitOf_putBit_ne _ _ (by decide) (by decide))

theorem State.ftDrop_writes (ha : a < 131072) (s : State) : FtWrites (· = a) s (s.ftDrop a) := by
  unfold State.ftDrop
  split
  · exact (FtWrites.wr (is := (· = a)) (w := 2) (.refl s) ha rfl (by decide) _).ftCount false
  · exact .refl s

theorem State.ftV_ftDrop (hs : s.regsOk) (ha : a < 131072) : (s.ftDrop a).ftV a = false := by
  unfold State.ftDrop
  split
  · refine (State.ftV_of (State.rd_aFt_ftCount _ false ha (by decide))).trans ?_
    exact (congrArg (bitOf · 63) (State.rd_wr _ _ _ hs)).trans (bitOf_putBit_self _ _ (by decide))
  next h => exact Bool.eq_false_iff.mpr h

theorem State.ftKey_ftDrop (ha : a < 131072) (s : State) : (s.ftDrop a).ftKey a = s.ftKey a := by
  unfold State.ftDrop
  split
  · have hrd {w : Nat} (hw : w < 2) : ((s.putBitAt (aFt a 2) 63 false).ftCount false).rd (aFt a w) = s.rd (aFt a w) :=
      (State.rd_aFt_ftCount _ false ha (by omega)).trans (State.rd_wr_ne _ _ (aFt_ne_of_word (by omega) (by omega) (by decide)))
    exact State.ftKey_of (hrd (by decide)) (hrd (by decide))
  · rfl

/-- MV says nothing of an entry's validity and key. -/
theorem State.putMv_facts (hs : s.regsOk) (hb : b < 131072) (v : Bool) : FtWrites (· = b) s (s.putBitAt (aFt b 2) 59 v) ∧
    ∀ j, j < 131072 → (s.putBitAt (aFt b 2) 59 v).ftV j = s.ftV j ∧ (s.putBitAt (aFt b 2) 59 v).ftKey j = s.ftKey j := by
  have hw : FtWrites (· = b) s (s.putBitAt (aFt b 2) 59 v) := FtWrites.wr (is := (· = b)) (w := 2) (.refl s) hb rfl (by decide) _
  refine ⟨hw, fun j hj => ?_⟩
  by_cases hjb : j = b
  · subst j
    exact ⟨(congrArg (bitOf · 63) (State.rd_wr _ _ _ hs)).trans (bitOf_putBit_ne _ _ (by decide) (by decide)),
      State.ftKey_of (State.rd_wr_ne _ _ (aFt_ne_of_word (by decide) (by decide) (by decide))) (State.rd_wr_ne _ _ (aFt_ne_of_word (by decide) (by decide) (by decide)))⟩
  · exact ⟨hw.ftV hj hjb, hw.ftKey hj hjb⟩

/-- The second write of a move: slot a is invalid, and every other slot is valid or not as before, with its key. -/
theorem State.ftSettle_facts (hs : s.regsOk) (ha : a < 131072) (hb : b < 131072) : FtWrites (fun j => j = a ∨ j = b) s (s.ftSettle a b) ∧
    (s.ftSettle a b).ftV a = false ∧ ∀ j, j < 131072 → (j ≠ a → (s.ftSettle a b).ftV j = s.ftV j) ∧ (s.ftSettle a b).ftKey j = s.ftKey j := by
  have hd := State.ftDrop_writes ha s
  obtain ⟨hw, hj⟩ := State.putMv_facts (hd.regsOk hs) hb false
  refine ⟨(hd.mono (fun _ => .inl)).trans (hw.mono (fun _ => .inr)), (hj a ha).1.trans (State.ftV_ftDrop hs ha), fun j h => ⟨fun hne => (hj j h).1.trans (hd.ftV h hne), (hj j h).2.trans ?_⟩⟩
  by_cases hja : j = a
  · rw [hja]
    exact State.ftKey_ftDrop ha s
  · exact hd.ftKey h hja

/-- The counters of the engine are not those that a move touches. -/
theorem State.rd_aFtCnt_ftSettle (ha : a < 131072) (hb : b < 131072) (s : State) : (s.ftSettle a b).rd aFtCnt = s.rd aFtCnt := by
  refine (State.rd_wr_ne _ _ (aFt_ne_above hb (by decide) aFtCnt_above).symm).trans ?_
  unfold State.ftDrop
  split
  · exact (State.rd_ftCount _ false aFtCnt_ne_aFtStat).trans (State.rd_wr_ne _ _ (aFt_ne_above ha (by decide) aFtCnt_above).symm)
  · rfl

/-- An entry learned is valid and has the key. -/
theorem State.ftInsert_facts (hs : s.regsOk) (ha : a < 131072) (key : BitVec 128) (len : Nat) :
    FtWrites (· = a) s (s.ftInsert a key len) ∧ (s.ftInsert a key len).ftV a = true ∧ (s.ftInsert a key len).ftKey a = key := by
  have hw (w : Nat) (hw4 : w < 4) {s t : State} (h : FtWrites (· = a) s t) (v : W) := h.wr ha rfl hw4 v
  unfold State.ftInsert
  generalize hw2 : setFld (setFld (0 : W) 63 1 1 ||| setFld (0 : W) 60 1 1) 16 16 s.ft.age.toNat = w2
  generalize setFld (BitVec.ofNat 64 len) 40 24 1 = w3
  dsimp only
  have h1 := hw 0 (by decide) (.refl s) (key.extractLsb' 0 64)
  have h2 := hw 1 (by decide) h1 (key.extractLsb' 64 64)
  have h3 := hw 2 (by decide) h2 w2
  have h4 := hw 3 (by decide) h3 w3
  have hne {w v : Nat} (h : w ≠ v) (hw : w < 4) (hv : v < 4) (t : State) (x : W) : (t.wr (aFt a v) x).rd (aFt a w) = t.rd (aFt a w) :=
    State.rd_wr_ne _ _ (aFt_ne_of_word h hw hv)
  refine ⟨h4.ftCount true, (congrArg (bitOf · 63) (State.rd_aFt_ftCount _ true ha (by decide))).trans ?_, ?_⟩
  · rw [hne (by decide) (by decide) (by decide), State.rd_wr _ _ _ (h2.regsOk hs), ← hw2, ← bitOf_eq_fld]
    rw [fld_setFld_ne _ _ _ _ _ _ (.inr (by decide))]
    decide
  · unfold State.ftKey
    rw [State.rd_aFt_ftCount _ true ha (by decide), State.rd_aFt_ftCount _ true ha (by decide), hne (by decide) (by decide) (by decide),
      hne (by decide) (by decide) (by decide), hne (by decide) (by decide) (by decide), State.rd_wr _ _ _ hs,
      hne (by decide) (by decide) (by decide), hne (by decide) (by decide) (by decide), State.rd_wr _ _ _ (h1.regsOk hs)]
    exact ofNat_halves key


-- Lookups.

theorem State.candidates_of {t : State} (h : ∀ k, k < 2 → t.rd (aFtSeed k) = s.rd (aFtSeed k)) (key : BitVec 128) : t.candidates key = s.candidates key := by
  have hb (k : Nat) (hk : k < 2) : t.ftBucket k key = s.ftBucket k key := by
    unfold State.ftBucket State.g
    rw [h k hk]
  unfold State.candidates
  rw [hb 0 (by decide), hb 1 (by decide)]

theorem State.candidates_lt {key : BitVec 128} {i : Nat} (h : i ∈ s.candidates key) : i < 131072 := by
  have hb (k : Nat) : s.ftBucket k key < 8192 := BitVec.isLt _
  obtain h | h := List.mem_append.mp h
  · exact bucketSlots_lt (by decide) (hb 0) h
  · exact bucketSlots_lt (by decide) (hb 1) h

/-- The entry that a lookup of a key tests for. -/
def State.ftHits (s : State) (key : BitVec 128) (i : Nat) : Bool := s.ftV i && s.ftKey i == key && !s.ftUnseen i

theorem State.ftFind_none {key : BitVec 128} (h : s.ftFind key = none) : ∀ i ∈ s.candidates key, s.ftHits key i = false := by
  unfold State.ftFind at h
  dsimp only at h
  split at h
  · nomatch h
  · exact fun i hi => Bool.eq_false_iff.mpr (List.filter_eq_nil_iff.mp (List.head?_eq_none_iff.mp h) i hi)

theorem State.ftFind_only {key : BitVec 128} {i : Nat} (hi : i ∈ s.candidates key) (hit : s.ftHits key i = true)
    (h : ∀ j ∈ s.candidates key, s.ftHits key j = true → j = i) : s.ftFind key = some i := by
  have hin : ∀ j ∈ (s.candidates key).filter (s.ftHits key), j = i := fun j hj => h j (List.mem_filter.mp hj).1 (List.mem_filter.mp hj).2
  have hne : (s.candidates key).filter (s.ftHits key) ≠ [] := List.ne_nil_of_mem (List.mem_filter.mpr ⟨hi, hit⟩)
  change (match ((s.candidates key).filter (s.ftHits key)).find? (fun i => bitOf (s.rd (aFt i 2)) 59) with
    | some i => some i
    | none => ((s.candidates key).filter (s.ftHits key)).head?) = some i
  split
  next j hj => rw [hin j (List.mem_of_find?_eq_some hj)]
  next => rw [List.head?_eq_some_head hne, hin _ (List.head_mem hne)]

/-- A key that was not there is found in the slot that then holds it. -/
theorem State.ftFind_of_writes {u : State} {key : BitVec 128} {i : Nat} (hw : FtWrites (· = i) s u) (hv : u.ftV i = true) (hk : u.ftKey i = key) (hc : s.ft.cur = none)
    (hno : s.ftFind key = none) (hi : i ∈ s.candidates key) : u.ftFind key = some i := by
  have hcand : u.candidates key = s.candidates key :=
    State.candidates_of (fun k hk => hw.cfg _ (aFtSeed_above k) (aFtSeed_ne hk).1 (aFtSeed_ne hk).2) key
  have hseen {t : State} (ht : t.ft = s.ft) (j : Nat) : t.ftUnseen j = false := by
    unfold State.ftUnseen
    rw [ht, hc]
  refine State.ftFind_only (by rw [hcand]; exact hi) ?_ (fun j hj hit => ?_)
  · unfold State.ftHits
    rw [hv, hk, hseen hw.ft, beq_self_eq_true]
    rfl
  · rw [hcand] at hj
    have hlj := State.candidates_lt hj
    refine Decidable.byContradiction fun hne => ?_
    have hsame : u.ftHits key j = s.ftHits key j := by
      unfold State.ftHits
      rw [hw.ftV hlj hne, hw.ftKey hlj hne, hseen hw.ft, hseen (t := s) rfl]
    exact Bool.noConfusion (((State.ftFind_none hno j hj).symm.trans hsame.symm).trans hit)

theorem State.ftFind_ftInsert {key : BitVec 128} {len i : Nat} (hs : s.regsOk) (hc : s.ft.cur = none) (hno : s.ftFind key = none) (hi : i ∈ s.candidates key) :
    (s.ftInsert i key len).ftFind key = some i := by
  obtain ⟨hw, hv, hk⟩ := State.ftInsert_facts hs (State.candidates_lt hi) key len
  exact State.ftFind_of_writes hw hv hk hc hno hi

/-- A search sees the entries, the seeds and MAXMOV only. -/
theorem State.ftSearch_of {t : State} (hv : ∀ i, t.ftV i = s.ftV i) (ha : ∀ i, t.altSlots i = s.altSlots i) (hm : t.maxMov = s.maxMov) (n : Nat) :
    ∀ paths seen, t.ftSearch n paths seen = s.ftSearch n paths seen := by
  induction n with
  | zero => exact fun _ _ => rfl
  | succ n ih =>
    rintro (_ | ⟨path, queue⟩) seen
    · rfl
    · obtain _ | ⟨i, path⟩ := path
      · rfl
      · simp only [State.ftSearch, ha, hv, hm, ih]

theorem State.ftPath_setFt (s : State) (x : Flow) (key : BitVec 128) : ({ s with ft := x } : State).ftPath key = s.ftPath key := by
  have h := State.ftSearch_of (s := s) (t := { s with ft := x }) (fun _ => rfl) (fun _ => rfl) rfl
  unfold State.ftPath
  rw [State.candidates_of (s := s) (t := { s with ft := x }) (fun _ _ => rfl) key]
  exact h _ _ _

-- The scanner.

/-- The scanner's visit of one slot. -/
def State.scanSlot (s : State) (i : Nat) : State := if s.ftIdle i then (s.ftDrop i).bump aFtCnt FT_CNT.AGED else s

theorem State.scanSlot_facts (hs : s.regsOk) (ha : a < 131072) : FtWrites (· = a) s (s.scanSlot a) ∧
    (s.scanSlot a).ftV a = (s.ftV a && !s.ftIdle a) ∧ (s.scanSlot a).ftKey a = s.ftKey a := by
  unfold State.scanSlot
  split
  next hi =>
    have hcnt {w : Nat} (hw : w < 4) : ((s.ftDrop a).bump aFtCnt FT_CNT.AGED).rd (aFt a w) = (s.ftDrop a).rd (aFt a w) := State.rd_wr_ne _ _ (aFt_ne_above ha hw aFtCnt_above)
    exact ⟨(State.ftDrop_writes ha s).above (.inr rfl) _,
      ((State.ftV_of (hcnt (by decide))).trans (State.ftV_ftDrop hs ha)).trans (by rw [hi, Bool.not_true, Bool.and_false]),
      (State.ftKey_of (hcnt (by decide)) (hcnt (by decide))).trans (State.ftKey_ftDrop ha s)⟩
  next hi => exact ⟨.refl s, by rw [Bool.eq_false_iff.mpr hi, Bool.not_false, Bool.and_true], rfl⟩

theorem State.ftIdle_of {t : State} {i : Nat} (hr : t.rd (aFt i 2) = s.rd (aFt i 2)) (hc : t.rd aFtCfg = s.rd aFtCfg) (hf : t.ft = s.ft) : t.ftIdle i = s.ftIdle i := by
  unfold State.ftIdle State.ageLimit State.g
  rw [hr, hc, hf]

/-- A visit of the slots of a list takes away exactly the idle entries. -/
theorem State.scanSlots_facts {l : List Nat} (hl : ∀ i ∈ l, i < 131072) (hn : l.Nodup) : ∀ s : State, s.regsOk → FtWrites (· ∈ l) s (l.foldl State.scanSlot s) ∧
    ∀ i, i < 131072 → (l.foldl State.scanSlot s).ftV i = (s.ftV i && !(l.contains i && s.ftIdle i)) ∧ (l.foldl State.scanSlot s).ftKey i = s.ftKey i := by
  induction l with
  | nil => exact fun s _ => ⟨.refl s, fun i _ => ⟨(Bool.and_true _).symm, rfl⟩⟩
  | cons a l ih =>
    intro s hs
    rw [List.forall_mem_cons] at hl
    rw [List.nodup_cons] at hn
    obtain ⟨hw, hv, hk⟩ := State.scanSlot_facts hs hl.1
    obtain ⟨hws, hvs⟩ := ih hl.2 hn.2 _ (hw.regsOk hs)
    refine ⟨(hw.mono (fun j hj => hj ▸ List.mem_cons_self)).trans (hws.mono (fun j => List.mem_cons_of_mem a)), fun i hi => ?_⟩
    obtain ⟨hvi, hki⟩ := hvs i hi
    rw [List.foldl_cons, hvi, hki, List.contains_cons]
    by_cases hia : i = a
    · subst i
      rw [hv, hk, beq_self_eq_true, Bool.true_or, Bool.true_and, List.contains_eq_mem, decide_eq_false hn.1, Bool.false_and, Bool.not_false, Bool.and_true]
      exact ⟨rfl, rfl⟩
    · rw [hw.ftV hi hia, hw.ftKey hi hia, State.ftIdle_of (hw.entry i hi hia 2 (by decide)) (hw.cfg aFtCfg (by decide) (by decide) (by decide)) hw.ft,
        beq_false_of_ne hia, Bool.false_or]
      exact ⟨rfl, rfl⟩

/-- A slot beyond the table is none of its entries. -/
theorem State.scanSlot_beyond (ha : 131072 ≤ a) (s : State) : RegsOnly s (s.scanSlot a) ∧ ∀ j, j < 131072 → ∀ w, w < 4 → (s.scanSlot a).rd (aFt j w) = s.rd (aFt j w) := by
  unfold State.scanSlot State.ftDrop
  split
  · split
    · exact ⟨rfl, fun j hj w hw => (State.rd_wr_ne _ _ (aFt_ne_above hj hw aFtCnt_above)).trans
        ((State.rd_aFt_ftCount _ false hj hw).trans (State.rd_wr_ne _ _ (aFt_ne_of_slot (by omega) hw (by decide))))⟩
    · exact ⟨rfl, fun j hj w hw => State.rd_wr_ne _ _ (aFt_ne_above hj hw aFtCnt_above)⟩
  · exact ⟨rfl, fun _ _ _ _ => rfl⟩

theorem State.scanSlots_beyond {l : List Nat} (hl : ∀ i ∈ l, 131072 ≤ i) : ∀ s : State, RegsOnly s (l.foldl State.scanSlot s) ∧
    ∀ j, j < 131072 → ∀ w, w < 4 → (l.foldl State.scanSlot s).rd (aFt j w) = s.rd (aFt j w) := by
  induction l with
  | nil => exact fun s => ⟨rfl, fun _ _ _ _ => rfl⟩
  | cons a l ih =>
    intro s
    rw [List.forall_mem_cons] at hl
    obtain ⟨h1, e1⟩ := State.scanSlot_beyond hl.1 s
    obtain ⟨h2, e2⟩ := ih hl.2 (s.scanSlot a)
    exact ⟨h1.trans h2, fun j hj w hw => (e2 j hj w hw).trans (e1 j hj w hw)⟩

/-- The visit of a bucket takes away exactly its idle entries, wherever the scanner stands. -/
theorem State.scanBucket_facts (hs : s.regsOk) (n : Nat) : let l := bucketSlots (n / 8192) (n % 8192)
    RegsOnly s (l.foldl State.scanSlot s) ∧
    ∀ i, i < 131072 → (l.foldl State.scanSlot s).ftV i = (s.ftV i && !(l.contains i && s.ftIdle i)) ∧ (l.foldl State.scanSlot s).ftKey i = s.ftKey i := by
  intro l
  have hmod : n % 8192 < 8192 := Nat.mod_lt _ (by decide)
  by_cases hn : n < 16384
  · obtain ⟨hw, hj⟩ := State.scanSlots_facts (l := l) (fun i => bucketSlots_lt (by omega) hmod) (bucketSlots_nodup _ _) s hs
    exact ⟨hw.frame, hj⟩
  · have hl : ∀ i ∈ l, 131072 ≤ i := fun i hi => by
      simp only [l, bucketSlots, List.mem_map] at hi
      obtain ⟨j, -, rfl⟩ := hi
      omega
    obtain ⟨hw, he⟩ := State.scanSlots_beyond hl s
    refine ⟨hw, fun i hi => ⟨(State.ftV_of (he i hi 2 (by decide))).trans ?_, State.ftKey_of (he i hi 0 (by decide)) (he i hi 1 (by decide))⟩⟩
    have hno : l.contains i = false := Bool.eq_false_iff.mpr (fun h => absurd (hl i (List.contains_iff_mem.mp h)) (by omega))
    rw [hno, Bool.false_and, Bool.not_false, Bool.and_true]

-- The writes of an entry.

/-- A word of an entry is written, and COUNT follows its valid bit. -/
def State.ftStore (s : State) (i w : Nat) (v : W) : State :=
  let u := s.wr (aFt i w) (v &&& maskOf .sq (rowsFtEntry w))
  if s.ftV i = u.ftV i then u else u.ftCount (u.ftV i)

/-- What a write of an entry finds: the learn under way stopped, or its move brought to an end. -/
def State.ftYields (s : State) (i : Nat) : State :=
  match s.ft.cur with
  | some l => if l.slots.contains i then s.stopLearn l else s.endMove
  | none => s

theorem State.ftStore_writes {i w : Nat} (hi : i < 131072) (hw : w < 4) (s : State) (v : W) : FtWrites (· = i) s (s.ftStore i w v) := by
  have h := FtWrites.wr (is := (· = i)) (.refl s) hi rfl hw (v &&& maskOf .sq (rowsFtEntry w))
  unfold State.ftStore
  dsimp only
  split
  · exact h
  · exact h.ftCount _

theorem State.ftStore_facts {i w : Nat} (hs : s.regsOk) (hi : i < 131072) (hw : w < 4) (v : W) :
    let u := s.ftStore i w v
    u.rd (aFt i w) = v &&& maskOf .sq (rowsFtEntry w) ∧ s.writesOnly u [aFt i w, aFtStat] ∧
      (u.ftV i = s.ftV i → u.g aFtStat FT_STAT.COUNT = s.g aFtStat FT_STAT.COUNT) ∧
      (s.ftV i = false → u.ftV i = true → u.g aFtStat FT_STAT.COUNT = (s.g aFtStat FT_STAT.COUNT + 1) % 2 ^ 18) ∧
      (s.ftV i = true → u.ftV i = false → u.g aFtStat FT_STAT.COUNT = s.g aFtStat FT_STAT.COUNT - 1) := by
  have hne := aFt_ne_above hi hw aFtStat_above
  have hcount : (s.wr (aFt i w) (v &&& maskOf .sq (rowsFtEntry w))).g aFtStat FT_STAT.COUNT = s.g aFtStat FT_STAT.COUNT :=
    congrArg (fun x => fld x _ _) (State.rd_wr_ne _ _ hne.symm)
  have hrd : (s.wr (aFt i w) (v &&& maskOf .sq (rowsFtEntry w))).rd (aFt i w) = v &&& maskOf .sq (rowsFtEntry w) := State.rd_wr _ _ _ hs
  have hok := State.regsOk_wr hs (aFt i w) (v &&& maskOf .sq (rowsFtEntry w))
  have honly : ∀ o, o ∉ [aFt i w, aFtStat] → (s.wr (aFt i w) (v &&& maskOf .sq (rowsFtEntry w))).rd o = s.rd o :=
    fun o ho => State.rd_wr_ne _ _ (fun e => ho (e ▸ List.mem_cons_self))
  intro u
  have hu : u = s.ftStore i w v := rfl
  have hframe : u = { s with regs := u.regs } := (State.ftStore_writes hi hw s v).frame
  clear_value u
  unfold State.ftStore at hu
  generalize s.wr (aFt i w) (v &&& maskOf .sq (rowsFtEntry w)) = x at hu hcount hrd hok honly
  dsimp only at hu
  split at hu
  next hsame =>
    subst hu
    refine ⟨hrd, ⟨hframe, honly⟩, fun _ => hcount, fun h1 h2 => ?_, fun h1 h2 => ?_⟩ <;> rw [hsame, h2] at h1 <;> nomatch h1
  next hdiff =>
    have hv : u.ftV i = x.ftV i := by rw [hu]; exact State.ftV_of (State.rd_aFt_ftCount _ _ hi (by decide))
    have hc : u.g aFtStat FT_STAT.COUNT = (if x.ftV i then s.g aFtStat FT_STAT.COUNT + 1 else s.g aFtStat FT_STAT.COUNT - 1) % 2 ^ 18 := by
      rw [hu, ← hcount]
      exact State.g_p _ _ _ _ hok (by decide)
    have hlt : s.g aFtStat FT_STAT.COUNT < 2 ^ 18 := BitVec.isLt _
    refine ⟨?_, ⟨hframe, fun o ho => ?_⟩, fun h => absurd (h.symm.trans hv) hdiff, fun _ h => ?_, fun _ h => ?_⟩
    · rw [hu]
      exact (State.rd_aFt_ftCount _ _ hi hw).trans hrd
    · rw [hu]
      exact (State.rd_ftCount _ _ (fun e => ho (e ▸ List.mem_cons_of_mem _ List.mem_cons_self))).trans (honly o ho)
    · rw [hc, ← hv, h, if_pos rfl]
    · rw [hc, ← hv, h, if_neg Bool.noConfusion]
      omega

theorem State.g_ftStore_abort {i w : Nat} (hi : i < 131072) (hw : w < 4) (s : State) (v : W) : (s.ftStore i w v).g aFtCnt FT_CNT.ABORT = s.g aFtCnt FT_CNT.ABORT := by
  have hne : (s.wr (aFt i w) (v &&& maskOf .sq (rowsFtEntry w))).rd aFtCnt = s.rd aFtCnt := State.rd_wr_ne _ _ (aFt_ne_above hi hw aFtCnt_above).symm
  refine congrArg (fun x => fld x _ _) ?_
  unfold State.ftStore
  dsimp only
  split
  · exact hne
  · exact (State.rd_ftCount _ _ aFtCnt_ne_aFtStat).trans hne


-- The learn engine.

/-- The state with another learn under way. -/
def State.withLearn (s : State) (l : Option Learn) : State := { s with ft := { s.ft with cur := l } }

section Move
variable {l : Learn} {rest : List Nat}

theorem State.learnStep_first (hp : l.path.reverse = b :: a :: rest) (hh : l.half = none) :
    s.learnStep l = (s.withLearn (some { l with half := some s.cyc })).ftCopy a b := by
  unfold State.learnStep
  rw [hp]
  exact if_pos (by rw [hh]; rfl)

theorem State.learnStep_second {c : Nat} (hp : l.path.reverse = b :: a :: rest) (hh : l.half = some c) :
    s.learnStep l = if rest = [] then ((s.ftSettle a b).withLearn none).ftInsert a l.key l.len
      else (s.ftSettle a b).withLearn (some { l with path := (a :: rest).reverse, half := none }) := by
  unfold State.learnStep
  rw [hp]
  exact if_neg (by rw [hh]; exact Bool.noConfusion)

theorem State.learnInsert_cur (hc : s.ft.cur = some l) : exec .learnInsert s = .next (s.learnStep l) := by
  change (Host.Outcome.next _ : Res) = _
  rw [hc]

variable (hs : s.regsOk) (hp : l.path.reverse = b :: a :: rest) (hab : a ≠ b) (ha : a < 131072) (hb : b < 131072)
include hs hp hab ha hb

/-- In a move's first cycle the entry stands in both slots, its copy unseen. -/
theorem State.learnStep_first_facts (hh : l.half = none) : let u := s.learnStep l
    u.ftV a = s.ftV a ∧ u.ftV b = s.ftV a ∧ u.ftKey b = s.ftKey a ∧ u.ftUnseen b = true ∧ u.ft = { s.ft with cur := some { l with half := some s.cyc } } := by
  rw [State.learnStep_first hp hh]
  have hw := State.ftCopy_writes hb (s.withLearn (some { l with half := some s.cyc })) a
  obtain ⟨hv, hk⟩ := State.ftCopy_copies (s := s.withLearn (some { l with half := some s.cyc })) hs hab ha hb
  generalize (s.withLearn (some { l with half := some s.cyc })).ftCopy a b = u at hw hv hk
  have hlast : l.path.getLast? = some b := by rw [← List.head?_reverse, hp]; rfl
  refine ⟨hw.ftV ha hab, hv, hk, ?_, hw.ft⟩
  unfold State.ftUnseen
  rw [hw.ft, hw.cyc]
  change (some s.cyc == some s.cyc && l.path.getLast? == some b) = true
  rw [hlast, beq_self_eq_true, beq_self_eq_true]
  rfl

/-- In its second cycle the slot it leaves becomes invalid. -/
theorem State.learnStep_settle_facts {c : Nat} (hh : l.half = some c) (hr : rest ≠ []) : let u := s.learnStep l
    u.ftV a = false ∧ u.ftV b = s.ftV b ∧ u.ftKey b = s.ftKey b ∧ u.ft = { s.ft with cur := some { l with path := (a :: rest).reverse, half := none } } := by
  rw [State.learnStep_second hp hh, if_neg hr]
  obtain ⟨hw, hv, hj⟩ := State.ftSettle_facts hs ha hb
  have hft := hw.ft
  generalize s.ftSettle a b = u at hft hv hj
  refine ⟨hv, (hj b hb).1 hab.symm, (hj b hb).2, ?_⟩
  unfold State.withLearn
  dsimp only
  rw [hft]

/-- The last slot that a path leaves takes the new key. -/
theorem State.learnStep_last_facts {c : Nat} (hh : l.half = some c) (hr : rest = []) : let u := s.learnStep l
    u.ftV a = true ∧ u.ftKey a = l.key ∧ u.ftV b = s.ftV b ∧ u.ftKey b = s.ftKey b ∧ u.ft = { s.ft with cur := none } := by
  rw [State.learnStep_second hp hh, if_pos hr]
  obtain ⟨hw, -, hj⟩ := State.ftSettle_facts hs ha hb
  have hft := hw.ft
  have hok := hw.regsOk hs
  generalize s.ftSettle a b = x at hft hj hok
  obtain ⟨hi, hv, hk⟩ := State.ftInsert_facts (s := x.withLearn none) hok ha l.key l.len
  generalize (x.withLearn none).ftInsert a l.key l.len = u at hi hv hk
  refine ⟨hv, hk, (hi.ftV hb hab.symm).trans ((hj b hb).1 hab.symm), (hi.ftKey hb hab.symm).trans (hj b hb).2, hi.ft.trans ?_⟩
  unfold State.withLearn
  dsimp only
  rw [hft]

end Move

-- What a write stops.

section Stops
variable {l : Learn} {i : Nat}

theorem State.ftYields_idle (hc : s.ft.cur = none) : s.ftYields i = s := by
  unfold State.ftYields
  rw [hc]

theorem State.ftYields_stops (hc : s.ft.cur = some l) (hl : l.slots.contains i = true) : s.ftYields i = s.stopLearn l := by
  unfold State.ftYields
  rw [hc]
  exact if_pos hl

theorem State.stopLearn_whole (hh : l.half = none) : s.stopLearn l = (s.withLearn none).sat aFtCnt FT_CNT.ABORT := by
  unfold State.stopLearn
  rw [hh]
  rfl

theorem State.stopLearn_half {c : Nat} {rest : List Nat} (hh : l.half = some c) (hp : l.path.reverse = b :: a :: rest) :
    s.stopLearn l = ((s.withLearn none).ftSettle a b).sat aFtCnt FT_CNT.ABORT := by
  unfold State.stopLearn
  rw [hh, hp]
  rfl

/-- ABORT counts one more, and nothing else of the table changes. -/
theorem State.abort_facts (hs : s.regsOk) : FtWrites (fun _ => False) s (s.sat aFtCnt FT_CNT.ABORT) ∧
    (s.sat aFtCnt FT_CNT.ABORT).g aFtCnt FT_CNT.ABORT = satSum FT_CNT.ABORT.w (s.g aFtCnt FT_CNT.ABORT) 1 := by
  refine ⟨(FtWrites.refl s).above (.inr rfl) _, (State.g_p _ _ _ _ hs (by decide)).trans (Nat.mod_eq_of_lt ?_)⟩
  exact Nat.lt_of_le_of_lt (Nat.min_le_right _ _) (by decide)

end Stops

/-- Settles O56: the learn engine and its moves, the age clock and the scanner, and the writes of entries. -/
theorem flowTableLearnsAndAges : Obligations.FlowTableLearnsAndAges := by
  refine ⟨fun s key len rest hc hq => ?learn, fun s l hc => State.learnInsert_cur hc, fun s l a b rest hs hc hp hab ha hb => ?moves,
    fun s key len i hs hc hno hi => State.ftFind_ftInsert hs hc hno (List.mem_of_find?_eq_some hi), fun s => rfl,
    fun s h => congrArg Host.Outcome.next (if_neg (by rw [h]; exact Bool.noConfusion)), fun s hs h => ?scan, fun s m w v => ?write⟩
  case learn =>
    intro s1
    have hx : exec .learnInsert s = .next (s1.learnKey key len) := by
      change (Host.Outcome.next _ : Res) = _
      rw [hc, hq]
    have hsame : s1.ftFind key = s.ftFind key ∧ s1.candidates key = s.candidates key ∧ s1.ftPath key = s.ftPath key := ⟨rfl, rfl, s.ftPath_setFt _ key⟩
    obtain ⟨hfind, hcand, hpath⟩ := hsame
    rw [hx]
    unfold State.learnKey
    rw [hfind, hcand, hpath]
    refine ⟨fun h => ?_, fun i hno hfree => ?_, fun p hno hfull hway => ?_, fun hno hfull hway => ?_⟩
    · obtain ⟨i, hi⟩ := Option.isSome_iff_exists.mp h
      rw [hi]
    · rw [hno]
      change Host.Outcome.next (match (s.candidates key).find? (fun i => !s.ftV i) with | some i => _ | none => _) = _
      rw [hfree]
    · rw [hno]
      change Host.Outcome.next (match (s.candidates key).find? (fun i => !s.ftV i) with | some i => _ | none => _) = _
      rw [hfull]
      dsimp only
      rw [hway]
    · rw [hno]
      change Host.Outcome.next (match (s.candidates key).find? (fun i => !s.ftV i) with | some i => _ | none => _) = _
      rw [hfull]
      dsimp only
      rw [hway]
  case moves =>
    rw [State.learnInsert_cur hc]
    exact ⟨fun hh => ⟨_, rfl, State.learnStep_first_facts hs hp hab ha hb hh⟩, fun c hh hr => ⟨_, rfl, State.learnStep_settle_facts hs hp hab ha hb hh hr⟩,
      fun c hh hr => ⟨_, rfl, State.learnStep_last_facts hs hp hab ha hb hh hr⟩⟩
  case scan =>
    obtain ⟨hw, hj⟩ := State.scanBucket_facts hs s.ft.scan
    refine ⟨_, congrArg Host.Outcome.next (if_pos h), ?_, fun i hi => hj i hi⟩
    exact congrArg (fun x : Flow => { x with scan := (s.ft.scan + 1) % 16384 }) (congrArg State.ft hw)
  case write =>
    have hw4 : w.val % 4 < 4 := Nat.mod_lt _ (by decide)
    have hi : w.val / 4 < 131072 := by have := w.isLt; omega
    have hx (hr : s.sqRight m = true) : exec (.ftEntryWrite m w v) s = .next ((s.ftYields (w.val / 4)).ftStore (w.val / 4) (w.val % 4) v) :=
      congrArg Host.Outcome.next (if_pos hr)
    refine ⟨fun h => congrArg Host.Outcome.next (if_neg (by rw [h]; exact Bool.noConfusion)), fun hr hs hc => ⟨_, hx hr, ?_⟩,
      fun l hr hs hc hh hl => ⟨_, hx hr, ?_⟩, fun l c a b rest hr hs hc hh hp hab ha hb hl => ⟨_, hx hr, ?_⟩⟩
    · rw [State.ftYields_idle hc]
      exact State.ftStore_facts hs hi hw4 v
    · rw [State.ftYields_stops hc hl, State.stopLearn_whole hh, State.g_ftStore_abort hi hw4]
      obtain ⟨hw, hcount⟩ := State.abort_facts (s := s.withLearn none) hs
      exact ⟨((State.ftStore_writes hi hw4 _ v).ft).trans hw.ft, hcount⟩
    · rw [State.ftYields_stops hc hl, State.stopLearn_half hh hp, State.g_ftStore_abort hi hw4]
      obtain ⟨hset, hva, hvj⟩ := State.ftSettle_facts (s := s.withLearn none) hs ha hb
      have hcnt : ((s.withLearn none).ftSettle a b).g aFtCnt FT_CNT.ABORT = s.g aFtCnt FT_CNT.ABORT := congrArg (fun x => fld x _ _) (State.rd_aFtCnt_ftSettle ha hb _)
      obtain ⟨hw, hcount⟩ := State.abort_facts (hset.regsOk hs)
      have hp := State.ftStore_writes hi hw4 (((s.withLearn none).ftSettle a b).sat aFtCnt FT_CNT.ABORT) v
      exact ⟨(hp.ft.trans hw.ft).trans hset.ft, hcount.trans (by rw [hcnt]), fun hne => ((hp.ftV ha hne.symm).trans (hw.ftV ha id)).trans hva,
        fun hne => ⟨((hp.ftV hb hne.symm).trans (hw.ftV hb id)).trans ((hvj b hb).1 hab.symm), ((hp.ftKey hb hne.symm).trans (hw.ftKey hb id)).trans (hvj b hb).2⟩⟩

end Sys2Proof.Machine
end


section
/-! SUPPORT. The schedulers: decisions, reads, deliveries and gate lists; and O57. -/
namespace Sys2Proof.Machine

theorem extract_first {α : Type} {p : α → Bool} {x : α} {before after : List α} (hb : ∀ y ∈ before, p y = false) (hx : p x = true) :
    extract p (before ++ x :: after) = some (x, before ++ after) := by
  induction before with
  | nil => simp [extract, hx]
  | cons y before ih =>
    rw [List.forall_mem_cons] at hb
    simp [extract, hb.1, ih hb.2]

theorem extract_none {α : Type} {p : α → Bool} {l : List α} (h : ∀ y ∈ l, p y = false) : extract p l = none := by
  induction l with
  | nil => rfl
  | cons y l ih =>
    rw [List.forall_mem_cons] at h
    simp [extract, h.1, ih h.2]

/-- A key reads what was put there, whatever the table, when that is not the default. -/
theorem tget_tput_of_ne {α : Type} [DecidableEq α] {d v : α} (h : v ≠ d) (t : Tab α) (k : Nat) : tget d (tput d t k v) k = v := by
  unfold tput
  rw [if_neg h]
  exact tget_tins

namespace State
variable {s u : State}

-- Tokens.

/-- A bucket that was just refilled, less what is taken, holds just that. -/
theorem refill_charged (tok : Int × Nat) (now rate ceil l : Nat) : refill (refill tok now rate ceil - l, now) now rate ceil = refill tok now rate ceil - l := by
  have h : refill tok now rate ceil ≤ ((ceil * shUnit : Nat) : Int) := Int.min_le_right _ _
  rw [refill_now]
  exact Int.min_eq_left (by omega)

theorem chargeSh_facts (hs : s.canon) (i l : Nat) : (s.chargeSh i l).shTok i = s.shTok i - (l * shUnit : Nat) ∧ (s.chargeSh i l).shStart i = s.shStart i := by
  have htok : (s.chargeSh i l).shTok i = s.shTok i - (l * shUnit : Nat) := by
    have hsh : tget (0, 0) (s.chargeSh i l).tm.sh i = (s.shTok i - (l * shUnit : Nat), s.runNow) := tget_tput (d := fun _ => ((0 : Int), 0)) _ _ hs.tm.sh
    have hread : (s.chargeSh i l).shTok i = refill (tget (0, 0) (s.chargeSh i l).tm.sh i) s.runNow (rateCap (s.g (aShpcfg i) TM_SHPCFG.RATE)) (s.g (aShpcfg i) TM_SHPCFG.CEIL) := rfl
    rw [hread, hsh]
    exact refill_charged _ _ _ _ _
  have howed : tget 0 (s.chargeSh i l).tm.owed i = tget 0 s.tm.owed i + l := tget_tput (d := fun _ => 0) _ _ hs.tm.owed
  refine ⟨htok, ?_⟩
  unfold State.shStart
  rw [htok, howed, Nat.add_mul]
  omega

theorem decides_treeBank (k k' : Nat) : (s.decides k).treeBank k' = s.treeBank k' ∧ (s.decides k).tm.flipTree = s.tm.flipTree := by
  unfold State.decides
  split <;> exact ⟨rfl, rfl⟩

theorem decides_shStart {k : Nat} (h : s.tm.dcyc ≠ s.cyc) (i : Nat) : (s.decides k).shStart i = s.shTok i := by
  unfold State.decides
  rw [if_neg (fun e => h e.1)]
  change s.shTok i + (tget 0 [] i * shUnit : Nat) = _
  simp [tget]


-- Reads of records.

theorem tmSend_regs (s : State) (port : Nat) (k : Pkt) : (s.tmSend port k).regs = s.regs := State.wake_regs _ _ _
theorem tmSend_routers (s : State) (port : Nat) (k : Pkt) : (s.tmSend port k).routers = s.routers := State.wake_routers _ _ _

theorem sendRead_keeps (s : State) (k : Nat) (cls : BitVec 2) (dest : BitVec 10) (addr : BitVec 48) (n : Nat) :
    (s.sendRead k cls dest addr n).1.regs = s.regs ∧ (s.sendRead k cls dest addr n).1.routers = s.routers :=
  ⟨tmSend_regs _ _ _, tmSend_routers _ _ _⟩

theorem recordRead_none {k q : Nat} (h : (s.queue q).recs.find? (fun e => e.at_ == .memory) = none) : s.recordRead k q = s := by
  unfold State.recordRead
  rw [h]

/-- The read of a record is noted with its ring index. -/
theorem recordRead_goes {k q : Nat} {e : QRec} (hf : (s.queue q).recs.find? (fun e => e.at_ == .memory) = some e)
    (hg : s.ownerOf q = some k ∧ s.storeRoom k q = true ∧ s.bufUsed k < 512 ∧ s.tm.wrns.all (fun w => !(w.qid == q && w.idx == e.idx)) = true) :
    (∃ r ∈ (s.recordRead k q).recReads k, r.qid = q ∧ r.idx = e.idx) ∧ (s.recordRead k q).regs = s.regs ∧ (s.recordRead k q).routers = s.routers := by
  have hread : ∃ (t : State) (tag : Nat), t.regs = s.regs ∧ t.routers = s.routers ∧ s.recordRead k q = t.setRecReads k (t.recReads k ++ [⟨tag, q, e.idx⟩]) := by
    unfold State.recordRead
    rw [hf]
    dsimp only
    rw [if_pos hg]
    obtain ⟨hr, hro⟩ := s.sendRead_keeps k (s.fclass k q) (s.recPlace q e.idx).1 (s.recPlace q e.idx).2 128
    generalize s.sendRead k (s.fclass k q) (s.recPlace q e.idx).1 (s.recPlace q e.idx).2 128 = r at hr hro
    exact ⟨r.1.setQueue q _, r.2, hr, hro, rfl⟩
  obtain ⟨t, tag, hr, hro, ht⟩ := hread
  have hl : (s.recordRead k q).recReads k = t.recReads k ++ [⟨tag, q, e.idx⟩] := by
    rw [ht]
    exact tget_tput_of_ne (List.append_ne_nil_of_right_ne_nil _ (List.cons_ne_nil _ _)) _ _
  refine ⟨⟨⟨tag, q, e.idx⟩, ?_, rfl, rfl⟩, ?_, ?_⟩
  · rw [hl]
    exact List.mem_append_right _ List.mem_cons_self
  · rw [ht]
    exact hr
  · rw [ht]
    exact hro

-- The pick of a queue.

theorem queue_setQueue_ne {q q' : Nat} (x : Queue) (h : q' ≠ q) : (s.setQueue q x).queue q' = s.queue q' := tget_tput_ne _ h
theorem wf_setQueue (hs : Tab.wf (fun _ => Queue.reset) s.tm.qs = true) (q : Nat) (x : Queue) : Tab.wf (fun _ => Queue.reset) (s.setQueue q x).tm.qs = true :=
  wf_tput (d := fun _ => Queue.reset) _ _ hs

/-- The queue as its turn comes: its deficit grows by its quantum when the turn begins. -/
def onTurn (s : State) (k q : Nat) : Queue := if (s.queue q).turn then s.queue q else { s.queue q with dc := (s.queue q).dc + s.quantum k q, turn := true }

/-- The counted length of the packet at the head of a queue. -/
def headLen (s : State) (k q : Nat) : Nat := match (s.onTurn k q).recs.head? with | some e => s.lenAt k e.rec_.len | none => 1

/-- A queue whose deficit does not cover its packet goes to the end of its group's list. -/
def passed (s : State) (k g q : Nat) : State := (s.setQueue q { s.onTurn k q with turn := false }).setDrr k g ((s.drrList k g).filter (fun y => y != q) ++ [q])

theorem drrPick_cons (k g q : Nat) (rest : List Nat) : s.drrPick k g (q :: rest) =
    if s.queueEligible k q = false then s.drrPick k g rest
    else if s.headLen k q ≤ (s.onTurn k q).dc then (s.setQueue q (s.onTurn k q), some q) else (s.passed k g q).drrPick k g rest := by
  rw [State.drrPick]
  rfl

theorem onTurn_facts (k q : Nat) : (s.onTurn k q).turn = true ∧ (s.onTurn k q).recs = (s.queue q).recs := by
  unfold State.onTurn
  split
  next h => exact ⟨h, rfl⟩
  next => exact ⟨rfl, rfl⟩

theorem passed_recs (hs : Tab.wf (fun _ => Queue.reset) s.tm.qs = true) (k g q q' : Nat) : ((s.passed k g q).queue q').recs = (s.queue q').recs := by
  have hq : (s.passed k g q).queue q' = (s.setQueue q { s.onTurn k q with turn := false }).queue q' := rfl
  rw [hq]
  by_cases h : q' = q
  · rw [h, State.queue_setQueue _ _ _ hs]
    exact (s.onTurn_facts k q).2
  · rw [queue_setQueue_ne _ h]

section Gates
variable {t : State} (hg : ∀ o f, t.g o f = s.g o f) (hgate : ∀ k, t.gate k = s.gate k)
include hg

theorem nent_of (k b : Nat) : t.nent k b = s.nent k b := by simp only [State.nent, hg]
theorem gcycle_of (k b : Nat) : t.gcycle k b = s.gcycle k b := hg _ _
theorem gbase_of (k b : Nat) : t.gbase k b = s.gbase k b := hg _ _

theorem gateEntry_of (k b phase n : Nat) : ∀ e acc, t.gateEntry k b phase n e acc = s.gateEntry k b phase n e acc := by
  induction n with
  | zero => exact fun e acc => by simp only [State.gateEntry, State.gcycle, hg]
  | succ n ih => exact fun e acc => by simp only [State.gateEntry, State.gcycle, hg, ih]

theorem gateSeg_of (k b at_ : Nat) : t.gateSeg k b at_ = s.gateSeg k b at_ := by
  unfold State.gateSeg
  rw [nent_of hg, gcycle_of hg, gbase_of hg]
  simp only [gateEntry_of hg]

include hgate

theorem gatesAt_of (k at_ : Nat) : t.gatesAt k at_ = s.gatesAt k at_ := by
  unfold State.gatesAt State.gateBank
  rw [gateSeg_of hg, hgate]

theorem openThrough_of (k c stop n : Nat) : ∀ at_, t.openThrough k c stop n at_ = s.openThrough k c stop n at_ := by
  induction n with
  | zero => exact fun _ => rfl
  | succ n ih =>
    intro at_
    unfold State.openThrough State.gateOpen
    rw [gatesAt_of hg hgate]
    simp only [ih]

/-- The Windowed rule sees registers, gate lists and network time only. -/
theorem windowFits_of (hnt : t.ntNs = s.ntNs) (k c l : Nat) : t.windowFits k c l = s.windowFits k c l := by
  have hb (x : Nat) : t.gateBank k x = s.gateBank k x := by
    unfold State.gateBank
    rw [hgate]
  have htime : t.gateTime k = s.gateTime k := by
    unfold State.gateTime
    rw [hnt, hg]
  have hrate : t.lrate k = s.lrate k := congrArg rateCap (hg _ _)
  unfold State.windowFits
  dsimp only
  rw [htime, hrate, hb, nent_of hg, gcycle_of hg]
  exact openThrough_of hg hgate _ _ _ _ _

end Gates

theorem passed_windowFits (k g q c l : Nat) : (s.passed k g q).windowFits k c l = s.windowFits k c l :=
  windowFits_of (s := s) (t := s.passed k g q) (fun _ _ => rfl) (fun _ => rfl) (show s.ntNs = s.ntNs from rfl) k c l

theorem passed_eligible (hs : Tab.wf (fun _ => Queue.reset) s.tm.qs = true) (k g q q' : Nat) : (s.passed k g q).queueEligible k q' = s.queueEligible k q' := by
  unfold State.queueEligible
  simp only [passed_recs hs, passed_windowFits]
  rfl

theorem drrPick_facts {k g q : Nat} {l : List Nat} : ∀ s : State, Tab.wf (fun _ => Queue.reset) s.tm.qs = true → s.drrPick k g l = (u, some q) →
    q ∈ l ∧ s.queueEligible k q = true ∧ (u.queue q).turn = true ∧
    (∀ e, (s.queue q).recs.head? = some e → s.lenAt k e.rec_.len ≤ (u.queue q).dc) ∧ u.regs = s.regs := by
  induction l with
  | nil => exact fun s _ h => nomatch h
  | cons y rest ih =>
    intro s hs h
    rw [drrPick_cons] at h
    split at h
    next =>
      obtain ⟨hmem, hfacts⟩ := ih s hs h
      exact ⟨List.mem_cons_of_mem _ hmem, hfacts⟩
    next hel =>
      split at h
      next hdc =>
        obtain ⟨rfl, hq⟩ := Prod.mk.inj h
        obtain rfl := Option.some.inj hq
        rw [State.queue_setQueue _ _ _ hs]
        refine ⟨List.mem_cons_self, Bool.of_not_eq_false hel, (s.onTurn_facts k y).1, fun e he => ?_, rfl⟩
        unfold State.headLen at hdc
        rw [(s.onTurn_facts k y).2, he] at hdc
        exact hdc
      next =>
        obtain ⟨hmem, helig, hturn, hdc, hregs⟩ := ih (s.passed k g y) (wf_setQueue hs _ _) h
        rw [passed_eligible hs] at helig
        rw [passed_recs hs] at hdc
        exact ⟨List.mem_cons_of_mem _ hmem, helig, hturn, hdc, hregs⟩

-- Deliveries.

theorem wrWaits_iff (k seq : Nat) : s.wrWaits k seq = true ↔ ∃ p ∈ tget [] s.tm.outq (16 + k), p.cmd = Cmd.WR ∧ fld p.addr 36 12 = seq := by
  simp [State.wrWaits]

theorem gate_raiseTm (s : State) (k port ev : Nat) : (s.raiseTm port ev).gate k = s.gate k := by
  unfold State.gate State.raiseTm State.tmSend
  rw [State.wake_tm]
  rfl
theorem cyc_raiseTm (s : State) (port ev : Nat) : (s.raiseTm port ev).cyc = s.cyc := State.wake_cyc _ _ _

/-- The list of a bank is in force, and an invalid cycle is said. -/
def startList (s : State) (k : Nat) (g : Gate) : State :=
  let u := s.setGate k g
  if u.gcycle k g.bank.toNat = 0 ∧ 0 < u.nent k g.bank.toNat then (u.pb (aEsstat k) TM_ESSTAT.GERR true).raiseTm (16 + k) 849 else u

theorem startList_facts (hs : Tab.wf (fun _ => Gate.reset) s.tm.gates = true) (k : Nat) (g : Gate) : (s.startList k g).gate k = g ∧ (s.startList k g).cyc = s.cyc := by
  have h : (s.setGate k g).gate k = g := tget_tput (d := fun _ => Gate.reset) _ _ hs
  unfold State.startList
  dsimp only
  split
  · exact ⟨(gate_raiseTm _ _ _ _).trans h, cyc_raiseTm _ _ _⟩
  · exact ⟨h, rfl⟩

end State

/-- Settles O57: decisions, picks, reads, deliveries and gate lists. -/
theorem schedulersDecideReadAndDeliver : Obligations.SchedulersDecideReadAndDeliver := by
  refine ⟨fun s k qid => ⟨?decision, fun hs => State.chargeSh_facts hs, State.decides_shStart, fun e hf ho hr hb hw => ?read,
      fun h => congrArg Host.Outcome.next (State.recordRead_none h), fun rid resp data p rest hx => ?answer, fun h => ?noDelivery, fun i x hn hx => ?delivery, ?freed, fun h => ?noGate, fun st h hs => ?gate⟩,
    fun s k g q l u hs h => State.drrPick_facts s hs.tm.qs h⟩
  case decision =>
    intro u
    obtain ⟨htree, hflip⟩ := State.decides_treeBank (s := s) k.val k.val
    refine ⟨fun h => if_pos (htree.trans (h.trans (by rw [hflip]))), fun h => congrArg Host.Outcome.next (if_pos h), fun h1 h2 h3 h4 => congrArg Host.Outcome.next (if_neg ?_)⟩
    rw [not_or, not_or, not_or]
    exact ⟨by rw [h1]; exact Bool.noConfusion, h2, Int.not_lt.mpr h3, Nat.not_le.mpr h4⟩
  case read =>
    refine ⟨_, rfl, State.recordRead_goes hf ⟨ho, hr, hb, List.all_eq_true.mpr fun w hin => ?_⟩⟩
    simpa [Decidable.imp_iff_not_or] using hw w hin
  case answer =>
    change (Host.Outcome.next _ : Res) = _
    rw [hx]
  case noDelivery =>
    refine congrArg Host.Outcome.next ?_
    unfold State.deliver
    rw [h]
  case delivery =>
    have hd : exec (.delivery k) s = .next (s.deliver k.val) := rfl
    unfold State.deliver at hd
    rw [hn] at hd
    dsimp only at hd
    rw [hx] at hd
    dsimp only at hd
    have hready (h1 : x.issued = true) (h2 : x.tags = []) : (x.issued && x.tags.isEmpty) = true := by rw [h1, h2]; rfl
    refine ⟨fun h => hd.trans (congrArg Host.Outcome.next (if_neg ?_)), fun h1 h2 h3 => ?_, fun h1 h2 h3 => ?_⟩
    · rw [Bool.and_eq_true, List.isEmpty_iff]
      exact fun ⟨h1, h2⟩ => h.elim (fun e => by rw [e] at h1; exact Bool.noConfusion h1) (fun e => e h2)
    · rw [if_pos (hready h1 h2), h3] at hd
      exact hd
    · rw [if_pos (hready h1 h2), h3] at hd
      exact hd
  case freed =>
    intro waits
    have hw (y : Sel) : s.wrWaits k.val y.seq = true ↔ waits y := State.wrWaits_iff _ _
    have hno {y : Sel} (h : y.delivered = true → waits y) : (y.delivered && !s.wrWaits k.val y.seq) = false := by
      cases hy : y.delivered with
      | false => rfl
      | true => rw [(hw y).mpr (h hy)]; rfl
    have hx : exec (.lastDeliveryInjected k) s = .next (s.lastInjected k.val) := rfl
    unfold State.lastInjected at hx
    refine ⟨fun x before after hl hdel hx' hbefore => ?_, fun hall => ?_⟩
    · have hyes : (x.delivered && !s.wrWaits k.val x.seq) = true := by
        rw [hdel, Bool.eq_false_iff.mpr (mt (hw x).mp hx')]
        rfl
      rw [hl, extract_first (fun y hy => hno (hbefore y hy)) hyes] at hx
      exact hx
    · rw [extract_none (fun y hy => hno (hall y hy))] at hx
      exact hx
  case noGate =>
    change (Host.Outcome.next _ : Res) = _
    dsimp only
    rw [h]
  case gate =>
    have hx : exec (.gateListStart k) s = .next ((s.until (s.cyc + s.cyclesTo st)).startList k.val ⟨!(s.gate k.val).bank, st, none⟩) := by
      change (Host.Outcome.next _ : Res) = _
      dsimp only
      rw [h]
      rfl
    obtain ⟨hgate, hcyc⟩ := State.startList_facts (s := s.until (s.cyc + s.cyclesTo st)) hs.tm.gates k.val ⟨!(s.gate k.val).bank, st, none⟩
    exact ⟨_, hx, hgate, Nat.le_trans (Nat.le_max_right _ _) (Nat.le_of_eq hcyc.symm)⟩

end Sys2Proof.Machine
end


section
/-! SUPPORT. The test access port, the programming of fuses, the changes of network time that arrive; O39, O40 and O36. -/
namespace Sys2Proof.Machine

theorem fld_ofNat (n lo w : Nat) (h : n < 2 ^ 64) : fld (BitVec.ofNat 64 n) lo w = n / 2 ^ lo % 2 ^ w := by
  unfold fld
  rw [BitVec.extractLsb'_toNat, BitVec.toNat_ofNat, Nat.mod_eq_of_lt h, Nat.shiftRight_eq_div_pow]

/-- IDCODE bears the manufacturer's and the part's numbers as R422 places them. -/
theorem State.idcode_fields (s : State) : fld s.idcode 0 1 = 1 ∧ fld s.idcode 12 16 = 0x0144 ∧ fld s.idcode 28 4 = 2 ∧ fld s.idcode 1 11 = fld s.fuse1 48 11 := by
  have hx : fld s.fuse1 48 11 < 2 ^ 11 := BitVec.isLt _
  unfold State.idcode
  generalize fld s.fuse1 48 11 = x at hx
  have hn : 2 ^ 28 * 2 + 2 ^ 12 * 0x0144 + 2 * x + 1 < 2 ^ 64 := by omega
  rw [fld_ofNat _ _ _ hn, fld_ofNat _ _ _ hn, fld_ofNat _ _ _ hn, fld_ofNat _ _ _ hn]
  omega

/-- Settles O39: what each instruction selects and captures. -/
theorem tapInstructions : Obligations.TapInstructions := by
  intro s
  obtain ⟨hone, hmaker, hver, hpart⟩ := s.idcode_fields
  refine ⟨⟨_, rfl, rfl, hone, hmaker, hver, hpart, rfl⟩, rfl, fun v => rfl, fun v => rfl, rfl, rfl, fun g clocks => ?_⟩
  intro sel
  have hx (start : Option Bool) (mb : BitVec 32) (h : (match start with
      | none => s.tap.mb
      | some clocks => if bitOf s.tap.mb 8 then s.tap.mb else if s.rstLow = true ∧ clocks = true ∧ g.toNat < 8 then BitVec.ofNat 32 (256 + g.toNat) else BitVec.ofNat 32 (2 ^ 11 + g.toNat)) = mb) :
      exec (.mbist g start) s = .next (sel mb) := by rw [← h]; rfl
  refine ⟨hx none _ rfl, fun hb => hx _ _ (if_pos hb), fun hr hg hb => hx _ _ ?_, fun hno hb => hx _ _ ?_⟩
  · exact (if_neg (by rw [hb]; exact Bool.noConfusion)).trans (if_pos ⟨hr, rfl, hg⟩)
  · refine (if_neg (by rw [hb]; exact Bool.noConfusion)).trans (if_neg fun ⟨h1, h2, h3⟩ => ?_)
    rcases hno with h | h | h
    · exact Bool.noConfusion (h.symm.trans h1)
    · omega
    · exact Bool.noConfusion (h.symm.trans h2)

-- Programming of fuses.

section Fuses
variable {s : State} (hs : Tab.wf (fun _ => (0 : W)) s.tap.fuses = true)

theorem State.fuse_blow_eq (hs : Tab.wf (fun _ => (0 : W)) s.tap.fuses = true) (w : Nat) (v : W) (i : Nat) :
    (s.blow w v).fuse i = if i = w then s.fuse i ||| v else s.fuse i := by
  split
  next h =>
    subst h
    exact tget_tput (d := fun _ => (0 : W)) _ _ hs
  next h => exact tget_tput_ne _ h

theorem checkWord_bounds {w : Nat} (h : isSealed w = true) : w < 56 ∧ 56 ≤ checkWord w ∧ checkWord w < 63 := by
  simp only [isSealed, Bool.or_eq_true, decide_eq_true_eq] at h
  unfold checkWord
  omega

/-- The check byte stands in its place of the check word. -/
theorem checkByte_or (v d : W) (w : Nat) : (v ||| checkBits w d).extractLsb' (8 * (w % 8)) 8 = v.extractLsb' (8 * (w % 8)) 8 ||| fuseCheck d := by
  unfold checkBits
  ext b hb
  have hk : w % 8 < 8 := Nat.mod_lt _ (by decide)
  simp only [BitVec.getElem_extractLsb', BitVec.getElem_or, BitVec.getLsbD_or, BitVec.getLsbD_shiftLeft, BitVec.getLsbD_setWidth]
  rw [Nat.add_sub_cancel_left, decide_eq_true (by omega), decide_eq_false (by omega), decide_eq_true (by omega)]
  simp [hb]

theorem and_not_or_self (x y : W) : x &&& ~~~(x ||| y) = 0 := by
  ext b hb
  simp only [BitVec.getElem_and, BitVec.getElem_or, BitVec.getElem_not]
  cases x[b] <;> simp

theorem or_and_not_or (x y m : W) : (x ||| (y &&& m)) &&& ~~~(x ||| y) = 0 := by
  ext b hb
  simp only [BitVec.getElem_and, BitVec.getElem_or, BitVec.getElem_not]
  cases x[b] <;> cases y[b] <;> simp

theorem and_not_of_and_eq {x y : W} (h : x &&& y = y) : y &&& ~~~x = 0 := by
  rw [← h]
  ext b hb
  simp only [BitVec.getElem_and, BitVec.getElem_not]
  cases x[b] <;> simp

/-- Programming that does not finish goes on to the check byte. -/
def State.reachesCheck (s : State) (w : Nat) (stopped : Bool) : Prop :=
  isSealed w ∧ (stopped = false ∨ (s.nextFree.blow w (s.tap.fdata &&& lineWord (Config.freeLine s.free) 0)).fuse w &&& s.tap.fdata = s.tap.fdata)

theorem State.blowSome_fuse (hs : Tab.wf (fun _ => (0 : W)) s.tap.fuses = true) {w : Nat} (st : Bool) :
    (∀ i, i ≠ checkWord w ∨ isSealed w = false → (s.blowSome w st).fuse i = if i = w then s.fuse i ||| (s.tap.fdata &&& lineWord (Config.freeLine s.free) 0) else s.fuse i) ∧
    (isSealed w = true → ¬ s.reachesCheck w st → (s.blowSome w st).fuse (checkWord w) = s.fuse (checkWord w)) := by
  have hfirst (i : Nat) := State.fuse_blow_eq (s := s.nextFree) hs w (s.tap.fdata &&& lineWord (Config.freeLine s.free) 0) i
  have hne (h : isSealed w = true) : checkWord w ≠ w := by
    obtain ⟨h1, h2, -⟩ := checkWord_bounds h
    omega
  unfold State.blowSome
  dsimp only
  split
  next hgo =>
    refine ⟨fun i hi => ?_, fun _ hno => absurd hgo hno⟩
    rw [State.fuse_blow_eq (State.blow_wf (s := s.nextFree) hs _ _), if_neg (hi.resolve_right (by rw [hgo.1]; exact Bool.noConfusion))]
    exact hfirst i
  next => exact ⟨fun i _ => hfirst i, fun h _ => (hfirst _).trans (if_neg (hne h))⟩

/-- No fuse is cleared by programming that does not finish. -/
theorem State.blowSome_keeps (hs : Tab.wf (fun _ => (0 : W)) s.tap.fuses = true) (w : Nat) (st : Bool) (i : Nat) : s.fuse i &&& ~~~(s.blowSome w st).fuse i = 0 := by
  unfold State.blowSome
  dsimp only
  split
  · exact keepsBits_trans (State.fuse_blow (s := s.nextFree) hs _ _ i) (State.fuse_blow (State.blow_wf (s := s.nextFree) hs _ _) _ _ i)
  · exact State.fuse_blow (s := s.nextFree) hs _ _ i

/-- What programming that does not finish leaves in the LOCK word and in the word itself. -/
theorem State.blowSome_bounds (hs : Tab.wf (fun _ => (0 : W)) s.tap.fuses = true) (w : Nat) (st : Bool) :
    (w ≠ 63 → (s.blowSome w st).fuse 63 = s.fuse 63) ∧ (s.blowSome w st).fuse w &&& ~~~(s.fuse w ||| s.tap.fdata) = 0 := by
  obtain ⟨hi, -⟩ := State.blowSome_fuse hs (w := w) st
  have hout (i : Nat) (h : isSealed w = true → i ≠ checkWord w) : i ≠ checkWord w ∨ isSealed w = false := by
    cases hb : isSealed w with
    | false => exact .inr rfl
    | true => exact .inl (h hb)
  refine ⟨fun hne => (hi 63 (hout 63 fun h => ?_)).trans (if_neg (Ne.symm hne)), ?_⟩
  · have := checkWord_bounds h
    omega
  · rw [hi w (hout w fun h => by have := checkWord_bounds h; omega), if_pos rfl]
    exact or_and_not_or _ _ _

/-- After a stop a check byte that changed stands beside data bits that are all programmed. -/
theorem State.blowSome_order (hs : Tab.wf (fun _ => (0 : W)) s.tap.fuses = true) {w : Nat} (h : isSealed w = true) (hc : (s.blowSome w true).checkByte w ≠ s.checkByte w) :
    s.tap.fdata &&& ~~~(s.blowSome w true).fuse w = 0 := by
  obtain ⟨hi, hno⟩ := State.blowSome_fuse hs (w := w) true
  have hgo : s.reachesCheck w true := by
    refine Classical.byContradiction fun hgo => ?_
    exact hc (congrArg (fun v : W => v.extractLsb' (8 * (w % 8)) 8) (hno h hgo))
  obtain ⟨-, hstop | hall⟩ := hgo
  · exact Bool.noConfusion hstop
  · have hb := checkWord_bounds h
    rw [State.fuse_blow_eq (s := s.nextFree) hs, if_pos rfl] at hall
    rw [hi w (.inl (by omega)), if_pos rfl]
    exact and_not_of_and_eq hall

/-- A word that was programmed to its end. -/
def State.blown (s : State) (w : Nat) : State :=
  if isSealed w then ((s.blow w s.tap.fdata).blow (checkWord w) (checkBits w s.tap.fdata)).blow 63 (1#64 <<< w) else s.blow w s.tap.fdata

theorem State.blown_sealed (hs : Tab.wf (fun _ => (0 : W)) s.tap.fuses = true) {w : Nat} (h : isSealed w = true) (i : Nat) :
    (s.blown w).fuse i = if i = 63 then s.fuse i ||| (1#64 <<< w) else if i = checkWord w then s.fuse i ||| checkBits w s.tap.fdata else if i = w then s.fuse i ||| s.tap.fdata else s.fuse i := by
  have hw1 := State.blow_wf hs w s.tap.fdata
  have hw2 := State.blow_wf hw1 (checkWord w) (checkBits w s.tap.fdata)
  have hb := checkWord_bounds h
  unfold State.blown
  rw [if_pos h, State.fuse_blow_eq hw2, State.fuse_blow_eq hw1, State.fuse_blow_eq hs]
  split
  next hi => rw [if_neg (by omega), if_neg (by omega)]
  next =>
    split
    next hi => rw [if_neg (by omega)]
    next => rfl

theorem State.blown_open (hs : Tab.wf (fun _ => (0 : W)) s.tap.fuses = true) {w : Nat} (h : isSealed w = false) (i : Nat) :
    (s.blown w).fuse i = if i = w then s.fuse i ||| s.tap.fdata else s.fuse i := by
  unfold State.blown
  rw [if_neg (by rw [h]; exact Bool.noConfusion)]
  exact State.fuse_blow_eq hs _ _ _

theorem State.blown_facts (hs : Tab.wf (fun _ => (0 : W)) s.tap.fuses = true) (w : Nat) : let u := s.blown w
    (w ≠ 63 → u.fuse w = s.fuse w ||| s.tap.fdata) ∧ (∀ i, s.fuse i &&& ~~~u.fuse i = 0) ∧
      (isSealed w = true → u.checkByte w = s.checkByte w ||| fuseCheck s.tap.fdata ∧ u.fuse 63 = s.fuse 63 ||| (1#64 <<< w)) ∧
      (∀ i, i ≠ w → i ≠ 63 → i ≠ checkWord w → u.fuse i = s.fuse i) := by
  dsimp only
  cases h : isSealed w with
  | false =>
    have hi := State.blown_open hs h
    refine ⟨fun _ => (hi w).trans (if_pos rfl), fun i => ?_, fun hb => Bool.noConfusion hb, fun i h1 _ _ => (hi i).trans (if_neg h1)⟩
    rw [hi]
    split
    · exact and_not_or_self _ _
    · exact BitVec.and_not_self _
  | true =>
    have hi := State.blown_sealed hs h
    have hb := checkWord_bounds h
    refine ⟨fun _ => ?_, fun i => ?_, fun _ => ⟨?_, (hi 63).trans (if_pos rfl)⟩, fun i h1 h2 h3 => ?_⟩
    · rw [hi, if_neg (by omega), if_neg (by omega), if_pos rfl]
    · rw [hi]
      split
      · exact and_not_or_self _ _
      · split
        · exact and_not_or_self _ _
        · split
          · exact and_not_or_self _ _
          · exact BitVec.and_not_self _
    · unfold State.checkByte
      rw [hi, if_neg (by omega), if_pos rfl]
      exact checkByte_or _ _ _
    · rw [hi, if_neg h2, if_neg h3, if_neg h1]

end Fuses

/-- FPROG where Run-Test/Idle is entered, with no programming under way. -/
theorem State.fprog_idle {s : State} {vpp : Bool} (hp : s.tap.prog = none) : exec (.fprog (some vpp)) s = .next (
    if s.fprogRefused (fld s.tap.faddr 0 6) vpp then (s.tapSelect irFprog (s.tap.status.setWidth 64)).setFp (fpRefused ||| (if vpp then 0 else fpVpplow)) none
    else (s.tapSelect irFprog (s.tap.status.setWidth 64)).setFp fpBusy (some (fld s.tap.faddr 0 6))) :=
  congrArg Host.Outcome.next (if_neg (show ¬ s.tap.prog.isSome = true by rw [hp]; exact Bool.noConfusion))

/-- Settles O40: the start of programming and its three ends. -/
theorem fuseProgramming : Obligations.FuseProgramming := by
  refine ⟨fun s vpp w hw => ?start, fun s w hp hw hc hs => ?ends⟩
  case start =>
    subst hw
    intro cap
    refine ⟨rfl, fun h => congrArg Host.Outcome.next (if_pos h), fun hp h => (State.fprog_idle hp).trans ?_, fun hp hse h => (State.fprog_idle hp).trans ?_,
      fun hp hse hck => (State.fprog_idle hp).trans ?_, fun hp hse hl ht hb => (State.fprog_idle hp).trans ?_⟩
    · exact congrArg Host.Outcome.next (if_pos (by unfold State.fprogRefused; rcases h with h | h <;> simp [h]))
    · refine congrArg Host.Outcome.next (if_pos ?_)
      unfold State.fprogRefused
      rcases h with h | h | h
      · simp [h, hse]
      · simp [h, hse]
      · simp [hse]
        exact .inr (.inr h)
    · exact congrArg Host.Outcome.next (if_neg (by simp [State.fprogRefused, hse, hck]))
    · have hck : isCheck (fld s.tap.faddr 0 6) = false := by
        have := checkWord_bounds hse
        simp only [isCheck, decide_eq_false_iff_not]
        omega
      exact congrArg Host.Outcome.next (if_neg (by simp [State.fprogRefused, hse, hck, hl, ht, hb]))
  case ends =>
    have hdone (b : Bool) : exec (.fuseProgramDone b) s = .next (if b then (s.blown w).setFp fpDone none else (s.blowSome w false).setFp fpFail none) := by
      change (Host.Outcome.next _ : Res) = _
      rw [hp]
      rfl
    have hloss : exec .fuseVppLoss s = .next ((s.blowSome w true).setFp fpVpplow none) := by
      change (Host.Outcome.next (s.fuseStops fpVpplow) : Res) = _
      unfold State.fuseStops
      rw [hp]
    have hkeeps := State.blowSome_keeps hs.tap w
    have hbounds := State.blowSome_bounds hs.tap w
    exact ⟨⟨_, hdone true, rfl, rfl, State.blown_facts hs.tap w⟩, ⟨_, hdone false, rfl, rfl, (hbounds false).1, hkeeps false, (hbounds false).2⟩,
      ⟨_, hloss, rfl, rfl, (hbounds true).1, hkeeps true, (hbounds true).2, State.blowSome_order hs.tap⟩⟩

-- Changes of network time that arrive.

theorem State.gb_pb_false (s : State) (o : Nat) (f : Fd) (h : s.regsOk) (hf : f.lo + f.w ≤ 64) : (s.pb o f false).gb o f = false := by
  have hg : (s.pb o f false).g o f = 0 := (State.g_p s o f 0 h hf).trans (Nat.zero_mod _)
  unfold State.gb
  rw [hg]
  rfl

/-- An edge that is accepted is captured, and no longer missed. -/
def State.ppsTaken (s : State) : State :=
  let u := (s.wr aTbPpscap (BitVec.ofNat 64 s.ntNs)).pb aTbStat TB_STAT.PPSLOST false
  { u with tb := { u.tb with lastPps := some (s.tb.nt s.fcc) } }

/-- An armed load that has met no edge yet becomes a pending change. -/
def State.ppsArms (s : State) : State :=
  match s.tb.armed, s.tb.edged with
  | some v, false => { s with tb := { s.tb with edged := true } }.timeChange (.pps v s.runNow)
  | _, _ => s

theorem State.ppsArms_keeps (s : State) : s.ppsArms.regs = s.regs ∧ s.ppsArms.build = s.build ∧ s.ppsArms.tb.lastPps = s.tb.lastPps ∧ s.ppsArms.tb.armed = s.tb.armed ∧
    s.ppsArms.tb.base = s.tb.base ∧ s.ppsArms.tb.cb = s.tb.cb := by
  unfold State.ppsArms
  split <;> exact ⟨rfl, rfl, rfl, rfl, rfl, rfl⟩

theorem State.ppsArms_idle {s : State} (h : s.tb.armed = none ∨ s.tb.edged = true) : s.ppsArms = s := by
  unfold State.ppsArms
  rcases h with h | h
  · rw [h]
  · rw [h]
    cases s.tb.armed <;> rfl

theorem State.ppsArms_load {s : State} {v : Nat} (h : s.tb.armed = some v) (he : s.tb.edged = false) :
    s.ppsArms = { s with tb := { s.tb with edged := true } }.timeChange (.pps v s.runNow) := by
  unfold State.ppsArms
  rw [h, he]

/-- The edge comes within 0.9 s of the last accepted one. -/
def State.ppsEarly (s : State) : Bool := match s.tb.lastPps with | some l => decide (l ≤ s.tb.nt s.fcc ∧ s.tb.nt s.fcc - l < ppsMin) | none => false

theorem State.ppsEdge_eq (s : State) : exec .ppsEdge s = .next (if s.ppsEarly then s.sat aTbStat TB_STAT.PPSIGN else s.ppsTaken.ppsArms) := rfl

theorem State.ppsEarly_iff (s : State) : s.ppsEarly = true ↔ ∃ l, s.tb.lastPps = some l ∧ l ≤ s.tb.nt s.fcc ∧ s.tb.nt s.fcc - l < ppsMin := by
  unfold State.ppsEarly
  cases h : s.tb.lastPps <;> simp

theorem State.ppsTaken_facts {s : State} (hs : s.canon) : s.ppsTaken.rd aTbPpscap = BitVec.ofNat 64 s.ntNs ∧ s.ppsTaken.gb aTbStat TB_STAT.PPSLOST = false := by
  have hok := State.regsOk_wr hs.regs aTbPpscap (BitVec.ofNat 64 s.ntNs)
  refine ⟨?_, (State.gb_pb_false _ aTbStat TB_STAT.PPSLOST hok (by decide) :)⟩
  exact (State.rd_wr_ne _ _ (show aTbPpscap ≠ aTbStat by decide)).trans (State.rd_wr _ _ _ hs.regs)

/-- Settles O36: writes of TB_PERIOD, transfers, and edges. -/
theorem timeChangesArrive : Obligations.TimeChangesArrive := by
  refine ⟨fun s m v => ?_, fun s hs => ?_⟩
  · intro pending
    have hno (h : s.sqRight m = false) : ¬ s.sqRight m = true := by rw [h]; exact Bool.noConfusion
    refine ⟨fun h => congrArg Host.Outcome.next (if_pos h), fun h => ⟨congrArg Host.Outcome.next (if_neg (hno h)), congrArg Host.Outcome.next (if_neg (hno h))⟩,
      fun h hs => ⟨s.pb aTbStat TB_STAT.VALID false, congrArg Host.Outcome.next (if_pos h), State.gb_pb_false _ _ _ hs (by decide), s.writesOnly_p _ _ _⟩,
      fun h => ⟨congrArg Host.Outcome.next ?_, congrArg Host.Outcome.next ?_⟩, fun h b => congrArg Host.Outcome.next ?_⟩
    · exact (if_neg (Classical.not_not.mpr h)).trans (if_neg Bool.noConfusion)
    · exact (if_neg (Classical.not_not.mpr h)).trans (if_pos rfl)
    · exact if_pos (by rw [h]; exact Bool.noConfusion)
  · intro now early
    have hiff : s.ppsEarly = true ↔ early := s.ppsEarly_iff
    obtain ⟨hcap, hlost⟩ := State.ppsTaken_facts hs
    obtain ⟨hregs, hbuild, hlast, harmed, hbase, hcb⟩ := s.ppsTaken.ppsArms_keeps
    have hrd (o : Nat) : s.ppsTaken.ppsArms.rd o = s.ppsTaken.rd o := by
      unfold State.rd
      rw [hregs, hbuild]
    refine ⟨fun h => s.ppsEdge_eq.trans (congrArg Host.Outcome.next (if_pos (hiff.mpr h))), fun h => ⟨_, s.ppsEdge_eq.trans (congrArg Host.Outcome.next (if_neg (mt hiff.mp h))),
        (hrd _).trans hcap, (congrArg (fun v => fld v TB_STAT.PPSLOST.lo TB_STAT.PPSLOST.w != 0) (hrd _)).trans hlost, hlast, harmed, hbase, hcb, fun hno => ?_, fun v ha he => ?_⟩,
      fun h => congrArg Host.Outcome.next (if_pos h), fun h => ⟨_, congrArg Host.Outcome.next (if_neg (by rw [h]; exact Bool.noConfusion)), ?_, rfl, rfl⟩⟩
    · rw [State.ppsArms_idle (s := s.ppsTaken) hno]
      exact ⟨rfl, rfl⟩
    · rw [State.ppsArms_load (s := s.ppsTaken) ha he]
      exact ⟨rfl, rfl⟩
    · exact (State.gb_raise _ _ _ _).trans (State.gb_pb_true _ _ _ hs.regs (by decide) (by decide))

end Sys2Proof.Machine
end


section
/-! SUPPORT. Claims, completes and the registers of the event controller; O26 and O28. -/
namespace Sys2Proof.Machine

/-- A key that reads as the default is not listed. -/
theorem terase_of_tget {α : Type} [DecidableEq α] {d : Nat → α} {t : Tab α} {b k : Nat} (ht : Tab.okAbove d b t = true) (h : tget (d k) t k = d k) : terase t k = t := by
  induction t generalizing b with
  | nil => rfl
  | cons y t ih =>
    obtain ⟨j, v⟩ := y
    simp only [Tab.okAbove, Bool.and_eq_true, decide_eq_true_eq] at ht
    obtain ⟨⟨-, hv⟩, hrest⟩ := ht
    rw [tget] at h
    rw [terase]
    split
    next hj =>
      rw [if_pos hj] at h
      exact absurd (hj ▸ h) hv
    next hj =>
      rw [if_neg hj] at h
      split
      · rfl
      · rw [ih hrest h]

/-- A listed key stays with the value that it has. -/
theorem tins_tget {α : Type} [DecidableEq α] {d : Nat → α} {t : Tab α} {b k : Nat} (ht : Tab.okAbove d b t = true) (h : tget (d k) t k ≠ d k) : tins t k (tget (d k) t k) = t := by
  induction t generalizing b with
  | nil => exact absurd rfl h
  | cons y t ih =>
    obtain ⟨j, v⟩ := y
    simp only [Tab.okAbove, Bool.and_eq_true, decide_eq_true_eq] at ht
    obtain ⟨-, hrest⟩ := ht
    rw [tget] at h ⊢
    by_cases hj : j = k
    · rw [if_pos hj, tins, if_neg (by omega), if_pos hj.symm, hj]
    · rw [if_neg hj] at h ⊢
      have hlt : ¬ k < j := fun hlt => h (tget_below hrest (by omega))
      rw [tins, if_neg hlt, if_neg (Ne.symm hj), ih hrest h]

/-- To write what a key reads changes nothing. -/
theorem tput_tget {α : Type} [DecidableEq α] {d : Nat → α} {t : Tab α} (k : Nat) (ht : t.wf d = true) : tput (d k) t k (tget (d k) t k) = t := by
  unfold tput
  split
  next h => exact terase_of_tget ht h
  next h => exact tins_tget ht h

theorem State.wr_rd (s : State) (hs : s.regsOk) (o : Nat) : s.wr o (s.rd o) = s :=
  congrArg (fun r => ({ s with regs := r } : State)) (tput_tget (d := fun o => resetVal s.build o) o hs)

/-- Settles O26: each answer of a claim, and each end of a complete. -/
theorem claimsAndCompletes : Obligations.ClaimsAndCompletes := by
  intro s h t ha noSpur
  have hacts : ¬ s.masterActs (.host h) = false := by rw [ha]; exact Bool.noConfusion
  refine ⟨fun hne => ?foreign, fun heq => ⟨fun i hb => ?best, fun hb => ?nothing⟩, fun m id => ⟨fun ho hin hlt => ?takenOff, fun ho hno hlt => ?notThere, fun h => ?noEffect⟩,
    fun h' hn => congrArg Host.Outcome.next (if_pos hn)⟩
  case foreign => exact congrArg Host.Outcome.next ((if_neg hacts).trans (if_pos hne))
  case best =>
    have hx : exec (.evcClaim h t) s = .next ((s.claim t.val).1.answerHost h.val ⟨[(0, BitVec.ofNat 64 (s.claim t.val).2)]⟩) :=
      congrArg Host.Outcome.next ((if_neg hacts).trans (if_neg (Classical.not_not.mpr heq)))
    rw [hx]
    unfold State.claim
    rw [hb]
    rfl
  case nothing =>
    have hx : exec (.evcClaim h t) s = .next ((s.claim t.val).1.answerHost h.val ⟨[(0, BitVec.ofNat 64 (s.claim t.val).2)]⟩) :=
      congrArg Host.Outcome.next ((if_neg hacts).trans (if_neg (Classical.not_not.mpr heq)))
    rw [hx]
    unfold State.claim
    rw [hb]
    dsimp only
    split <;> rfl
  case takenOff =>
    obtain ⟨p, hp⟩ := hin
    have hany : (s.stack t.val).any (fun x => x.1 == id.toNat) = true := List.any_eq_true.mpr ⟨_, hp, beq_self_eq_true _⟩
    exact congrArg Host.Outcome.next ((if_pos ho).trans ((if_neg (Nat.not_lt.mpr hlt)).trans (if_pos hany)))
  case notThere =>
    have hany : ¬ (s.stack t.val).any (fun x => x.1 == id.toNat) = true := fun hany => by
      obtain ⟨⟨i, p⟩, hin, hi⟩ := List.any_eq_true.mp hany
      obtain rfl : i = id.toNat := eq_of_beq hi
      exact hno p hin
    exact congrArg Host.Outcome.next ((if_pos ho).trans ((if_neg (Nat.not_lt.mpr hlt)).trans (if_neg hany)))
  case noEffect =>
    refine congrArg Host.Outcome.next ?_
    split
    next ho =>
      rcases h with h | h
      · exact if_pos h
      · exact Bool.noConfusion (ho.symm.trans h)
    next => rfl

-- The bits of a pending word that a master may change.

section Masks
variable {s : State} {m : Master} {k : Nat}

theorem State.pendMask_seq (ha : s.masterActs m = true) (hm : masterIsSeq m = true) : s.pendMask m k = if k = 15 then 0x3FFFFFFFFFFFFFFF#64 else BitVec.allOnes 64 :=
  (if_neg (by rw [ha]; exact Bool.noConfusion)).trans (if_pos hm)

theorem masterIsSeq_of_host {h : Nat} (hm : masterHost m = some h) : masterIsSeq m = false := by
  cases m with
  | host => rfl
  | chHost => rfl
  | sq => nomatch hm
  | bl => nomatch hm
  | chSq => nomatch hm

theorem State.pendMask_host {h : Nat} (ha : s.masterActs m = true) (hm : masterHost m = some h) : s.pendMask m k = if k < 4 then BitVec.allOnes 64 else 0 := by
  unfold State.pendMask
  rw [if_neg (by rw [ha]; exact Bool.noConfusion), if_neg (by rw [masterIsSeq_of_host hm]; exact Bool.noConfusion), hm]
  simp

theorem State.pendMask_none {h : Nat} (hn : s.masterActs m = false ∨ (masterHost m = some h ∧ 4 ≤ k)) : s.pendMask m k = 0 := by
  cases ha : s.masterActs m with
  | false => exact if_pos ha
  | true =>
    obtain ⟨hm, hk⟩ := hn.resolve_left (by rw [ha]; exact Bool.noConfusion)
    exact (State.pendMask_host ha hm).trans (if_neg (Nat.not_lt.mpr hk))

end Masks

theorem State.ownsTarget_iff (s : State) (m : Master) (t : Nat) : s.ownsTarget m t = true ↔ s.masterActs m = true ∧ (masterIsSeq m = true ∨ masterHost m = some (t / 8)) := by
  simp [State.ownsTarget]

/-- Settles O28: the set and clear words, the threshold and the split. -/
theorem eventRegisters : Obligations.EventRegisters := by
  refine ⟨fun s m t k v => ?words, fun s m t v p => ?thresh⟩
  case thresh =>
    have hno (b : Bool) (h : b = false) : ¬ b = true := by rw [h]; exact Bool.noConfusion
    exact ⟨fun h => congrArg Host.Outcome.next (if_pos h), fun h => congrArg Host.Outcome.next (if_neg (hno _ h)),
      fun h => congrArg Host.Outcome.next (if_pos h), fun h => congrArg Host.Outcome.next (if_neg (hno _ h))⟩
  case words =>
    intro inWord pend clear icx
    have hset : exec (.evcSetpend m k v) s = .next (icx (v &&& s.pendMask m k.val) (pend (v &&& s.pendMask m k.val))).evcCycle := rfl
    have hclr : exec (.evcClrpend m k v) s = .next (clear (v &&& s.pendMask m k.val)).evcCycle := rfl
    refine ⟨fun ha hm => ?_, fun h ha hm hk => ?_, fun h hn hs => ?_, fun ha hm => ?_, fun hn => ?_⟩
    · rw [hset, hclr, State.pendMask_seq ha hm]
      exact ⟨rfl, rfl⟩
    · rw [hset, hclr, State.pendMask_host ha hm, if_pos hk, BitVec.and_allOnes]
      exact ⟨rfl, rfl⟩
    · rw [hset, hclr, State.pendMask_none hn]
      have hz : v &&& (0 : W) = 0 := BitVec.and_zero
      have hnone : (List.range 64).filter (fun _ => false) = [] := List.filter_eq_nil_iff.mpr (fun _ _ h => Bool.noConfusion h)
      have hnoBits : icx (0 : W) = id := by
        funext u
        simp only [icx, bitsOf, BitVec.ofNat_eq_ofNat, BitVec.getLsbD_zero, hnone, List.foldl_nil, id_eq]
      have hor : s.rd (aPend k.val) ||| (0 : W) = s.rd (aPend k.val) := BitVec.or_zero
      have hand : s.rd (aPend k.val) &&& ~~~(0 : W) = s.rd (aPend k.val) := BitVec.and_allOnes
      rw [hz, hnoBits]
      simp only [pend, clear, hor, hand, s.wr_rd hs.regs, id_eq, and_self]
    · have ho := (s.ownsTarget_iff m t.val).mpr ⟨ha, hm⟩
      have hv : (if k.val = 15 then v &&& 0x3FFFFFFFFFFFFFFF#64 else v) = v &&& inWord := by
        simp only [inWord]
        split
        · rfl
        · exact BitVec.and_allOnes.symm
      exact ⟨congrArg Host.Outcome.next ((if_pos ho).trans (by rw [hv])), congrArg Host.Outcome.next (if_pos ho)⟩
    · have ho : ¬ s.ownsTarget m t.val = true := fun ho => by
        obtain ⟨ha, hm⟩ := (s.ownsTarget_iff m t.val).mp ho
        obtain ⟨hseq, hhost⟩ := hn.resolve_left (by rw [ha]; exact Bool.noConfusion)
        exact hm.elim (by rw [hseq]; exact Bool.noConfusion) hhost
      exact ⟨congrArg Host.Outcome.next (if_neg ho), congrArg Host.Outcome.next (if_neg ho)⟩

end Sys2Proof.Machine
end


section
/-! SUPPORT. Tiles that idle, sleep and wake; relays of a spread; broadcasts of the image: O31, O23 and O47. -/
namespace Sys2Proof.Machine

-- Tiles.

/-- MINST reads as written, and the tile's state stays. -/
theorem State.minst_p {s : State} (hs : s.regsOk) (t : Nat) (v : BitVec 2) :
    (s.p (aPmTile t) PM_TILE.MINST v.toNat).minst t = min 2 v.toNat ∧ (s.p (aPmTile t) PM_TILE.MINST v.toNat).pst t = s.pst t := by
  refine ⟨congrArg (min 2) ((State.g_p s _ PM_TILE.MINST _ hs (by decide)).trans (Nat.mod_eq_of_lt v.isLt)), State.g_p_other s _ PM_TILE.MINST PM_TILE.ST _ hs (by decide)⟩

theorem State.pst_setAgent (s : State) (t t' : Nat) (a : Agent) : (s.setAgent t a).pst t' = s.pst t' := rfl
theorem State.minst_setAgent (s : State) (t t' : Nat) (a : Agent) : (s.setAgent t a).minst t' = s.minst t' := rfl

/-- A write of MINST by a master with the right. -/
theorem State.minstWrite_eq {s : State} (hs : s.regsOk) (t : Nat) (v : BitVec 2) : s.minstWrite t v.toNat =
    let x := s.p (aPmTile t) PM_TILE.MINST v.toNat
    let x := if s.minst t ≠ 2 ∧ min 2 v.toNat = 2 then x.setAgent t { s.agent t with idleAt := s.cyc } else x
    if (s.pst t = stIdle ∨ s.pst t = stSleep) ∧ min 2 v.toNat < s.pst t then x.wake t true else x := by
  obtain ⟨hm, hp⟩ := State.minst_p hs t v
  unfold State.minstWrite
  dsimp only
  rw [hm]
  split
  · rw [State.pst_setAgent, State.minst_setAgent, hp, hm]
    rfl
  · rw [hp, hm]

/-- Settles O31: IDLE, SLEEP, the end of a wake, and the writes of MINST. -/
theorem tilesIdleSleepAndWake : Obligations.TilesIdleSleepAndWake := by
  intro s t m v i a slept awake
  have hwrite (hr : s.sqRight m = true) : exec (.minstWrite m t v) s = .next (s.minstWrite i v.toNat) := congrArg Host.Outcome.next (if_pos hr)
  refine ⟨fun h1 h2 h3 => congrArg Host.Outcome.next (if_pos ⟨h1, h2, h3⟩), fun h1 h2 => congrArg Host.Outcome.next (if_neg ?busy),
    fun h1 h2 h3 h4 => ⟨fun he hl => congrArg Host.Outcome.next ((if_pos ⟨h1, h2, h3, h4⟩).trans (if_pos ?sleeps)),
      fun hne => congrArg Host.Outcome.next ((if_pos ⟨h1, h2, h3, h4⟩).trans (if_neg ?held))⟩,
    fun h1 h2 => congrArg Host.Outcome.next (if_pos ⟨h1, h2⟩), fun hs hr h1 h2 => (hwrite hr).trans ?stays, fun hs hr h1 h2 hv => (hwrite hr).trans ?counts,
    fun hs hr h1 h2 hv => (hwrite hr).trans ?wakes, fun h => congrArg Host.Outcome.next (if_neg (by rw [h]; exact Bool.noConfusion))⟩
  case busy =>
    rintro ⟨-, h3, h4⟩
    rcases h2 with h2 | h2
    · exact absurd (h2 ▸ h3) (by decide)
    · exact Bool.noConfusion (h2.symm.trans h4)
  case sleeps =>
    have he' : (s.agent t.val).edge = [] := he
    have hl' : (s.agent t.val).level = [] := hl
    rw [he', hl']
    rfl
  case held =>
    rw [Bool.and_eq_true, List.isEmpty_iff, List.isEmpty_iff]
    rintro ⟨he, hl⟩
    exact hne.elim (fun h => h he) (fun h => h hl)
  case stays => rw [State.minstWrite_eq hs.regs, if_neg (fun h => by rw [h1] at h; exact absurd h.1 (by decide)), if_neg (fun h => h.1 h2)]
  case counts =>
    have hv2 : min 2 v.toNat = 2 := by rcases hv with rfl | rfl <;> rfl
    rw [State.minstWrite_eq hs.regs, if_neg (fun h => by rw [h1] at h; exact absurd h.1 (by decide)), if_pos ⟨h2, hv2⟩]
  case wakes =>
    have hv2 : min 2 v.toNat < 2 := by rcases hv with rfl | rfl <;> decide
    rw [State.minstWrite_eq hs.regs, if_pos ⟨.inr h1, by rw [h1]; exact hv2⟩, if_neg (fun h => h.1 h2)]

-- Relays.

/-- Settles O23: answers with counts and without, and the end of the wait. -/
theorem relaysCombine : Obligations.RelaysCombine := by
  intro s t src tag r p rest a bears taken counts add
  refine ⟨fun hs hx => ?answers, fun x hx n hn => ?fails, fun h => congrArg Host.Outcome.next (if_pos h)⟩
  case answers =>
    have hag : (s.setAgent t.val { s.agent t.val with crsps := rest }).agent t.val = { s.agent t.val with crsps := rest } := State.agent_setAgent s t.val _ hs
    have hans : exec (.relayAnswer t tag src r) s = .next (
        if a.spreads.any (awaits tag src.val) then
          if hasCounts r then (taken.setAgent t.val { a with crsps := rest, spreads := replaceFirst (awaits tag src.val) add a.spreads }).endSpreads t.val
          else ((taken.pb (aAgstat t.val) TL_AGSTAT.RELFLT true).setAgent t.val
            { a with crsps := rest, spreads := replaceFirst (awaits tag src.val) (fun x => x.relayFails src.val) a.spreads }).endSpreads t.val
        else taken) := by
      refine congrArg Host.Outcome.next ?_
      unfold State.relayAnswer
      dsimp only
      rw [hx]
      dsimp only
      rw [hag]
    rw [hans]
    have hcounts : hasCounts r = true ↔ r.lenm1 = 15 ∧ r.data ≠ [] := by simp [hasCounts]
    refine ⟨fun h => congrArg Host.Outcome.next (if_neg (by rw [h]; exact Bool.noConfusion)), fun h hc => congrArg Host.Outcome.next ((if_pos h).trans (if_pos (hcounts.mpr hc))),
      fun h hc => congrArg Host.Outcome.next ((if_pos h).trans (if_neg (mt hcounts.mp hc)))⟩
  case fails =>
    unfold Spread.relayFails
    rw [hn]
    refine ⟨rfl, rfl, rfl, ?_⟩
    change bitOf (x.bits ||| (0x1000#32 &&& 0x1F00#32)) 12 = true
    simp [bitOf]


-- Frames on the chain.

/-- Between the two states only the chain's ports differ. -/
def PortsOnly (s t : State) : Prop := t = { s with chn := { s.chn with ports := t.chn.ports } }

theorem PortsOnly.refl (s : State) : PortsOnly s s := rfl
theorem PortsOnly.trans {s t u : State} (h : PortsOnly s t) (k : PortsOnly t u) : PortsOnly s u := by
  unfold PortsOnly at *
  rw [h] at k
  exact k
theorem PortsOnly.setCport (s : State) (p : Nat) (x : CPort) : PortsOnly s (s.setCport p x) := rfl
theorem PortsOnly.frameTook (s : State) (p : Nat) : PortsOnly s (s.frameTook p) := rfl

theorem PortsOnly.sendFrame (s : State) (p dst src : Nat) (b : FrameBody) : PortsOnly s (s.sendFrame p dst src b) := by
  unfold State.sendFrame
  split
  · exact .refl s
  · exact .setCport s _ _

theorem PortsOnly.foldl {α : Type} {f : State → α → State} (hf : ∀ s a, PortsOnly s (f s a)) (l : List α) (s : State) : PortsOnly s (l.foldl f s) := by
  induction l generalizing s with
  | nil => exact .refl s
  | cons a l ih => exact (hf s a).trans (ih _)

theorem PortsOnly.toChildren (s : State) (src : Nat) (b : FrameBody) : PortsOnly s (s.toChildren src b) :=
  .foldl (fun _ _ => .sendFrame _ _ _ _ _) _ s

section
variable {s t : State} (h : PortsOnly s t)
include h
theorem PortsOnly.boot : t.boot = s.boot := by rw [h]
theorem PortsOnly.rd (o : Nat) : t.rd o = s.rd o := by rw [h]; rfl
theorem PortsOnly.reload : t.chn.reload = s.chn.reload := by rw [h]
theorem PortsOnly.takesQdata : t.takesQdata = s.takesQdata := by rw [h]; rfl
end

/-- The chain boot has failed: what BOOT_STAT says. -/
theorem State.chainFails_reads {s : State} (hs : s.regsOk) : ((s.setRes false rsChain).bootFailed).bootState = bsFailed ∧
    ((s.setRes false rsChain).bootFailed).g aBootStat BOOT_STAT.RESA = rsChain := by
  have hkeep (x : State) : x.bootEvent.rd aBootStat = x.rd aBootStat := by
    unfold State.bootEvent
    dsimp only
    split
    · exact (Starts.raiseBasalt x 1000).rd aBootStat aBootStat_not_inChain
    · rfl
  have hg (f : Fd) (x : State) : x.bootFailed.g aBootStat f = (x.setBootState bsFailed).g aBootStat f := congrArg (fun v => fld v f.lo f.w) (hkeep _)
  have hok := State.regsOk_p hs aBootStat BOOT_STAT.RESA rsChain
  refine ⟨(hg BOOT_STAT.STATE _).trans ((State.g_p _ _ BOOT_STAT.STATE _ hok (by decide)).trans (by decide)), (hg BOOT_STAT.RESA _).trans ?_⟩
  exact (State.g_p_other _ _ BOOT_STAT.STATE BOOT_STAT.RESA _ hok (by decide)).trans ((State.g_p _ _ BOOT_STAT.RESA _ hs (by decide)).trans (by decide))

/-- Settles O47: the three frames of a broadcast, and their absence. -/
theorem imageBroadcasts : Obligations.ImageBroadcasts := by
  intro s p hdr off bytes slot imglen
  have no {b : Bool} (h : b = false) : ¬ b = true := by rw [h]; exact Bool.noConfusion
  refine ⟨fun ht => ?qreq, fun ht => ?down, fun h => congrArg Host.Outcome.next (if_pos h), fun h hq => congrArg Host.Outcome.next ?again,
    fun h hq hr => congrArg Host.Outcome.next ?reload, fun h hq hr hs => ⟨_, congrArg Host.Outcome.next ?ends, State.chainFails_reads hs⟩⟩
  case qreq =>
    intro s1
    have hx : exec (.qreq p hdr) s = .next (s1.qreqIn hdr) := congrArg Host.Outcome.next (takeFrame_takes (k := ⟨hdr, .qreq⟩) ht _)
    exact ⟨fun h => hx.trans (congrArg Host.Outcome.next (if_pos h)), fun h => hx.trans (congrArg Host.Outcome.next (if_neg (no h)))⟩
  case down =>
    intro s1 s2 s3
    have hd : exec (.qdata hdr off bytes) s = .next (s1.qdataIn hdr off.toNat bytes) := congrArg Host.Outcome.next (takeFrame_takes (k := ⟨hdr, .qdata off bytes⟩) ht _)
    have he : exec (.qend hdr slot imglen) s = .next (s1.qendIn hdr slot imglen) := congrArg Host.Outcome.next (takeFrame_takes (k := ⟨hdr, .qend slot imglen⟩) ht _)
    have h2 : PortsOnly s s2 := (PortsOnly.frameTook s 0).trans (.toChildren s1 _ _)
    have h3 : PortsOnly s s3 := (PortsOnly.frameTook s 0).trans (.toChildren s1 _ _)
    have hdata (hl : bytes.length = 64) : s1.qdataIn hdr off.toNat bytes =
        if s2.takesQdata then { s2 with boot := { s2.boot with image := (off.toNat, bytes) :: s2.boot.image.filter (fun x => x.1 != off.toNat) } } else s2 := by
      unfold State.qdataIn
      rw [if_neg (Classical.not_not.mpr hl), BitVec.ofNat_toNat, BitVec.setWidth_eq]
    have hend : s1.qendIn hdr slot imglen = if s3.takesQdata = false then s3 else if imageWhole s3.boot.image = false then { s3 with boot := { s3.boot with image := [] } }
        else if s3.chn.reload then s3.chainReload else s3.chainImage (bitOf slot 0) := rfl
    rw [h3.takesQdata, h3.boot, h3.reload] at hend
    rw [h2.takesQdata] at hdata
    have takes {b : Bool} (hb : b = true) : ¬ b = false := by rw [hb]; exact Bool.noConfusion
    have waits (hw : s.bootState = bsChainwait) : s.takesQdata = true := by simp [State.takesQdata, hw]
    have reloads (hr : s.chn.reload = true) : s.takesQdata = true := by simp [State.takesQdata, hr]
    refine ⟨fun hl h => hd.trans (congrArg Host.Outcome.next ((hdata hl).trans (if_neg (no h)))), fun hl h => hd.trans (congrArg Host.Outcome.next ((hdata hl).trans (if_pos h))),
      fun hl => hd.trans (congrArg Host.Outcome.next (if_pos hl)), fun h => he.trans (congrArg Host.Outcome.next (hend.trans (if_pos h))),
      fun h hi => he.trans (congrArg Host.Outcome.next (hend.trans ((if_neg (takes h)).trans ((if_pos hi).trans ?_)))),
      fun hr hw hi => he.trans (congrArg Host.Outcome.next (hend.trans ((if_neg (takes (waits hw))).trans ((if_neg (takes hi)).trans (if_neg (no hr)))))),
      fun hr hi => he.trans (congrArg Host.Outcome.next (hend.trans ((if_neg (takes (reloads hr))).trans ((if_neg (takes hi)).trans (if_pos hr)))))⟩
    rw [h3.boot]
  all_goals have ht : ¬ s.takesQdata = false := by rw [h]; exact Bool.noConfusion
  case again => exact (if_neg ht).trans (if_pos hq)
  case reload => exact (if_neg ht).trans ((if_neg (Nat.not_lt.mpr hq)).trans (if_pos hr))
  case ends => exact (if_neg ht).trans ((if_neg (Nat.not_lt.mpr hq)).trans (if_neg (no hr)))

end Sys2Proof.Machine
end


section
/-! SUPPORT. HOLD in a state whose table of agents is not in canonical form: O22. -/
namespace Sys2Proof.Machine

/-- The CTL of a HOLD of one tick. -/
def holdCtl : Pkt := { Tests.ctl 0x40 [1] with tag := 7 }

/-- Tile 5 is listed twice: first with the HOLD at the head of its queue and no note of its receipt, and once more with a note of tick 9. No canonical table lists a key twice. -/
def agentListedTwice : State :=
  { Tests.up with agents := [(5, { Agent.reset with rx := [holdCtl] }), (5, { Agent.reset with holdAt := [(holdCtl.src, holdCtl.tag, 9)] })] }

theorem agentListedTwice_takes : agentListedTwice.agentTakes 5 holdCtl [] := ⟨by decide +kernel, by decide, by decide +kernel⟩

/-- The tick in which the hold of tile 5 ends. -/
def holdEndsAt : Res → Option Nat
  | .next u => (u.agent 5).holdEnd
  | _ => none

/-- Without its queue the first entry is as at reset, and is no longer listed: the agent then reads the note of the second one. -/
theorem hold_listedTwice : holdEndsAt (exec (.hold 5) agentListedTwice) = some 10 := by decide +kernel

/-- Refutes O22: where HOLD is given, no clause asks for the canonical form. With tile 5 listed twice, HOLD counts from the note that the second entry bears, tick 9, and the statement counts from the present tick, 0. -/
theorem not_snapshotsResetsAndHolds : ¬ Obligations.SnapshotsResetsAndHolds := by
  intro h
  obtain ⟨functions, -⟩ := h agentListedTwice 5 holdCtl []
  obtain ⟨-, -, -, -, -, -, hold, -⟩ := functions agentListedTwice_takes
  have hends := congrArg holdEndsAt (hold (by decide) (by decide +kernel))
  rw [hold_listedTwice] at hends
  exact absurd hends (by decide +kernel)

end Sys2Proof.Machine
end


section
/-! SUPPORT. Writes of a table that follow one another; the responses at an initiator: O52. -/
namespace Sys2Proof.Machine

theorem tins_tins {α : Type} (t : Tab α) (k : Nat) (a b : α) : tins (tins t k a) k b = tins t k b := by
  induction t with
  | nil => simp [tins]
  | cons y t ih =>
    obtain ⟨j, v⟩ := y
    by_cases h : k < j
    · simp [tins, h]
    · by_cases e : k = j
      · simp [tins, e]
      · simp [tins, h, e, ih]

theorem terase_tins {α : Type} (t : Tab α) (k : Nat) (a : α) : terase (tins t k a) k = terase t k := by
  induction t with
  | nil => simp [tins, terase]
  | cons y t ih =>
    obtain ⟨j, v⟩ := y
    by_cases h : k < j
    · simp [tins, terase, h, (Nat.ne_of_lt h).symm]
    · by_cases e : k = j
      · simp [tins, terase, e]
      · simp [tins, terase, h, e, Ne.symm e, ih]

theorem terase_above {α : Type} [DecidableEq α] {d : Nat → α} {t : Tab α} {b k : Nat} (ht : Tab.okAbove d b t = true) (h : k < b) : terase t k = t := by
  cases t with
  | nil => rfl
  | cons y t =>
    obtain ⟨j, v⟩ := y
    simp only [Tab.okAbove, Bool.and_eq_true, decide_eq_true_eq] at ht
    obtain ⟨⟨hj, -⟩, -⟩ := ht
    rw [terase, if_neg (by omega), if_pos (by omega)]

theorem tins_above {α : Type} [DecidableEq α] {d : Nat → α} {t : Tab α} {b k : Nat} (ht : Tab.okAbove d b t = true) (h : k < b) (v : α) : tins t k v = (k, v) :: t := by
  cases t with
  | nil => rfl
  | cons y t =>
    obtain ⟨j, x⟩ := y
    simp only [Tab.okAbove, Bool.and_eq_true, decide_eq_true_eq] at ht
    obtain ⟨⟨hj, -⟩, -⟩ := ht
    rw [tins, if_pos (by omega)]

theorem terase_terase {α : Type} [DecidableEq α] {d : Nat → α} {t : Tab α} {b : Nat} (ht : Tab.okAbove d b t = true) (k : Nat) : terase (terase t k) k = terase t k := by
  induction t generalizing b with
  | nil => rfl
  | cons y t ih =>
    obtain ⟨j, v⟩ := y
    simp only [Tab.okAbove, Bool.and_eq_true, decide_eq_true_eq] at ht
    obtain ⟨-, hrest⟩ := ht
    by_cases e : j = k
    · rw [terase, if_pos e]
      exact terase_above hrest (by omega)
    · by_cases h : k < j
      · simp [terase, e, h]
      · simp [terase, e, h, ih hrest]

theorem tins_terase {α : Type} [DecidableEq α] {d : Nat → α} {t : Tab α} {b : Nat} (ht : Tab.okAbove d b t = true) (k : Nat) (v : α) : tins (terase t k) k v = tins t k v := by
  induction t generalizing b with
  | nil => rfl
  | cons y t ih =>
    obtain ⟨j, x⟩ := y
    simp only [Tab.okAbove, Bool.and_eq_true, decide_eq_true_eq] at ht
    obtain ⟨-, hrest⟩ := ht
    by_cases e : j = k
    · rw [terase, if_pos e, tins_above hrest (by omega), tins, if_neg (by omega), if_pos e.symm]
    · by_cases h : k < j
      · simp [terase, e, h]
      · simp [terase, tins, e, h, Ne.symm e, ih hrest]

/-- The later of two writes of a key counts. -/
theorem tput_tput {α : Type} [DecidableEq α] {d : Nat → α} {t : Tab α} (ht : t.wf d = true) (k : Nat) (a b : α) : tput (d k) (tput (d k) t k a) k b = tput (d k) t k b := by
  unfold tput
  by_cases ha : a = d k
  · by_cases hb : b = d k
    · rw [if_pos hb, if_pos ha, if_pos hb]
      exact terase_terase ht k
    · rw [if_neg hb, if_pos ha, if_neg hb]
      exact tins_terase ht k b
  · by_cases hb : b = d k
    · rw [if_pos hb, if_neg ha, if_pos hb]
      exact terase_tins t k a
    · rw [if_neg hb, if_neg ha, if_neg hb]
      exact tins_tins t k a b

section Twice
variable {s : State} (hs : s.canon)
include hs

theorem State.setNi_setNi (t p : Nat) (x y : Ni) : (s.setNi t p x).setNi t p y = s.setNi t p y :=
  congrArg (fun l => ({ s with nis := l } : State)) (tput_tput (d := fun _ => Ni.reset) hs.nis _ x y)

end Twice

-- Responses at an initiator.

section Resp
variable {s : State} {t p : Nat}

theorem State.respIn_other {k : Pkt} {rest : List Pkt} (hr : (s.ni t p).rx = k :: rest) {want : Pkt → Bool} (hw : want k = false) : s.respIn t p want = s := by
  unfold State.respIn State.takeRx
  rw [hr]
  dsimp only
  rw [hw]
  split <;> rfl

theorem State.respIn_takes {k : Pkt} {rest : List Pkt} (hk : s.kind t p = .initiator) (hr : (s.ni t p).rx = k :: rest) {want : Pkt → Bool} (hw : want k = true) :
    s.respIn t p want = (s.setNi t p { s.ni t p with rx := rest }).niResponse t p k := by
  unfold State.respIn State.takeRx
  rw [if_neg (Classical.not_not.mpr hk), hr]
  dsimp only
  rw [if_pos hw]

/-- A response ends the request of its TAG, or is only counted. -/
theorem State.niResponse_eq (hs : s.canon) (k : Pkt) (rest : List Pkt) : (s.setNi t p { s.ni t p with rx := rest }).niResponse t p k =
    match extract (fun (o : NiOut) => o.tag == k.tag) (s.ni t p).outs with
    | some (o, outs) =>
      if o.lost then ((s.setNi t p { s.ni t p with rx := rest, outs := outs }).puDown (puIndex t p) o.stratum).late t p
      else s.setNi t p { s.ni t p with rx := rest, outs := outs, sresp := (s.ni t p).sresp ++ [⟨o.mtag, respRead k.resp, if respRead k.resp = Resp.OK then k.data else [], true, true, true, some o.stratum⟩] }
    | none => (s.setNi t p { s.ni t p with rx := rest, held := (s.ni t p).held.filter (fun h => h.1 != k.tag), abandoned := (s.ni t p).abandoned.filter (fun a => a.1 != k.tag) }).late t p := by
  unfold State.niResponse
  dsimp only
  rw [State.ni_setNi s t p _ hs]
  dsimp only
  simp only [State.setNi_setNi hs] <;> rfl

end Resp

/-- Settles O52: each response, each end of a timer, and the end of a hold. -/
theorem responsesReachTheMaster : Obligations.ResponsesReachTheMaster := by
  intro s t p k rest tag i j n hk hs
  have htimer (h0 : 0 < s.rto i j) : ¬ (s.rto i j = 0 ∨ s.kind i j ≠ .initiator) := fun h => h.elim (by omega) (fun e => e hk)
  refine ⟨fun hr => ?responses, fun o outs h0 hx hl => ?expires, fun o outs h0 hx hl => ?lost, fun a as h0 hx ha => ?abandoned,
    fun h0 => congrArg (fun x : State => Host.Outcome.next x.recheck) (if_pos (.inl h0)), fun h hs' hx => ?holdEnds, fun hx => ?noHold⟩
  case responses =>
    intro cmd other
    have hcmd : exec cmd s = .next ((s.setNi i j { n with rx := rest }).niResponse i j k).recheck ∧ exec other s = .next s.recheck := by
      simp only [cmd, other]
      by_cases hw : k.cmd = Cmd.WACK
      · rw [if_pos hw, if_pos hw]
        exact ⟨congrArg (fun x : State => Host.Outcome.next x.recheck) (State.respIn_takes hk hr (beq_iff_eq.mpr hw)),
          congrArg (fun x : State => Host.Outcome.next x.recheck) (State.respIn_other hr (by simp [hw]))⟩
      · rw [if_neg hw, if_neg hw]
        exact ⟨congrArg (fun x : State => Host.Outcome.next x.recheck) (State.respIn_takes hk hr (bne_iff_ne.mpr hw)),
          congrArg (fun x : State => Host.Outcome.next x.recheck) (State.respIn_other hr (beq_eq_false_iff_ne.mpr hw))⟩
    obtain ⟨htakes, hother⟩ := hcmd
    rw [State.niResponse_eq hs] at htakes
    refine ⟨hother, fun o outs hx => ⟨fun hl => ?_, fun hl => ?_⟩, fun hx => ?_⟩
    · rw [htakes, hx]
      dsimp only
      rw [hl]
      rfl
    · rw [htakes, hx]
      dsimp only
      rw [hl]
      rfl
    · rw [htakes, hx]
  case expires =>
    intro s1
    refine congrArg (fun x : State => Host.Outcome.next x.recheck) ((if_neg (htimer h0)).trans ?_)
    rw [hx]
    dsimp only
    rw [hl]
    rfl
  case lost =>
    intro s1
    refine congrArg (fun x : State => Host.Outcome.next x.recheck) ((if_neg (htimer h0)).trans ?_)
    rw [hx]
    dsimp only
    rw [hl]
    rfl
  case abandoned =>
    intro s1
    refine congrArg (fun x : State => Host.Outcome.next x.recheck) ((if_neg (htimer h0)).trans ?_)
    rw [hx]
    dsimp only
    rw [ha]
  case holdEnds =>
    change (Host.Outcome.next _ : Res) = _
    rw [hx]
  case noHold =>
    change (Host.Outcome.next _ : Res) = _
    rw [hx]

end Sys2Proof.Machine
end


section
/-! SUPPORT. The ports of the hosts: O29. -/
namespace Sys2Proof.Machine

section Ports
variable {s : State}

theorem State.hostAlive_iff (s : State) (h : Nat) : s.hostAlive h = true ↔ (s.host h).low = false ∧ (s.host h).stopped = false ∧ s.hostWaits h = false := by
  simp [State.hostAlive, and_assoc]

/-- A port that takes nothing. -/
theorem State.hostRequest_dead {h : HostId} {r : HReq} (ha : s.hostAlive h.val = false) : exec (.hostRequest h r) s = .next s := congrArg Host.Outcome.next (if_pos ha)

/-- A port that takes the level of HSREADY. -/
theorem State.hostRequest_alive {h : HostId} {r : HReq} (ha : s.hostAlive h.val = true) :
    let s0 := (s.setHost h.val { s.host h.val with hold := !r.ready }).hostFlush h.val
    exec (.hostRequest h r) s = .next (((if r.valid = true ∧ s0.hostReady h.val = true then s0.hostTake h r else s0).hostBeats h.val
      ((List.range r.data.length).map (fun i => (r.data.getD i 0, r.strb.getD i 0)))).recheck) :=
  congrArg Host.Outcome.next (if_neg (by rw [ha]; exact Bool.noConfusion))

-- The round trips that end where a crossing is UP again.

/-- The end of a round trip, as the crossing sees it. -/
def Ct.trips (c : Ct) : Ct := if c.busy then (if c.cnt = 0 then { c with busy := false } else { c with cnt := c.cnt - 1, delivered := c.delivered + 1 }) else c

/-- A pulse crossing of a table of them. -/
def State.ct (s : State) (key : Nat) : Ct := tget ⟨false, 0, 0⟩ s.pm.cts key

/-- Between the two states only the toggle crossings differ. -/
def CtsOnly (s t : State) : Prop := t = { s with pm := { s.pm with cts := t.pm.cts } }

theorem CtsOnly.trans {s t u : State} (h : CtsOnly s t) (k : CtsOnly t u) : CtsOnly s u := by
  unfold CtsOnly at *
  rw [h] at k
  exact k

theorem State.ctTripEnd_facts (hs : Tab.wf (fun _ => (⟨false, 0, 0⟩ : Ct)) s.pm.cts = true) (key : Nat) : CtsOnly s (s.ctTripEnd key) ∧
    Tab.wf (fun _ => (⟨false, 0, 0⟩ : Ct)) (s.ctTripEnd key).pm.cts = true ∧ (∀ k, k ≠ key → (s.ctTripEnd key).ct k = s.ct k) ∧ (s.ctTripEnd key).ct key = (s.ct key).trips := by
  unfold State.ctTripEnd
  dsimp only
  split
  next h =>
    refine ⟨rfl, hs, fun _ _ => rfl, ?_⟩
    unfold Ct.trips State.ct
    rw [h]
    rfl
  next h =>
    refine ⟨rfl, wf_tput (d := fun _ => (⟨false, 0, 0⟩ : Ct)) _ _ hs, fun k hk => tget_tput_ne _ hk, (tget_tput (d := fun _ => (⟨false, 0, 0⟩ : Ct)) _ _ hs).trans ?_⟩
    unfold Ct.trips State.ct
    rw [if_pos (Bool.of_not_eq_false h)]

/-- The round trips of the crossings of a row end. -/
theorem State.tripEnds_facts (h : Nat) {l : List Nat} (hl : l.Nodup) : ∀ {s : State}, Tab.wf (fun _ => (⟨false, 0, 0⟩ : Ct)) s.pm.cts = true →
    CtsOnly s (l.foldl (fun s i => s.ctTripEnd (8 * h + i)) s) ∧
    ∀ key, (l.foldl (fun s i => s.ctTripEnd (8 * h + i)) s).ct key = if ∃ i ∈ l, key = 8 * h + i then (s.ct key).trips else s.ct key := by
  induction l with
  | nil => exact fun _ => ⟨rfl, fun key => by simp⟩
  | cons i l ih =>
    intro s hs
    rw [List.nodup_cons] at hl
    obtain ⟨honly, hwf, hne, hself⟩ := State.ctTripEnd_facts hs (8 * h + i)
    obtain ⟨hrest, hkeys⟩ := ih hl.2 hwf
    refine ⟨honly.trans hrest, fun key => (hkeys key).trans ?_⟩
    by_cases hk : key = 8 * h + i
    · have hno : ¬ ∃ j ∈ l, key = 8 * h + j := by
        rintro ⟨j, hj, e⟩
        obtain rfl : i = j := by omega
        exact hl.1 hj
      rw [if_neg hno, if_pos ⟨i, List.mem_cons_self, hk⟩, hk, hself]
    · have hiff : (∃ j ∈ i :: l, key = 8 * h + j) ↔ ∃ j ∈ l, key = 8 * h + j := by simp [hk]
      simp only [hiff, hne key hk]

theorem State.reconnectHost_facts (hs : s.canon) {h : Nat} (hl : (s.host h).low = false) (hw : (s.host h).waitClear = true) :
    (s.reconnectHost h).host h = { s.host h with waitClear := false } ∧ (s.reconnectHost h).regs = s.regs ∧ (s.reconnectHost h).evc = s.evc ∧
    ∀ key, (s.reconnectHost h).ct key = if key / 8 = h then (s.ct key).trips else s.ct key := by
  obtain ⟨honly, hkeys⟩ := State.tripEnds_facts h List.nodup_range (s := s.setHost h { s.host h with waitClear := false }) hs.pm (l := List.range 8)
  have heq : s.reconnectHost h = (List.range 8).foldl (fun s i => s.ctTripEnd (8 * h + i)) (s.setHost h { s.host h with waitClear := false }) := by
    unfold State.reconnectHost
    rw [hl, hw]
    exact if_neg Bool.noConfusion
  rw [← heq] at honly hkeys
  have hhost := s.host_setHost h { s.host h with waitClear := false } hs
  generalize s.reconnectHost h = u at honly hkeys
  refine ⟨?_, ?_, ?_, fun key => (hkeys key).trans ?_⟩
  · rw [honly]
    exact hhost
  · rw [honly]
    rfl
  · rw [honly]
    rfl
  · have hiff : (∃ i ∈ List.range 8, key = 8 * h + i) ↔ key / 8 = h := by
      simp only [List.mem_range]
      exact ⟨fun ⟨i, hi, e⟩ => by omega, fun e => ⟨key % 8, by omega, by omega⟩⟩
    simp only [hiff]
    rfl

-- The crossbar's part of a reset.

theorem XPort.hostReset_pend (x : XPort) (h : Nat) : ∀ a ∈ (x.hostReset h).pend, a.master ≠ h := by
  have hp : (x.hostReset h).pend = x.pend.filter (fun a => a.master != h) := by
    unfold XPort.hostReset
    dsimp only
    split
    · split
      · rfl
      · split <;> rfl
    · rfl
  intro a ha
  rw [hp] at ha
  simpa using (List.mem_filter.mp ha).2

/-- Between the two states only the ports of the crossbar differ. -/
def XportsOnly (s t : State) : Prop := t = { s with xports := t.xports }

theorem XportsOnly.trans {s t u : State} (h : XportsOnly s t) (k : XportsOnly t u) : XportsOnly s u := by
  unfold XportsOnly at *
  rw [h] at k
  exact k

/-- Every target port up to n has seen the reset of a host. -/
theorem State.resetPorts_facts (h : Nat) {l : List Nat} : ∀ {s : State}, s.canon →
    let u := l.foldl (fun s j => s.setXport j ((s.xport j).hostReset h)) s
    XportsOnly s u ∧ u.canon ∧ ∀ j, (j ∈ l ∨ ∀ a ∈ (s.xport j).pend, a.master ≠ h) → ∀ a ∈ (u.xport j).pend, a.master ≠ h := by
  induction l with
  | nil => exact fun hs => ⟨rfl, hs, fun j hj => hj.resolve_left (List.not_mem_nil)⟩
  | cons i l ih =>
    intro s hs
    have hc : (s.setXport i ((s.xport i).hostReset h)).canon := ((Keeps.refl s).setXport _ _).canon hs
    obtain ⟨honly, hcanon, hpend⟩ := ih hc
    refine ⟨?_, hcanon, fun j hj => hpend j ?_⟩
    · exact XportsOnly.trans (t := s.setXport i ((s.xport i).hostReset h)) rfl honly
    · by_cases hji : j = i
      · right
        rw [hji, State.xport_setXport s i _ hs]
        exact XPort.hostReset_pend _ _
      · have hsame : (s.setXport i ((s.xport i).hostReset h)).xport j = s.xport j := tget_tput_ne _ hji
        rw [hsame]
        exact hj.imp_left (fun hm => (List.mem_cons.mp hm).resolve_left hji)

/-- A host's port after its reset. -/
def XHost.afterReset (x : XHost) : XHost :=
  { x with reqs := [], extra := [], owed := [], xin := 0, low := true, waitClear := true, irqKept := if x.stopped then some 0 else none }

/-- The target ports have seen the reset of a host. -/
def State.resetPorts (s : State) (h : Nat) : State := (List.range 11).foldl (fun s j => s.setXport j ((s.xport j).hostReset h)) s

/-- The counters of a host's reset. -/
def State.resetCounts (s : State) (h n : Nat) : State := (s.sat (aXbHstat h) XB_HSTAT.SUNK n).sat (aXbHstat h) XB_HSTAT.RSTCNT

theorem State.xbHostReset_eq (s : State) (h : Nat) : s.xbHostReset h =
    let u := (s.resetPorts h).resetCounts h ((s.host h).reqs.filter (·.2.isSome)).length
    (if s.hostBusy h then u.raise (972 + h) else u).setHost h (s.host h).afterReset := rfl

theorem State.resetCounts_reads (hs : s.regsOk) (h n : Nat) : (s.resetCounts h n).g (aXbHstat h) XB_HSTAT.RSTCNT = satSum XB_HSTAT.RSTCNT.w (s.g (aXbHstat h) XB_HSTAT.RSTCNT) 1 := by
  unfold State.resetCounts
  have hother : (s.sat (aXbHstat h) XB_HSTAT.SUNK n).g (aXbHstat h) XB_HSTAT.RSTCNT = s.g (aXbHstat h) XB_HSTAT.RSTCNT :=
    State.g_p_other s _ XB_HSTAT.SUNK XB_HSTAT.RSTCNT _ hs (by decide)
  have hok : (s.sat (aXbHstat h) XB_HSTAT.SUNK n).regsOk := State.regsOk_p hs _ _ _
  rw [← hother]
  generalize s.sat (aXbHstat h) XB_HSTAT.SUNK n = x at hok
  refine (State.g_p x _ XB_HSTAT.RSTCNT _ hok (by decide)).trans (Nat.mod_eq_of_lt ?_)
  exact Nat.lt_of_le_of_lt (Nat.min_le_right _ _) (by decide)

/-- What the crossbar's part of a host's reset leaves (R360). -/
theorem State.xbHostReset_facts (hs : s.canon) (h : Nat) : let u := s.xbHostReset h
    (u.host h).reqs = [] ∧ (u.host h).low = true ∧ (u.host h).waitClear = true ∧ u.hostAlive h = false ∧
    (u.host h).owed = [] ∧ (u.host h).extra = [] ∧ (∀ j, j < 11 → ∀ a ∈ (u.xport j).pend, a.master ≠ h) ∧
    u.g (aXbHstat h) XB_HSTAT.RSTCNT = satSum XB_HSTAT.RSTCNT.w (s.g (aXbHstat h) XB_HSTAT.RSTCNT) 1 := by
  obtain ⟨honly, hcanon, hpend⟩ := State.resetPorts_facts h (l := List.range 11) hs
  rw [s.xbHostReset_eq h]
  change XportsOnly s (s.resetPorts h) at honly
  change (s.resetPorts h).canon at hcanon
  change ∀ j, (j ∈ List.range 11 ∨ _) → ∀ a ∈ ((s.resetPorts h).xport j).pend, _ at hpend
  generalize s.resetPorts h = x at honly hcanon hpend
  have hcount := State.resetCounts_reads hcanon.regs h ((s.host h).reqs.filter (·.2.isSome)).length
  dsimp only
  have hu : ∃ u : State, (if s.hostBusy h then (x.resetCounts h ((s.host h).reqs.filter (·.2.isSome)).length).raise (972 + h)
      else x.resetCounts h ((s.host h).reqs.filter (·.2.isSome)).length) = u ∧ u.hosts = s.hosts ∧ u.xports = x.xports ∧
      u.g (aXbHstat h) XB_HSTAT.RSTCNT = satSum XB_HSTAT.RSTCNT.w (s.g (aXbHstat h) XB_HSTAT.RSTCNT) 1 := by
    have hg : x.g (aXbHstat h) XB_HSTAT.RSTCNT = s.g (aXbHstat h) XB_HSTAT.RSTCNT := by
      rw [honly]
      rfl
    have hhosts : x.hosts = s.hosts := by rw [honly]
    rw [hg] at hcount
    split
    · exact ⟨_, rfl, hhosts, rfl, hcount⟩
    · exact ⟨_, rfl, hhosts, rfl, hcount⟩
  obtain ⟨u, hif, hhosts, hxports, hg⟩ := hu
  rw [hif]
  have hhost : (u.setHost h (s.host h).afterReset).host h = (s.host h).afterReset := tget_tput (d := fun _ => XHost.reset) _ _ (by rw [hhosts]; exact hs.hosts)
  refine ⟨by rw [hhost]; rfl, by rw [hhost]; rfl, by rw [hhost]; rfl, ?_, by rw [hhost]; rfl, by rw [hhost]; rfl, fun j hj a ha => ?_, hg⟩
  · unfold State.hostAlive
    rw [hhost]
    rfl
  · have hx : (u.setHost h (s.host h).afterReset).xport j = x.xport j := congrArg (fun t => tget XPort.reset t j) hxports
    rw [hx] at ha
    exact hpend j (.inl (List.mem_range.mpr hj)) a ha

end Ports

/-- Settles O29: a host's request, and the reset, the release and the reconnection of its port. -/
theorem hostPorts : Obligations.HostPorts := by
  refine ⟨fun s h r => ?request, fun s h => ?resets⟩
  case request =>
    intro i s0 beats
    refine ⟨fun ha hv hr => ?_, fun ha hno => ?_, fun hdead => ?_, fun hrun => ?_⟩
    · rw [State.hostRequest_alive ha, if_pos ⟨hv, hr⟩]
      rfl
    · rw [State.hostRequest_alive ha, if_neg]
      rintro ⟨hv, hr⟩
      rcases hno with h1 | h1
      · exact Bool.noConfusion (h1.symm.trans hv)
      · exact Bool.noConfusion (h1.symm.trans hr)
    · refine State.hostRequest_dead (Bool.eq_false_iff.mpr fun ha => ?_)
      obtain ⟨h1, h2, h3⟩ := (s.hostAlive_iff i).mp ha
      rcases hdead with hd | hd | hd
      · exact Bool.noConfusion (hd.symm.trans h1)
      · exact Bool.noConfusion (hd.symm.trans h3)
      · exact Bool.noConfusion (hd.symm.trans h2)
    · unfold State.hostReady State.hostRoom
      rw [if_pos hrun]
      simp
  case resets =>
    have low {b : Bool} (hb : b = false) : ¬ b = true := by rw [hb]; exact Bool.noConfusion
    refine ⟨fun hl => congrArg Host.Outcome.next (if_neg (low hl)),
      fun hl => ⟨congrArg Host.Outcome.next (if_pos hl), congrArg Host.Outcome.next (if_pos hl), congrArg Host.Outcome.next (if_pos (by rw [hl]; rfl))⟩,
      fun hl => ⟨congrArg Host.Outcome.next (if_neg (low hl)), fun hw => congrArg Host.Outcome.next (if_pos (by rw [hw, Bool.not_false, Bool.or_true])), fun hs hw => ⟨_, rfl, ?_⟩⟩,
      fun hs => State.xbHostReset_facts hs h.val⟩
    obtain ⟨hhost, hregs, hevc, hcts⟩ := State.reconnectHost_facts hs hl hw
    refine ⟨hhost, hregs, hevc, fun key => ?_⟩
    intro c
    refine (hcts key).trans ?_
    unfold Ct.trips
    by_cases hk : key / 8 = h.val
    · by_cases hb : (s.ct key).busy = true
      · rw [if_pos hk, if_pos hb]
        exact (if_pos ⟨hk, hb⟩).symm
      · rw [if_pos hk, if_neg hb]
        exact (if_neg fun e => hb e.2).symm
    · rw [if_neg hk]
      exact (if_neg fun e => hk e.1).symm

end Sys2Proof.Machine
end


section
/-! SUPPORT. Training, acknowledgement and replay of a chain port: O43. -/
namespace Sys2Proof.Machine

section Ports
variable {s : State} {p : Nat}

theorem State.setCport_setCport (s : State) (p : Nat) (x y : CPort) : (s.setCport p x).setCport p y = s.setCport p y :=
  congrArg (fun v => ({ s with chn := { s.chn with ports := v } } : State)) (Vector.setIfInBounds_setIfInBounds ..)

theorem State.cport_setCpState (s : State) (p q n : Nat) : (s.setCpState p n).cport q = s.cport q := rfl

theorem aChnPort_ne_aChnId (p : Nat) : aChnPort p ≠ aChnId := by unfold aChnPort aChnId; omega
theorem aChnErr_ne_aChnPort {p : Nat} (hp : p < 3) : aChnErr ≠ aChnPort p := by unfold aChnErr aChnPort; omega

theorem State.member_setCpState (s : State) (p n : Nat) : (s.setCpState p n).g aChnId CHN_ID.MEMBER = s.g aChnId CHN_ID.MEMBER := s.g_p_ne _ _ _ (aChnPort_ne_aChnId p).symm

theorem State.cpState_setCpState (hs : s.regsOk) (p : Nat) {n : Nat} (hn : n < 8) : (s.setCpState p n).cpState p = n :=
  (State.g_p s _ CHN_PORT.STATE n hs (by decide)).trans (Nat.mod_eq_of_lt hn)

/-- A count of bad frames leaves the port's state. -/
theorem State.cpIsUp_sat (hp : p < 3) (f : Fd) : (s.sat aChnErr f).cpIsUp p = s.cpIsUp p := by
  unfold State.cpIsUp
  exact congrArg (· == cpUp) (State.g_p_ne _ _ _ _ (aChnErr_ne_aChnPort hp).symm)

theorem State.cpIsUp_iff (s : State) (p : Nat) : s.cpIsUp p = true ↔ s.cpState p = 2 := beq_iff_eq

theorem State.cpIsUp_false {n : Nat} (h : s.cpState p = n) (hn : n ≠ 2) : s.cpIsUp p = false := by
  rw [Bool.eq_false_iff]
  exact fun e => hn (h.symm.trans ((s.cpIsUp_iff p).mp e))

/-- The TRAIN frame of a port with n good ones in a row. -/
def State.trainFrame (s : State) (p n : Nat) : Frame := ⟨{}, .train (decide (p ≠ 0)) (decide (16 ≤ n)) (BitVec.ofNat 16 (s.g aChnId CHN_ID.MEMBER))⟩

theorem State.sendTrain_eq (s : State) (p : Nat) : s.sendTrain p = s.setCport p { s.cport p with out := (s.cport p).out ++ [s.trainFrame p (s.cport p).goodTrain] } := rfl

/-- A port in TRAINING has taken one more good TRAIN frame, and sends its own. -/
def State.trained (s : State) (p : Nat) (rxok : Bool) (x : CPort) : State :=
  (s.setCpState p 1).setCport p { x with goodTrain := min 16 (x.goodTrain + 1), peerOk := rxok, out := x.out ++ [s.trainFrame p (min 16 (x.goodTrain + 1))] }

/-- One good TRAIN frame of the expected role, at a port that takes it. -/
theorem State.trainStep_eq (hp : p < 3) (rxok : Bool) :
    (let u := s.setCpState p cpTraining
     let x := u.cport p
     let t := (u.setCport p { x with goodTrain := min 16 (x.goodTrain + 1), peerOk := rxok }).sendTrain p
     if 16 ≤ (t.cport p).goodTrain ∧ rxok = true then t.portUp p else t) =
    if 15 ≤ (s.cport p).goodTrain ∧ rxok = true then (s.trained p rxok (s.cport p)).portUp p else s.trained p rxok (s.cport p) := by
  dsimp only
  rw [s.cport_setCpState p p cpTraining]
  have hsend : ((s.setCpState p cpTraining).setCport p { s.cport p with goodTrain := min 16 ((s.cport p).goodTrain + 1), peerOk := rxok }).sendTrain p = s.trained p rxok (s.cport p) := by
    rw [State.sendTrain_eq, State.cport_setCport_self _ _ hp, State.setCport_setCport]
    have hframe (n : Nat) : ((s.setCpState p cpTraining).setCport p { s.cport p with goodTrain := min 16 ((s.cport p).goodTrain + 1), peerOk := rxok }).trainFrame p n = s.trainFrame p n := by
      unfold State.trainFrame
      rw [show ((s.setCpState p cpTraining).setCport p { s.cport p with goodTrain := min 16 ((s.cport p).goodTrain + 1), peerOk := rxok }).g aChnId CHN_ID.MEMBER = s.g aChnId CHN_ID.MEMBER
        from s.member_setCpState p cpTraining]
    rw [hframe]
    rfl
  rw [hsend]
  have hgood : ((s.trained p rxok (s.cport p)).cport p).goodTrain = min 16 ((s.cport p).goodTrain + 1) := by
    unfold State.trained
    rw [State.cport_setCport_self _ _ hp]
  have hiff : 16 ≤ min 16 ((s.cport p).goodTrain + 1) ↔ 15 ≤ (s.cport p).goodTrain := by omega
  rw [hgood]
  simp only [hiff]

theorem State.portUp_state (hs : s.regsOk) : (s.portUp p).cpState p = 2 := by
  have hst := State.cpState_setCpState (s := s.setCport p { s.cport p with txSeq := 0, rxSeq := 0, replay := [], wait := [] }) hs p (n := cpUp) (by decide)
  have hok : ((s.setCport p { s.cport p with txSeq := 0, rxSeq := 0, replay := [], wait := [] }).setCpState p cpUp).regsOk := State.regsOk_p hs _ _ _
  unfold State.portUp
  dsimp only
  generalize (s.setCport p { s.cport p with txSeq := 0, rxSeq := 0, replay := [], wait := [] }).setCpState p cpUp = x at hst hok
  split
  · have hraise (y : State) : (y.raiseChain 1005).cpState p = y.cpState p := by
      unfold State.raiseChain State.wakeMgmt
      split <;> rfl
    exact (hraise _).trans ((State.g_p_other x _ CHN_PORT.LATE CHN_PORT.STATE _ hok (by decide)).trans hst)
  · exact hst

theorem State.portLost_up (h : s.cpIsUp p = true) : s.portLost p = s := if_pos h

/-- What a port that goes DOWN keeps. -/
theorem State.cport_portDown (hp : p < 3) : (s.portDown p).cport p = { s.cport p with replay := [], wait := [], goodTrain := 0, peerOk := false } := by
  have hraise (y : State) (ev : Nat) : (y.raiseChain ev).cport p = y.cport p := by
    unfold State.raiseChain State.wakeMgmt
    split <;> rfl
  exact (hraise _ _).trans (State.cport_setCport_self s _ hp)

theorem State.member_portDown (s : State) (p : Nat) : (s.portDown p).g aChnId CHN_ID.MEMBER = s.g aChnId CHN_ID.MEMBER := by
  have hraise (y : State) (ev : Nat) : (y.raiseChain ev).g aChnId CHN_ID.MEMBER = y.g aChnId CHN_ID.MEMBER := by
    unfold State.raiseChain State.wakeMgmt
    split <;> rfl
  exact (hraise _ _).trans (State.member_setCpState _ p cpDown)

theorem State.trainFrame_portDown (s : State) (p n : Nat) : (s.portDown p).trainFrame p n = s.trainFrame p n := by
  unfold State.trainFrame
  rw [State.member_portDown]

-- What a TRAIN does, by the port's state.

theorem State.trainIn_fault {rxok : Bool} {roleD : Bool} (hu : s.onRootU p = false) (hr : roleD = decide (p ≠ 0)) :
    s.trainIn p roleD rxok = if s.cpState p = cpFault then s else s.portFault p :=
  (if_neg (by rw [hu]; exact Bool.noConfusion)).trans (if_pos hr)

theorem State.trainIn_waits {rxok : Bool} {roleD : Bool} (hu : s.onRootU p = false) (hr : roleD = !decide (p ≠ 0)) (h : (s.cpIsUp p = true ∨ s.cpState p = cpFault) ∧ rxok = true) :
    s.trainIn p roleD rxok = s :=
  (if_neg (by rw [hu]; exact Bool.noConfusion)).trans ((if_neg (by rw [hr]; exact fun h => (Bool.not_eq_self _).mp h)).trans (if_pos h))

theorem State.trainIn_trains {rxok : Bool} {roleD : Bool} (hp : p < 3) (hu : s.onRootU p = false) (hr : roleD = !decide (p ≠ 0))
    (h : ¬ ((s.cpIsUp p = true ∨ s.cpState p = cpFault) ∧ rxok = true)) :
    let u := if s.cpIsUp p then s.portDown p else s
    s.trainIn p roleD rxok = if 15 ≤ (u.cport p).goodTrain ∧ rxok = true then (u.trained p rxok (u.cport p)).portUp p else u.trained p rxok (u.cport p) := by
  intro u
  rw [← State.trainStep_eq hp rxok]
  exact (if_neg (by rw [hu]; exact Bool.noConfusion)).trans ((if_neg (by rw [hr]; exact fun h => (Bool.not_eq_self _).mp h)).trans (if_neg h))

-- What a replay does.

theorem State.replay_none (h : (s.cport p).replay = []) : s.replay p = s := if_pos h

theorem State.replay_down (h : ∃ k ∈ (s.cport p).replay, 8 ≤ k.2) : s.replay p = s.portDown p := by
  obtain ⟨k, hk, h8⟩ := h
  have hany : (s.cport p).replay.any (fun k => decide (8 ≤ k.2)) = true := List.any_eq_true.mpr ⟨k, hk, decide_eq_true h8⟩
  exact (if_neg (List.ne_nil_of_mem hk)).trans (if_pos hany)

theorem State.replay_again (h : (s.cport p).replay ≠ []) (h8 : ∀ k ∈ (s.cport p).replay, k.2 < 8) : s.replay p =
    (s.setCport p { s.cport p with replay := (s.cport p).replay.map (fun k => (k.1, k.2 + 1)), out := (s.cport p).out ++ (s.cport p).replay.map (·.1) }).sat
      (aChnPort p) CHN_PORT.REPLAYS (s.cport p).replay.length := by
  have hany : ¬ (s.cport p).replay.any (fun k => decide (8 ≤ k.2)) = true := fun hany => by
    obtain ⟨k, hk, hd⟩ := List.any_eq_true.mp hany
    exact absurd (h8 k hk) (Nat.not_lt.mpr (of_decide_eq_true hd))
  exact (if_neg h).trans (if_neg hany)

-- What a bad frame does.

theorem State.badFrame_eq {p : ChPort} {bytes : List Byte} (hu : s.onRootU p.val = false) (h : ¬ (crcOk bytes && formOk bytes) = true) : exec (.badFrame p bytes) s =
    .next (let u := s.sat aChnErr (if crcOk bytes then CHN_ERR.BADFRAME else CHN_ERR.CRCERR)
      if ¬ s.cpIsUp p.val then u.setCport p.val { s.cport p.val with goodTrain := 0 }
      else if crcOk bytes then u.setCport p.val { s.cport p.val with rxSeq := (s.cport p.val).rxSeq + 1 } else u.setCport p.val (s.cport p.val).sendNak) := by
  refine congrArg Host.Outcome.next ((if_neg (by rw [hu]; exact Bool.noConfusion)).trans ((if_neg h).trans ?_))
  dsimp only
  rw [State.cpIsUp_sat p.isLt]
  rfl

end Ports

/-- Settles O43: every kind of bare frame, and the three timers of a port. -/
theorem chainPortsTrainAndReplay : Obligations.ChainPortsTrainAndReplay := by
  intro s p hs i x own
  have no {b : Bool} (h : b = false) : ¬ b = true := by rw [h]; exact Bool.noConfusion
  have train (roleD rxok : Bool) (member : BitVec 16) : exec (.train p roleD rxok member) s = .next (((s.trainIn i roleD rxok).portLost i).chainRequest).recheck := rfl
  have thenTrain {u v : State} (h : u = v) : (Host.Outcome.next ((u.portLost i).chainRequest).recheck : Res) = .next ((v.portLost i).chainRequest).recheck := by rw [h]
  refine ⟨fun hu => ⟨fun roleD rxok member hr => ?fault, fun roleD rxok member hr => ⟨fun hst => ?trains, fun hup hrx => ?anew, fun hst hrx => ?waits⟩,
      fun bytes hc hf => ?good, fun hup => ?up, fun hdown => ?down⟩, fun hu sq bytes => ?root, fun hst => ?idle, fun hst => congrArg Host.Outcome.next (if_pos hst), fun hdown => ?rest⟩
  case fault =>
    rw [train, State.trainIn_fault hu hr]
    exact ⟨fun hst => thenTrain (if_neg hst), fun hst => thenTrain (if_pos hst)⟩
  case trains =>
    have hdown : s.cpIsUp i = false := by
      rcases hst with h | h | h
      · exact State.cpIsUp_false h (by decide)
      · exact State.cpIsUp_false h (by decide)
      · exact State.cpIsUp_false h.1 (by decide)
    have hno : ¬ ((s.cpIsUp i = true ∨ s.cpState i = cpFault) ∧ rxok = true) := by
      rintro ⟨h1, h2⟩
      have hf : s.cpState i = 3 := h1.resolve_left (no hdown)
      rcases hst with h | h | h
      · exact absurd (h.symm.trans hf) (by decide)
      · exact absurd (h.symm.trans hf) (by decide)
      · exact absurd (h.2.symm.trans h2) Bool.false_ne_true
    intro n t
    have hin := State.trainIn_trains p.isLt hu hr hno
    dsimp only at hin
    rw [if_neg (no hdown)] at hin
    refine ⟨(train _ _ _).trans (thenTrain hin), State.portUp_state (State.regsOk_p hs.regs _ _ _), State.cpState_setCpState hs.regs i (by decide)⟩
  case anew =>
    intro d
    have hin := State.trainIn_trains p.isLt hu hr (rxok := rxok) (by rw [hrx]; exact fun h => Bool.noConfusion h.2)
    dsimp only at hin
    rw [if_pos hup, hrx, if_neg (fun h => Bool.noConfusion h.2)] at hin
    refine (train _ _ _).trans (thenTrain ?_)
    rw [hrx, hin]
    unfold State.trained
    rw [State.trainFrame_portDown, State.cport_portDown p.isLt]
    rfl
  case waits => exact (train _ _ _).trans (thenTrain (State.trainIn_waits hu hr ⟨hst, hrx⟩))
  case good => exact congrArg Host.Outcome.next ((if_neg (no hu)).trans (if_pos (by rw [hc, hf]; rfl)))
  case up =>
    have hack (sq : BitVec 8) : s.ackIn i sq = s.setCport i (x.acked sq) := (if_neg (no hu)).trans (if_neg (Classical.not_not.mpr hup))
    refine ⟨fun sq => congrArg (fun u : State => Host.Outcome.next u.broadcastGo) (hack sq), fun sq => congrArg Host.Outcome.next ((if_neg (no hu)).trans ((if_neg (Classical.not_not.mpr hup)).trans ?_)),
      congrArg Host.Outcome.next (if_pos hup), fun bytes hc => (State.badFrame_eq hu (by rw [hc]; exact Bool.noConfusion)).trans ?_,
      fun bytes hc hf => (State.badFrame_eq hu (by rw [hc, hf]; exact Bool.noConfusion)).trans ?_, fun hr => congrArg Host.Outcome.next ((if_pos hup).trans ?_),
      fun hr h8 => congrArg Host.Outcome.next ((if_pos hup).trans ?_), fun h8 => congrArg Host.Outcome.next ((if_pos hup).trans (Eq.trans ?_ (if_pos (.inl hup)).symm))⟩
    · rw [show s.ackIn p.val (sq - 1) = s.setCport i (x.acked (sq - 1)) from hack _]
    · rw [hc]
      exact congrArg Host.Outcome.next ((if_neg (Classical.not_not.mpr hup)).trans (if_neg Bool.noConfusion))
    · rw [hc]
      exact congrArg Host.Outcome.next ((if_neg (Classical.not_not.mpr hup)).trans (if_pos rfl))
    · rw [State.replay_none hr, State.portLost_up hup]
    · rw [State.replay_again hr h8]
    · rw [State.replay_down h8]
  case down =>
    refine ⟨fun sq => ⟨congrArg (fun u : State => Host.Outcome.next u.broadcastGo) ((if_neg (no hu)).trans (if_pos (no hdown))), congrArg Host.Outcome.next ((if_neg (no hu)).trans (if_pos (no hdown)))⟩,
      fun bytes hc => (State.badFrame_eq hu (by rw [hc]; exact Bool.noConfusion)).trans ?_, fun bytes hc hf => (State.badFrame_eq hu (by rw [hc, hf]; exact Bool.noConfusion)).trans ?_⟩
    · rw [hc]
      exact congrArg Host.Outcome.next (if_pos (no hdown))
    · rw [hc]
      exact congrArg Host.Outcome.next (if_pos (no hdown))
  case root =>
    exact ⟨congrArg (fun u : State => Host.Outcome.next u.broadcastGo) (if_pos hu), congrArg Host.Outcome.next (if_pos hu), congrArg Host.Outcome.next (if_pos hu),
      fun roleD rxok member => thenTrain (if_pos hu)⟩
  case idle => exact congrArg Host.Outcome.next ((if_neg (no (State.cpIsUp_false hst (by decide)))).trans (if_pos hst))
  case rest =>
    exact ⟨congrArg Host.Outcome.next (if_neg (no hdown)), fun hst => ⟨congrArg Host.Outcome.next ((if_neg (no hdown)).trans (if_neg hst)),
      congrArg Host.Outcome.next (if_neg fun h => h.elim (no hdown) hst)⟩⟩

end Sys2Proof.Machine
end


section
/-! SUPPORT. The lodestone chain: remote accesses, operations and enumeration (R307, R308, R430 to R433). -/
namespace Sys2Proof.Machine

section
variable {s t : State} (h : PortsOnly s t)
include h
theorem PortsOnly.opTiles (x : Option SpreadOp) : t.opTiles x = s.opTiles x := by
  rw [h]
  cases x <;> rfl
theorem PortsOnly.ops : t.chn.ops = s.chn.ops := by rw [h]
end

theorem State.way_here {s : State} {a : Nat} (h : a = s.chnAddr) : s.way a = .here := if_pos h

/-- What a REQ in sequence does where it need not wait. -/
theorem execReq_takes {s : State} {p : ChPort} {hdr : FrameHdr} (ht : s.frameTakes p.val hdr) (hin : s.inbound < 8) (tag orig : BitVec 8) (off : BitVec 32)
    (data : List W) (strb : List (BitVec 8)) :
    exec (.req p hdr tag orig off data strb) s = .next ((s.frameTook p.val).reqIn p.val hdr tag orig off data strb).recheck :=
  congrArg Host.Outcome.next ((if_neg fun hc => absurd hc.2.1 (by omega)).trans
    (congrArg State.recheck (takeFrame_takes (k := ⟨hdr, .req tag orig off data strb⟩) ht _)))

/-- What an RSP in sequence does where no flooded write awaits it. -/
theorem execRsp_takes {s : State} {p : ChPort} {hdr : FrameHdr} (ht : s.frameTakes p.val hdr) (hr : s.chn.remotes = []) (tag code : BitVec 8) (data : List W) :
    exec (.rsp p hdr tag code data) s = .next (if hdr.dst.toNat = s.chnAddr then (s.frameTook p.val).chxEnds tag.toNat code.toNat data
      else (s.frameTook p.val).routeFrame hdr.dst.toNat hdr.src.toNat (.rsp tag code data)).recheck := by
  refine congrArg Host.Outcome.next (congrArg State.recheck ((takeFrame_takes (k := ⟨hdr, .rsp tag code data⟩) ht _).trans ?_))
  have hr1 : (s.frameTook p.val).chn.remotes = [] := hr
  unfold State.rspIn
  rw [hr1]
  rfl

/-- Where an access goes on its way over the chain: its form is right and the instance is ready. -/
theorem State.reqIn_ready {s : State} {p : Nat} {hdr : FrameHdr} {orig : BitVec 8} {data : List W} {strb : List (BitVec 8)} (hok : reqOk hdr orig data strb = true)
    (hr : s.chnReady = true) (tag : BitVec 8) (off : BitVec 32) :
    (hdr.dst = 255#8 → s.isRoot = true ∨ p = 0 → s.reqIn p hdr tag orig off data strb = s.remoteStart true tag hdr.src orig off data strb) ∧
    (hdr.dst ≠ 255#8 → s.reqIn p hdr tag orig off data strb = match s.way hdr.dst.toNat with
      | .here => s.remoteStart false tag hdr.src orig off data strb
      | .port q => s.sendFrame q hdr.dst.toNat hdr.src.toNat (.req tag orig off data strb)
      | .none => s.sendFrame p hdr.src.toNat s.chnAddr (.rsp tag 4 [])) := by
  have hready : s.reqIn p hdr tag orig off data strb = _ := (if_neg (by rw [hok]; decide)).trans (if_neg (by rw [hr]; decide))
  exact ⟨fun hd hroot => hready.trans ((if_pos hd).trans (if_pos hroot)), fun hd => hready.trans (if_neg hd)⟩

/-- What an OPDN in sequence does where it need not wait and its form is right. -/
theorem execOpdn_takes {s : State} {hdr : FrameHdr} {kind : BitVec 8} {x : Option SpreadOp} {args : List W} (ht : s.frameTakes 0 hdr) (hk : opOfKind kind = some x)
    (hl : args.length = 1 ∨ args.length = 4) (hw : s.opWaits kind = false) (opid : BitVec 16) (func : BitVec 8) :
    exec (.opdn hdr opid kind func args) s = .next (if s.chnReady = false then
        (s.frameTook 0).sendFrame 0 0 s.chnAddr (.opup opid 4 0 (countsWord 0 0 (s.opTiles x)))
      else ((s.frameTook 0).opStart opid x func args true).opLocal opid x func args) := by
  have hgo : ¬ (s.opWaits kind && !s.onRootU 0) = true := by rw [hw]; exact Bool.noConfusion
  refine congrArg Host.Outcome.next ((if_neg hgo).trans ((takeFrame_takes (k := ⟨hdr, .opdn opid kind func args⟩) ht _).trans ?_))
  unfold State.opdnIn
  simp only [hk]
  rw [if_neg (by omega), (PortsOnly.frameTook s 0).opTiles]
  rfl

theorem State.opStart_ops (s : State) (opid : BitVec 16) (x : Option SpreadOp) (func : BitVec 8) (args : List W) (up : Bool) :
    (s.opStart opid x func args up).chn.ops =
      s.chn.ops ++ [⟨opid, (match x with | none => opOr | some y => y.op), s.opPorts, true, 0, 0, 0, 0, Resp.OK, up, false⟩] :=
  (PortsOnly.foldl (fun _ _ => .sendFrame _ _ _ _ _) _ _).ops

/-- What an OPUP in sequence does. -/
theorem execOpup_takes {s : State} {p : ChPort} {hdr : FrameHdr} (ht : s.frameTakes p.val hdr) (opid : BitVec 16) (resp : BitVec 8) (value counts : W) :
    exec (.opup p hdr opid resp value counts) s = .next (if s.chn.ops.any (fun x => x.opid == opid && x.waits.any (fun w => w.1 == p.val)) then
      (((s.frameTook p.val).opChild opid p.val value (fld counts 0 16) (fld counts 16 16) (fld counts 32 16) (resp.setWidth 4)).barrGo).recheck else s.frameTook p.val) :=
  congrArg Host.Outcome.next (takeFrame_takes (k := ⟨hdr, .opup opid resp value counts⟩) ht _)

theorem opAwaits_iff (ops : List ChainOp) (opid : BitVec 16) (p : Nat) :
    ops.any (fun x => x.opid == opid && x.waits.any (fun w => w.1 == p)) = true ↔ ∃ o ∈ ops, o.opid = opid ∧ ∃ w ∈ o.waits, w.1 = p := by
  simp

/-- Settles O46: a frame in sequence is taken, and what a frame of the chain does is read off its form, the readiness of the instance and the way to its destination. -/
theorem chainAccessesAndOperations : Obligations.ChainAccessesAndOperations := by
  unfold Obligations.ChainAccessesAndOperations
  refine ⟨?access, ?unready, ?operation⟩
  case access =>
    intro s p hdr tag orig code off data strb ht hr s1 req
    refine ⟨fun hok hin => ?_, fun hbad hin => ?_, fun hin hd => ?_, fun hrem => ?_⟩
    · have hreq : req = .next (s1.reqIn p.val hdr tag orig off data strb).recheck := execReq_takes ht hin tag orig off data strb
      obtain ⟨hflood, hway⟩ := State.reqIn_ready (s := s1) (p := p.val) (hdr := hdr) hok hr tag off
      have hnext {u : State} (h : s1.reqIn p.val hdr tag orig off data strb = u) : req = .next u.recheck := hreq.trans (by rw [h])
      have hto {w : Way} (h : s.way hdr.dst.toNat = w) : s1.way hdr.dst.toNat = w := h
      exact ⟨fun hd hne => hnext ((hway hne).trans (by rw [hto (State.way_here hd)])), fun hd hroot => hnext (hflood hd (.inl hroot)),
        fun hd h0 => hnext (hflood hd (.inr h0)), fun q hne hq => hnext ((hway hne).trans (by rw [hto hq])),
        fun hne hq => hnext ((hway hne).trans (by rw [hto hq]; rfl))⟩
    · exact (execReq_takes ht hin tag orig off data strb).trans (congrArg (fun x : State => Host.Outcome.next x.recheck) (if_pos hbad))
    · exact congrArg Host.Outcome.next (if_pos ⟨ht.used, hin, .inl hd⟩)
    · have hrsp := execRsp_takes ht hrem tag code data
      exact ⟨fun hd => hrsp.trans (by rw [if_pos hd]), fun hd => hrsp.trans (by rw [if_neg hd])⟩
  case unready =>
    intro s p hdr tag orig off data strb ht hr hok hin
    exact (execReq_takes ht hin tag orig off data strb).trans (congrArg (fun x : State => Host.Outcome.next x.recheck)
      ((if_neg (by rw [hok]; decide)).trans (if_pos hr)))
  case operation =>
    intro s p hdr opid kind func resp args value counts
    refine ⟨fun x ht hk hl hw => ?_, fun x => State.opStart_ops s opid x func args true, fun ht => ?_, fun hno => ?_, fun x w hx hw => ?_⟩
    · have hopdn := execOpdn_takes ht hk hl hw opid func
      exact ⟨fun hr => hopdn.trans (by rw [if_neg (by rw [hr]; decide)]), fun hr => hopdn.trans (by rw [if_pos hr])⟩
    · have hopup := execOpup_takes ht opid resp value counts
      refine ⟨fun hno => hopup.trans ?_, fun hsome => hopup.trans (by rw [if_pos ((opAwaits_iff _ _ _).mpr hsome)])⟩
      rw [if_neg fun h => ?_]
      obtain ⟨o, ho, hid, w, hw, hp⟩ := (opAwaits_iff _ _ _).mp h
      exact hno o ho hid w hw hp
    · change Host.Outcome.next (s.childTimeout opid p.val) = _
      simp only [State.childTimeout, hno]
    · change Host.Outcome.next (s.childTimeout opid p.val) = _
      simp only [State.childTimeout, hx, hw]

end Sys2Proof.Machine
end


section
/-! SUPPORT. The end of an enumeration in a state whose registers are not in canonical form: O45. -/
namespace Sys2Proof.Machine

/-- A parameter set whose CHN_ID does not reset to the root. -/
def buildBelowRoot : Build := { Tests.up.build with chnRoot := false }

/-- CHN_ID is listed twice: first as at reset but for a HEIGHT of 1, and once more with ROOT set. No canonical table lists a register twice. -/
def chnIdListedTwice : State :=
  { Tests.up with build := buildBelowRoot, regs := [(aChnId, setFld (resetVal buildBelowRoot aChnId) 24 8 1), (aChnId, 0x100)] }

/-- With HEIGHT 0 again the first entry is as at reset, and is no longer listed: the instance then reads the ROOT of the second one, and ends as the root does. -/
theorem enumEnd_listedTwice : (chnIdListedTwice.enumEnd 0 2 false).evc.evq = [1003] := by decide +kernel

/-- Refutes O45: where an instance that is not the root ends, no clause asks for the canonical form. With CHN_ID listed twice the instance becomes the root by the write of its HEIGHT: it raises event 1,003, which the statement gives to the root alone. -/
theorem not_enumerationNumbersTheTree : ¬ Obligations.EnumerationNumbersTheTree := by
  intro h
  obtain ⟨-, -, -, -, belowRoot, -⟩ := h chnIdListedTwice {} 0 0 2 0 0 0 0 0 .bl
  have hends := congrArg (fun u : State => u.evc.evq) (belowRoot (by decide +kernel) false)
  exact absurd (enumEnd_listedTwice.symm.trans hends) (by decide +kernel)

end Sys2Proof.Machine
end


section
/-! SUPPORT. What the look at the contexts can change at all, jobs that end included. -/
namespace Sys2Proof.Machine

/-- t is s after waits and jobs have ended, held CTLs have left and a reload has begun: of the block only registers, the sequencer, the agents, the chain, the boot image, the next free value and the queue of events may differ. -/
def JobsEnd (s t : State) : Prop :=
  t = { s with regs := t.regs, seq := t.seq, agents := t.agents, chn := t.chn, boot := t.boot, free := t.free, evc := { s.evc with evq := t.evc.evq } }

theorem JobsEnd.refl (s : State) : JobsEnd s s := rfl
theorem JobsEnd.trans {s t u : State} (h : JobsEnd s t) (k : JobsEnd t u) : JobsEnd s u := by
  unfold JobsEnd at *
  rw [h] at k
  exact k
theorem JobsEnd.wr (s : State) (o : Nat) (v : W) : JobsEnd s (s.wr o v) := rfl
theorem JobsEnd.raise (s : State) (ev : Nat) : JobsEnd s (s.raise ev) := rfl
theorem JobsEnd.setCtx (s : State) (c : CtxId) (x : Ctx) : JobsEnd s (s.setCtx c x) := rfl
theorem JobsEnd.setPtr (s : State) (o v : Nat) : JobsEnd s (s.setPtr o v) := rfl
theorem JobsEnd.setLease (s : State) (l e : Nat) : JobsEnd s (s.setLease l e) := rfl
theorem JobsEnd.freeCtx (s : State) (c : CtxId) : JobsEnd s (s.freeCtx c) := rfl
theorem JobsEnd.putJob (s : State) (c : CtxId) (j : Job) : JobsEnd s (s.putJob c j) := rfl

theorem JobsEnd.foldl {α : Type} {f : State → α → State} (hf : ∀ s a, JobsEnd s (f s a)) (l : List α) (s : State) : JobsEnd s (l.foldl f s) := by
  induction l generalizing s with
  | nil => exact .refl s
  | cons a l ih => exact (hf s a).trans (ih _)

theorem JobsEnd.takeLock (s : State) (l ring lease : Nat) : JobsEnd s (s.takeLock l ring lease) :=
  ((JobsEnd.wr s _ _).trans (.wr _ _ _)).trans (.setLease _ _ _)

theorem JobsEnd.grantLock (s : State) (l : Nat) : JobsEnd s (s.grantLock l) := by
  unfold State.grantLock
  split
  · exact .refl s
  · split
    · exact .refl s
    · split
      · have htaken (ring lease : Nat) (q : List (Nat × CtxId)) : JobsEnd s { s.takeLock l ring lease with seq := { (s.takeLock l ring lease).seq with lockq := q } } :=
          (JobsEnd.takeLock s l ring lease).trans rfl
        exact (htaken _ _ _).trans (.putJob _ _ _)
      · exact .refl s

theorem JobsEnd.breakLocks (s : State) (r : Nat) : JobsEnd s (s.breakLocks r) :=
  .foldl (fun t l => (((JobsEnd.wr t _ _).trans (.setLease _ l 0)).trans (.raise _ _)).trans (.grantLock _ l)) _ s

theorem JobsEnd.endRecord (s : State) (c : CtxId) (j : Job) (status cause : Nat) (result : W) : JobsEnd s (s.endRecord c j status cause result) := by
  have hrecord (r jobid st ca pc : Nat) (v : W) (evt : Bool) (a b d : Nat) : JobsEnd s (s.record r c jobid st ca pc v evt a b d) := by
    unfold State.record
    dsimp only
    split
    · exact ((((((JobsEnd.wr s _ _).trans (.wr _ _ _)).trans (.wr _ _ _)).trans (.wr _ _ _)).trans (.setPtr _ _ _)).trans (.wr _ _ _)).trans (.raise _ _)
    · exact (((((JobsEnd.wr s _ _).trans (.wr _ _ _)).trans (.wr _ _ _)).trans (.wr _ _ _)).trans (.setPtr _ _ _)).trans (.wr _ _ _)
  exact (hrecord _ _ _ _ _ _ _ _ _ _).trans (.setPtr _ _ _)

/-- A job that is due ends. -/
theorem JobsEnd.boundary (s : State) (c : CtxId) : JobsEnd s (s.boundary c) := by
  have htrap (cause : Nat) (word : BitVec 32) (detail : Nat) : JobsEnd s (s.trapWith c cause word detail) := by
    unfold State.trapWith
    split
    · exact .refl s
    · exact ((JobsEnd.endRecord s c _ _ _ _).trans (.freeCtx _ c)).trans (.breakLocks _ _)
  have habort (tail : Nat) : JobsEnd s (s.abortJob c tail) := by
    unfold State.abortJob
    split
    · exact .refl s
    · exact (((JobsEnd.endRecord s c _ _ _ _).trans (.setPtr _ _ _)).trans (.freeCtx _ c)).trans (.breakLocks _ _)
  have hcheck (cause : Nat) (v : W) : JobsEnd s (s.mcheckJob c cause v) := by
    unfold State.mcheckJob
    split
    · exact .refl s
    · exact ((JobsEnd.endRecord s c _ _ _ _).trans (.freeCtx _ c)).trans (.breakLocks _ _)
  unfold State.boundary
  split
  · exact .refl s
  · exact htrap _ _ _
  · exact habort _
  · exact hcheck _ _

theorem JobsEnd.doneAt (s : State) (c : CtxId) (pc : BitVec 12) (f : Job → Job) : JobsEnd s (s.doneAt c pc f) := by
  unfold State.doneAt
  split
  · exact .refl s
  · exact (JobsEnd.putJob s c _).trans (.boundary _ c)

theorem JobsEnd.recheck1 (s : State) (c : CtxId) : JobsEnd s (s.recheck1 c) := by
  unfold State.recheck1
  split
  · split
    · exact .doneAt s c _ _
    · exact .refl s
  · split
    · exact .doneAt s c _ _
    · exact .refl s
  · split
    · exact .doneAt s c _ _
    · exact .refl s
  · split
    · exact .setCtx s c _
    · exact .refl s
  · exact .refl s

theorem JobsEnd.reloadStart (s : State) : JobsEnd s s.reloadStart := by
  unfold State.reloadStart
  split
  · exact .refl s
  · have hbegun : JobsEnd s ((s.pb aSeqStatus SEQ_STATUS.RELOADING true).p aBootStat BOOT_STAT.STATE bsReload) := (JobsEnd.wr s _ _).trans (.wr _ _ _)
    have hsend (t : State) (p dst src : Nat) (b : FrameBody) : JobsEnd t (t.sendFrame p dst src b) := by
      rw [PortsOnly.sendFrame t p dst src b]
      rfl
    have hmark (t : State) (ch : Chain) (bo : Boot) : JobsEnd t { t with chn := ch, boot := bo } := rfl
    dsimp only
    split
    · exact (hbegun.trans (hmark _ _ _)).trans (hsend _ _ _ _ _)
    · exact hbegun

/-- What the look at the contexts leaves as it is. -/
theorem JobsEnd.recheck (s : State) : JobsEnd s s.recheck := by
  have hlaunch (t : State) (id : Nat) : JobsEnd t (t.launchCtl id) := by
    rw [(WaitsEnd.launchCtl t id).frame]
    rfl
  have hlook : JobsEnd s ([0, 1, 2, 3].foldl (fun s (_ : Nat) => ctxIds.foldl State.recheck1 s) s) :=
    .foldl (fun _ _ => .foldl (fun t c => .recheck1 t c) _ _) _ s
  exact (hlook.trans (.foldl hlaunch _ _)).trans (.reloadStart _)

section
variable {s t : State} (h : JobsEnd s t)
include h
theorem JobsEnd.pm : t.pm = s.pm := by rw [h]
theorem JobsEnd.hosts : t.hosts = s.hosts := by rw [h]
theorem JobsEnd.lEdge : t.evc.lEdge = s.evc.lEdge := by rw [h]
theorem JobsEnd.lLevel : t.evc.lLevel = s.evc.lLevel := by rw [h]
theorem JobsEnd.lMerge : t.evc.lMerge = s.evc.lMerge := by rw [h]
end

end Sys2Proof.Machine
end


section
/-! SUPPORT. Doorbells, the doorbell latch, and retention of the management domain (R319, R320, R336 to R338, R380). -/
namespace Sys2Proof.Machine

/-- An edge occurrence: counting it leaves its pending bit as it is. -/
theorem State.edgeIn_eq (s : State) (i : Nat) :
    s.edgeIn i = if s.pendBit i then (s.bump aEvcCnt EVC_CNT.DBLS).sat aEvcCnt EVC_CNT.OVERRUN else (s.bump aEvcCnt EVC_CNT.DBLS).setPend i true := by
  have hne : aPend (i / 64) ≠ aEvcCnt := by unfold aPend aEvcCnt; omega
  have hpend : (s.bump aEvcCnt EVC_CNT.DBLS).pendBit i = s.pendBit i := congrArg (bitOf · (i % 64)) (s.rd_wr_ne _ hne)
  unfold State.edgeIn
  dsimp only
  rw [hpend]

section
variable {s : State} {k : Pkt}

/-- What a doorbell is, by its kind and its source (R319). -/
theorem State.dblAns_edge (h : k.cmd = Cmd.DBL ∧ k.dfc = 0) (hi : fld k.aux 0 10 ≤ 1021) (hk : bitOf k.aux 10 = false) (hl : s.lvlSrc (fld k.aux 0 10) = false) :
    s.dblAns k = .edge (fld k.aux 0 10) := by
  simp [State.dblAns, h.1, h.2, hk, hl, hi]

theorem State.dblAns_level (h : k.cmd = Cmd.DBL ∧ k.dfc = 0) (hi : fld k.aux 0 10 ≤ 1021) (hk : bitOf k.aux 10 = true) (hl : s.lvlSrc (fld k.aux 0 10) = true) :
    s.dblAns k = .level (fld k.aux 0 10) (bitOf k.aux 11) := by
  simp [State.dblAns, h.1, h.2, hk, hl, hi]

theorem State.dblAns_badsrc (h : k.cmd = Cmd.DBL ∧ k.dfc = 0) (hi : 1021 < fld k.aux 0 10) : s.dblAns k = .badsrc := by
  simp [State.dblAns, h.1, h.2, hi]

theorem State.dblAns_kinderr (h : k.cmd = Cmd.DBL ∧ k.dfc = 0) (hi : fld k.aux 0 10 ≤ 1021) (hk : bitOf k.aux 10 ≠ s.lvlSrc (fld k.aux 0 10)) : s.dblAns k = .kinderr := by
  simp [State.dblAns, h.1, h.2, hk, hi]

theorem State.dblAns_nondbl (h : ¬ (k.cmd = Cmd.DBL ∧ k.dfc = 0)) : s.dblAns k = .nondbl := by
  unfold State.dblAns
  rw [if_pos (by rw [← Classical.not_and_iff_not_or_not]; exact h)]

/-- A doorbell that R319 does not discard is an edge or a level of a known source. -/
theorem State.dblAns_isHeld (h : ¬ (k.cmd = Cmd.DBL ∧ k.dfc = 0) ∨ 1021 < fld k.aux 0 10) : (s.dblAns k).isHeld = false := by
  by_cases hd : k.cmd = Cmd.DBL ∧ k.dfc = 0
  · rw [State.dblAns_badsrc hd (h.resolve_left (Classical.not_not.mpr hd))]
    rfl
  · rw [State.dblAns_nondbl hd]
    rfl
end

/-- What a packet at DBEP does while the domain runs, by what it is. -/
def State.dblDoes (s : State) (k : Pkt) : DblAns → State
  | .nondbl => (s.sat aEvcErr EVC_ERR.NONDBL).evcDecerr k
  | .badsrc => s.sat aEvcErr EVC_ERR.BADSRC
  | .kinderr => s.sat aEvcErr EVC_ERR.KINDERR
  | .edge i => ((s.edgeIn i).icxWake i).evcCycle
  | .level i b => (s.levelIn i b).evcCycle

theorem State.dblIn_eq (s : State) (k : Pkt) : s.dblIn k = s.dblDoes k (s.dblAns k) := by
  unfold State.dblIn
  cases s.dblAns k <;> rfl

/-- What the latch does with a packet, by what it is. -/
def State.latchDoes (s : State) (k : Pkt) : DblAns → State
  | .nondbl => { s with evc := { s.evc with lNondbl := s.evc.lNondbl + 1 } }.evcDecerr k
  | .badsrc => { s with evc := { s.evc with lBadsrc := s.evc.lBadsrc + 1 } }
  | .kinderr => { s with evc := { s.evc with lKinderr := s.evc.lKinderr + 1 } }
  | .edge i => (if s.evc.lEdge.contains i then { s with evc := { s.evc with lMerge := min 0xFFFF (s.evc.lMerge + 1) } }
      else { s with evc := { s.evc with lEdge := s.evc.lEdge ++ [i] } }).icxWake i
  | .level i b => { s with evc := { s.evc with lLevel := s.evc.lLevel.filter (fun x => x.1 != i) ++ [(i, b)] } }

theorem State.latchIn_eq (s : State) (k : Pkt) : s.latchIn k = s.latchDoes k (s.dblAns k) := by
  unfold State.latchIn
  cases s.dblAns k <;> rfl

/-- The wake pulses of a held edge leave the latch and the domain's state. -/
theorem EvcTurns.icxWake (s : State) (i : Nat) : EvcTurns InHostDoms s (s.icxWake i) := by
  unfold State.icxWake
  split
  · exact .refl s
  · refine .foldl (fun t a ha => ?_) s
    split
    · exact .wakePulse t (List.mem_range.mp ha)
    · exact .refl t

section
variable {P : Nat → Prop} {s t : State} (h : EvcTurns P s t)
include h
theorem EvcTurns.mstate : t.pm.mstate = s.pm.mstate := by rw [h.frame]
theorem EvcTurns.hosts : t.hosts = s.hosts := by rw [h.frame]
theorem EvcTurns.chn : t.chn = s.chn := by rw [h.frame]
theorem EvcTurns.lEdge : t.evc.lEdge = s.evc.lEdge := by rw [h.frame]
theorem EvcTurns.lLevel : t.evc.lLevel = s.evc.lLevel := by rw [h.frame]
theorem EvcTurns.lMerge : t.evc.lMerge = s.evc.lMerge := by rw [h.frame]
end

/-- A packet at DBEP that R319 discards changes neither the latch nor the power of the domain. -/
theorem State.latchIn_discards {s : State} {k : Pkt} (h : (s.dblAns k).isHeld = false) :
    (s.latchIn k).pm = s.pm ∧ (s.latchIn k).evc.lEdge = s.evc.lEdge ∧ (s.latchIn k).evc.lLevel = s.evc.lLevel := by
  rw [State.latchIn_eq]
  cases hk : s.dblAns k with
  | nondbl =>
    have hsent (u : State) : (u.evcDecerr k).pm = u.pm ∧ (u.evcDecerr k).evc.lEdge = u.evc.lEdge ∧ (u.evcDecerr k).evc.lLevel = u.evc.lLevel := by
      unfold State.evcDecerr
      split
      · unfold State.evcSend
        rw [State.wake_eq]
        exact ⟨rfl, rfl, rfl⟩
      · exact ⟨rfl, rfl, rfl⟩
    exact hsent _
  | badsrc => exact ⟨rfl, rfl, rfl⟩
  | kinderr => exact ⟨rfl, rfl, rfl⟩
  | edge i => rw [hk] at h; exact Bool.noConfusion h
  | level i b => rw [hk] at h; exact Bool.noConfusion h

theorem RegsOnly.loseThresh (s : State) : RegsOnly s s.loseThresh := by
  unfold State.loseThresh
  refine .foldl (fun t i => ?_) _ s
  split
  · exact ((RegsOnly.refl t).wr _ _).pb _ _ _
  · exact .refl t

theorem RegsOnly.edgeIn (s : State) (i : Nat) : RegsOnly s (s.edgeIn i) := by
  have hcount : RegsOnly s (s.bump aEvcCnt EVC_CNT.DBLS) := (RegsOnly.refl s).p _ _ _
  unfold State.edgeIn
  dsimp only
  split
  · exact hcount.p _ _ _
  · exact hcount.wr _ _

theorem RegsOnly.levelIn (s : State) (i : Nat) (b : Bool) : RegsOnly s (s.levelIn i b) := by
  have hset : RegsOnly s ((s.bump aEvcCnt EVC_CNT.DBLS).setLevel i b) := ((RegsOnly.refl s).p _ _ _).wr _ _
  unfold State.levelIn
  dsimp only
  split
  · exact hset
  · split
    · exact hset
    · exact hset.wr _ _

/-- The merged latch: what it held is in the registers, and it is empty. -/
theorem State.mergeLatch_frame (s : State) : ∃ u, RegsOnly s u ∧
    s.mergeLatch = { u with evc := { u.evc with lEdge := [], lLevel := [], lMerge := 0, lBadsrc := 0, lKinderr := 0, lNondbl := 0 } } := by
  have hedges : RegsOnly s (s.evc.lEdge.foldl (fun s i => s.edgeIn i) s) := .foldl (fun t i => .edgeIn t i) _ s
  have hlevels := hedges.trans (.foldl (f := fun (s : State) (x : Nat × Bool) => s.levelIn x.1 x.2) (fun t x => .levelIn t x.1 x.2) s.evc.lLevel _)
  exact ⟨_, (((hlevels.p _ _ _).p _ _ _).p _ _ _).p _ _ _, rfl⟩

/-- The domain runs again: thresholds lost and latch merged, which leaves the hosts and the chain. -/
theorem State.restored_frame (s : State) : s.loseThresh.mergeLatch.hosts = s.hosts ∧ s.loseThresh.mergeLatch.chn = s.chn ∧
    s.loseThresh.mergeLatch.evc.lEdge = [] ∧ s.loseThresh.mergeLatch.evc.lLevel = [] ∧ s.loseThresh.mergeLatch.evc.lMerge = 0 := by
  obtain ⟨u, hu, hmerged⟩ := State.mergeLatch_frame s.loseThresh
  have hall : RegsOnly s u := (RegsOnly.loseThresh s).trans hu
  rw [hmerged, hall]
  exact ⟨rfl, rfl, rfl, rfl, rfl⟩

theorem State.setHosts_self {s : State} {l : Tab XHost} (h : s.hosts = l) (p : Pm) : { s with pm := p, hosts := l } = { s with pm := p } := by
  rw [← h]

/-- A list of frames in the crossing: draining an empty one changes nothing. -/
theorem State.chainDrain_nil {s : State} (h : s.chn.xin = []) : s.chainDrain = s := by
  have hself : { s with chn := { s.chn with xin := [] } } = s := by rw [← h]
  unfold State.chainDrain
  rw [h, hself]
  rfl

/-- The state with the management domain running, and with these host ports. -/
def State.runsWith (s : State) (hosts : Tab XHost) : State := { s with pm := { s.pm with mstate := .running }, hosts := hosts }

theorem State.runsWith_reads (s : State) (l : Tab XHost) : (s.runsWith l).chn = s.chn ∧ (s.runsWith l).hosts = l ∧ (s.runsWith l).pm.mstate = .running ∧
    (s.runsWith l).evc = s.evc := ⟨rfl, rfl, rfl, rfl⟩

/-- The state in which the management domain runs again, before its first cycle. -/
def State.restarted (s : State) : State := s.loseThresh.mergeLatch.runsWith ((s.hosts.map (fun kv => (kv.1, { kv.2 with xin := 0 }))).filter (fun kv => kv.2 != XHost.reset))

theorem State.mgmtRuns_eq (s : State) : s.mgmtRuns = s.restarted.evcCycle := rfl

theorem State.mgmtRuns_xin (s : State) : s.mgmtRuns.chn.xin = s.chn.xin := by
  obtain ⟨-, hchn, -⟩ := s.restored_frame
  rw [State.mgmtRuns_eq, (EvcTurns.evcCycle s.restarted).chn, State.restarted, (State.runsWith_reads _ _).1, hchn]

/-- Settles O25: what a doorbell is decides what it does, and the latch and the restore are read off their equations. -/
theorem doorbellsAndRetention : Obligations.DoorbellsAndRetention := by
  unfold Obligations.DoorbellsAndRetention
  have no {b : Bool} (h : b = false) : ¬ b = true := by rw [h]; exact Bool.noConfusion
  refine ⟨?doorbell, ?internal, ?notTaken, ?retention⟩
  case doorbell =>
    intro s k rest i hrx hi s1 c edge level woken isDbl
    subst hi
    have hpop : s.popDbl = s1 := by
      unfold State.popDbl
      rw [hrx]
      rfl
    have hedge : s1.edgeIn (fld k.aux 0 10) = edge := s1.edgeIn_eq _
    have hdbl : exec .dbl s = .next (if s.pm.mstate ≠ .running then s else s1.dblIn k) := by
      change Host.Outcome.next _ = _
      rw [hrx, ← hpop]
    have hlatch : exec .latchDoorbell s = .next (if s.pm.mstate = .running then s else if (s.dblAns k).isHeld then (s1.latchIn k).wakeMgmt else s1.latchIn k) := by
      change Host.Outcome.next _ = _
      rw [hrx, ← hpop]
    refine ⟨fun hrun => ?running, fun hrest => ?rests, fun hrest hdisc => ?discards⟩
    case running =>
      have htaken {a : DblAns} (ha : s1.dblAns k = a) : exec .dbl s = .next (s1.dblDoes k a) := by
        rw [hdbl, if_neg (Classical.not_not.mpr hrun), State.dblIn_eq, ha]
      refine ⟨fun hd h hk hl => ?_, fun hd h hk hl => htaken (State.dblAns_level hd h hk hl), fun hd h => htaken (State.dblAns_badsrc hd h),
        fun hd h hk => htaken (State.dblAns_kinderr hd h hk), fun hc => htaken (State.dblAns_nondbl fun hd => hc hd.1), hlatch.trans (by rw [if_pos hrun])⟩
      rw [← hedge]
      exact htaken (State.dblAns_edge hd h hk hl)
    case rests =>
      have hheld {a : DblAns} {u : State} (ha : s.dblAns k = a) (hh : a.isHeld = true) (hu : s1.latchIn k = u) (hm : u.pm.mstate = s.pm.mstate) :
          exec .latchDoorbell s = .next (woken u) := by
        rw [hlatch, if_neg hrest, ha, if_pos hh, hu]
        unfold State.wakeMgmt
        rw [hm]
      have hin {a : DblAns} (ha : s1.dblAns k = a) : s1.latchIn k = s1.latchDoes k a := by
        rw [State.latchIn_eq, ha]
      refine ⟨fun hd h hk hl hn => ?_, fun hd h hk hl hm => ?_, fun hd h hk hl => ?_, hdbl.trans (by rw [if_pos hrest])⟩
      · refine hheld (State.dblAns_edge hd h hk hl) rfl ((hin (State.dblAns_edge hd h hk hl)).trans ?_) (EvcTurns.icxWake _ _).mstate
        exact congrArg (State.icxWake · _) (if_neg (by simpa using hn))
      · refine hheld (State.dblAns_edge hd h hk hl) rfl ((hin (State.dblAns_edge hd h hk hl)).trans ?_) (EvcTurns.icxWake _ _).mstate
        exact congrArg (State.icxWake · _) (if_pos (by simpa using hm))
      · exact hheld (State.dblAns_level hd h hk hl) rfl (hin (State.dblAns_level hd h hk hl)) rfl
    case discards =>
      have hh : (s.dblAns k).isHeld = false := State.dblAns_isHeld hdisc
      exact ⟨_, hlatch.trans (by rw [if_neg hrest, hh, if_neg Bool.false_ne_true]), State.latchIn_discards (s := s1) hh⟩
  case internal =>
    intro s src before after hrun hq hno s1 c
    have htake : exec (.internalEvent src) s = .next (if s1.lvlSrc src.toNat then s1.sat aEvcErr EVC_ERR.KINDERR else (s1.edgeIn src.toNat).evcCycle) := by
      have hfirst : extract (fun (i : Nat) => i == src.toNat) s.evc.evq = some (src.toNat, before ++ after) := by
        rw [hq]
        exact extract_first (fun y hy => by simpa using fun (h : y = src.toNat) => hno (h ▸ hy)) (by simp)
      change Host.Outcome.next _ = _
      rw [if_neg (Classical.not_not.mpr hrun), hfirst]
    have hedge : s1.edgeIn src.toNat = _ := s1.edgeIn_eq src.toNat
    refine ⟨fun hl => htake.trans ?_, fun hl => htake.trans (congrArg Host.Outcome.next (if_pos hl))⟩
    refine congrArg Host.Outcome.next ((if_neg (no hl)).trans ?_)
    rw [hedge]
    rfl
  case notTaken =>
    intro s src h
    change Host.Outcome.next _ = _
    by_cases hrun : s.pm.mstate = .running
    · have hnone : extract (fun (i : Nat) => i == src.toNat) s.evc.evq = none :=
        extract_none fun y hy => by simpa using fun (he : y = src.toNat) => (h.resolve_left (Classical.not_not.mpr hrun)) (he ▸ hy)
      rw [if_neg (Classical.not_not.mpr hrun), hnone]
    · rw [if_pos hrun]
  case retention =>
    intro s
    refine ⟨fun h1 h2 h3 => congrArg Host.Outcome.next (if_pos ⟨h1, h2, h3⟩), fun h => congrArg Host.Outcome.next (if_neg fun hc => no h hc.1),
      fun h => congrArg Host.Outcome.next (if_pos h), fun hc => ?clocked⟩
    have hrestore : exec .evcRestore s = .next s.mgmtRuns.chainDrain.recheck := congrArg Host.Outcome.next (if_pos hc)
    obtain ⟨hhosts, -, hlEdge, hlLevel, hlMerge⟩ := s.restored_frame
    refine ⟨fun hh hx => ?_, hrestore.trans ?_, s.mgmtRuns_xin, fun hs hx => ?_⟩
    · rw [hrestore, State.chainDrain_nil (s.mgmtRuns_xin.trans hx)]
      unfold State.mgmtRuns
      rw [hh]
      exact congrArg (fun u : State => Host.Outcome.next u.evcCycle.recheck) (State.setHosts_self (hhosts.trans hh) _)
    · unfold State.chainDrain
      rw [s.mgmtRuns_xin]
    · rw [State.chainDrain_nil (s.mgmtRuns_xin.trans hx)] at hrestore
      have hcycle := EvcTurns.evcCycle s.restarted
      have hlook := JobsEnd.recheck s.mgmtRuns
      obtain ⟨-, hostsNow, runs, hevc⟩ := s.loseThresh.mergeLatch.runsWith_reads ((s.hosts.map (fun kv => (kv.1, { kv.2 with xin := 0 }))).filter (fun kv => kv.2 != XHost.reset))
      refine ⟨_, hrestore, (congrArg Pm.mstate hlook.pm).trans (hcycle.mstate.trans runs), hlook.lEdge.trans (hcycle.lEdge.trans ((congrArg Evc.lEdge hevc).trans hlEdge)),
        hlook.lLevel.trans (hcycle.lLevel.trans ((congrArg Evc.lLevel hevc).trans hlLevel)), hlook.lMerge.trans (hcycle.lMerge.trans ((congrArg Evc.lMerge hevc).trans hlMerge)),
        fun h _ => ?_⟩
      unfold State.host
      rw [hlook.hosts, State.mgmtRuns_eq, hcycle.hosts, State.restarted, hostsNow]
      exact tget_mapEntries (f := fun x : XHost => { x with xin := 0 }) rfl hs.hosts h

end Sys2Proof.Machine
end


section
/-! SUPPORT. The boot loader: discovery, headers, sections, signature (R407, R408, R412 to R414). -/
namespace Sys2Proof.Machine

-- The statuses of the boot.

/-- The event of a boot that had to report something touches registers, the power controller and the event controller only. -/
theorem State.bootEvent_frame (s : State) : s.bootEvent = { s with regs := s.bootEvent.regs, pm := s.bootEvent.pm, evc := s.bootEvent.evc } := by
  have hpulse (t : State) (k n : Nat) : t.ctPulse k n = { t with regs := (t.ctPulse k n).regs, pm := (t.ctPulse k n).pm, evc := (t.ctPulse k n).evc } := by
    unfold State.ctPulse State.oncePer
    dsimp only
    split
    · rfl
    · split
      · rfl
      · split <;> rfl
  have hraise (t : State) (ev : Nat) : t.raiseBasalt ev = { t with regs := (t.raiseBasalt ev).regs, pm := (t.raiseBasalt ev).pm, evc := (t.raiseBasalt ev).evc } := by
    unfold State.raiseBasalt State.wakeMgmt
    dsimp only
    rw [hpulse t 65 577]
    split
    · rfl
    · split <;> rfl
  unfold State.bootEvent
  dsimp only
  split
  · exact hraise _ _
  · rfl

theorem State.bootEvent_rd (s : State) {o : Nat} (h : ¬ InChain o) : s.bootEvent.rd o = s.rd o := by
  unfold State.bootEvent
  dsimp only
  split
  · exact (Starts.raiseBasalt s 1000).rd o h
  · rfl

section
variable {s : State} (hs : s.regsOk)
include hs

theorem State.setBootState_reads (n : Nat) : (s.setBootState n).bootState = n % 16 ∧
    ∀ f : Fd, 4 ≤ f.lo → (s.setBootState n).g aBootStat f = s.g aBootStat f :=
  ⟨s.g_p _ _ _ hs (by decide), fun f hf => s.g_p_other _ _ _ _ hs (.inr hf)⟩

/-- The boot has failed: what BOOT_STAT says. -/
theorem State.bootFailed_reads : s.bootFailed.bootState = bsFailed ∧ s.bootFailed.boot.bootFail = true ∧
    ∀ f : Fd, 4 ≤ f.lo → s.bootFailed.g aBootStat f = s.g aBootStat f := by
  obtain ⟨hstate, hother⟩ := State.setBootState_reads hs bsFailed
  have hg (f : Fd) : s.bootFailed.g aBootStat f = (s.setBootState bsFailed).g aBootStat f :=
    congrArg (fun v => fld v f.lo f.w) (State.bootEvent_rd _ aBootStat_not_inChain)
  refine ⟨(hg _).trans hstate, ?_, fun f hf => (hg f).trans (hother f hf)⟩
  unfold State.bootFailed
  rw [State.bootEvent_frame]

theorem State.setRes_reads (slot : Bool) {c : Nat} (hc : c < 16) : (s.setRes slot c).g aBootStat (resField slot) = c ∧
    (s.setRes slot c).g aBootStat (resField (!slot)) = s.g aBootStat (resField (!slot)) := by
  cases slot with
  | false => exact ⟨(s.g_p _ _ _ hs (by decide)).trans (Nat.mod_eq_of_lt hc), s.g_p_other _ _ _ _ hs (by decide)⟩
  | true => exact ⟨(s.g_p _ _ _ hs (by decide)).trans (Nat.mod_eq_of_lt hc), s.g_p_other _ _ _ _ hs (by decide)⟩
end

-- Discovery.

/-- The writes of several fields of a register, in turn. -/
def State.pAll (s : State) (o : Nat) (ws : List (Fd × Nat)) : State := ws.foldl (fun s w => s.p o w.1 w.2) s

theorem RegsOnly.pAll (s : State) (o : Nat) (ws : List (Fd × Nat)) : RegsOnly s (s.pAll o ws) :=
  RegsOnly.foldl (f := fun s (w : Fd × Nat) => s.p o w.1 w.2) (fun t w => (RegsOnly.refl t).p o w.1 w.2) ws s

theorem State.regsOk_pAll {s : State} (hs : s.regsOk) (o : Nat) (ws : List (Fd × Nat)) : (s.pAll o ws).regsOk := by
  induction ws generalizing s with
  | nil => exact hs
  | cons w ws ih => exact ih (State.regsOk_p hs _ _ _)

theorem State.rd_pAll {s : State} (hs : s.regsOk) (o : Nat) (ws : List (Fd × Nat)) : (s.pAll o ws).rd o = ws.foldl (fun v w => setFld v w.1.lo w.1.w w.2) (s.rd o) := by
  induction ws generalizing s with
  | nil => rfl
  | cons w ws ih =>
    have hrd : (s.p o w.1 w.2).rd o = setFld (s.rd o) w.1.lo w.1.w w.2 := State.rd_wr _ _ _ hs
    change ((s.p o w.1 w.2).pAll o ws).rd o = ws.foldl (fun v w => setFld v w.1.lo w.1.w w.2) (setFld (s.rd o) w.1.lo w.1.w w.2)
    rw [ih (State.regsOk_p hs o w.1 w.2), hrd]

/-- What a discovery writes into BOOT_SPI. -/
def spiWrites (ok : Bool) (m : ReadMode) (dens : Nat) : List (Fd × Nat) :=
  [(BOOT_SPI.SFDPOK, ok.toNat), (BOOT_SPI.ADDR4, (decide (24 < dens)).toNat), (BOOT_SPI.MODE, m.mode), (BOOT_SPI.OPCODE, m.opcode.toNat), (BOOT_SPI.DUMMY, m.dummy),
    (BOOT_SPI.DENSLOG2, dens), (BOOT_SPI.SLOTLOG2, min 24 (dens - 1))]

/-- What a field of w bits keeps of a number. -/
def fieldMod (w x : Nat) : Nat := x % 2 ^ w

theorem fld_setFld_mod {n : Nat} (v : BitVec n) (lo w x : Nat) (h : lo + w ≤ n) : fld (setFld v lo w x) lo w = fieldMod w x := fld_setFld v lo w x h

theorem fieldMod_bool (b : Bool) : (fieldMod 1 b.toNat != 0) = b := by cases b <;> rfl

theorem bne_zero_toNat_mod (b : Bool) : (b.toNat % 2 ^ 1 != 0) = b := by cases b <;> rfl

theorem State.spiWrites_reads {s : State} (hs : s.regsOk) (ok : Bool) (m : ReadMode) (dens : Nat) (hm : m.mode ≤ 3) :
    let u := s.pAll aBootSpi (spiWrites ok m dens)
    u.gb aBootSpi BOOT_SPI.SFDPOK = ok ∧ u.gb aBootSpi BOOT_SPI.ADDR4 = decide (24 < dens) ∧ u.g aBootSpi BOOT_SPI.DENSLOG2 = dens % 64 ∧
      u.g aBootSpi BOOT_SPI.SLOTLOG2 = min 24 (dens - 1) ∧ u.g aBootSpi BOOT_SPI.MODE = m.mode ∧ u.g aBootSpi BOOT_SPI.OPCODE = m.opcode.toNat ∧
      u.g aBootSpi BOOT_SPI.DUMMY = m.dummy % 32 := by
  intro u
  have hg (f : Fd) : u.g aBootSpi f = fld ((spiWrites ok m dens).foldl (fun v w => setFld v w.1.lo w.1.w w.2) (s.rd aBootSpi)) f.lo f.w :=
    congrArg (fun v => fld v f.lo f.w) (State.rd_pAll hs _ _)
  have hlt := m.opcode.isLt
  simp only [State.gb, hg, spiWrites, List.foldl_cons, List.foldl_nil, BOOT_SPI.SFDPOK, BOOT_SPI.ADDR4, BOOT_SPI.MODE, BOOT_SPI.OPCODE, BOOT_SPI.DUMMY,
    BOOT_SPI.DENSLOG2, BOOT_SPI.SLOTLOG2]
  simp (disch := decide) only [fld_setFld_mod, fld_setFld_ne, fieldMod_bool, true_and]
  refine ⟨rfl, Nat.mod_eq_of_lt (by omega), Nat.mod_eq_of_lt (by omega), Nat.mod_eq_of_lt (by omega), rfl⟩

/-- The read mode that a discovery picks is one that the fuses allow. -/
theorem pickMode_allowed (tab : Sfdp) (spimax : Nat) : (pickMode tab spimax).mode ≤ 3 ∧ ((pickMode tab spimax).mode = 0 ∨ (pickMode tab spimax).mode ≤ spimax) := by
  have hmode {m bit n lo bit4 : Nat} {op : BitVec 8} {x : ReadMode} (h : sfdpMode tab m bit n lo bit4 op = some x) : x.mode = m := by
    unfold sfdpMode at h
    dsimp only at h
    split at h
    · exact nomatch h
    · split at h
      · split at h
        · rw [← Option.some.inj h]
        · exact nomatch h
      · rw [← Option.some.inj h]
  have hquad {m : Nat} {y : Option ReadMode} {x : ReadMode} (h : (if sfdpQuadOk tab && decide (m ≤ spimax) then y else none) = some x) : y = some x ∧ m ≤ spimax := by
    split at h
    · next hc =>
      rw [Bool.and_eq_true, decide_eq_true_eq] at hc
      exact ⟨h, hc.2⟩
    · exact nomatch h
  unfold pickMode
  dsimp only
  split
  · next h =>
    obtain ⟨hx, hle⟩ := hquad h
    rw [hmode hx]
    exact ⟨by omega, .inr hle⟩
  · split
    · next h =>
      obtain ⟨hx, hle⟩ := hquad h
      rw [hmode hx]
      exact ⟨by omega, .inr hle⟩
    · split
      · next h =>
        split at h
        · next hle =>
          rw [hmode h]
          exact ⟨by omega, .inr hle⟩
        · exact nomatch h
      · exact ⟨by simp, .inl rfl⟩

-- Headers.

/-- What a header's checks read of the registers. -/
theorem State.headerCode_congr {s t : State} (h : ∀ o, o ≠ aBootStat → t.rd o = s.rd o) (b : List Byte) : t.headerCode b t.slotSize = s.headerCode b s.slotSize := by
  have hctl : t.rd aFuseCtl = s.rd aFuseCtl := h _ (by decide)
  have hspi : t.rd aBootSpi = s.rd aBootSpi := h _ (by decide)
  have hunc : t.rd aFuseUnc = s.rd aFuseUnc := h _ (by decide)
  have hw (w : Nat) : t.rd (aFuseW w) = s.rd (aFuseW w) := h _ (by unfold aFuseW aBootStat; omega)
  have hg (f : Fd) : t.g aFuseCtl f = s.g aFuseCtl f := congrArg (fun v => fld v f.lo f.w) hctl
  have hsize : t.slotSize = s.slotSize := congrArg (fun v => 2 ^ fld v BOOT_SPI.SLOTLOG2.lo BOOT_SPI.SLOTLOG2.w) hspi
  have hsecure : t.secure = s.secure := congrArg (· != 0) (hg _)
  have husable (k : Nat) : t.keyUsable k = s.keyUsable k := by simp only [State.keyUsable, State.fuseBad, State.bitAt, State.gb, hg, hunc, hw]
  have hdigest (k : Nat) : t.keyDigest k = s.keyDigest k := by simp only [State.keyDigest, hw]
  unfold State.headerCode
  rw [hg, hsize, hsecure, husable, hdigest]

theorem State.headerCode_lt {s : State} {b : List Byte} {z c : Nat} (h : s.headerCode b z = some c) : c < 16 := by
  unfold State.headerCode at h
  dsimp only at h
  split at h
  · exact Option.some.inj h ▸ (by decide)
  split at h
  · exact Option.some.inj h ▸ (by decide)
  split at h
  · exact Option.some.inj h ▸ (by decide)
  split at h
  · exact Option.some.inj h ▸ (by decide)
  split at h
  · exact Option.some.inj h ▸ (by decide)
  split at h
  · exact Option.some.inj h ▸ (by decide)
  · exact nomatch h

/-- A header that is examined: its code in BOOT_STAT where it fails, and what it says where it passes. -/
theorem State.examine_eq (s : State) (slot : Bool) (b : List Byte) :
    (∀ c, s.headerCode b s.slotSize = some c → s.examine slot b = (s.setRes slot c, none)) ∧ (s.headerCode b s.slotSize = none → s.examine slot b = (s, some (slotHdr b))) := by
  unfold State.examine
  exact ⟨fun c h => by rw [h], fun h => by rw [h]⟩

theorem State.setRes_rd_ne (s : State) (slot : Bool) (c : Nat) {o : Nat} (h : o ≠ aBootStat) : (s.setRes slot c).rd o = s.rd o := s.rd_wr_ne _ h

theorem State.regsOk_setRes {s : State} (hs : s.regsOk) (slot : Bool) (c : Nat) : (s.setRes slot c).regsOk := State.regsOk_p hs _ _ _

end Sys2Proof.Machine
end


section
/-! SUPPORT. The boot loader's steps and the hand-over (R286, R342, R413 to R416). -/
namespace Sys2Proof.Machine

/-- The state after both headers were examined. -/
theorem State.examined {s : State} (hs : s.regsOk) (a b : List Byte) :
    let ca := s.headerCode a s.slotSize
    let cb := s.headerCode b s.slotSize
    ∃ t, t.regsOk ∧ t.rd aBootCfg = s.rd aBootCfg ∧ (∀ c, ca = some c → t.g aBootStat BOOT_STAT.RESA = c) ∧ (∀ c, cb = some c → t.g aBootStat BOOT_STAT.RESB = c) ∧
      (s.examine false a).2 = (if ca.isSome then none else some (slotHdr a)) ∧
      (s.examine false a).1.examine true b = (t, if cb.isSome then none else some (slotHdr b)) := by
  intro ca cb
  have second (x : State) (hx : ∀ o, o ≠ aBootStat → x.rd o = s.rd o) (hok : x.regsOk) (hA : ∀ c, ca = some c → x.g aBootStat BOOT_STAT.RESA = c) :
      ∃ t, t.regsOk ∧ t.rd aBootCfg = s.rd aBootCfg ∧ (∀ c, ca = some c → t.g aBootStat BOOT_STAT.RESA = c) ∧ (∀ c, cb = some c → t.g aBootStat BOOT_STAT.RESB = c) ∧
        x.examine true b = (t, if cb.isSome then none else some (slotHdr b)) := by
    have hcode : x.headerCode b x.slotSize = cb := State.headerCode_congr hx b
    have hcfg : x.rd aBootCfg = s.rd aBootCfg := hx _ (by decide)
    obtain ⟨hfail, hpass⟩ := x.examine_eq true b
    rw [hcode] at hfail hpass
    cases hcb : cb with
    | none => exact ⟨x, hok, hcfg, hA, nofun, hpass hcb⟩
    | some c =>
      obtain ⟨hB, hother⟩ := State.setRes_reads hok true (State.headerCode_lt hcb)
      exact ⟨_, State.regsOk_setRes hok true c, (x.setRes_rd_ne true c (by decide)).trans hcfg, fun d hd => hother.trans (hA d hd),
        fun d hd => hB.trans (Option.some.inj hd), hfail c hcb⟩
  obtain ⟨hfail, hpass⟩ := s.examine_eq false a
  cases hca : ca with
  | none =>
    rw [hpass hca]
    obtain ⟨t, hok, hcfg, hA, hB, he⟩ := second s (fun _ _ => rfl) hs (fun c hc => nomatch hca.symm.trans hc)
    exact ⟨t, hok, hcfg, nofun, hB, rfl, he⟩
  | some c =>
    rw [hfail c hca]
    obtain ⟨hA', -⟩ := State.setRes_reads hs false (State.headerCode_lt hca)
    obtain ⟨t, hok, hcfg, hA, hB, he⟩ := second (s.setRes false c) (fun o ho => s.setRes_rd_ne false c ho) (State.regsOk_setRes hs false c)
      (fun d hd => hA'.trans (Option.some.inj (hca.symm.trans hd)))
    exact ⟨t, hok, hcfg, fun d hd => hA d (hca.trans hd), hB, rfl, he⟩

/-- The check of both headers, by their codes (R412). -/
theorem State.headersCheck {s : State} (hs : s.regsOk) {a b : List Byte} (hp : s.porstLow = false) (hb : s.bootState = bsHeaders) (hla : a.length = 1024)
    (hlb : b.length = 1024) :
    let ca := s.headerCode a s.slotSize
    let cb := s.headerCode b s.slotSize
    (ca.isSome = true → cb.isSome = true → ∃ u, exec (.slotHeaderCheck a b) s = .next u ∧ u.bootState = bsFailed ∧ u.boot.bootFail = true ∧
      some (u.g aBootStat BOOT_STAT.RESA) = ca ∧ some (u.g aBootStat BOOT_STAT.RESB) = cb) ∧
    (ca = none ∨ cb = none → ∃ u, exec (.slotHeaderCheck a b) s = .next u ∧ u.bootState = bsLoading ∧ u.boot.cur = u.boot.first ∧
      (cb.isSome = true → u.boot.first = false) ∧ (ca.isSome = true → u.boot.first = true) ∧
      (ca = none → cb = none → hdrNat a 0xC 4 ≠ hdrNat b 0xC 4 → u.boot.first = decide (hdrNat a 0xC 4 < hdrNat b 0xC 4)) ∧
      (ca = none → cb = none → hdrNat a 0xC 4 = hdrNat b 0xC 4 → u.boot.first = s.gb aBootCfg BOOT_CFG.PREF)) := by
  intro ca cb
  have failed {o : Option Nat} (h : o = none) : ¬ o.isSome = true := by rw [h]; exact Bool.noConfusion
  have hcode : s.headerCode a s.slotSize = ca := rfl
  have hcode' : s.headerCode b s.slotSize = cb := rfl
  obtain ⟨t, hok, hcfg, hA, hB, hx, hy⟩ := State.examined hs a b
  have hgo : ¬ (s.porstLow = true ∨ s.bootState ≠ bsHeaders ∨ a.length ≠ 1024 ∨ b.length ≠ 1024) := by simp [hp, hb, hla, hlb]
  have hrun : exec (.slotHeaderCheck a b) s = .next (
      if (s.examine false a).2.isNone ∧ ((s.examine false a).1.examine true b).2.isNone then ((s.examine false a).1.examine true b).1.bootFailed
      else { ((s.examine false a).1.examine true b).1.setBootState bsLoading with boot := { ((s.examine false a).1.examine true b).1.boot with
        hdrA := (s.examine false a).2, hdrB := ((s.examine false a).1.examine true b).2,
        first := ((s.examine false a).1.examine true b).1.firstSlot (s.examine false a).2 ((s.examine false a).1.examine true b).2,
        cur := ((s.examine false a).1.examine true b).1.firstSlot (s.examine false a).2 ((s.examine false a).1.examine true b).2 } }) :=
    congrArg Host.Outcome.next (if_neg hgo)
  rw [hx, hy] at hrun
  dsimp only at hrun
  rw [hcode, hcode'] at hrun
  refine ⟨fun ha hb' => ?_, fun hone => ?_⟩
  · obtain ⟨c, hc⟩ := Option.isSome_iff_exists.mp ha
    obtain ⟨d, hd⟩ := Option.isSome_iff_exists.mp hb'
    obtain ⟨hstate, hfail, hother⟩ := State.bootFailed_reads hok
    refine ⟨t.bootFailed, hrun.trans (congrArg Host.Outcome.next (if_pos ?_)), hstate, hfail, ?_, ?_⟩
    · rw [if_pos ha, if_pos hb']
      exact ⟨rfl, rfl⟩
    · rw [hother _ (by decide), hA c hc]
      exact hc.symm
    · rw [hother _ (by decide), hB d hd]
      exact hd.symm
  · have hpref : t.gb aBootCfg BOOT_CFG.PREF = s.gb aBootCfg BOOT_CFG.PREF := congrArg (fun v => fld v BOOT_CFG.PREF.lo BOOT_CFG.PREF.w != 0) hcfg
    refine ⟨_, hrun.trans (congrArg Host.Outcome.next (if_neg ?_)), (State.setBootState_reads hok bsLoading).1, rfl, fun hb' => ?_, fun ha => ?_, fun ha hb' hne => ?_, fun ha hb' he => ?_⟩
    · rintro ⟨h1, h2⟩
      rcases hone with h | h
      · rw [if_neg (failed h)] at h1
        exact Bool.noConfusion h1
      · rw [if_neg (failed h)] at h2
        exact Bool.noConfusion h2
    · have ha : ca = none := hone.resolve_right (fun h => by rw [h] at hb'; exact Bool.noConfusion hb')
      change t.firstSlot _ _ = _
      rw [if_pos hb', if_neg (failed ha)]
      rfl
    · have hb' : cb = none := hone.resolve_left (fun h => by rw [h] at ha; exact Bool.noConfusion ha)
      change t.firstSlot _ _ = _
      rw [if_pos ha, if_neg (failed hb')]
      rfl
    · change t.firstSlot _ _ = _
      rw [if_neg (failed ha), if_neg (failed hb')]
      exact if_neg hne
    · change t.firstSlot _ _ = _
      rw [if_neg (failed ha), if_neg (failed hb')]
      exact (if_pos he).trans hpref

/-- The steps of a slot: those of its good sections, up to the first whose check fails (R413). -/
theorem slotSteps_good {h : SlotHdr} {all good : List (Sect × List Byte)} (hg : ∀ x ∈ good, sectCode x.1 x.2 = none) (rest : List (Sect × List Byte)) :
    slotSteps h all (good ++ rest) = good.flatMap (fun x => sectSteps x.1 x.2) ++ slotSteps h all rest := by
  induction good with
  | nil => rfl
  | cons x good ih =>
    obtain ⟨hx, hrest⟩ := List.forall_mem_cons.mp hg
    have hone : slotSteps h all (x :: (good ++ rest)) = sectSteps x.1 x.2 ++ slotSteps h all (good ++ rest) := by
      obtain ⟨x1, bs⟩ := x
      rw [slotSteps, hx]
    rw [List.cons_append, hone, ih hrest, List.flatMap_cons, List.append_assoc]

theorem slotSteps_bad {h : SlotHdr} {all : List (Sect × List Byte)} {x : Sect × List Byte} {c : Nat} (hx : sectCode x.1 x.2 = some c) (rest : List (Sect × List Byte)) :
    slotSteps h all (x :: rest) = [.fails c] := by
  obtain ⟨x1, bs⟩ := x
  rw [slotSteps, hx]

theorem State.blWaits_iff (s : State) : s.blWaits = true ↔ ∃ j, j < 11 ∧ ∃ a ∈ (s.xport j).pend, a.master = 9 := by
  simp [State.blWaits]

end Sys2Proof.Machine
end


section
/-! SUPPORT. The hand-over to the sequencer (R286, R415). -/
namespace Sys2Proof.Machine

theorem fld_mixWord_ones (old v : W) (lo w : Nat) : fld (mixWord old v (strbMask 0xFF)) lo w = fld v lo w := by
  have hmask : strbMask 0xFF = BitVec.allOnes 64 := by decide
  have hmix : mixWord old v (BitVec.allOnes 64) = v := by
    unfold mixWord
    rw [BitVec.and_allOnes, BitVec.not_allOnes, BitVec.and_zero, BitVec.zero_or]
  rw [hmask, hmix]

/-- What the loader's write of the tail of ring 8 leaves, and what it does where the rules of R286 let it (R36, R286). -/
theorem State.tailWrite_facts {s : State} (hs : s.canon) (n : Nat) :
    ∃ t, s.writeReg .bl (aRingtail 8) (BitVec.ofNat 64 n) 0xFF = (t, 0) ∧ t.canon ∧ t.routers = s.routers ∧ t.nis = s.nis ∧ t.boot = s.boot ∧ t.xports = s.xports ∧ t.tb = s.tb ∧
      (s.pm.mstate = .running → s.boot.bootDone = false → s.ringCount 8 ≤ (n % 2 ^ 16 + 65536 - s.head 8) % 65536 →
        (n % 2 ^ 16 + 65536 - s.head 8) % 65536 ≤ 4096 → t.tail 8 = n % 2 ^ 16) := by
  have hcanon : (s.writeReg .bl (aRingtail 8) (BitVec.ofNat 64 n) 0xFF).1.canon := (keeps_State_writeReg (Keeps.refl s)).canon hs
  by_cases hact : s.masterActs .bl = true
  · have hgo : ¬ (strbMask 0xFF = 0 ∨ s.masterActs .bl = false ∨ ((.bl : Master) = .bl ∧ blActs (aRingtail 8) = false)) := by
      rw [hact]
      decide
    have hfld : fld (mixWord (s.rd (aRingtail 8)) (BitVec.ofNat 64 n) (strbMask 0xFF)) 0 16 = n % 2 ^ 16 := by
      rw [fld_mixWord_ones]
      simp [fld]
    have hw : s.writeReg .bl (aRingtail 8) (BitVec.ofNat 64 n) 0xFF = (s.ringtailWrite .bl 8 (n % 2 ^ 16), 0) := by
      unfold State.writeReg
      dsimp only
      rw [if_neg hgo, if_neg (by decide), if_neg (by decide), if_neg (by decide), if_neg (by decide), if_neg (by decide), if_pos (by decide)]
      unfold State.seqWrite
      dsimp only
      rw [if_pos (by decide), if_neg (by decide), if_pos (by decide), hfld]
      rfl
    have howns : s.ownsRing .bl ((8 : RingId) : Fin 9).val = true := by
      unfold State.ownsRing
      rw [hact]
      rfl
    obtain ⟨hset, herr⟩ := State.ringtailWrite_cases howns (n % 2 ^ 16)
    rw [hw] at hcanon ⊢
    refine ⟨_, rfl, hcanon, ?_⟩
    by_cases hfit : s.ringCount 8 ≤ (n % 2 ^ 16 + 65536 - s.head 8) % 65536 ∧ (n % 2 ^ 16 + 65536 - s.head 8) % 65536 ≤ 4096
    · have htail : s.ringtailWrite .bl 8 (n % 2 ^ 16) = s.setPtr (aRingtail 8) (n % 2 ^ 16) := hset hfit
      rw [htail]
      exact ⟨rfl, rfl, rfl, rfl, rfl, fun _ _ _ _ => (State.ptr_setPtr hs.regs _ _).trans (Nat.mod_eq_of_lt (Nat.mod_lt _ (by decide)))⟩
    · have htail : s.ringtailWrite .bl 8 (n % 2 ^ 16) = s.ringError 8 := herr (by
        change (n % 2 ^ 16 + 65536 - s.head 8) % 65536 < s.ringCount 8 ∨ 4096 < (n % 2 ^ 16 + 65536 - s.head 8) % 65536
        omega)
      rw [htail]
      exact ⟨rfl, rfl, rfl, rfl, rfl, fun _ _ h1 h2 => absurd ⟨h1, h2⟩ hfit⟩
  · have hnone : s.writeReg .bl (aRingtail 8) (BitVec.ofNat 64 n) 0xFF = (s, 0) := if_pos (.inr (.inl (Bool.not_eq_true _ ▸ hact)))
    refine ⟨s, hnone, hs, rfl, rfl, rfl, rfl, rfl, fun hrun hdone => absurd ?_ hact⟩
    unfold State.masterActs
    rw [hrun, hdone]
    rfl

/-- A write of the loader at an idle port that is carried to no tile: it acts, and the port is free again. -/
theorem State.presentLocal_bl {s t : State} {j o c : Nat} {v : W} {b : BitVec 8} (hs : s.canon) (hj : j ≠ 9) (ho : o < 2 ^ 26) (cons last : Nat)
    (hc : ∀ u : State, u.carried j (blAcc o v b) 0 = none) (hwait : ∀ u : State, u.writeWaits .bl o v b = false)
    (hw : (s.setXport j ((s.xport j).grant (blAcc o v b) cons last)).writeReg .bl o v b = (t, c))
    (hx : t.xports = (s.setXport j ((s.xport j).grant (blAcc o v b) cons last)).xports) (htb : t.tb = s.tb) :
    (s.setXport j ((s.xport j).grant (blAcc o v b) cons last)).presentLocal j = t.lastBeat j := by
  have hhold : ((s.setXport j ((s.xport j).grant (blAcc o v b) cons last)).xport j) = (s.xport j).grant (blAcc o v b) cons last := State.xport_setXport s j _ hs
  generalize hs1 : s.setXport j ((s.xport j).grant (blAcc o v b) cons last) = s1 at hw hx hhold ⊢
  have htb1 : s1.tb = s.tb := by rw [← hs1]; rfl
  have hoff : (BitVec.ofNat 26 o).toNat = o := (BitVec.toNat_ofNat ..).trans (Nat.mod_eq_of_lt ho)
  have hcarried : s1.isCarried j (blAcc o v b) = false := by
    unfold State.isCarried
    have h0 := hc s1
    simpa [blAcc] using h0
  have hbeats : s1.beats (blAcc o v b) = (t, [(c, 0)]) := by
    have hbeat : s1.beat (blAcc o v b) 0 = (t, (c, 0)) := by
      change (let r := s1.writeReg .bl ((BitVec.ofNat 26 o).toNat + 8 * 0) v b; (r.1, (r.2, (0 : W)))) = _
      rw [hoff, Nat.mul_zero, Nat.add_zero, hw]
    change ((s1.beat (blAcc o v b) 0).1, [] ++ [(s1.beat (blAcc o v b) 0).2]) = _
    rw [hbeat]
    rfl
  have hwaits : s1.accWaits (blAcc o v b) = none := by
    have h0 : s1.writeWaits .bl ((BitVec.ofNat 26 o).toNat + 8 * 0) v b = false := by rw [hoff, Nat.mul_zero, Nat.add_zero]; exact hwait s1
    unfold State.accWaits
    refine (if_pos rfl).trans ?_
    change Option.map _ ((match s1.writeWaits .bl ((BitVec.ofNat 26 o).toNat + 8 * 0) v b with | true => some 0 | false => none) : Option Nat) = none
    rw [h0]
    rfl
  have hxt : (t.xport j) = (s.xport j).grant (blAcc o v b) cons last := by
    rw [← hhold]
    unfold State.xport
    rw [hx]
  unfold State.presentLocal
  rw [hhold]
  dsimp only [XPort.grant]
  rw [if_neg (by simp [Acc.missing, blAcc]), if_neg hj, hcarried, if_neg Bool.false_ne_true, hbeats]
  dsimp only
  rw [htb, htb1, if_neg (Nat.lt_irrefl _), hwaits]
  dsimp only
  unfold State.finishPort
  rw [hxt]
  rfl

end Sys2Proof.Machine
end


section
/-! SUPPORT. The end of the boot: what the hand-over leaves, and O38. -/
namespace Sys2Proof.Machine

/-- The event of the boot writes the status of its domain and no other register. -/
theorem State.bootEvent_rd_ne (s : State) {o : Nat} (h : o ≠ aDomstat 577) : s.bootEvent.rd o = s.rd o := by
  have pulse : Starts (· = aDomstat 577) s (s.ctPulse 65 577) := by
    unfold State.ctPulse
    dsimp only
    split
    · exact (Starts.refl s).setCt _ _
    · split
      · exact (Starts.refl s).setCt _ _
      · have hlost := ((Starts.refl (P := (· = aDomstat 577)) s).pb rfl PM_DOMSTAT.OVF true).sat rfl PM_DOMSTAT.OVFCNT
        unfold State.oncePer
        split
        · exact hlost
        · exact (hlost.setOnce _ _).raise _
  have hraise : Starts (· = aDomstat 577) s (s.raiseBasalt 1000) := by
    unfold State.raiseBasalt
    dsimp only
    split
    · exact pulse
    · exact (pulse.raise _).wakeMgmt
  unfold State.bootEvent
  dsimp only
  split
  · exact hraise.rd o h
  · rfl

/-- The register writes of the hand-over. -/
def State.handoverRegs (s : State) : State :=
  let h := s.hdrOf s.boot.cur
  let s := s.pb aSeqStatus SEQ_STATUS.READY true
  let s := (s.p aBootStat BOOT_STAT.VERSION ((h.map (·.version)).getD 0)).p aBootStat BOOT_STAT.KEYIDX ((h.map (·.keyidx)).getD 0)
  let s := (if s.gb aBootStat BOOT_STAT.SRC then s else s.pb aBootStat BOOT_STAT.SLOT s.boot.cur).pb aBootStat BOOT_STAT.FALLBACK (s.boot.cur != s.boot.first)
  s.setBootState bsDone

theorem State.handoverRegs_facts {s : State} (hs : s.regsOk) : RegsOnly s s.handoverRegs ∧ s.handoverRegs.gb aSeqStatus SEQ_STATUS.READY = true ∧
    s.handoverRegs.bootState = bsDone ∧ ∀ o, o ≠ aSeqStatus → o ≠ aBootStat → s.handoverRegs.rd o = s.rd o := by
  have hready : (s.pb aSeqStatus SEQ_STATUS.READY true).gb aSeqStatus SEQ_STATUS.READY = true := s.gb_pb_true _ _ hs (by decide) (by decide)
  have hother : ∀ o, o ≠ aSeqStatus → (s.pb aSeqStatus SEQ_STATUS.READY true).rd o = s.rd o := fun o ho => s.rd_wr_ne _ ho
  have hok1 : (s.pb aSeqStatus SEQ_STATUS.READY true).regsOk := State.regsOk_p hs _ _ _
  unfold State.handoverRegs
  dsimp only
  generalize ((s.hdrOf s.boot.cur).map (·.version)).getD 0 = ver
  generalize ((s.hdrOf s.boot.cur).map (·.keyidx)).getD 0 = key
  have hregs : RegsOnly s (s.pb aSeqStatus SEQ_STATUS.READY true) := (RegsOnly.refl s).pb _ _ _
  generalize s.pb aSeqStatus SEQ_STATUS.READY true = a at *
  have stat (u : State) (hok : u.regsOk) (hu : RegsOnly s u) (hr : u.gb aSeqStatus SEQ_STATUS.READY = true) (ho : ∀ o, o ≠ aSeqStatus → o ≠ aBootStat → u.rd o = s.rd o) (f : Fd) (x : Nat) :
      (u.p aBootStat f x).regsOk ∧ RegsOnly s (u.p aBootStat f x) ∧ (u.p aBootStat f x).gb aSeqStatus SEQ_STATUS.READY = true ∧
        ∀ o, o ≠ aSeqStatus → o ≠ aBootStat → (u.p aBootStat f x).rd o = s.rd o :=
    ⟨State.regsOk_p hok _ _ _, hu.p _ _ _, (congrArg (· != 0) (u.g_p_ne f SEQ_STATUS.READY x (by decide))).trans hr,
      fun o h1 h2 => (u.rd_wr_ne _ h2).trans (ho o h1 h2)⟩
  obtain ⟨h1, h2, h3, h4⟩ := stat a hok1 hregs hready (fun o h _ => hother o h) BOOT_STAT.VERSION ver
  obtain ⟨h1, h2, h3, h4⟩ := stat _ h1 h2 h3 h4 BOOT_STAT.KEYIDX key
  generalize (a.p aBootStat BOOT_STAT.VERSION ver).p aBootStat BOOT_STAT.KEYIDX key = b at *
  have slot : ∀ c : State, c = (if b.gb aBootStat BOOT_STAT.SRC then b else b.pb aBootStat BOOT_STAT.SLOT b.boot.cur) →
      c.regsOk ∧ RegsOnly s c ∧ c.gb aSeqStatus SEQ_STATUS.READY = true ∧ ∀ o, o ≠ aSeqStatus → o ≠ aBootStat → c.rd o = s.rd o := by
    intro c hc
    rw [hc]
    split
    · exact ⟨h1, h2, h3, h4⟩
    · exact stat _ h1 h2 h3 h4 _ _
  obtain ⟨h1, h2, h3, h4⟩ := slot _ rfl
  obtain ⟨h1, h2, h3, h4⟩ := stat _ h1 h2 h3 h4 BOOT_STAT.FALLBACK (b.boot.cur != b.boot.first).toNat
  obtain ⟨-, h6, h7, h8⟩ := stat _ h1 h2 h3 h4 BOOT_STAT.STATE bsDone
  exact ⟨h6, h7, (State.setBootState_reads h1 bsDone).1, h8⟩

/-- The last step of the hand-over (R415). -/
theorem State.handedOver_facts {s : State} (hs : s.regsOk) : s.handedOver.boot.bootDone = true ∧ s.handedOver.boot.ready = false ∧
    s.handedOver.gb aSeqStatus SEQ_STATUS.READY = true ∧ s.handedOver.bootState = bsDone ∧ s.handedOver.routers = s.routers ∧ s.handedOver.nis = s.nis ∧
    s.handedOver.tail 8 = s.tail 8 := by
  obtain ⟨hregs, hready, hstate, hrd⟩ := State.handoverRegs_facts hs
  have heq : s.handedOver = { s.handoverRegs with boot := { s.handoverRegs.boot with ready := false, bootDone := true } }.bootEvent := rfl
  rw [heq]
  have frame := State.bootEvent_frame { s.handoverRegs with boot := { s.handoverRegs.boot with ready := false, bootDone := true } }
  have reads {o : Nat} (ho : o ≠ aDomstat 577) : { s.handoverRegs with boot := { s.handoverRegs.boot with ready := false, bootDone := true } }.bootEvent.rd o = s.handoverRegs.rd o :=
    State.bootEvent_rd_ne _ ho
  generalize { s.handoverRegs with boot := { s.handoverRegs.boot with ready := false, bootDone := true } }.bootEvent = u at *
  have hg {o : Nat} (ho : o ≠ aDomstat 577) (f : Fd) : u.g o f = s.handoverRegs.g o f := congrArg (fun v => fld v f.lo f.w) (reads ho)
  have hrouters : s.handoverRegs.routers = s.routers := by rw [hregs]
  have hnis : s.handoverRegs.nis = s.nis := by rw [hregs]
  exact ⟨by rw [frame], by rw [frame], (congrArg (· != 0) (hg (by decide) _)).trans hready, (hg (by decide) _).trans hstate, by rw [frame]; exact hrouters,
    by rw [frame]; exact hnis, (hg (by decide) _).trans (congrArg (fun v => fld v SEQ_PTR.PTR.lo SEQ_PTR.PTR.w) (hrd _ (by decide) (by decide)))⟩

/-- A broadcast of the image changes the chain and takes a value. -/
theorem State.broadcastGo_frame (s : State) : s.broadcastGo = { s with chn := s.broadcastGo.chn, free := s.broadcastGo.free } := by
  have hsent (t : State) (src : Nat) (b : FrameBody) : PortsOnly t (t.toChildren src b) := .toChildren t src b
  have hall (t : State) (l : List (Nat × List Byte)) : PortsOnly t (l.foldl (fun s x => s.toChildren s.chnAddr (.qdata (BitVec.ofNat 32 x.1) x.2)) t) :=
    .foldl (fun _ _ => hsent _ _ _) l t
  have hcast (t : State) : t.broadcast = { t with chn := t.broadcast.chn, free := t.broadcast.free } := by
    unfold State.broadcast
    dsimp only
    generalize t.boot.image.flatMap (pieces t.free) = l
    rw [hsent _ _ _, hall t.nextFree l]
    rfl
  unfold State.broadcastGo
  split
  · rw [hcast]
  · rfl

/-- The hand-over of a slot that is ready, at an idle port (R286, R415). -/
theorem State.handover_idle {s : State} (hs : s.canon) (ho : s.outOfReset = true) (hr : s.boot.ready = true) (ht : s.boot.todo = [])
    (hidle : s.portIdle (portOf (aRingtail 8)) = true) :
    ∃ u, exec .handover s = .next u ∧ u.boot.bootDone = true ∧ u.boot.ready = false ∧ u.gb aSeqStatus SEQ_STATUS.READY = true ∧ u.bootState = bsDone ∧
      u.routers = s.routers ∧ u.nis = s.nis ∧
      (s.pm.mstate = .running → s.boot.bootDone = false → s.ringCount 8 ≤ (s.boot.tail % 2 ^ 16 + 65536 - s.head 8) % 65536 →
        (s.boot.tail % 2 ^ 16 + 65536 - s.head 8) % 65536 ≤ 4096 → u.tail 8 = s.boot.tail % 2 ^ 16) := by
  have hgo : ¬ (s.outOfReset = false ∨ s.boot.ready = false ∨ s.boot.todo ≠ []) := by simp [ho, hr, ht]
  have hrun : exec .handover s = .next (State.loadRun [.write (aRingtail 8) (BitVec.ofNat 64 s.boot.tail) 0xFF, .handed] s).broadcastGo :=
    congrArg Host.Outcome.next (if_neg hgo)
  generalize hx : (s.xport (portOf (aRingtail 8))).grant (blAcc (aRingtail 8) (BitVec.ofNat 64 s.boot.tail) 0xFF) 1 9 = x
  have hs1 : (s.setXport (portOf (aRingtail 8)) x).canon := ((Keeps.refl s).setXport _ _).canon hs
  obtain ⟨t, hw, htc, hrouters, hnis, hboot, hxports, htb, htail⟩ := State.tailWrite_facts hs1 s.boot.tail
  have hpresent : (s.setXport (portOf (aRingtail 8)) x).presentLocal (portOf (aRingtail 8)) = t.lastBeat (portOf (aRingtail 8)) := by
    subst hx
    refine State.presentLocal_bl hs (by decide) (by decide) 1 9 (fun u => ?_) (fun u => ?_) hw hxports htb
    · unfold State.carried
      exact (if_neg (by decide)).trans (if_neg fun h => absurd h.1 (by decide))
    · have hpu : (decide (puBase 0 ≤ aRingtail 8)) = false := by decide
      unfold State.writeWaits State.actWaits
      rw [hpu]
      simp
  have hload : State.loadRun [.write (aRingtail 8) (BitVec.ofNat 64 s.boot.tail) 0xFF, .handed] s = (t.lastBeat (portOf (aRingtail 8))).handedOver.setTodo [] := by
    have hfirst : State.loadRun [.write (aRingtail 8) (BitVec.ofNat 64 s.boot.tail) 0xFF, .handed] s =
        State.loadRun [.handed] ((s.setXport (portOf (aRingtail 8)) ((s.xport (portOf (aRingtail 8))).grant (blAcc (aRingtail 8) (BitVec.ofNat 64 s.boot.tail) 0xFF) 1 9)).presentLocal
          (portOf (aRingtail 8))) := if_pos hidle
    rw [hfirst, hx, hpresent]
    rfl
  rw [hload] at hrun
  have hbeat : (t.lastBeat (portOf (aRingtail 8))).routers = s.routers ∧ (t.lastBeat (portOf (aRingtail 8))).nis = s.nis ∧
      (t.lastBeat (portOf (aRingtail 8))).regsOk ∧ (t.lastBeat (portOf (aRingtail 8))).tail 8 = t.tail 8 := ⟨hrouters, hnis, htc.regs, rfl⟩
  generalize t.lastBeat (portOf (aRingtail 8)) = w at hrun hbeat
  obtain ⟨wrouters, wnis, wok, wtail⟩ := hbeat
  obtain ⟨hdone, hready, hflag, hstate, hr', hn', ht'⟩ := State.handedOver_facts wok
  generalize w.handedOver = z at *
  have hframe := State.broadcastGo_frame (z.setTodo [])
  generalize (z.setTodo []).broadcastGo = u at *
  refine ⟨u, hrun, ?_, ?_, ?_, ?_, ?_, ?_, fun h1 h2 h3 h4 => ?_⟩ <;> rw [hframe]
  · exact hdone
  · exact hready
  · exact hflag
  · exact hstate
  · exact hr'.trans wrouters
  · exact hn'.trans wnis
  · exact (ht'.trans wtail).trans (htail h1 h2 h3 h4)

/-- A slot that fails: the other one is tried once (R414). -/
theorem State.slotFails_cases {s : State} (hs : s.regsOk) (c : Nat) :
    (s.boot.cur ≠ s.boot.first → (s.slotFails c).bootState = bsFailed ∧ (s.slotFails c).boot.bootFail = true) ∧
    (s.boot.cur = s.boot.first → (s.hdrOf (!s.boot.cur)).isSome = true →
      (s.slotFails c).boot.cur = (!s.boot.cur) ∧ (s.slotFails c).bootState = bsLoading ∧ (s.slotFails c).boot.bootFail = s.boot.bootFail) := by
  have hok : (s.setRes s.boot.cur c).regsOk := State.regsOk_setRes hs _ c
  refine ⟨fun hne => ?_, fun he hh => ?_⟩
  · obtain ⟨hstate, hfail, -⟩ := State.bootFailed_reads hok
    have hend : s.slotFails c = (s.setRes s.boot.cur c).bootFailed := if_neg fun h => hne h.1
    rw [hend]
    exact ⟨hstate, hfail⟩
  · have hnext : s.slotFails c = { (s.setRes s.boot.cur c).setBootState bsLoading with
        boot := { ((s.setRes s.boot.cur c).setBootState bsLoading).boot with cur := !((s.setRes s.boot.cur c).setBootState bsLoading).boot.cur } } := if_pos ⟨he, hh⟩
    rw [hnext]
    exact ⟨rfl, (State.setBootState_reads hok bsLoading).1, rfl⟩

/-- Settles O38: discovery, headers, sections, signature, the loader's writes and the hand-over, each read off its equation. -/
theorem bootLoadsASlot : Obligations.BootLoadsASlot := by
  unfold Obligations.BootLoadsASlot
  refine ⟨?slots, ?steps, ?writes, ?ends⟩
  case slots =>
    intro s a b
    refine ⟨fun tab hp hb hs => ?_, pickMode_allowed, fun hp hb hla hlb hs => State.headersCheck hs.regs hp hb hla hlb, fun h z => if_pos h, fun h ho hr hh => ?_⟩
    · have hgo : ¬ (s.porstLow = true ∨ s.bootState ≠ bsSfdp) := by simp [hp, hb]
      have hm : ((if sfdpOk tab then pickMode tab (s.g aFuseCtl FUSE_CTL.SPIMAX) else ⟨0, 0x0B#8, 8⟩ : ReadMode)).mode ≤ 3 := by
        split
        · exact (pickMode_allowed _ _).1
        · exact Nat.zero_le _
      generalize hmode : (if sfdpOk tab then pickMode tab (s.g aFuseCtl FUSE_CTL.SPIMAX) else ⟨0, 0x0B#8, 8⟩ : ReadMode) = m at hm
      generalize hdens : (if sfdpOk tab = true then sfdpDensUsed tab else 24) = dens
      have hrun : exec (.sfdpDiscovery tab) s = .next ((s.pAll aBootSpi (spiWrites (sfdpOk tab) m dens)).setBootState bsHeaders) := by
        rw [← hmode, ← hdens]
        exact congrArg Host.Outcome.next (if_neg hgo)
      have hreads := State.spiWrites_reads hs.regs (sfdpOk tab) m dens hm
      have hregs := RegsOnly.pAll s aBootSpi (spiWrites (sfdpOk tab) m dens)
      have hok := State.regsOk_pAll hs.regs aBootSpi (spiWrites (sfdpOk tab) m dens)
      generalize s.pAll aBootSpi (spiWrites (sfdpOk tab) m dens) = t at *
      have hg (f : Fd) : (t.setBootState bsHeaders).g aBootSpi f = t.g aBootSpi f := t.g_p_ne _ f _ (by decide)
      have hgb (f : Fd) : (t.setBootState bsHeaders).gb aBootSpi f = t.gb aBootSpi f := congrArg (· != 0) (hg f)
      have hall : RegsOnly s (t.setBootState bsHeaders) := hregs.p _ _ _
      refine ⟨_, hrun, (State.setBootState_reads hok bsHeaders).1, by rw [hall], by rw [hall], by rw [hall], ?_⟩
      simp only [hg, hgb]
      exact hreads
    · have hgo : ∀ {w : Nat}, s.bootState = w → ¬ (s.outOfReset = false ∨ s.bootState ≠ w ∨ s.boot.ready = true) := by
        intro w hw
        simp [ho, hr, hw]
      refine ⟨fun bs hb ht hg => ?_, fun bs ht => congrArg Host.Outcome.next (if_pos (.inr (.inr (.inr (.inl ht))))), fun hb hv => ?_, fun hb hv => ?_⟩
      · refine congrArg Host.Outcome.next ((if_neg ?_).trans ?_)
        · simp [ho, hr, hb, ht]
        · rw [hh]
          exact if_pos hg
      · refine congrArg Host.Outcome.next ((if_neg (hgo hb)).trans ?_)
        rw [hh]
        exact if_pos hv
      · refine congrArg Host.Outcome.next ((if_neg (hgo hb)).trans ?_)
        rw [hh]
        exact if_neg (by rw [hv]; exact Bool.noConfusion)
  case steps =>
    intro h all good hg
    refine ⟨?_, fun x rest c hc => ?_⟩
    · have hall := slotSteps_good (h := h) (all := all) hg []
      rw [List.append_nil] at hall
      exact hall
    · rw [slotSteps_good hg, slotSteps_bad hc]
  case writes =>
    intro s o v b rest
    refine ⟨fun h => if_pos h, fun h => if_neg (by rw [h]; exact Bool.noConfusion), fun hn ht => if_neg ?_, fun j a hj ha hm => if_pos ?_⟩
    · have hwait : s.blWaits = false := by
        rw [← Bool.not_eq_true, State.blWaits_iff]
        rintro ⟨j, hj, a, ha, hm⟩
        exact hn j hj a ha hm
      rw [hwait]
      simpa using ht
    · have hwait : s.blWaits = true := s.blWaits_iff.mpr ⟨j, hj, a, ha, hm⟩
      rw [hwait, Bool.or_true]
  case ends =>
    intro s hs
    refine ⟨fun ht => congrArg Host.Outcome.next (if_pos (.inr (.inr ht))), fun ho hr ht hi => ?_, fun ho hr ht hi => State.handover_idle hs ho hr ht hi,
      fun h => congrArg Host.Outcome.next (if_pos (h.imp_right .inl)), fun c => (State.slotFails_cases hs.regs c).1, fun c => (State.slotFails_cases hs.regs c).2⟩
    have hgo : ¬ (s.outOfReset = false ∨ s.boot.ready = false ∨ s.boot.todo ≠ []) := by simp [ho, hr, ht]
    exact congrArg Host.Outcome.next ((if_neg hgo).trans (congrArg State.broadcastGo (if_neg (by rw [hi]; exact Bool.noConfusion))))

end Sys2Proof.Machine
end


section
/-! SUPPORT. A host's clock that runs again ends no wait of the sequencer: O34. -/
namespace Sys2Proof.Machine

/-- Context 0 awaits the injection of a CTL that no longer stands at the crossing, and host 0 holds HSREADY at 0. -/
def hostHolds : State := (Tests.waiting Tests.up (.inject 0 0) 0 none).setHost 0 { XHost.reset with hold := true }

/-- What context 0 awaits. -/
def awaited : Res → Option Wait
  | .next u => some (u.ctx 0).wait
  | _ => none

theorem hostHolds_recheck : awaited (.next (hostHolds.setHost 0 { hostHolds.host 0 with stopped := false, irqKept := none }).recheck) = some .none := by decide +kernel

theorem hostHolds_restart : awaited (exec (.clockRestart (.host 0)) hostHolds) = some (.inject 0 0) := by decide +kernel

/-- Refutes O34: with HSREADY at 0, a host's clock that runs again only sets the host's own state. The statement has the look at the contexts follow it, which ends the wait of context 0. -/
theorem not_crossingsKeepPulses : ¬ Obligations.CrossingsKeepPulses := by
  intro h
  obtain ⟨-, clocks⟩ := h
  obtain ⟨-, -, -, held, -⟩ := clocks hostHolds 0 0 0
  have hrestart := congrArg awaited (held (by decide +kernel) (Tests.canon_of (by decide +kernel)))
  rw [hostHolds_restart] at hrestart
  exact absurd (hrestart.trans hostHolds_recheck) (by decide)

end Sys2Proof.Machine
end


section
/-! SUPPORT. The answers of messages, and their absence (R260 to R262, R300, R316). -/
namespace Sys2Proof.Machine

/-- The CTL that is listed first under its number, and has been sent, is the one that its CRSP ends. -/
theorem State.sentCtl_of {s : State} {o : OutCtl} (hf : s.seq.ctls.find? (fun x => x.id == o.id) = some o) (hh : o.held = none) : s.sentCtl o.id = some o := by
  obtain ⟨-, before, after, hl, hbefore⟩ := List.find?_eq_some_iff_append.mp hf
  refine List.find?_eq_some_iff_append.mpr ⟨by simp [hh], before, after, hl, fun x hx => ?_⟩
  have hx := hbefore x hx
  simp only [Bool.not_eq_true', beq_eq_false_iff_ne, ne_eq] at hx ⊢
  simp [hx]

theorem crspComb_counted {r : CrspBody} (h : r.lenm1 = 15 ∧ r.data ≠ []) :
    crspComb r = some ⟨r.data.getD 0 0, fld (r.data.getD 1 0) 0 16, fld (r.data.getD 1 0) 16 16, fld (r.data.getD 1 0) 32 16⟩ := by
  simp [crspComb, crspCounts, hasCounts, h.1, h.2]

theorem crspComb_uncounted {r : CrspBody} (h : ¬ (r.lenm1 = 15 ∧ r.data ≠ [])) : crspComb r = none := by
  have hno : hasCounts r = false := by
    rw [← Bool.not_eq_true]
    intro hc
    exact h (by simpa [hasCounts] using hc)
  simp [crspComb, crspCounts, hno]

/-- The counts of a CRSP, as a gather writes them. -/
theorem countsWord_of_word (c : W) : countsWord (fld c 0 16) (fld c 16 16) (fld c 32 16) = BitVec.ofNat 64 (fld c 0 48) := by
  have h0 : fld c 0 16 < 2 ^ 16 := (c.extractLsb' 0 16).isLt
  have h1 : fld c 16 16 < 2 ^ 16 := (c.extractLsb' 16 16).isLt
  have h2 : fld c 32 16 < 2 ^ 16 := (c.extractLsb' 32 16).isLt
  unfold countsWord
  rw [Nat.min_eq_left (by omega), Nat.min_eq_left (by omega), Nat.min_eq_left (by omega)]
  congr 1
  simp only [fld, BitVec.extractLsb'_toNat, Nat.shiftRight_eq_div_pow]
  have := c.isLt
  omega

section
variable {s u : State} {o : OutCtl} {j : Job}

/-- A gather that ends where nothing is due. -/
theorem State.gatherEnds_eq (hj : (s.ctx o.ctx).job = some j) (hd : (s.ctx o.ctx).due = none) (hu : u.seq.ctx = s.seq.ctx) (v c : W) :
    (u.dropCtl o.id).gatherEnds o.ctx v c = (u.dropCtl o.id).retired o.ctx ((j.set (iRd (s.ctx o.ctx).word) v).set (iRd (s.ctx o.ctx).word + 1) c) (j.pc + 1) := by
  have hctx : (u.dropCtl o.id).ctx o.ctx = s.ctx o.ctx := congrArg (fun x : Vector Ctx 4 => x[o.ctx]) hu
  unfold State.gatherEnds
  dsimp only
  rw [State.done_eq (j := j) (by rw [hctx]; exact hj) (by rw [hctx]; exact hd), hctx]
end

/-- What a CRSP does that comes for the CTL that awaits it (R260, R316). -/
theorem execCrsp_takes {s s' : State} {o : OutCtl} {r : CrspBody} (hf : s.seq.ctls.find? (fun x => x.id == o.id) = some o) (hh : o.held = none)
    (ht : s.takeCrsp (fun k => k.tag == o.tag && k.src == o.dest && sameBody k r) = some s') :
    exec (.crsp o.id r) s = .next (s'.crspIn o r).barrGo.recheck := by
  change Host.Outcome.next (s.crsp o.id r) = _
  unfold State.crsp
  rw [State.sentCtl_of hf hh]
  dsimp only
  rw [ht]

/-- Taking a CRSP out of the queue leaves the contexts. -/
theorem State.takeCrsp_ctx {s s' : State} {p : Pkt → Bool} (h : s.takeCrsp p = some s') : s'.seq.ctx = s.seq.ctx := by
  obtain ⟨x, -, rfl⟩ := Option.map_eq_some_iff.mp h
  rfl

theorem State.ctx_of {s t : State} (h : t.seq.ctx = s.seq.ctx) (c : CtxId) : t.ctx c = s.ctx c := congrArg (fun x : Vector Ctx 4 => x[c]) h

/-- A CRSP for a CTL that no operation over the chain awaits, by what the CTL belongs to (R260 to R262). -/
theorem State.ctlAnswer_cases {s u : State} {o : OutCtl} (hu : u.seq.ctx = s.seq.ctx) (r : CrspBody) :
    (o.kind = .step → s.stepAwaits o.ctx o.id = false → u.ctlAnswer o r = u.dropCtl o.id) ∧
    (o.kind = .send → respRead r.resp = Resp.OK → u.ctlAnswer o r = u.dropCtl o.id) ∧
    (o.kind = .send → respRead r.resp ≠ Resp.OK → u.ctlAnswer o r = (u.dropCtl o.id).tsError o.key 1) ∧
    (o.kind = .bcast → u.ctlAnswer o r = (u.dropCtl o.id).tsError o.key (if r.lenm1 = 15 ∧ r.data ≠ [] then
      fld (r.data.getD 1 0) 16 16 + fld (r.data.getD 1 0) 32 16 else if respRead r.resp = Resp.OK then 0 else 1)) ∧
    (∀ l, o.kind = .call → (s.ctx o.ctx).wait = .call o.id l → u.ctlAnswer o r = (u.dropCtl o.id).callEnds o.ctx l r) ∧
    (o.kind = .call → (s.ctx o.ctx).wait = .gather o.id → u.ctlAnswer o r = u.gatherAnswer o r) := by
  have hctx := State.ctx_of hu o.ctx
  unfold State.ctlAnswer
  rw [hctx]
  refine ⟨fun hk hn => ?_, fun hk hok => ?_, fun hk hok => ?_, fun hk => ?_, fun l hk hw => ?_, fun hk hw => ?_⟩ <;> simp only [hk]
  · cases hw : (s.ctx o.ctx).wait with
    | step k id =>
      have hne : id ≠ o.id := by simpa [State.stepAwaits, hw] using hn
      exact if_neg hne
    | _ => rfl
  · exact if_pos hok
  · exact if_neg hok
  · by_cases hc : r.lenm1 = 15 ∧ r.data ≠ []
    · rw [crspComb_counted hc, if_pos hc]
      rfl
    · rw [crspComb_uncounted hc, if_neg hc]
  · simp only [hw]
    exact if_pos trivial
  · simp only [hw]
    exact if_pos trivial

/-- Settles O18: a CRSP is read by what its CTL belongs to, and CALLTO as well. -/
theorem answersOfMessages : Obligations.AnswersOfMessages := by
  unfold Obligations.AnswersOfMessages
  refine ⟨?sent, ?held, ?unknown⟩
  case sent =>
    intro s o r hf hh late counted counts gathered
    have hlate : late.seq.ctx = s.seq.ctx := rfl
    refine ⟨fun s' ht => ?crsp, fun hk => ?_, fun l hk hw => ?_, fun j hk hw hj hd => ?_, fun hk => ?_⟩
    case crsp =>
      intro s1 off
      have hs' : s'.seq.ctx = s.seq.ctx := State.takeCrsp_ctx ht
      have hs1 : s1.seq.ctx = s.seq.ctx := by
        change (if fld o.tag 8 3 ≠ 0 ∧ bitOf r.aux 12 = true then s'.raise 944 else s').seq.ctx = _
        split
        · exact hs'
        · exact hs'
      have hrun : exec (.crsp o.id r) s = .next (match o.op with | some opid => s1.ownAnswer o opid r | none => s1.ctlAnswer o r).barrGo.recheck :=
        execCrsp_takes hf hh ht
      have hplain (hop : o.op = none) {v : State} (hv : s1.ctlAnswer o r = v) : exec (.crsp o.id r) s = .next v.barrGo.recheck := by
        rw [hrun, hop, ← hv]
      obtain ⟨hstep, hok, hbad, hbcast, hcall, hgather⟩ := State.ctlAnswer_cases (o := o) hs1 r
      refine ⟨fun hop hk hn => hplain hop (hstep hk hn), fun hop => ⟨fun hk h => hplain hop (hok hk h), fun hk h => hplain hop (hbad hk h), fun hk => hplain hop (hbcast hk),
        fun l hk hw => hplain hop (hcall l hk hw), fun j hk hw hj hd => ⟨fun hc => hplain hop ((hgather hk hw).trans ?_), fun hc => hplain hop ((hgather hk hw).trans ?_)⟩⟩,
        fun j opid hop hk hw hj hd hc => ?_⟩
      · unfold State.gatherAnswer
        rw [crspComb_counted hc]
        dsimp only
        rw [State.gatherEnds_eq hj hd hs1, countsWord_of_word]
      · unfold State.gatherAnswer
        rw [crspComb_uncounted hc]
        dsimp only
        unfold State.gatherFails
        rw [hop, State.gatherEnds_eq hj hd hs1]
        rfl
      · have hawaits : s1.gatherAwaits o = true := by
          unfold State.gatherAwaits
          rw [State.ctx_of hs1, hw]
          exact beq_self_eq_true o.id
        have hown : s1.ownAnswer o opid r = s1.gatherFails o := by
          refine if_pos ?_
          rw [hk, crspComb_uncounted hc, hawaits]
          rfl
        have hfails : s1.gatherFails o = gathered off j 0 (countsWord 0 0 (o.tiles + s1.tilesBelow)) := by
          unfold State.gatherFails
          rw [hop, State.gatherEnds_eq hj hd hs1]
          rfl
        rw [hrun, hop]
        dsimp only
        rw [hown, hfails]
    · have hgo : ¬ o.held.isSome = true := by rw [hh]; exact Bool.noConfusion
      change Host.Outcome.next _ = _
      rw [hf]
      dsimp only
      rw [if_neg hgo]
      rcases hk with hk | hk <;> rw [hk]
    · have hgo : ¬ o.held.isSome = true := by rw [hh]; exact Bool.noConfusion
      change Host.Outcome.next _ = _
      rw [hf]
      dsimp only
      rw [if_neg hgo, hk]
      dsimp only
      rw [hw]
      exact congrArg Host.Outcome.next (if_pos rfl)
    · have hgo : ¬ o.held.isSome = true := by rw [hh]; exact Bool.noConfusion
      change Host.Outcome.next _ = _
      rw [hf]
      dsimp only
      rw [if_neg hgo, hk]
      dsimp only
      rw [hw]
      refine congrArg Host.Outcome.next ((if_pos rfl).trans (congrArg (fun x : State => x.barrGo.recheck) ?_))
      unfold State.gatherFails
      rw [State.gatherEnds_eq hj hd hlate]
    · have hgo : ¬ o.held.isSome = true := by rw [hh]; exact Bool.noConfusion
      change Host.Outcome.next _ = _
      rw [hf]
      dsimp only
      rw [if_neg hgo, hk]
  case held =>
    intro s o hf hh
    change Host.Outcome.next _ = _
    rw [hf]
    exact congrArg Host.Outcome.next (if_pos hh)
  case unknown =>
    intro s id r k before after hno hrx lone hk hbefore
    have hnone : s.sentCtl id = none := List.find?_eq_none.mpr fun x hx => by simp [hno x hx]
    have hlone (x : Pkt) : (sameBody x r && s.seq.ctls.all (fun o => o.held.isSome || !(o.tag == x.tag && o.dest == x.src))) = true ↔ lone x := by
      simp only [lone, Bool.and_eq_true, List.all_eq_true, Bool.or_eq_true, Bool.not_eq_true', Bool.and_eq_false_iff, beq_eq_false_iff_ne, and_congr_right_iff]
      refine fun _ => forall₂_congr fun o _ => ?_
      cases o.held <;> simp [Decidable.imp_iff_not_or]
    have hfirst := extract_first (p := fun x => sameBody x r && s.seq.ctls.all (fun o => o.held.isSome || !(o.tag == x.tag && o.dest == x.src))) (x := k) (before := before)
      (after := after) (fun x hx => by rw [← Bool.not_eq_true, hlone]; exact hbefore x hx) ((hlone k).mpr hk)
    change Host.Outcome.next (s.crsp id r) = _
    unfold State.crsp State.takeCrsp
    rw [hnone, hrx]
    dsimp only
    rw [hfirst]
    rfl

end Sys2Proof.Machine
end


section
/-! SUPPORT. Probes, trace buffers, shared settings and self-tests (R35, R450 to R456). -/
namespace Sys2Proof.Machine

/-- Several words written at offsets that differ. -/
theorem State.rd_wrAll {s : State} (hs : s.regsOk) {a : Nat → Nat} (v : Nat → W) (ha : ∀ i j, a i = a j → i = j) (n : Nat) :
    let t := (List.range n).foldl (fun s k => s.wr (a k) (v k)) s
    t.regsOk ∧ RegsOnly s t ∧ (∀ k, k < n → t.rd (a k) = v k) ∧ ∀ o, (∀ k, k < n → o ≠ a k) → t.rd o = s.rd o := by
  induction n with
  | zero => exact ⟨hs, .refl s, nofun, fun _ _ => rfl⟩
  | succ n ih =>
    obtain ⟨hok, hregs, hrd, hother⟩ := ih
    rw [List.range_succ, List.foldl_append]
    generalize (List.range n).foldl (fun s k => s.wr (a k) (v k)) s = t at *
    refine ⟨State.regsOk_wr hok _ _, hregs.wr _ _, fun k hk => ?_, fun o ho => (t.rd_wr_ne _ (ho n (by omega))).trans (hother o fun k hk => ho k (by omega))⟩
    by_cases he : k = n
    · rw [he]
      exact t.rd_wr _ _ hok
    · exact (t.rd_wr_ne _ (fun h => he (ha _ _ h))).trans (hrd k (by omega))

theorem State.rd_p {s : State} (hs : s.regsOk) (o : Nat) (f : Fd) (x : Nat) : (s.p o f x).rd o = setFld (s.rd o) f.lo f.w x := s.rd_wr _ _ hs

theorem State.rd_pb_ne (s : State) {o i : Nat} (f : Fd) (b : Bool) (h : i ≠ o) : (s.pb o f b).rd i = s.rd i := s.rd_wr_ne _ h

theorem State.pb_parts (s : State) (o : Nat) (f : Fd) (b : Bool) : (s.pb o f b).routers = s.routers ∧ (s.pb o f b).agents = s.agents := ⟨rfl, rfl⟩

theorem mergedBit (old v m : W) {i : Nat} (h : bitOf m i = true) : bitOf ((old &&& ~~~m) ||| (v &&& m)) i = bitOf v i := by
  simp only [bitOf] at *
  simp [h]

theorem ownerCode_lt {m : Master} (h : masterIsSeq m = true ∨ (masterHost m).isSome = true) : ownerCode m < 16 := by
  cases m with
  | host i => exact Nat.lt_of_lt_of_le i.isLt (by decide)
  | chHost i => exact Nat.lt_of_lt_of_le i.isLt (by decide)
  | sq r => exact Nat.lt_of_lt_of_le (show 8 < 9 by decide) (by decide)
  | chSq => exact Nat.lt_of_lt_of_le (show 8 < 9 by decide) (by decide)
  | bl => exact absurd h (by decide)

theorem State.obsWriter_of {s : State} {m : Master} (ha : s.masterActs m = true) (hm : masterIsSeq m = true ∨ (masterHost m).isSome = true) : s.obsWriter m = true := by
  simpa [State.obsWriter, ha] using hm

theorem State.obsWriter_not {s : State} {m : Master} (h : s.masterActs m = false ∨ (masterIsSeq m = false ∧ masterHost m = none)) : s.obsWriter m = false := by
  unfold State.obsWriter
  rcases h with h | ⟨h1, h2⟩
  · rw [h, Bool.false_and]
  · rw [h1, h2]
    exact Bool.and_false _

-- Probes.

/-- What binding a probe anew does beside its counters. -/
def State.unmatched (s : State) (p : Nat) : State :=
  let s := (s.setTrSeq p 0).setSamp p 0
  { s with obs := { s.obs with lost := s.obs.lost.filter (· != p), binds := tput 0 s.obs.binds p (s.bindNo p + 1) } }

theorem State.clearProbe_eq (s : State) (p : Nat) : s.clearProbe p = ((List.range 4).foldl (fun s k => s.wr (aPrbCnt p k) 0) s).unmatched p := rfl

theorem State.unmatched_facts (s : State) (p : Nat) : (s.unmatched p).regs = s.regs ∧ (s.unmatched p).build = s.build ∧ (s.unmatched p).routers = s.routers ∧
    (s.unmatched p).agents = s.agents := ⟨rfl, rfl, rfl, rfl⟩

/-- A probe that is bound anew counts from zero. -/
theorem State.clearProbe_facts {s : State} (hs : s.regsOk) (p : Nat) :
    (s.clearProbe p).regsOk ∧ (s.clearProbe p).routers = s.routers ∧ (s.clearProbe p).agents = s.agents ∧ (∀ i, i < 4 → (s.clearProbe p).rd (aPrbCnt p i) = 0) ∧
      ∀ o, (∀ i, i < 4 → o ≠ aPrbCnt p i) → (s.clearProbe p).rd o = s.rd o := by
  obtain ⟨hok, hregs, hzero, hother⟩ := State.rd_wrAll hs (a := aPrbCnt p) (fun _ => 0) (fun i j h => by unfold aPrbCnt at h; omega) 4
  rw [State.clearProbe_eq]
  generalize (List.range 4).foldl (fun s k => s.wr (aPrbCnt p k) 0) s = t at hok hregs hzero hother ⊢
  obtain ⟨ur, ub, urouters, uagents⟩ := t.unmatched_facts p
  have hrd (o : Nat) : (t.unmatched p).rd o = t.rd o := State.rd_of ur ub o
  refine ⟨?_, ?_, ?_, fun i hi => (hrd _).trans (hzero i hi), fun o ho => (hrd o).trans (hother o ho)⟩
  · unfold State.regsOk at hok ⊢
    rw [ur, ub]
    exact hok
  · rw [urouters, hregs]
  · rw [uagents, hregs]

theorem aPrb_ne_aPrbCnt (p i : Nat) : aPrb p ≠ aPrbCnt p i := by unfold aPrbCnt; omega

/-- A probe's control register with a new word and a new owner. -/
def State.ownedProbe (s : State) (m : Master) (p : Nat) (w : W) : State := (s.wr (aPrb p) w).p (aPrb p) OBS_PRBCTL.OWNER (ownerCode m)

/-- The probe names no tile, or its tile has no slot left. -/
def State.bindErr (s : State) (p : Nat) : Bool :=
  decide (144 ≤ s.g (aPrb p) OBS_PRBCTL.TILE) || decide (4 ≤ s.slotsTaken (s.g (aPrb p) OBS_PRBCTL.TILE) p)

theorem State.probeWrite_eq {s : State} {m : Master} {p : Nat} {v w : W} (hw : (s.rd (aPrb p) &&& ~~~prbRw) ||| (v &&& prbRw) = w)
    (hold : bitOf (s.rd (aPrb p)) 0 = false) (hb : bitOf w 0 = true) :
    s.probeWrite m p v = (((s.ownedProbe m p w).clearProbe p).pb (aPrb p) OBS_PRBCTL.BOUND false).pb (aPrb p) OBS_PRBCTL.BINDERR ((s.ownedProbe m p w).bindErr p) := by
  have hset : ¬ bitOf w 0 = false := by rw [hb]; exact Bool.noConfusion
  have hnew : ¬ (bitOf (s.rd (aPrb p)) 0 = true ∧ probePoint (s.rd (aPrb p)) = probePoint w) := fun h => by rw [hold] at h; exact Bool.noConfusion h.1
  have hown : ¬ bitOf (s.rd (aPrb p)) 0 = true := by rw [hold]; exact Bool.noConfusion
  unfold State.probeWrite
  dsimp only
  rw [hw]
  rw [if_neg hset, if_neg hnew, if_neg hown]
  rfl

theorem State.ownedProbe_facts {s : State} (hs : s.regsOk) (m : Master) (p : Nat) (w : W) : (s.ownedProbe m p w).regsOk ∧
    (s.ownedProbe m p w).rd (aPrb p) = setFld w 32 4 (ownerCode m) ∧ (s.ownedProbe m p w).routers = s.routers ∧ (s.ownedProbe m p w).agents = s.agents := by
  have hw0 : (s.wr (aPrb p) w).regsOk := State.regsOk_wr hs _ _
  exact ⟨State.regsOk_p hw0 _ _ _, (State.rd_p hw0 _ _ _).trans (congrArg (fun x => setFld x 32 4 (ownerCode m)) (s.rd_wr _ _ hs)), rfl, rfl⟩

/-- A probe that a write binds (R452). -/
theorem State.probeWrite_binds {s : State} (hs : s.regsOk) {m : Master} (hm : ownerCode m < 16) {p : Nat} {v w : W}
    (hw : (s.rd (aPrb p) &&& ~~~prbRw) ||| (v &&& prbRw) = w) (he : s.gb (aPrb p) OBS_PRBCTL.EN = false) (hb : bitOf w 0 = true) :
    ∃ u, s.probeWrite m p v = u ∧
    u.gb (aPrb p) OBS_PRBCTL.EN = true ∧ u.gb (aPrb p) OBS_PRBCTL.BOUND = false ∧ u.g (aPrb p) OBS_PRBCTL.OWNER = ownerCode m ∧
      (144 ≤ fld w 4 8 → u.gb (aPrb p) OBS_PRBCTL.BINDERR = true) ∧ (∀ i, i < 4 → u.rd (aPrbCnt p i) = 0) ∧ u.routers = s.routers ∧ u.agents = s.agents := by
  refine ⟨_, State.probeWrite_eq hw ((bitOf_eq_fld _ _).symm.trans he) hb, ?_⟩
  obtain ⟨zok, hz, zrouters, zagents⟩ := State.ownedProbe_facts hs m p w
  have htile : (s.ownedProbe m p w).g (aPrb p) OBS_PRBCTL.TILE = fld w 4 8 := (congrArg (fun x => fld x 4 8) hz).trans (fld_setFld_ne _ _ _ _ _ _ (by decide))
  have hbad : 144 ≤ fld w 4 8 → (s.ownedProbe m p w).bindErr p = true := fun h => by
    unfold State.bindErr
    rw [htile, decide_eq_true h, Bool.true_or]
  generalize (s.ownedProbe m p w).bindErr p = bad at hbad ⊢
  obtain ⟨cok, crouters, cagents, ccnt, cother⟩ := State.clearProbe_facts zok p
  have hc : ((s.ownedProbe m p w).clearProbe p).rd (aPrb p) = setFld w 32 4 (ownerCode m) := (cother _ fun i _ => aPrb_ne_aPrbCnt p i).trans hz
  rw [zrouters] at crouters
  rw [zagents] at cagents
  generalize (s.ownedProbe m p w).clearProbe p = c at cok crouters cagents ccnt hc ⊢
  have hbound : (c.pb (aPrb p) OBS_PRBCTL.BOUND false).rd (aPrb p) = setFld (setFld w 32 4 (ownerCode m)) 2 1 0 := by rw [← hc]; exact State.rd_p cok _ _ _
  have hur : ((c.pb (aPrb p) OBS_PRBCTL.BOUND false).pb (aPrb p) OBS_PRBCTL.BINDERR bad).rd (aPrb p) = setFld (setFld (setFld w 32 4 (ownerCode m)) 2 1 0) 3 1 bad.toNat := by
    rw [← hbound]
    exact State.rd_p (State.regsOk_p cok _ _ _) _ _ _
  have hcnt (i : Nat) : ((c.pb (aPrb p) OBS_PRBCTL.BOUND false).pb (aPrb p) OBS_PRBCTL.BINDERR bad).rd (aPrbCnt p i) = c.rd (aPrbCnt p i) :=
    ((c.pb (aPrb p) OBS_PRBCTL.BOUND false).rd_pb_ne _ _ (Ne.symm (aPrb_ne_aPrbCnt p i))).trans (c.rd_pb_ne _ _ (Ne.symm (aPrb_ne_aPrbCnt p i)))
  have hparts : ((c.pb (aPrb p) OBS_PRBCTL.BOUND false).pb (aPrb p) OBS_PRBCTL.BINDERR bad).routers = c.routers ∧
      ((c.pb (aPrb p) OBS_PRBCTL.BOUND false).pb (aPrb p) OBS_PRBCTL.BINDERR bad).agents = c.agents :=
    ⟨(State.pb_parts _ _ _ _).1.trans (c.pb_parts _ _ _).1, (State.pb_parts _ _ _ _).2.trans (c.pb_parts _ _ _).2⟩
  generalize (c.pb (aPrb p) OBS_PRBCTL.BOUND false).pb (aPrb p) OBS_PRBCTL.BINDERR bad = u at hur hcnt hparts ⊢
  have hg (f : Fd) : u.g (aPrb p) f = fld (setFld (setFld (setFld w 32 4 (ownerCode m)) 2 1 0) 3 1 bad.toNat) f.lo f.w := congrArg (fun v => fld v f.lo f.w) hur
  simp only [State.gb, hg, OBS_PRBCTL.EN, OBS_PRBCTL.BOUND, OBS_PRBCTL.OWNER, OBS_PRBCTL.BINDERR]
  simp (disch := decide) only [fld_setFld_mod, fld_setFld_ne, bitOf_eq_fld]
  exact ⟨hb, rfl, Nat.mod_eq_of_lt hm, fun h => by rw [hbad h]; rfl, fun i hi => (hcnt i).trans (ccnt i hi), hparts.1.trans crouters, hparts.2.trans cagents⟩

-- Trace buffers.

/-- What arming a buffer writes into its control register. -/
def armWrites (owner : Nat) : List (Fd × Nat) :=
  [(OBS_TBCTL.WIDX, 0), (OBS_TBCTL.WRAPPED, 0), (OBS_TBCTL.FROZEN, 0), (OBS_TBCTL.LOST, 0), (OBS_TBCTL.OWNER, owner)]

/-- A buffer that is armed is empty and its master's (R456). -/
theorem State.tbctlWrite_arms {s : State} (hs : s.regsOk) {m : Master} (ha : s.masterActs m = true) (hm : masterIsSeq m = true ∨ (masterHost m).isSome = true) {b : Nat} {v : W}
    (h0 : s.gb (aTbctl b) OBS_TBCTL.ARM = false) (hv : bitOf v 0 = true) :
    let u := s.tbctlWrite m b v
    u.gb (aTbctl b) OBS_TBCTL.ARM = true ∧ u.g (aTbctl b) OBS_TBCTL.WIDX = 0 ∧ u.gb (aTbctl b) OBS_TBCTL.FROZEN = false ∧ u.gb (aTbctl b) OBS_TBCTL.WRAPPED = false ∧
      u.g (aTbctl b) OBS_TBCTL.LOST = 0 ∧ u.g (aTbctl b) OBS_TBCTL.OWNER = ownerCode m := by
  intro u
  generalize hw : (s.rd (aTbctl b) &&& ~~~tbRw) ||| (v &&& tbRw) = w
  have hbit : bitOf w 0 = true := by rw [← hw, mergedBit _ _ _ (by decide)]; exact hv
  have hallow : s.obsWriter m = true ∧ ownerAllows m (s.gb (aTbctl b) OBS_TBCTL.ARM) (s.g (aTbctl b) OBS_TBCTL.OWNER) = true := by
    refine ⟨State.obsWriter_of ha hm, ?_⟩
    unfold ownerAllows
    rw [h0]
    simp
  have hu : u = ((s.wr (aTbctl b) w).pAll (aTbctl b) (armWrites (ownerCode m))).setPost b none := by
    change s.tbctlWrite m b v = _
    unfold State.tbctlWrite
    dsimp only
    rw [hw, if_pos hallow, if_pos hv]
    unfold State.pAll armWrites
    simp only [List.foldl_cons, List.foldl_nil]
    rfl
  have hrd : u.rd (aTbctl b) = (armWrites (ownerCode m)).foldl (fun v w => setFld v w.1.lo w.1.w w.2) w := by
    have hpost (x : State) : (x.setPost b none).rd (aTbctl b) = x.rd (aTbctl b) := rfl
    rw [hu, hpost, State.rd_pAll (State.regsOk_wr hs _ _), s.rd_wr _ _ hs]
  have hg (f : Fd) : u.g (aTbctl b) f = fld ((armWrites (ownerCode m)).foldl (fun v w => setFld v w.1.lo w.1.w w.2) w) f.lo f.w := congrArg (fun v => fld v f.lo f.w) hrd
  have hlt := ownerCode_lt hm
  simp only [State.gb, hg, armWrites, List.foldl_cons, List.foldl_nil, OBS_TBCTL.ARM, OBS_TBCTL.WIDX, OBS_TBCTL.FROZEN, OBS_TBCTL.WRAPPED, OBS_TBCTL.LOST, OBS_TBCTL.OWNER]
  simp (disch := decide) only [fld_setFld_mod, fld_setFld_ne, bitOf_eq_fld]
  exact ⟨hbit, rfl, rfl, rfl, rfl, Nat.mod_eq_of_lt hlt⟩

/-- The words of a trace record stand in its buffer. -/
theorem aTrec_ne_aTbctl {b i k b' : Nat} (hb' : b' < 8) : aTrec b i k ≠ aTbctl b' := by
  unfold aTrec aTbctl
  omega

section Store

/-- The state after the words of a record, and WIDX and WRAPPED after them. -/
def State.stored (s : State) (b : Nat) (ws : List W) : State :=
  let i := s.g (aTbctl b) OBS_TBCTL.WIDX
  let s := (List.range 4).foldl (fun s k => s.wr (aTrec b i k) (ws.getD k 0)) s
  let stops := decide (i = 2047) && s.gb (aTbctl b) OBS_TBCTL.STOPFULL
  let s := if stops then s else s.p (aTbctl b) OBS_TBCTL.WIDX ((i + 1) % 2048)
  if decide (i = 2047) && !stops then s.pb (aTbctl b) OBS_TBCTL.WRAPPED true else s

/-- What storing a record makes of the buffer's control register, before it freezes. -/
def storedCtl (v : W) (i : Nat) : W :=
  let stops := decide (i = 2047) && bitOf v 1
  let v := if stops then v else setFld v 4 11 ((i + 1) % 2048)
  if decide (i = 2047) && !stops then setFld v 3 1 1 else v

theorem State.stored_facts {s : State} (hs : s.regsOk) {b : Nat} (hb : b < 8) (ws : List W) :
    (s.stored b ws).regsOk ∧ (s.stored b ws).obs = s.obs ∧ (∀ k, k < 4 → (s.stored b ws).rd (aTrec b (s.g (aTbctl b) OBS_TBCTL.WIDX) k) = ws.getD k 0) ∧
      (s.stored b ws).rd (aTbctl b) = storedCtl (s.rd (aTbctl b)) (s.g (aTbctl b) OBS_TBCTL.WIDX) := by
  unfold State.stored
  dsimp only
  generalize s.g (aTbctl b) OBS_TBCTL.WIDX = i
  obtain ⟨wok, wregs, wrec, wother⟩ := State.rd_wrAll hs (a := aTrec b i) (fun k => ws.getD k 0) (fun j k h => by unfold aTrec at h; omega) 4
  have wctl := wother (aTbctl b) fun k _ => (aTrec_ne_aTbctl hb).symm
  generalize (List.range 4).foldl (fun s k => s.wr (aTrec b i k) (ws.getD k 0)) s = y at *
  have wobs : y.obs = s.obs := by rw [wregs]
  have hstop : y.gb (aTbctl b) OBS_TBCTL.STOPFULL = bitOf (s.rd (aTbctl b)) 1 := by
    rw [← wctl]
    exact bitOf_eq_fld _ _
  have step (z : State) (v : W) (hz : z.regsOk ∧ z.obs = s.obs ∧ (∀ k, k < 4 → z.rd (aTrec b i k) = ws.getD k 0) ∧ z.rd (aTbctl b) = v) (f : Fd) (x : Nat) :
      (z.p (aTbctl b) f x).regsOk ∧ (z.p (aTbctl b) f x).obs = s.obs ∧ (∀ k, k < 4 → (z.p (aTbctl b) f x).rd (aTrec b i k) = ws.getD k 0) ∧
        (z.p (aTbctl b) f x).rd (aTbctl b) = setFld v f.lo f.w x := by
    obtain ⟨h1, h2, h3, h4⟩ := hz
    exact ⟨State.regsOk_p h1 _ _ _, h2, fun k hk => (z.rd_wr_ne _ (aTrec_ne_aTbctl hb)).trans (h3 k hk), h4 ▸ State.rd_p h1 _ _ _⟩
  have h0 := And.intro wok (And.intro wobs (And.intro wrec wctl))
  unfold storedCtl
  dsimp only
  rw [hstop]
  generalize decide (i = 2047) = full
  generalize bitOf (s.rd (aTbctl b)) 1 = stop
  have hnext := step _ _ h0 OBS_TBCTL.WIDX ((i + 1) % 2048)
  have hwrap := step _ _ hnext OBS_TBCTL.WRAPPED 1
  cases full with
  | false => exact hnext
  | true =>
    cases stop with
    | false => exact hwrap
    | true => exact h0

/-- A record that is stored: its words at WIDX, then WIDX, WRAPPED and FROZEN (R456). -/
theorem State.traceStore_facts {s : State} (hs : s.regsOk) {b : Nat} (hb : b < 8) (p : Nat) (ws : List W) :
    let t := aTbctl b
    let u := s.traceStore b p ws
    let i := s.g t OBS_TBCTL.WIDX
    u.obs.rx = s.obs.rx ∧ (∀ k, k < 4 → u.rd (aTrec b i k) = ws.getD k 0) ∧
      (i ≠ 2047 ∨ s.gb t OBS_TBCTL.STOPFULL = false → u.g t OBS_TBCTL.WIDX = (i + 1) % 2048) ∧
      (i = 2047 → s.gb t OBS_TBCTL.STOPFULL = false → u.gb t OBS_TBCTL.WRAPPED = true) ∧
      (i = 2047 → s.gb t OBS_TBCTL.STOPFULL = true →
        u.gb t OBS_TBCTL.FROZEN = true ∧ u.g t OBS_TBCTL.WIDX = 2047 ∧ u.gb t OBS_TBCTL.WRAPPED = s.gb t OBS_TBCTL.WRAPPED) := by
  intro t u i
  obtain ⟨zok, zobs, zrec, zctl⟩ := State.stored_facts hs hb ws
  have hstop : ((List.range 4).foldl (fun s k => s.wr (aTrec b i k) (ws.getD k 0)) s).gb t OBS_TBCTL.STOPFULL = bitOf (s.rd t) 1 := by
    obtain ⟨-, -, -, wother⟩ := State.rd_wrAll hs (a := aTrec b i) (fun k => ws.getD k 0) (fun j k h => by unfold aTrec at h; omega) 4
    have wctl := wother t fun k _ => (aTrec_ne_aTbctl hb).symm
    rw [← wctl]
    exact bitOf_eq_fld _ _
  have hform : ∃ n : Option Nat, u = (if (decide (i = 2047) && ((List.range 4).foldl (fun s k => s.wr (aTrec b i k) (ws.getD k 0)) s).gb t OBS_TBCTL.STOPFULL || n == some 0) = true then
      ((s.stored b ws).setPost b n).pb t OBS_TBCTL.FROZEN true else (s.stored b ws).setPost b n) := ⟨_, rfl⟩
  obtain ⟨n, hform⟩ := hform
  rw [hstop] at hform
  have hsame : s.gb t OBS_TBCTL.STOPFULL = bitOf (s.rd t) 1 := bitOf_eq_fld _ _
  rw [hsame]
  generalize s.stored b ws = z at *
  have hend : u.obs.rx = s.obs.rx ∧ (∀ k, k < 4 → u.rd (aTrec b i k) = ws.getD k 0) ∧
      u.rd t = if (decide (i = 2047) && bitOf (s.rd t) 1 || n == some 0) = true then setFld (storedCtl (s.rd t) i) 2 1 1 else storedCtl (s.rd t) i := by
    rw [hform]
    split
    · exact ⟨(congrArg Obs.rx zobs : z.obs.rx = _), fun k hk => (State.rd_wr_ne (z.setPost b n) _ (aTrec_ne_aTbctl hb)).trans (zrec k hk), zctl ▸ State.rd_p (s := z.setPost b n) zok _ _ _⟩
    · exact ⟨(congrArg Obs.rx zobs : z.obs.rx = _), zrec, zctl⟩
  obtain ⟨hrx, hrec, hctl⟩ := hend
  have hg (lo w : Nat) (h : lo + w ≤ 2 ∨ 2 + 1 ≤ lo) : fld (u.rd t) lo w = fld (storedCtl (s.rd t) i) lo w := by
    rw [hctl]
    split
    · exact fld_setFld_ne _ _ _ _ _ _ h
    · rfl
  refine ⟨hrx, hrec, fun h => (hg 4 11 (by decide)).trans ?_, fun h1 h2 => (congrArg (· != 0) (hg 3 1 (by decide))).trans ?_, fun h1 h2 =>
    ⟨?_, (hg 4 11 (by decide)).trans ?_, (congrArg (· != 0) (hg 3 1 (by decide))).trans ?_⟩⟩
  · have hgo : (decide (i = 2047) && bitOf (s.rd t) 1) = false := by
      rcases h with h | h
      · rw [decide_eq_false h, Bool.false_and]
      · rw [h, Bool.and_false]
    unfold storedCtl
    dsimp only
    rw [hgo, if_neg Bool.false_ne_true]
    split
    · simp (disch := decide) only [fld_setFld_ne, fld_setFld]
      omega
    · simp (disch := decide) only [fld_setFld]
      omega
  · unfold storedCtl
    dsimp only
    rw [h1, h2]
    simp (disch := decide) [fld_setFld]
  · have hfro : (fld (u.rd t) 2 1 != 0) = true := by
      rw [hctl, h2, decide_eq_true h1]
      simp (disch := decide) [fld_setFld]
    exact hfro
  · unfold storedCtl
    dsimp only
    rw [h2, decide_eq_true h1]
    exact h1
  · unfold storedCtl
    dsimp only
    rw [h2, decide_eq_true h1]
    rfl

end Store

end Sys2Proof.Machine
end


section
/-! SUPPORT. Self-tests of tile memories (R377, R451), and O48. -/
namespace Sys2Proof.Machine

-- What a test destroys.

/-- The memories of a tile that a test destroys, one kind at a time. -/
def State.destroyRouter (s : State) (t pl : Nat) (b : Bool) : State := if b then s.setRouter t pl { s.router t pl with inv := [] } else s

def State.destroyNis (s : State) (t : Nat) (b : Bool) : State :=
  if b then (List.range 3).foldl (fun s p => s.setNi t p { s.ni t p with injq := [], rx := [], pres := [], rspq := [], mbox := [], mboxQ := none }) s else s

theorem State.destroy_eq (s : State) (t groups : Nat) :
    s.destroy t groups = ((s.destroyRouter t 0 (groups.testBit 0)).destroyRouter t 1 (groups.testBit 1)).destroyNis t (groups.testBit 2) := rfl

theorem State.destroyRouter_regs (s : State) (t pl : Nat) (b : Bool) : (s.destroyRouter t pl b).regs = s.regs ∧ (s.destroyRouter t pl b).build = s.build := by
  unfold State.destroyRouter
  split <;> exact ⟨rfl, rfl⟩

theorem State.canon_setRouter {s : State} (hs : s.canon) (t pl : Nat) (x : Router) : (s.setRouter t pl x).canon := ((Keeps.refl s).setRouter t pl x).canon hs

theorem State.destroyNis_parts (s : State) (t : Nat) (b : Bool) : (s.destroyNis t b).regs = s.regs ∧ (s.destroyNis t b).build = s.build ∧ (s.destroyNis t b).routers = s.routers := by
  unfold State.destroyNis
  split
  · generalize List.range 3 = l
    induction l generalizing s with
    | nil => exact ⟨rfl, rfl, rfl⟩
    | cons p l ih => exact ih _
  · exact ⟨rfl, rfl, rfl⟩

/-- The request-plane and the response-plane buffers of a tile after a test. -/
theorem State.destroy_facts {s : State} (hs : s.canon) (t groups : Nat) :
    (s.destroy t groups).canon ∧ (∀ o, (s.destroy t groups).rd o = s.rd o) ∧
      (groups.testBit 0 = true → ((s.destroy t groups).router t 0).inv = []) ∧ (groups.testBit 1 = true → ((s.destroy t groups).router t 1).inv = []) := by
  have hc : (s.destroy t groups).canon := (keeps_State_destroy (Keeps.refl s)).canon hs
  refine ⟨hc, ?_⟩
  clear hc
  rw [State.destroy_eq]
  have h0 : (s.destroyRouter t 0 (groups.testBit 0)).canon ∧ (groups.testBit 0 = true → ((s.destroyRouter t 0 (groups.testBit 0)).router t 0).inv = []) := by
    unfold State.destroyRouter
    split
    · exact ⟨State.canon_setRouter hs _ _ _, fun _ => by rw [State.router_setRouter _ _ _ _ hs]⟩
    · next h => exact ⟨hs, fun h' => absurd h' h⟩
  obtain ⟨ra, ba⟩ := s.destroyRouter_regs t 0 (groups.testBit 0)
  generalize s.destroyRouter t 0 (groups.testBit 0) = a at *
  obtain ⟨ca, ha⟩ := h0
  have h1 : ((a.destroyRouter t 1 (groups.testBit 1)).router t 0 = a.router t 0) ∧
      (groups.testBit 1 = true → ((a.destroyRouter t 1 (groups.testBit 1)).router t 1).inv = []) := by
    unfold State.destroyRouter
    split
    · exact ⟨tget_tput_ne _ (by unfold rkey; omega), fun _ => by rw [State.router_setRouter _ _ _ _ ca]⟩
    · next h => exact ⟨rfl, fun h' => absurd h' h⟩
  obtain ⟨rb, bb⟩ := a.destroyRouter_regs t 1 (groups.testBit 1)
  generalize a.destroyRouter t 1 (groups.testBit 1) = b at *
  obtain ⟨rn, bn, routersN⟩ := b.destroyNis_parts t (groups.testBit 2)
  generalize b.destroyNis t (groups.testBit 2) = c at *
  have hrouter (pl : Nat) : c.router t pl = b.router t pl := by
    unfold State.router
    rw [routersN]
  refine ⟨fun o => State.rd_of (rn.trans (rb.trans ra)) (bn.trans (bb.trans ba)) o, fun h => ?_, fun h => ?_⟩
  · rw [hrouter, h1.1]
    exact ha h
  · rw [hrouter]
    exact h1.2 h

theorem bitOf_fld {n : Nat} (v : BitVec n) (i : Nat) : bitOf v i = (fld v i 1 != 0) := by
  unfold bitOf fld
  rw [BitVec.extractLsb'_toNat, Nat.shiftRight_eq_div_pow, BitVec.getLsbD, Nat.testBit_eq_decide_div_mod_eq]
  rcases Nat.mod_two_eq_zero_or_one (v.toNat / 2 ^ i) with h | h <;> simp [h]

theorem State.g_setAgent (s : State) (t : Nat) (x : Agent) (o : Nat) (f : Fd) : (s.setAgent t x).g o f = s.g o f := rfl

/-- What starting a test writes into the tile's register. -/
def bistStarts (g : Nat) : List (Fd × Nat) :=
  [(TL_MBIST.GROUP, g), (TL_MBIST.BUSY, 1), (TL_MBIST.DONE, 0), (TL_MBIST.FAIL, 0), (TL_MBIST.FAILGRP, 0), (TL_MBIST.FADDR, 0)]

/-- What the end of a test writes into the tile's register. -/
def bistEnds (f addr : Nat) : List (Fd × Nat) :=
  [(TL_MBIST.BUSY, 0), (TL_MBIST.DONE, 1), (TL_MBIST.FAIL, (f != 0).toNat), (TL_MBIST.FAILGRP, f), (TL_MBIST.FADDR, addr)]

theorem State.canon_pAll {s : State} (hs : s.canon) (o : Nat) (ws : List (Fd × Nat)) : (s.pAll o ws).canon := by
  induction ws generalizing s with
  | nil => exact hs
  | cons w ws ih => exact ih ((keeps_State_p (Keeps.refl s)).canon hs)

theorem State.g_pAll {s : State} (hs : s.regsOk) (o : Nat) (ws : List (Fd × Nat)) (f : Fd) :
    (s.pAll o ws).g o f = fld (ws.foldl (fun v w => setFld v w.1.lo w.1.w w.2) (s.rd o)) f.lo f.w := congrArg (fun v => fld v f.lo f.w) (State.rd_pAll hs o ws)

theorem testBit_fld (v : W) (i : Nat) (hi : i < 3) : (fld v 1 3).testBit i = bitOf v (1 + i) := by
  unfold fld bitOf
  rw [← BitVec.getLsbD, BitVec.getLsbD_extractLsb']
  simp [hi]

/-- A test that starts (R451). -/
theorem State.mbistWrite_starts {s : State} (hs : s.canon) {t : Nat} {v : W} (hbusy : s.gb (aMbist t) TL_MBIST.BUSY = false) (hv : bitOf v 0 = true) :
    let u := s.mbistWrite t v
    u.gb (aMbist t) TL_MBIST.BUSY = true ∧ u.gb (aMbist t) TL_MBIST.DONE = false ∧ (u.agent t).bist = some (fld v 1 3) ∧
      (bitOf v 1 = true → (u.router t 0).inv = []) ∧ (bitOf v 2 = true → (u.router t 1).inv = []) := by
  intro u
  have hgo : ¬ (bitOf v 0 = false ∨ (s.p (aMbist t) TL_MBIST.GROUP (fld v 1 3)).gb (aMbist t) TL_MBIST.BUSY = true) := by
    have hsame : (s.p (aMbist t) TL_MBIST.GROUP (fld v 1 3)).gb (aMbist t) TL_MBIST.BUSY = s.gb (aMbist t) TL_MBIST.BUSY :=
      congrArg (· != 0) (s.g_p_other _ _ _ _ hs.regs (by decide))
    rw [hsame, hbusy, hv]
    decide
  have hu : u = ((s.pAll (aMbist t) (bistStarts (fld v 1 3))).destroy t (fld v 1 3)).setAgent t
      { ((s.pAll (aMbist t) (bistStarts (fld v 1 3))).destroy t (fld v 1 3)).agent t with bist := some (fld v 1 3) } := by
    change s.mbistWrite t v = _
    unfold State.mbistWrite
    dsimp only
    rw [if_neg hgo]
    rfl
  have hy := State.canon_pAll hs (aMbist t) (bistStarts (fld v 1 3))
  have hg (f : Fd) := State.g_pAll hs.regs (aMbist t) (bistStarts (fld v 1 3)) f
  generalize s.pAll (aMbist t) (bistStarts (fld v 1 3)) = y at hu hy hg
  obtain ⟨dc, drd, d0, d1⟩ := State.destroy_facts hy t (fld v 1 3)
  generalize y.destroy t (fld v 1 3) = z at hu dc drd d0 d1
  have hread (f : Fd) : u.g (aMbist t) f = fld ((bistStarts (fld v 1 3)).foldl (fun v w => setFld v w.1.lo w.1.w w.2) (s.rd (aMbist t))) f.lo f.w := by
    rw [← hg f, hu]
    exact congrArg (fun v => fld v f.lo f.w) (drd _)
  have hrouter (pl : Nat) : u.router t pl = z.router t pl := by rw [hu]; rfl
  have hagent : (u.agent t).bist = some (fld v 1 3) := by rw [hu, State.agent_setAgent _ _ _ dc]
  rw [testBit_fld v 0 (by decide)] at d0
  rw [testBit_fld v 1 (by decide)] at d1
  rw [hrouter, hrouter]
  refine ⟨?_, ?_, hagent, d0, d1⟩
  · simp only [State.gb, hread, bistStarts, List.foldl_cons, List.foldl_nil, TL_MBIST.GROUP, TL_MBIST.BUSY, TL_MBIST.DONE, TL_MBIST.FAIL, TL_MBIST.FAILGRP, TL_MBIST.FADDR]
    simp (disch := decide) only [fld_setFld, fld_setFld_ne]
    rfl
  · simp only [State.gb, hread, bistStarts, List.foldl_cons, List.foldl_nil, TL_MBIST.GROUP, TL_MBIST.BUSY, TL_MBIST.DONE, TL_MBIST.FAIL, TL_MBIST.FAILGRP, TL_MBIST.FADDR]
    simp (disch := decide) only [fld_setFld, fld_setFld_ne]
    rfl

/-- A test that ends (R451). -/
theorem State.tileBist_ends {s : State} (hs : s.canon) (t g fail addr : Nat) :
    let u := s.tileBist t g fail addr
    u.gb (aMbist t) TL_MBIST.BUSY = false ∧ u.gb (aMbist t) TL_MBIST.DONE = true ∧ u.g (aMbist t) TL_MBIST.FAILGRP = Nat.land g fail % 8 ∧
      (u.gb (aMbist t) TL_MBIST.FAIL = true ↔ Nat.land g fail ≠ 0) ∧ (u.agent t).bist = none := by
  intro u
  generalize hf : Nat.land g fail = f
  generalize ha : (if f = 0 then 0 else addr) = a
  have hu : u = (s.pAll (aMbist t) (bistEnds f a)).setAgent t { (s.pAll (aMbist t) (bistEnds f a)).agent t with bist := none } := by
    change s.tileBist t g fail addr = _
    unfold State.tileBist
    dsimp only
    rw [hf, ha]
    rfl
  have hy := State.canon_pAll hs (aMbist t) (bistEnds f a)
  have hg (h : Fd) := State.g_pAll hs.regs (aMbist t) (bistEnds f a) h
  generalize s.pAll (aMbist t) (bistEnds f a) = y at hu hy hg
  have hread (h : Fd) : u.g (aMbist t) h = fld ((bistEnds f a).foldl (fun v w => setFld v w.1.lo w.1.w w.2) (s.rd (aMbist t))) h.lo h.w := by
    rw [← hg h, hu, State.g_setAgent]
  have hagent : (u.agent t).bist = none := by rw [hu, State.agent_setAgent _ _ _ hy]
  simp only [State.gb, hread, bistEnds, List.foldl_cons, List.foldl_nil, TL_MBIST.BUSY, TL_MBIST.DONE, TL_MBIST.FAIL, TL_MBIST.FAILGRP, TL_MBIST.FADDR]
  simp (disch := decide) only [fld_setFld_mod, fld_setFld_ne, fieldMod_bool]
  exact ⟨rfl, rfl, rfl, bne_iff_ne, hagent⟩

/-- Settles O48: who may write a probe or a buffer, what binding, arming and storing leave, the shared settings, and the self-tests. -/
theorem probesTracesAndSelfTests : Obligations.ProbesTracesAndSelfTests := by
  unfold Obligations.ProbesTracesAndSelfTests
  have no {b : Bool} (h : b = false) : ¬ b = true := by rw [h]; exact Bool.noConfusion
  refine ⟨?observe, ?tests⟩
  case observe =>
    intro s m p b v hs o w
    refine ⟨fun h => ?_, fun he hq hne => ?_, fun ha hm he hb => ?_, fun h1 h2 => congrArg Host.Outcome.next (if_pos ⟨h1, h2⟩), fun h => congrArg Host.Outcome.next (if_neg ?_),
      fun ha hm h0 hv => ⟨_, rfl, State.tbctlWrite_arms hs.regs ha hm h0 hv⟩, fun ws rest hrx hrun hp => ?_, fun c en k changes hc => ?_, fun hc => ?_⟩
    · have hw := State.obsWriter_not h
      exact ⟨congrArg Host.Outcome.next (if_neg fun hc => no hw hc.1), congrArg Host.Outcome.next (if_neg fun hc => no hw hc.1)⟩
    · refine congrArg Host.Outcome.next (if_neg fun hc => ?_)
      have hallow := hc.2
      unfold ownerAllows at hallow
      rw [hq, he] at hallow
      exact hne (by simpa using hallow)
    · have hallow : s.obsWriter m = true ∧ ownerAllows m (s.gb (aPrb p.val) OBS_PRBCTL.EN) (s.g (aPrb p.val) OBS_PRBCTL.OWNER) = true := by
        refine ⟨State.obsWriter_of ha hm, ?_⟩
        unfold ownerAllows
        rw [he]
        simp
      obtain ⟨u, hu, hfacts⟩ := State.probeWrite_binds hs.regs (ownerCode_lt hm) (v := v) rfl he hb
      exact ⟨u, congrArg Host.Outcome.next ((if_pos hallow).trans hu), hfacts⟩
    · rintro ⟨h1, h2⟩
      rcases h with h | h
      · exact no h h1
      · exact no h2 h
    · intro t
      have htake : exec .traceRecord s = .next ({ s with obs := { s.obs with rx := rest } }.traceIn p.val ws) := by
        change Host.Outcome.next _ = _
        rw [hrx]
        dsimp only
        rw [if_pos hrun, hp]
      have htbuf : s.g o OBS_PRBCTL.TBUF < 8 := BitVec.isLt _
      refine ⟨fun h => htake.trans (congrArg Host.Outcome.next (if_pos h)), fun h1 h2 h3 => ?_⟩
      obtain ⟨frx, ffacts⟩ := State.traceStore_facts (s := { s with obs := { s.obs with rx := rest } }) hs.regs htbuf p.val ws
      refine ⟨_, htake.trans (congrArg Host.Outcome.next (if_neg ?_)), frx, ffacts⟩
      rintro (h | h | h)
      · exact no h h1
      · exact no h2 h
      · exact h h3
    · refine ⟨{ s.until (s.rst0 + c) with obs := { s.obs with calPend := changes, calLog2 := k, calEn := en } }, ?_, rfl, Nat.le_max_right _ _, rfl⟩
      change Host.Outcome.next _ = _
      rw [hc]
    · change Host.Outcome.next _ = _
      rw [hc]
  case tests =>
    intro s m v t fg fa hs
    have hin : ¬ 144 ≤ t.val := Nat.not_le.mpr t.isLt
    refine ⟨fun hr ht ho => ?_, fun hr => congrArg Host.Outcome.next (if_pos (.inl hr)), fun g hg => ?_, fun h1 h2 => ?_⟩
    · have hgo : ¬ (s.sqRight m = false ∨ s.g aRstaddr PM_RSTADDR.OFFSET ≠ 0x4400 ∨ 144 ≤ s.g aRstaddr PM_RSTADDR.TILE) := by
        rw [hr, ho, ht]
        simp
      have hrun : exec (.tlMbistStart m v) s = .next (if s.windowOpen t.val then s.mbistWrite t.val v else s.pmReject t.val) := by
        refine congrArg Host.Outcome.next ((if_neg hgo).trans ?_)
        rw [ht]
      refine ⟨fun hst hbusy hv => ⟨_, hrun.trans (congrArg Host.Outcome.next (if_pos ?_)), State.mbistWrite_starts hs hbusy hv⟩, fun h4 h7 =>
        hrun.trans (congrArg Host.Outcome.next (if_neg ?_))⟩
      · rcases hst with hst | hst <;> simp [State.windowOpen, hst, stFenced, stRestore]
      · simp [State.windowOpen, h4, h7, stFenced, stRestore]
    · refine ⟨_, ?_, State.tileBist_ends hs t.val g fg.toNat fa.toNat⟩
      change Host.Outcome.next _ = _
      dsimp only
      rw [hg]
    · generalize hf : (fg != 0) = f
      have hmb : ∃ x : Nat, exec (.mbistDone none fg fa) s =
          .next { s with tap := { s.tap with mb := setFld (setFld (setFld (setFld s.tap.mb 8 1 0) 9 1 1) 10 1 f.toNat) 16 16 x } } := by
        rw [← hf]
        exact ⟨_, congrArg Host.Outcome.next (if_pos ⟨h1, h2⟩)⟩
      obtain ⟨x, hrun⟩ := hmb
      refine ⟨_, hrun, ?_⟩
      dsimp only
      simp (disch := decide) only [bitOf_fld, fld_setFld, fld_setFld_ne, bne_zero_toNat_mod]
      exact ⟨rfl, rfl, by rw [← hf, bne_iff_ne], trivial⟩

end Sys2Proof.Machine
end


section
/-! SUPPORT. The power of tiles: what a reset of a tile leaves, its links, the restore window (R369, R376, R377, R445). -/
namespace Sys2Proof.Machine

-- Tables that lose or change some of their keys.

theorem tget_filter_gone {α : Type} {d : α} {t : Tab α} {p : Nat → Bool} {k : Nat} (h : p k = false) : tget d (t.filter (fun kv => p kv.1)) k = d := by
  induction t with
  | nil => rfl
  | cons kv t ih =>
    obtain ⟨j, a⟩ := kv
    rw [List.filter_cons]
    split
    · next hj =>
      have hne : j ≠ k := fun he => by
        rw [he, h] at hj
        exact Bool.noConfusion hj
      rw [tget, if_neg hne]
      exact ih
    · exact ih

/-- A map over the entries by their keys, its default ones left out. -/
theorem tget_mapKeyed {α β : Type} [DecidableEq α] [DecidableEq β] {d : α} {e : β} {f : Nat → α → β} (hf : ∀ k, f k d = e) {t : Tab α} (ht : t.wf (fun _ => d) = true) (k : Nat) :
    tget e ((t.map (fun kv => (kv.1, f kv.1 kv.2))).filter (fun kv => kv.2 != e)) k = f k (tget d t k) := by
  unfold Tab.wf at ht
  generalize 0 = b at ht
  induction t generalizing b with
  | nil => exact (hf k).symm
  | cons kv t ih =>
    obtain ⟨j, a⟩ := kv
    simp only [Tab.okAbove, Bool.and_eq_true, decide_eq_true_eq] at ht
    obtain ⟨⟨_, _⟩, hrest⟩ := ht
    rw [List.map_cons, List.filter_cons]
    by_cases hj : j = k
    · subst hj
      rw [tget, if_pos rfl]
      split
      · rw [tget, if_pos rfl]
      · next he =>
        have hdef : f j a = e := by simpa using he
        rw [tget_below (okAbove_map f hrest) (Nat.lt_succ_self j), hdef]
    · have hget : tget d ((j, a) :: t) k = tget d t k := by rw [tget, if_neg hj]
      rw [hget]
      split
      · rw [tget, if_neg hj]
        exact ih _ hrest
      · exact ih _ hrest

section Reset
variable {s : State} {i : Nat}

theorem State.resetTile_router (s : State) (i : Nat) {pl : Nat} (hpl : pl < 2) : (s.resetTile i).router i pl = Router.reset := by
  refine tget_filter_gone (p := fun k => k / 2 != i) ?_
  have hkey : rkey i pl / 2 = i := by unfold rkey; omega
  simp [hkey]

theorem State.resetTile_link (s : State) (i d : Nat) : (s.resetTile i).link i 0 d = s.link i 0 d ∨ (s.resetTile i).link i 0 d = LinkX.reset := by
  cases hp : (lkey i 0 d / 8 != i) with
  | true => exact .inl (tget_filter_key (p := fun k => k / 8 != i) hp)
  | false => exact .inr (tget_filter_gone (p := fun k => k / 8 != i) hp)

/-- The ports of a tile that is reset keep what their endpoints' pins say; those of every other tile stay. -/
theorem State.resetTile_ni (hs : s.canon) (k p : Nat) (hp : p < 3) : (s.resetTile i).ni k p = if k = i then (s.ni k p).pins else s.ni k p := by
  have hmap := tget_mapKeyed (f := fun key (x : Ni) => if key / 3 = i then x.pins else x) (d := Ni.reset) (e := Ni.reset) (fun key => by split <;> rfl) hs.nis (nkey k p)
  have hkey : nkey k p / 3 = k := by unfold nkey; omega
  rw [hkey] at hmap
  exact hmap

theorem State.resetTile_rd_gone (s : State) (i : Nat) {o : Nat} (h1 : tlBase i ≤ o) (h2 : o < tlBase i + 0x10000) (h3 : o ≠ aFence i) :
    (s.resetTile i).rd o = resetVal s.build o := by
  refine tget_filter_gone (p := fun k => k < tlBase i || tlBase i + 0x10000 ≤ k || k == aFence i) ?_
  simp only [Bool.or_eq_false_iff, decide_eq_false_iff_not, beq_eq_false_iff_ne]
  omega

theorem State.resetTile_rd (s : State) (i : Nat) {o : Nat} (h : o < tlBase i ∨ tlBase i + 0x10000 ≤ o ∨ o = aFence i) : (s.resetTile i).rd o = s.rd o := by
  refine tget_filter_key (p := fun k => k < tlBase i || tlBase i + 0x10000 ≤ k || k == aFence i) ?_
  simp only [Bool.or_eq_true, decide_eq_true_eq, beq_iff_eq]
  omega

theorem State.resetTile_agent (hs : s.canon) (i : Nat) : (s.resetTile i).agent i = { Agent.reset with edge := (s.agent i).edge, level := (s.agent i).level } :=
  tget_tput (d := fun _ => Agent.reset) _ _ hs.agents

end Reset

-- The links of a tile whose power changes.

/-- A status register of a link. -/
def InLnk (o : Nat) : Prop := baseTl ≤ o ∧ 0x4100 ≤ (o - baseTl) % 0x10000

/-- t is s after links were taken DOWN or train. -/
structure LinksTurn (s t : State) : Prop where
  frame : t = { s with regs := t.regs, links := t.links }
  rd : ∀ o, ¬ InLnk o → t.rd o = s.rd o

theorem LinksTurn.refl (s : State) : LinksTurn s s := ⟨rfl, fun _ _ => rfl⟩

theorem LinksTurn.trans {s t u : State} (h : LinksTurn s t) (k : LinksTurn t u) : LinksTurn s u where
  frame := by
    obtain ⟨ht, -⟩ := h
    obtain ⟨hu, -⟩ := k
    rw [ht] at hu
    exact hu
  rd o ho := (k.rd o ho).trans (h.rd o ho)

theorem LinksTurn.foldl {α : Type} {f : State → α → State} {l : List α} (hf : ∀ s, ∀ a ∈ l, LinksTurn s (f s a)) (s : State) : LinksTurn s (l.foldl f s) := by
  induction l generalizing s with
  | nil => exact .refl s
  | cons a l ih => exact (hf s a List.mem_cons_self).trans (ih (fun s b hb => hf s b (List.mem_cons_of_mem _ hb)) _)

theorem LinksTurn.p (s : State) {o : Nat} (ho : InLnk o) (f : Fd) (x : Nat) : LinksTurn s (s.p o f x) := ⟨rfl, fun _ hi => s.rd_wr_ne _ (fun he => hi (he ▸ ho))⟩

theorem aLnkstat_inLnk (t : Nat) {pl e d : Nat} (hpl : pl < 2) (he : e < 2) (hd : d < 4) : InLnk (aLnkstat t pl e d) := by
  have hoff : baseTl + t * 0x10000 + 0x4100 + (pl * 8 + e * 4 + d) * 0x30 - baseTl = (0x4100 + (pl * 8 + e * 4 + d) * 0x30) + 0x10000 * t := by omega
  unfold InLnk aLnkstat tlBase
  rw [hoff, Nat.add_mul_mod_self_left, Nat.mod_eq_of_lt (by omega)]
  omega

theorem opposite_lt (d : Nat) : opposite d < 4 := Nat.mod_lt _ (by decide)

theorem LinksTurn.setLinkState (s : State) (t : Nat) {pl d : Nat} (st : Nat) (hpl : pl < 2) (hd : d < 4) : LinksTurn s (s.setLinkState t pl d st) :=
  (LinksTurn.p s (aLnkstat_inLnk t hpl (by decide) hd) _ _).trans (.p _ (aLnkstat_inLnk _ hpl (by decide) (opposite_lt _)) _ _)

theorem LinksTurn.setLink (s : State) (t pl d : Nat) (x : LinkX) : LinksTurn s (s.setLink t pl d x) := ⟨rfl, fun _ _ => rfl⟩

theorem LinksTurn.startTraining (s : State) (t : Nat) {pl d : Nat} (hpl : pl < 2) (hd : d < 4) : LinksTurn s (s.startTraining t pl d) :=
  (LinksTurn.setLinkState s t lkReinit hpl hd).trans (.setLink _ _ _ _ _)

theorem LinksTurn.eachLink {f : State → Nat → Nat → Nat → State} (hf : ∀ s u pl d, pl < 2 → d < 4 → LinksTurn s (f s u pl d)) (s : State) (t : Nat) {d : Nat} (hd : d < 4) :
    LinksTurn s (s.eachLink t d f) := by
  refine .foldl (fun s pl hpl => ?_) s
  have hlt : pl < 2 := by
    simp only [List.mem_cons, List.not_mem_nil, or_false] at hpl
    omega
  exact (hf s t pl d hlt hd).trans (hf _ _ pl _ hlt (opposite_lt _))

theorem LinksTurn.linksOff (s : State) (t : Nat) : LinksTurn s (s.linksOff t) :=
  .foldl (fun s _ hd => .eachLink (fun s u _ _ hpl hd => .setLinkState s u _ hpl hd) s t (List.mem_range.mp hd)) s

theorem LinksTurn.linksOn (s : State) (t : Nat) : LinksTurn s (s.linksOn t) := by
  refine .foldl (fun s d hd => ?_) s
  dsimp only
  split
  · exact .refl s
  · refine .eachLink (fun s u pl e hpl he => ?_) s t (List.mem_range.mp hd)
    split
    · exact .startTraining s u hpl he
    · exact .refl s

section
variable {s t : State} (h : LinksTurn s t)
include h
theorem LinksTurn.routers : t.routers = s.routers := by rw [h.frame]
theorem LinksTurn.nis : t.nis = s.nis := by rw [h.frame]
theorem LinksTurn.agents : t.agents = s.agents := by rw [h.frame]
theorem LinksTurn.evc : t.evc = s.evc := by rw [h.frame]
theorem LinksTurn.pm : t.pm = s.pm := by rw [h.frame]
end

end Sys2Proof.Machine
end


section
/-! SUPPORT. The power commands of tiles (R376, R377, R380), and O32. -/
namespace Sys2Proof.Machine

theorem State.wakeMgmt_parts (s : State) : s.wakeMgmt.regs = s.regs ∧ s.wakeMgmt.build = s.build ∧ s.wakeMgmt.routers = s.routers ∧ s.wakeMgmt.nis = s.nis ∧
    s.wakeMgmt.agents = s.agents ∧ s.wakeMgmt.evc = s.evc ∧ s.wakeMgmt.pm.mstate ≠ .retention := by
  unfold State.wakeMgmt
  split
  · exact ⟨rfl, rfl, rfl, rfl, rfl, rfl, nofun⟩
  · next h => exact ⟨rfl, rfl, rfl, rfl, rfl, rfl, h⟩

theorem State.p_parts (s : State) (o : Nat) (f : Fd) (x : Nat) : (s.p o f x).routers = s.routers ∧ (s.p o f x).nis = s.nis ∧ (s.p o f x).agents = s.agents ∧
    (s.p o f x).evc = s.evc := ⟨rfl, rfl, rfl, rfl⟩

/-- The slot banks of a tile's ports. -/
theorem State.setSlotBanks_ni {s : State} (hs : s.canon) (i : Nat) (b : Bool) {p : Nat} (hp : p < 3) :
    (s.setSlotBanks i b).ni i p = { s.ni i p with slotBank := b, slotOld := false } := by
  have upto (n : Nat) : let t := (List.range n).foldl (fun s p => s.setNi i p { s.ni i p with slotBank := b, slotOld := false }) s
      t.canon ∧ (∀ p, p < n → t.ni i p = { s.ni i p with slotBank := b, slotOld := false }) ∧ ∀ p, n ≤ p → t.ni i p = s.ni i p := by
    induction n with
    | zero => exact ⟨hs, nofun, fun _ _ => rfl⟩
    | succ n ih =>
      rw [List.range_succ, List.foldl_append]
      generalize (List.range n).foldl (fun s p => s.setNi i p { s.ni i p with slotBank := b, slotOld := false }) s = t at ih ⊢
      obtain ⟨hc, hset, hkept⟩ := ih
      have hother {p : Nat} (h : p ≠ n) (x : Ni) : (t.setNi i n x).ni i p = t.ni i p := tget_tput_ne _ (by unfold nkey; omega)
      refine ⟨((Keeps.refl t).setNi _ _ _).canon hc, fun p hp => ?_, fun p hp => (hother (by omega) _).trans (hkept p (by omega))⟩
      by_cases he : p = n
      · subst he
        exact (State.ni_setNi t i p _ hc).trans (by rw [hkept p (Nat.le_refl p)])
      · exact (hother he _).trans (hset p (by omega))
  exact (upto 3).2.1 p hp

theorem State.setSlotBanks_parts (s : State) (i : Nat) (b : Bool) : (s.setSlotBanks i b).regs = s.regs ∧ (s.setSlotBanks i b).build = s.build ∧
    (s.setSlotBanks i b).routers = s.routers ∧ (s.setSlotBanks i b).agents = s.agents ∧ (s.setSlotBanks i b).evc = s.evc := by
  unfold State.setSlotBanks
  generalize List.range 3 = l
  induction l generalizing s with
  | nil => exact ⟨rfl, rfl, rfl, rfl, rfl⟩
  | cons p l ih => exact ih _

theorem aPmTile_lt {i : Nat} (h : i < 144) : aPmTile i < baseTl := by
  have hlt : basePm + 0x800 + 8 * 144 ≤ baseTl := by decide
  unfold aPmTile
  omega

theorem aStrat_ne_aPmTile {i : Nat} (h : i < 144) : aStrat i ≠ aPmTile i := by
  have hlt := aPmTile_lt h
  unfold aStrat tlBase
  omega

theorem aPmTile_not_inLnk {i : Nat} (h : i < 144) : ¬ InLnk (aPmTile i) := fun hl => absurd hl.1 (Nat.not_le.mpr (aPmTile_lt h))

theorem aStrat_not_inLnk (i : Nat) : ¬ InLnk (aStrat i) := by
  have hoff : baseTl + i * 0x10000 + 0x30 - baseTl = 0x30 + 0x10000 * i := by omega
  unfold InLnk aStrat tlBase
  rw [hoff, Nat.add_mul_mod_self_left]
  omega

/-- What the reset of a tile leaves of the event controller. -/
theorem State.resetTile_evc (s : State) (i : Nat) : (s.resetTile i).evc = s.evc := rfl

theorem State.pmDone_eq (s : State) : s.pmDone = (s.raise 992).wakeMgmt := rfl

/-- What a tile that was reset keeps when the committed stratum `c` is written to it and it enters RESTORE. -/
theorem State.restored_facts {a d : State} (ac : a.canon) (t : Tile) (c : Bool) (hd : d = ((a.setInj t.val c).setSlotBanks t.val c).setSt t.val stRestore) :
    d.pst t.val = 7 ∧ d.g (aStrat t.val) TL_STRAT.INJ = c.toNat ∧ d.routers = a.routers ∧ d.agents = a.agents ∧ d.evc = a.evc ∧
      ∀ p, p < 3 → d.ni t.val p = { a.ni t.val p with slotBank := c, slotOld := false } := by
  have bc : (a.setInj t.val c).canon := (keeps_State_setInj (Keeps.refl a)).canon ac
  have bg : (a.setInj t.val c).g (aStrat t.val) TL_STRAT.INJ = c.toNat := (a.g_p _ _ _ ac.regs (by decide)).trans (by cases c <;> rfl)
  have b0 : (a.setInj t.val c).routers = a.routers ∧ (a.setInj t.val c).nis = a.nis ∧ (a.setInj t.val c).agents = a.agents ∧ (a.setInj t.val c).evc = a.evc :=
    a.p_parts _ _ _
  generalize a.setInj t.val c = b at hd bc bg b0
  obtain ⟨brouters, bnis, bagents, bevc⟩ := b0
  have en {p : Nat} (hp : p < 3) := State.setSlotBanks_ni bc t.val c hp
  have ec : (b.setSlotBanks t.val c).canon := (keeps_State_setSlotBanks (Keeps.refl b)).canon bc
  obtain ⟨eregs, ebuild, erouters, eagents, eevc⟩ := b.setSlotBanks_parts t.val c
  generalize b.setSlotBanks t.val c = e at hd en ec eregs ebuild erouters eagents eevc
  obtain ⟨drouters, dnis, dagents, devc⟩ := e.p_parts (aPmTile t.val) PM_TILE.ST stRestore
  have hst := e.g_p (aPmTile t.val) PM_TILE.ST stRestore ec.regs (by decide)
  have hinj := e.g_p_ne (f := PM_TILE.ST) (f' := TL_STRAT.INJ) stRestore (aStrat_ne_aPmTile t.isLt)
  have hd' : d = e.p (aPmTile t.val) PM_TILE.ST stRestore := hd
  rw [← hd'] at drouters dnis dagents devc hst hinj
  have hni (p : Nat) : d.ni t.val p = e.ni t.val p := congrArg (fun x : Tab Ni => tget Ni.reset x (nkey t.val p)) dnis
  have hbni (p : Nat) : b.ni t.val p = a.ni t.val p := congrArg (fun x : Tab Ni => tget Ni.reset x (nkey t.val p)) bnis
  exact ⟨hst, hinj.trans ((State.g_of eregs ebuild _ _).trans bg), drouters.trans (erouters.trans brouters), dagents.trans (eagents.trans bagents),
    devc.trans (eevc.trans bevc), fun p hp => by rw [hni, en hp, hbni]⟩

/-- What the end of a power change leaves of a tile whose links it turned. -/
theorem State.pmDone_facts {d e u : State} (t : Tile) (hl : LinksTurn d e) (hu : u = e.pmDone) : u.pst t.val = d.pst t.val ∧
    u.g (aStrat t.val) TL_STRAT.INJ = d.g (aStrat t.val) TL_STRAT.INJ ∧ u.routers = d.routers ∧ u.agents = d.agents ∧ u.nis = d.nis ∧
    u.evc.evq = d.evc.evq ++ [992] ∧ u.pm.mstate ≠ .retention := by
  obtain ⟨wregs, wbuild, wrouters, wnis, wagents, wevc, wm⟩ := (e.raise 992).wakeMgmt_parts
  rw [← State.pmDone_eq, ← hu] at wregs wbuild wrouters wnis wagents wevc wm
  have hrd (o : Nat) (hn : ¬ InLnk o) : u.rd o = d.rd o := (State.rd_of (s := e) wregs wbuild o).trans (hl.rd o hn)
  refine ⟨congrArg (fun v => fld v PM_TILE.ST.lo PM_TILE.ST.w) (hrd _ (aPmTile_not_inLnk t.isLt)),
    congrArg (fun v => fld v TL_STRAT.INJ.lo TL_STRAT.INJ.w) (hrd _ (aStrat_not_inLnk _)), wrouters.trans hl.routers, wagents.trans hl.agents,
    wnis.trans hl.nis, ?_, wm⟩
  rw [wevc, ← hl.evc]
  rfl

/-- A tile that is powered: reset, in RESTORE, with the committed stratum (R376, R393). -/
theorem State.poweredOn_facts {s u : State} (hs : s.canon) (t : Tile)
    (hu : u = (((((s.resetTile t.val).setInj t.val s.cur).setSlotBanks t.val s.cur).setSt t.val stRestore).linksOff t.val |>.linksOn t.val).pmDone) :
    u.pst t.val = 7 ∧ u.g (aStrat t.val) TL_STRAT.INJ = s.cur.toNat ∧ u.router t.val 0 = Router.reset ∧ u.router t.val 1 = Router.reset ∧
      (∀ p, p < 3 → u.ni t.val p = { Ni.reset with slotBank := s.cur, epLow := (s.ni t.val p).epLow, epUp := !(s.ni t.val p).epLow, clkStop := (s.ni t.val p).clkStop }) ∧
      (u.agent t.val).edge = (s.agent t.val).edge ∧ (u.agent t.val).level = (s.agent t.val).level ∧ (u.agent t.val).rx = [] ∧
      u.evc.evq = s.evc.evq ++ [992] ∧ u.pm.mstate ≠ .retention := by
  have ac : (s.resetTile t.val).canon := (keeps_State_resetTile (Keeps.refl s)).canon hs
  have a0 := s.resetTile_router t.val (pl := 0) (by decide)
  have a1 := s.resetTile_router t.val (pl := 1) (by decide)
  have an {p : Nat} (hp : p < 3) : (s.resetTile t.val).ni t.val p = (s.ni t.val p).pins := (State.resetTile_ni hs t.val p hp).trans (if_pos rfl)
  have aa := State.resetTile_agent hs t.val
  have ae := s.resetTile_evc t.val
  generalize s.resetTile t.val = a at hu ac a0 a1 an aa ae
  obtain ⟨dst, dinj, drouters, dagents, devc, dni⟩ := State.restored_facts ac t s.cur rfl
  generalize ((a.setInj t.val s.cur).setSlotBanks t.val s.cur).setSt t.val stRestore = d at hu dst dinj drouters dagents devc dni
  obtain ⟨ust, uinj, urouters, uagents, unis, uevc, um⟩ := State.pmDone_facts t ((LinksTurn.linksOff d t.val).trans (.linksOn _ t.val)) hu
  have hrouter (pl : Nat) : u.router t.val pl = a.router t.val pl :=
    congrArg (fun x : Tab Router => tget Router.reset x (rkey t.val pl)) (urouters.trans drouters)
  have hagent : u.agent t.val = a.agent t.val := congrArg (fun x : Tab Agent => tget Agent.reset x t.val) (uagents.trans dagents)
  have hni (p : Nat) : u.ni t.val p = d.ni t.val p := congrArg (fun x : Tab Ni => tget Ni.reset x (nkey t.val p)) unis
  refine ⟨ust.trans dst, uinj.trans dinj, (hrouter 0).trans a0, (hrouter 1).trans a1, fun p hp => ?_, ?_, ?_, ?_, ?_, um⟩
  · rw [hni, dni p hp, an hp]
    rfl
  · rw [hagent, aa]
  · rw [hagent, aa]
  · rw [hagent, aa]
    rfl
  · rw [uevc, devc, ae]

end Sys2Proof.Machine
end


section
/-! SUPPORT. The power commands of a master with the right, and O32 (R376, R377, R400). -/
namespace Sys2Proof.Machine

section Commands
variable {s : State} {m : Master} (hr : s.sqRight m = true) (t : Tile)
include hr

theorem execPmFence_right : exec (.pmFence m t) s = .next (s.cmdFence t.val) := congrArg Host.Outcome.next (if_pos hr)
theorem execPmOff_right : exec (.pmOff m t) s = .next (s.cmdOff t.val) := congrArg Host.Outcome.next (if_pos hr)
theorem execPmOn_right : exec (.pmOn m t) s = .next (s.cmdOn t.val) := congrArg Host.Outcome.next (if_pos hr)
theorem execPmUnfence_right : exec (.pmUnfence m t) s = .next (s.cmdUnfence t.val) := congrArg Host.Outcome.next (if_pos hr)
theorem execPmWake_right : exec (.pmWake m t) s = .next (s.cmdWake t.val) := congrArg Host.Outcome.next (if_pos hr)
end Commands

section Window
variable {s : State} {m : Master}

theorem State.masterActs_of_sqRight (h : s.sqRight m = true) : s.masterActs m = true := by
  unfold State.sqRight at h
  rw [Bool.and_eq_true] at h
  exact h.1

theorem ne_bl_of_sqRight (h : s.sqRight m = true) : m ≠ .bl := fun he => by
  rw [he] at h
  unfold State.sqRight at h
  rw [Bool.and_false] at h
  exact Bool.noConfusion h

/-- A write through the restore window (R377). -/
theorem restoreAccess_writes (h : s.sqRight m = true) (v : W) : exec (.restoreAccess m true v) s = .next (s.windowWrite v (BitVec.allOnes 64)) := by
  have hmask : strbMask 0xFF = BitVec.allOnes 64 := by decide
  have hgo : ¬ (BitVec.allOnes 64 = 0 ∨ s.masterActs m = false ∨ (m = .bl ∧ blActs aRstdata = false)) := by
    rintro (h0 | h0 | h0)
    · exact absurd h0 (by decide)
    · rw [State.masterActs_of_sqRight h] at h0
      exact Bool.noConfusion h0
    · exact ne_bl_of_sqRight h h0.1
  have hwrite : s.writeReg m aRstdata v 0xFF = (s.windowWrite v (BitVec.allOnes 64), 0) := by
    unfold State.writeReg
    dsimp only
    rw [hmask, if_neg hgo, if_neg (by decide), if_neg (by decide), if_neg (by decide), if_pos (by decide), if_pos h]
    unfold State.pmWrite
    dsimp only
    rw [if_neg (by decide), if_pos rfl]
  have hrun : exec (.restoreAccess m true v) s = .next (s.writeReg m aRstdata v 0xFF).1 := congrArg Host.Outcome.next (if_pos rfl)
  rw [hrun, hwrite]

/-- A read through the restore window (R377). -/
theorem restoreAccess_reads (h : s.sqRight m = true) (v : W) : exec (.restoreAccess m false v) s = .next s.windowRead.1 := by
  have hgo : ¬ (s.masterActs m = false ∨ mayRead m aRstdata = false) := by
    rintro (h0 | h0)
    · rw [State.masterActs_of_sqRight h] at h0
      exact Bool.noConfusion h0
    · unfold mayRead at h0
      rw [bne_iff_ne.mpr (ne_bl_of_sqRight h), Bool.true_or] at h0
      exact Bool.noConfusion h0
  have hread : s.readReg m aRstdata = s.windowRead := by
    unfold State.readReg
    rw [if_neg hgo, if_neg (by decide), if_pos rfl]
  have hrun : exec (.restoreAccess m false v) s = .next (s.readReg m aRstdata).1 := congrArg Host.Outcome.next (if_neg Bool.false_ne_true)
  rw [hrun, hread]

theorem State.windowOpen_of {t : Nat} (ht : t < 144) (h : s.pst t = 4 ∨ s.pst t = 7) : s.windowOpen t = true := by
  rcases h with h | h <;> simp [State.windowOpen, ht, h, stFenced, stRestore]

theorem State.windowOpen_not {t : Nat} (h4 : s.pst t ≠ 4) (h7 : s.pst t ≠ 7) : s.windowOpen t = false := by
  simp [State.windowOpen, h4, h7, stFenced, stRestore]

end Window

/-- Settles O32: each command by its precondition, the ends of power changes, and the window. -/
theorem tilesPower : Obligations.TilesPower := by
  unfold Obligations.TilesPower
  have no {b : Bool} (h : b = false) : ¬ b = true := by rw [h]; exact Bool.noConfusion
  have listed {l : List Nat} {i : Nat} (h : i ∉ l) : l.contains i = false := by simpa using h
  refine ⟨?commands, ?ends, ?window⟩
  case commands =>
    intro s m t i rej
    refine ⟨fun hr => ⟨fun hp hd hroot => ?_, fun h => ?_, fun hst ho => ?_, fun hst => ?_, fun hst => ?_, fun hst => ?_, fun hst ho hp => ?_, fun h => ?_, fun hp => ?_, fun hp => ?_⟩,
      fun hr => ⟨congrArg Host.Outcome.next (if_neg (no hr)), congrArg Host.Outcome.next (if_neg (no hr)), congrArg Host.Outcome.next (if_neg (no hr)),
        congrArg Host.Outcome.next (if_neg (no hr)), congrArg Host.Outcome.next (if_neg (no hr))⟩⟩
    · exact (execPmFence_right hr t).trans (congrArg Host.Outcome.next (if_pos ⟨hp, hd, fun h => hroot (Fin.ext h)⟩))
    · refine (execPmFence_right hr t).trans (congrArg Host.Outcome.next (if_neg ?_))
      rintro ⟨h1, h2, h3⟩
      rcases h with h | h | h
      · exact no h h1
      · exact no h h2
      · exact h3 (congrArg Fin.val h)
    · exact (execPmOff_right hr t).trans (congrArg Host.Outcome.next (if_pos ⟨hst, listed ho⟩))
    · exact (execPmOff_right hr t).trans (congrArg Host.Outcome.next (if_neg fun h => hst h.1))
    · exact (execPmOn_right hr t).trans (congrArg Host.Outcome.next (if_pos hst))
    · exact (execPmOn_right hr t).trans (congrArg Host.Outcome.next (if_neg hst))
    · exact (execPmUnfence_right hr t).trans (congrArg Host.Outcome.next (if_pos ⟨hst, listed ho, hp⟩))
    · refine (execPmUnfence_right hr t).trans (congrArg Host.Outcome.next (if_neg ?_))
      rintro ⟨h1, -, h3⟩
      rcases h with h | h
      · change s.pst i = 3 ∨ s.pst i = 4 ∨ s.pst i = 7 at h1
        omega
      · exact h h3
    · exact (execPmWake_right hr t).trans (congrArg Host.Outcome.next (if_pos hp))
    · exact (execPmWake_right hr t).trans (congrArg Host.Outcome.next (if_neg (no hp)))
  case ends =>
    intro s t i
    refine ⟨fun h1 h2 h3 => congrArg Host.Outcome.next (if_pos ⟨h1, h2, h3⟩), fun h => congrArg Host.Outcome.next (if_neg fun hc => h hc.1),
      fun h => congrArg Host.Outcome.next (if_pos (by simpa using h)), fun hs => ?reset, fun h => congrArg Host.Outcome.next (if_neg (no (listed h))),
      fun hst hs => ⟨_, congrArg Host.Outcome.next (if_pos hst), State.poweredOn_facts hs t rfl⟩⟩
    case reset =>
      intro u
      refine ⟨s.resetTile_router i (by decide), s.resetTile_router i (by decide), s.resetTile_link i, fun p hp => (State.resetTile_ni hs i p hp).trans (if_pos rfl),
        fun k p hk hp => (State.resetTile_ni hs k p hp).trans (if_neg hk), State.resetTile_agent hs i, s.resetTile_rd i (.inr (.inr rfl)), rfl, rfl, rfl, fun o h1 h2 h3 =>
        s.resetTile_rd_gone i h1 ?_ h3⟩
      unfold tlBase
      omega
  case window =>
    intro s m v hr t
    refine ⟨fun ht hst => ⟨?_, ?_⟩, fun ht h4 h7 => ⟨?_, ?_⟩⟩
    · exact (restoreAccess_writes hr v).trans (congrArg Host.Outcome.next ((if_neg (Nat.not_le.mpr ht)).trans (if_pos (State.windowOpen_of ht hst))))
    · have hread : s.windowRead = (s, if s.rstOff = 0x4400 then s.rd (aMbist t) else s.tlRead t s.rstOff) := (if_neg (Nat.not_le.mpr ht)).trans (if_pos (State.windowOpen_of ht hst))
      rw [restoreAccess_reads hr v, hread]
    · exact (restoreAccess_writes hr v).trans (congrArg Host.Outcome.next ((if_neg (Nat.not_le.mpr ht)).trans (if_neg (no (State.windowOpen_not h4 h7)))))
    · have hread : s.windowRead = (s.pmReject t, 0) := (if_neg (Nat.not_le.mpr ht)).trans (if_neg (no (State.windowOpen_not h4 h7)))
      rw [restoreAccess_reads hr v, hread]
      rfl

end Sys2Proof.Machine
end


section
/-! SUPPORT. An abort answers the packet of a presented request, not the record of it: O54. -/
namespace Sys2Proof.Machine

/-- The target NI of tile 2 presents a request that its record calls non-posted and whose packet is a posted write. -/
def presentsPosted : State := State.reset.setNi 2 1 { Ni.reset with pres := [⟨0, { cmd := Cmd.WR }, 0, true, false, false, none, none, none⟩] }

theorem presentsPosted_abort : (((presentsPosted.niAbort 2 1).ni 2 1).rspq.length, (presentsPosted.ni 2 1).rspq.length,
    ((presentsPosted.ni 2 1).pres.filter (fun x => x.np && !x.dead)).length) = (0, 0, 1) := by decide +kernel

/-- Refutes O54: the statement counts one answer for each presented request whose record says non-posted. The model answers the packet, and a posted write has no answer, whatever its record says. -/
theorem not_portControl : ¬ Obligations.PortControl := by
  intro h
  obtain ⟨-, -, -, -, -, -, -, -, -, -, answers, -⟩ := h presentsPosted 2 1 false (Tests.canon_of (by decide +kernel))
  obtain ⟨-, -, hlen⟩ := answers (by decide +kernel)
  have hcount := congrArg (fun x => (x.1, x.2.1, x.2.2)) presentsPosted_abort
  simp only [Prod.mk.injEq] at hcount
  obtain ⟨hafter, hbefore, hone⟩ := hcount
  have hpres := hlen
  change ((presentsPosted.niAbort 2 1).ni 2 1).rspq.length = (presentsPosted.ni 2 1).rspq.length +
    ((presentsPosted.ni 2 1).pres.filter (fun x => x.np && !x.dead)).length + _ at hpres
  omega

end Sys2Proof.Machine
end


section
/-! SUPPORT. Requests on the Q channel of an initiator NI: O51. -/
namespace Sys2Proof.Machine

/-- The operations of the Q channel with their commands. -/
def qOps (t : Tile) (p : LPort) (q : QReq) : List (BitVec 4 × Instr) :=
  [(Qop.READ, .read t p q), (Qop.WRITE, .write t p q), (Qop.WRITE_NP, .writeNp t p q), (Qop.ATOMIC, .atomic t p q),
   (Qop.MESSAGE, .message t p q), (Qop.DOORBELL, .doorbell t p q), (Qop.CELL, .cell t p q), (Qop.ENQUEUE, .enqueue t p q)]

/-- The QOP that stands on the channel: a reserved one, or that of the command. -/
def onWire (q : QReq) (op : BitVec 4) : BitVec 4 := match q.rsv with | some c => 8 + c.zeroExtend 4 | none => op

theorem onWire_op {q : QReq} (h : q.rsv = none) (op : BitVec 4) : onWire q op = op := by rw [onWire, h]
theorem onWire_reserved {q : QReq} {c : BitVec 3} (h : q.rsv = some c) (op : BitVec 4) : onWire q op = 8 + c.zeroExtend 4 := by rw [onWire, h]

theorem exec_qOps {t : Tile} {p : LPort} {q : QReq} (s : State) {x : BitVec 4 × Instr} (h : x ∈ qOps t p q) :
    exec x.2 s = .next ((s.niOpen t.val p.val).qAccept t.val p.val (onWire q x.1) q) := by
  simp only [qOps, List.mem_cons, List.not_mem_nil, or_false] at h
  rcases h with rfl | rfl | rfl | rfl | rfl | rfl | rfl | rfl <;> rfl

/-- The request as an initiator NI notes it at its acceptance. -/
def State.qNote (s : State) (t p : Nat) (op : BitVec 4) (q : QReq) (refuse : Option (BitVec 4)) (dest : BitVec 10) (cache order : Nat) : NiReq :=
  { seq := (s.ni t p).nextSeq, op := op, q := q, stratum := s.inj t, dest := dest, pdom := BitVec.ofNat 4 (s.puDom (puIndex t p)), cache := BitVec.ofNat 2 cache,
    order := BitVec.ofNat 2 order, data := [], dbe := 0, tstamp := s.stamp, refuse := refuse, hold := false }

section
variable {s : State} {t p : Nat} {op : BitVec 4} {q : QReq}

theorem State.qAccept_shut (h : s.qReady t p = false) : s.qAccept t p op q = s := by
  simp only [State.qAccept, h, Bool.false_eq_true, not_false_eq_true, if_true]

/-- A request that is accepted and refused is noted with its code. -/
theorem State.qAccept_refuse {c : BitVec 4} (h : s.qReady t p = true) (hd : (s.niEnter t p 1).qDecide t p op q = .refuse c) :
    s.qAccept t p op q = ((s.niEnter t p 1).wake t true).setNi t p
      ((((s.niEnter t p 1).wake t true).ni t p).queue ((s.niEnter t p 1).qNote t p op q (some c) 0 0 0)) := by
  simp only [State.qAccept, h, not_true, if_false, hd]
  rfl

/-- One that the protection unit refuses has its violation recorded. -/
theorem State.qAccept_prot {k r o : Nat} (h : s.qReady t p = true) (hd : (s.niEnter t p 1).qDecide t p op q = .prot k r o) :
    s.qAccept t p op q =
      let w := s.niEnter t p 1
      let s2 := (w.wake t true).violation (puIndex t p) (w.inj t).toNat (w.g (aPuCtl (puIndex t p)) PU_CTL.ACT) op q.addr q.mtag k r o
      s2.setNi t p ((s2.ni t p).queue (w.qNote t p op q (some Resp.PROT) 0 0 0)) := by
  simp only [State.qAccept, h, not_true, if_false, hd]
  rfl

/-- One that goes on is queued, and held where an ordering rule asks for it; an access is counted in flight. -/
theorem State.qAccept_send {d : BitVec 10} {c o : Nat} (h : s.qReady t p = true) (hd : (s.niEnter t p 1).qDecide t p op q = .send d c o) :
    s.qAccept t p op q =
      let w := s.niEnter t p 1
      let s2 := if op = Qop.DOORBELL then w.wake t true else (w.wake t true).puUp (puIndex t p) (w.inj t)
      let r := w.qNote t p op q none d c o
      s2.setNi t p ((s2.ni t p).queue { r with hold := (s2.ni t p).mustHold r }) := by
  simp only [State.qAccept, h, not_true, if_false, hd]
  rfl

-- What is decided of a request (R107, R110).

theorem State.qDecide_badBeats (h : beatsOk op q = false) : s.qDecide t p op q = .refuse Resp.DECERR := by
  simp only [State.qDecide, h, Bool.false_eq_true, not_false_eq_true, if_true]

theorem State.qDecide_badGuarantee (h : s.guaranteeOk t p q = false) : s.qDecide t p op q = .refuse Resp.DECERR := by
  simp only [State.qDecide, h, Bool.false_eq_true, not_false_eq_true, if_true, ite_self]

/-- An access past steps 1 and 2 whose window is found goes by the check of the protection unit. -/
theorem State.qDecide_allowed {d : BitVec 10} {c o : Nat} (hb : beatsOk op q = true) (hg : s.guaranteeOk t p q = true) (hop : op ≠ Qop.DOORBELL)
    (hd : s.decodeAddr t p q.addr q.len = some d)
    (hpu : s.puCheck (puIndex t p) (s.inj t).toNat (s.g (aPuCtl (puIndex t p)) PU_CTL.ACT) op q.addr q.len = .allow c o) :
    s.qDecide t p op q = .send d c o := by
  simp only [State.qDecide, hb, hg, hop, not_true, if_false, hd, hpu]
theorem State.qDecide_protected {d : BitVec 10} {k r o : Nat} (hb : beatsOk op q = true) (hg : s.guaranteeOk t p q = true) (hop : op ≠ Qop.DOORBELL)
    (hd : s.decodeAddr t p q.addr q.len = some d)
    (hpu : s.puCheck (puIndex t p) (s.inj t).toNat (s.g (aPuCtl (puIndex t p)) PU_CTL.ACT) op q.addr q.len = .refuse k r o) :
    s.qDecide t p op q = .prot k r o := by
  simp only [State.qDecide, hb, hg, hop, not_true, if_false, hd, hpu]

theorem State.qDecide_doorbell (hb : beatsOk Qop.DOORBELL q = true) (hg : s.guaranteeOk t p q = true) :
    s.qDecide t p Qop.DOORBELL q = if 255 < fld q.addr 0 10 then .refuse Resp.DECERR
      else if 7 < s.puDom (puIndex t p) then .prot vUnowned 0x3F 0 else .send s.build.dbep 0 0 := by
  simp only [State.qDecide, hb, hg, not_true, if_false, if_true]

/-- An address that no window holds is refused. -/
theorem State.qDecide_noWindow (hop : op ≠ Qop.DOORBELL) (h : s.decodeAddr t p q.addr q.len = none) : s.qDecide t p op q = .refuse Resp.DECERR := by
  cases hb : beatsOk op q with
  | false => exact State.qDecide_badBeats hb
  | true =>
    cases hg : s.guaranteeOk t p q with
    | false => exact State.qDecide_badGuarantee hg
    | true => simp only [State.qDecide, hb, hg, hop, not_true, if_false, h]

end

/-- A reserved QOP is no operation. -/
theorem beatsOk_reserved (c : BitVec 3) (q : QReq) : beatsOk (8 + c.zeroExtend 4) q = false := by
  have hop : ¬ (8 + c.zeroExtend 4 : BitVec 4).toNat < 8 := by
    revert c
    decide
  simp only [beatsOk, hop, decide_false, Bool.false_and]

/-- Waiting for the cycle of R129 changes neither the port nor whether its channels can transfer. -/
theorem State.niOpen_epOpen (s : State) (t p : Nat) : (s.niOpen t p).epOpen t p = s.epOpen t p := by
  unfold State.niOpen
  split <;> rfl

theorem State.qReady_shut {s : State} {t p : Nat} (h : s.epOpen t p = false) : s.qReady t p = false := by
  simp only [State.qReady, h, Bool.and_false, Bool.false_and]

/-- The endpoint's channels stand still. -/
theorem State.epOpen_shut {s : State} {t p : Nat}
    (h : s.pst t = 5 ∨ s.pst t = 6 ∨ (s.ni t p).epLow = true ∨ (s.ni t p).epUp = false ∨ (s.ni t p).clkStop = true) : s.epOpen t p = false := by
  unfold State.epOpen
  rcases h with h | h | h | h | h <;> simp [h]

theorem State.epOpen_open {s : State} {t p : Nat} (h5 : s.pst t ≠ 5) (h6 : s.pst t ≠ 6) (hlow : (s.ni t p).epLow = false)
    (hup : (s.ni t p).epUp = true) (hclk : (s.ni t p).clkStop = false) : s.epOpen t p = true := by
  simp [State.epOpen, h5, h6, hlow, hup, hclk]

section
variable {n : Ni} {beats : List Line} {be : BitVec 64} {r : NiReq}

theorem Ni.dlast_completes (hd : n.dwait = some r) (hr : r.refuse = none) (hlen : beats.length = r.q.beats.toNat) :
    n.dlast beats be = { n with dwait := none, injq := n.injq ++ [{ r with data := dataFlits r.op r.q.atop r.q.len.toNat be beats, dbe := be }] } := by
  simp only [Ni.dlast, hd, hr, hlen, ne_eq, not_true, if_false]
theorem Ni.dlast_short (hd : n.dwait = some r) (hr : r.refuse = none) (hlen : beats.length ≠ r.q.beats.toNat) : n.dlast beats be = n := by
  simp only [Ni.dlast, hd, hr, hlen, ne_eq, not_false_eq_true, if_true]
theorem Ni.dlast_refused {c : BitVec 4} (hd : n.dwait = some r) (hr : r.refuse = some c) :
    n.dlast beats be = { n with dwait := none, sresp := n.sresp ++ [localAns r c] } := by
  simp only [Ni.dlast, hd, hr]

end

/-- A ready port takes the beats into the crossing and gives them to its request. -/
theorem exec_dlastBeat {s : State} {t : Tile} {p : LPort} {beats : List Line} {be : BitVec 64} (h : s.dReady t.val p.val beats.length = true) :
    exec (.dlastBeat t p beats be) s =
      .next ((s.niEnter t.val p.val beats.length).setNi t.val p.val (((s.niEnter t.val p.val beats.length).ni t.val p.val).dlast beats be)) :=
  congrArg Host.Outcome.next (if_pos h)

theorem exec_dlastBeat_shut {s : State} {t : Tile} {p : LPort} {beats : List Line} {be : BitVec 64} (h : s.dReady t.val p.val beats.length = false) :
    exec (.dlastBeat t p beats be) s = .next s :=
  congrArg Host.Outcome.next (if_neg (by rw [h]; exact Bool.noConfusion))

/-- Settles O51, by what is decided of a request at its acceptance. -/
theorem requestsAreAccepted : Obligations.RequestsAreAccepted := by
  intro s t p q i j n ops o w act req s1 refused
  have run {x : BitVec 4 × Instr} (hx : x ∈ ops) (hrsv : q.rsv = none) : exec x.2 s = .next (o.qAccept i j x.1 q) := by
    refine (exec_qOps s hx).trans ?_
    rw [onWire_op hrsv]
  refine ⟨fun h x hx => ?shut, fun c h hrsv x hx => ?reserved, fun h hrsv => ⟨fun x hx => ⟨fun why => ?bad, fun d c r hb hg hop hdec hpu => ?allowed,
    fun d k r b hb hg hop hdec hpu => ?prot⟩, fun hb hg => ?doorbell⟩, fun beats be => ?beats, fun h => ?still, fun a rest h5 h6 hlow hup hclk ha => ?leaves⟩
  case shut => exact (exec_qOps s hx).trans (congrArg Host.Outcome.next (State.qAccept_shut h))
  case reserved =>
    refine (exec_qOps s hx).trans (congrArg Host.Outcome.next ?_)
    rw [onWire_reserved hrsv]
    exact State.qAccept_refuse h (State.qDecide_badBeats (beatsOk_reserved c q))
  case bad =>
    refine (run hx hrsv).trans (congrArg Host.Outcome.next (State.qAccept_refuse h ?_))
    rcases why with hb | hg | ⟨hop, hdec⟩
    · exact State.qDecide_badBeats hb
    · exact State.qDecide_badGuarantee hg
    · exact State.qDecide_noWindow hop hdec
  case allowed =>
    have hsend : w.qDecide i j x.1 q = .send d c r := State.qDecide_allowed hb hg hop hdec hpu
    refine (run hx hrsv).trans (congrArg Host.Outcome.next ((State.qAccept_send h hsend).trans ?_))
    simp only [if_neg hop]
    rfl
  case prot =>
    exact (run hx hrsv).trans (congrArg Host.Outcome.next (State.qAccept_prot h (State.qDecide_protected hb hg hop hdec hpu)))
  case doorbell =>
    intro r s2
    have hmem : (Qop.DOORBELL, Instr.doorbell t p q) ∈ ops := by simp [ops]
    have hdec := State.qDecide_doorbell hb hg
    refine ⟨fun hbig => ?_, fun hsmall hdom => ?_, fun hsmall hdom => ?_⟩
    · exact (run hmem hrsv).trans (congrArg Host.Outcome.next (State.qAccept_refuse h (hdec.trans (if_pos hbig))))
    · exact (run hmem hrsv).trans (congrArg Host.Outcome.next (State.qAccept_prot h
        ((hdec.trans (if_neg (Nat.not_lt.2 hsmall))).trans (if_pos hdom))))
    · exact (run hmem hrsv).trans (congrArg Host.Outcome.next (State.qAccept_send h
        ((hdec.trans (if_neg (Nat.not_lt.2 hsmall))).trans (if_neg (Nat.not_lt.2 hdom)))))
  case beats =>
    intro v m
    refine ⟨exec_dlastBeat_shut, fun r h hd => ⟨fun hlen hr => ?_, fun hlen hr => ?_, fun c hr => ?_⟩⟩
    · exact (exec_dlastBeat h).trans (congrArg (fun m => Host.Outcome.next (v.setNi i j m)) (Ni.dlast_completes hd hr hlen))
    · exact (exec_dlastBeat h).trans (congrArg (fun m => Host.Outcome.next (v.setNi i j m)) (Ni.dlast_short hd hr hlen))
    · exact (exec_dlastBeat h).trans (congrArg (fun m => Host.Outcome.next (v.setNi i j m)) (Ni.dlast_refused hd hr))
  case still =>
    have hshut : s.epOpen i j = false := State.epOpen_shut h
    refine ⟨congrArg (fun u : State => Host.Outcome.next u.recheck) (if_pos hshut), fun x hx => ?_⟩
    exact (exec_qOps s hx).trans (congrArg Host.Outcome.next (State.qAccept_shut (State.qReady_shut ((State.niOpen_epOpen s i j).trans hshut))))
  case leaves =>
    have hopen : ¬ s.epOpen i j = false := by
      rw [State.epOpen_open h5 h6 hlow hup hclk]
      exact Bool.noConfusion
    refine congrArg (fun u : State => Host.Outcome.next u.recheck) ((if_neg hopen).trans ?_)
    change (match n.sresp with | [] => s | a :: rest => (s.setNi i j { n with sresp := rest }).puLeave (puIndex i j) a.pu) = _
    rw [ha]

end Sys2Proof.Machine
end


section
/-! SUPPORT. Requests at a target or memory NI, and messages: O53. -/
namespace Sys2Proof.Machine

/-- The commands that present a request at a target or memory NI, with the request's CMD and the endpoint's value before an ATM. -/
def targetCmds (t : Tile) (p : LPort) (mtag : BitVec 8) (old : W) : List (BitVec 6 × Option W × Instr) :=
  [(Cmd.RD, none, .rd t p mtag), (Cmd.WR, none, .wr t p mtag), (Cmd.WRN, none, .wrn t p mtag), (Cmd.ATM, some old, .atm t p mtag old),
   (Cmd.PKT, none, .pkt t p mtag)]

theorem exec_targetCmds {s : State} {t : Tile} {p : LPort} {mtag : BitVec 8} {old : W} {x : BitVec 6 × Option W × Instr}
    (h : x ∈ targetCmds t p mtag old) (hk : s.slaveKind t.val p.val = true) : exec x.2.2 s = .next (s.present1 t.val p.val x.1 mtag x.2.1) := by
  simp only [targetCmds, List.mem_cons, List.not_mem_nil, or_false] at h
  rcases h with rfl | rfl | rfl | rfl | rfl <;> exact congrArg Host.Outcome.next (if_pos hk)

/-- Only an ATM brings the value before it. -/
theorem targetCmds_old {t : Tile} {p : LPort} {mtag : BitVec 8} {old : W} {x : BitVec 6 × Option W × Instr} (h : x ∈ targetCmds t p mtag old) (k : Pkt) :
    (if x.1 = Cmd.ATM then x.2.1.bind (atmStore k) else none) = if x.1 = Cmd.ATM then atmStore k old else none := by
  simp only [targetCmds, List.mem_cons, List.not_mem_nil, or_false] at h
  rcases h with rfl | rfl | rfl | rfl | rfl <;> rfl

-- Waiting for the cycle of R129 changes only the cycle.

theorem State.niOpen_upd (s : State) (t p : Nat) : ∃ c, s.niOpen t p = { s with cyc := c } := by
  unfold State.niOpen
  split
  · exact ⟨_, rfl⟩
  · exact ⟨s.cyc, rfl⟩

section
variable (s : State) (t p : Nat)
@[simp] theorem State.niOpen_ni : (s.niOpen t p).ni t p = s.ni t p := by obtain ⟨c, h⟩ := s.niOpen_upd t p; rw [h]; rfl
@[simp] theorem State.niOpen_kind : (s.niOpen t p).kind t p = s.kind t p := by obtain ⟨c, h⟩ := s.niOpen_upd t p; rw [h]; rfl
@[simp] theorem State.niOpen_gb (o : Nat) (f : Fd) : (s.niOpen t p).gb o f = s.gb o f := by obtain ⟨c, h⟩ := s.niOpen_upd t p; rw [h]; rfl
@[simp] theorem State.niOpen_mboxDepth (m : Nat) : (s.niOpen t p).mboxDepth t p m = s.mboxDepth t p m := by
  obtain ⟨c, h⟩ := s.niOpen_upd t p
  rw [h]
  rfl
end

-- The request that stands first.

section
variable {s : State} {t p : Nat} {cmd : BitVec 6} {mtag : BitVec 8} {old : Option W} {k : Pkt} {rest : List Pkt}

theorem State.present1_other (h : (s.ni t p).rx = k :: rest) (hc : k.cmd ≠ cmd) : s.present1 t p cmd mtag old = s.niOpen t p := by
  simp only [State.present1, State.niOpen_ni, h, ne_eq, hc, not_false_eq_true, if_true]

theorem State.present1_away {code : BitVec 4} (h : (s.ni t p).rx = k :: rest) (hc : k.cmd = cmd) (ha : (s.niOpen t p).turnAway t p k = some code) :
    s.present1 t p cmd mtag old = ((s.niOpen t p).setNi t p { s.ni t p with rx := rest }).turnedAway t p k code := by
  simp only [State.present1, State.niOpen_ni, h, ne_eq, hc, not_true, if_false, ha]

theorem State.present1_shut (h : (s.ni t p).rx = k :: rest) (ha : (s.niOpen t p).turnAway t p k = none) (hshut : s.epOpen t p = false) :
    s.present1 t p cmd mtag old = s.niOpen t p := by
  simp only [State.present1, State.niOpen_ni, h, ha, State.niOpen_epOpen, hshut, true_or, if_true, ite_self]

theorem State.present1_shows (h : (s.ni t p).rx = k :: rest) (hc : k.cmd = cmd) (ha : (s.niOpen t p).turnAway t p k = none) (hopen : s.epOpen t p = true)
    (hnew : ∀ y ∈ (s.ni t p).pres, y.mtag ≠ mtag) : s.present1 t p cmd mtag old =
      (s.niOpen t p).setNi t p { s.ni t p with rx := rest, pres := qRaise (s.niOpen t p).cyc ((s.ni t p).pres ++
        [⟨mtag, k, s.presentAddr t p k, (answerOf k.cmd).isSome, false, false, old, if cmd = Cmd.ATM then old.bind (atmStore k) else none, none⟩]) } := by
  have hany : (s.ni t p).pres.any (fun x => x.mtag == mtag) = false := by
    rw [List.any_eq_false]
    exact fun y hy => by simpa using hnew y hy
  have haddr : (s.niOpen t p).presentAddr t p k = s.presentAddr t p k := by
    unfold State.presentAddr
    rw [State.niOpen_kind]
  simp only [State.present1, State.niOpen_ni, h, ne_eq, hc, not_true, if_false, ha, State.niOpen_epOpen, hopen, hany, haddr, Bool.true_eq_false,
    Bool.false_eq_true, or_self]

end

-- Transfers on Q, answers, and the timer.

section
variable {s : State} {t p : Nat} {mtag : BitVec 8}

theorem State.qTaken_shut (h : s.epOpen t p = false) : s.qTaken t p mtag = s := if_pos (.inr h)

/-- The endpoint takes the first request that it has not taken. -/
theorem State.qTaken_takes {x : Pres} (hk : s.slaveKind t p = true) (ho : s.epOpen t p = true) (hf : (s.ni t p).pres.find? (fun x => !x.taken) = some x)
    (hm : x.mtag = mtag) : s.qTaken t p mtag = s.setNi t p { s.ni t p with pres := qRaise s.cyc (if x.np then
        replaceFirst (fun y => y.mtag == mtag && !y.taken) (fun y => { y with taken := true }) (s.ni t p).pres
      else (s.ni t p).pres.filter (fun y => y.mtag != mtag)) } := by
  simp only [State.qTaken, hk, ho, hf, hm, Bool.true_eq_false, or_self, if_false, ne_eq, not_true]
  split <;> rfl

variable {code : BitVec 4} {data : List Line}

/-- The state in which an answer's beats have entered the crossing and the tile has its wake. -/
def State.answerIn (s : State) (t p : Nat) (data : List Line) : State := (s.niEnter t p (max 1 data.length)).wake t true

theorem State.targetAnswer_shut (h : s.epOpen t p = false ∨ s.niRoom t p (max 1 data.length) = false) : s.targetAnswer t p mtag code data = s :=
  if_pos (.inr h)

theorem State.wake_ni (s : State) (t i j : Nat) (b : Bool) : (s.wake t b).ni i j = s.ni i j := by
  unfold State.ni
  rw [State.wake_nis]

/-- A port that is not as at reset reads back, whatever the table. -/
theorem State.ni_setNi_of_ne (s : State) (t p : Nat) {n : Ni} (h : n ≠ Ni.reset) : (s.setNi t p n).ni t p = n := tget_tput_of_ne h _ _

/-- Beats that enter the crossing leave the presented requests. -/
theorem State.answerIn_pres (s : State) (t p : Nat) (data : List Line) : ((s.answerIn t p data).ni t p).pres = (s.ni t p).pres := by
  rw [State.answerIn, State.wake_ni, State.niEnter]
  split
  · rfl
  · rw [State.ni_setNi_of_ne]
    intro h
    have hx : (s.ni t p).xin + max 1 data.length = 0 := congrArg Ni.xin h
    omega

section
variable {x : Pres} {xs : List Pres} (hk : s.slaveKind t p = true) (ho : s.epOpen t p = true) (hr : s.niRoom t p (max 1 data.length) = true)
  (hx : extract (fun (x : Pres) => x.mtag == mtag && x.taken) (s.ni t p).pres = some (x, xs))
include hk ho hr hx

/-- An answer to a request already answered is only counted. -/
theorem State.targetAnswer_late (hd : x.dead = true) : s.targetAnswer t p mtag code data =
    ((s.answerIn t p data).setNi t p { (s.answerIn t p data).ni t p with pres := xs }).late t p := by
  rw [← State.answerIn_pres s t p data] at hx
  unfold State.answerIn at hx ⊢
  simp only [State.targetAnswer, hk, ho, hr, Bool.true_eq_false, or_self, if_false, hx, hd, if_true]

/-- Any other answer is formed and queued. -/
theorem State.targetAnswer_goes (hd : x.dead = false)
    (hlen : respRead code = Resp.OK → data.length = flitsFor (x.pkt.lenm1.toNat + 1)) : s.targetAnswer t p mtag code data =
    ((s.answerIn t p data).setNi t p { (s.answerIn t p data).ni t p with pres := xs }).niAnswer t p x.pkt (respRead code) x.pkt.lenm1
      (if respRead code = Resp.OK then answerData x data else []) := by
  rw [← State.answerIn_pres s t p data] at hx
  unfold State.answerIn at hx ⊢
  have hfull : ¬ (respRead code = Resp.OK ∧ x.pkt.cmd = Cmd.RD ∧ data.length ≠ flitsFor (x.pkt.lenm1.toNat + 1)) := fun ⟨hok, _, hne⟩ => hne (hlen hok)
  simp only [State.targetAnswer, hk, ho, hr, Bool.true_eq_false, or_self, if_false, hx, hd, Bool.false_eq_true, hfull]

end

/-- The crossing has room for the beats. -/
theorem State.niRoom_of {k : Nat} (h : s.coreRuns t = true ∨ (s.ni t p).xin + k ≤ 16) : s.niRoom t p k = true := by
  simpa only [State.niRoom, Bool.or_eq_true, decide_eq_true_eq] using h
theorem State.niRoom_not {k : Nat} (hc : s.coreRuns t = false) (h : 16 < (s.ni t p).xin + k) : s.niRoom t p k = false := by
  simp only [State.niRoom, hc, Bool.false_or, decide_eq_false_iff_not]
  omega

/-- The timer of a presented request answers TIMEOUT, and the request stays presented. -/
theorem execTargetTimeout_of {t : Tile} {p : LPort} {x : Pres} (hk : s.slaveKind t.val p.val = true) (hr : 0 < s.rto t.val p.val)
    (hf : (s.ni t.val p.val).pres.find? (fun x => x.mtag == mtag && x.np && !x.dead && x.at_.isSome) = some x) :
    execTargetTimeout t p mtag s = .next (((s.until (x.at_.getD 0 + s.rto t.val p.val * unit16)).setNi t.val p.val { s.ni t.val p.val with
      pres := replaceFirst (fun y => y.mtag == mtag && y.np && !y.dead) (fun y => { y with dead := true }) (s.ni t.val p.val).pres }).niAnswer
        t.val p.val x.pkt Resp.TIMEOUT 0 []) := by
  simp only [execTargetTimeout, hk, Nat.ne_of_gt hr, Bool.true_eq_false, or_self, if_false, hf]

end

-- Arrival.

section
variable {s : State} {t p : Nat} {k : Pkt}

/-- A port that is not enabled, or whose endpoint is in reset, presents nothing. -/
theorem State.turnAway_closed (h : s.niState t p ≠ niEnabled ∨ (s.ni t p).epLow = true) : (s.turnAway t p k).isSome = true := by
  unfold State.turnAway
  rcases h with h | h
  · rw [if_pos h]
    rfl
  · simp only [h, if_true]
    repeat' split
    all_goals rfl

theorem State.arriveRx_away {code : BitVec 4} (hk : s.kind t p ≠ .message) (h : (s.niOpen t p).niState t p ≠ niEnabled ∨ (s.ni t p).epLow = true)
    (ha : (s.niOpen t p).turnAway t p k = some code) : s.arriveRx t p k = (s.niOpen t p).turnedAway t p k code := by
  have haway : ((s.niOpen t p).niState t p != niEnabled || (s.niOpen t p).kind t p != .message && ((s.niOpen t p).ni t p).epLow) = true := by
    rw [State.niOpen_kind, State.niOpen_ni]
    rcases h with h | h <;> simp [h, hk]
  simp only [State.arriveRx, haway, ha]

theorem State.arriveRx_open (h : (s.niOpen t p).niState t p = niEnabled) (hlow : (s.ni t p).epLow = false) :
    s.arriveRx t p k = (s.niOpen t p).setNi t p { s.ni t p with rx := (s.ni t p).rx ++ [k] } := by
  have haway : ((s.niOpen t p).niState t p != niEnabled || (s.niOpen t p).kind t p != .message && ((s.niOpen t p).ni t p).epLow) = false := by
    rw [State.niOpen_ni]
    simp [h, hlow]
  simp only [State.arriveRx, haway]
  rw [State.niOpen_ni]

/-- A target or memory NI is no message NI. -/
theorem State.slaveKind_ne_message (h : s.slaveKind t p = true) : s.kind t p ≠ .message := by
  intro hk
  rw [State.slaveKind, hk] at h
  exact absurd h (by decide)

end

-- Mailboxes.

section
variable {s : State} {t p : Nat} {k : Pkt} {rest : List Pkt}

/-- A message that the port, its address or its mailbox does not take is answered DECERR. -/
theorem State.msgIn_refused (h : (s.ni t p).rx = k :: rest)
    (hc : (s.niOpen t p).niState t p ≠ niEnabled ∨ fld k.addr 4 44 ≠ 0 ∨ s.gb (aNimbox t p (fld k.addr 0 4)) TL_NIMBOX.EN = false) :
    s.msgIn t p = ((s.niOpen t p).setNi t p { s.ni t p with rx := rest }).niAnswer t p k Resp.DECERR 0 [] := by
  simp only [State.msgIn, State.niOpen_ni, State.niOpen_gb, h]
  exact if_pos hc

section
variable (h : (s.ni t p).rx = k :: rest) (he : (s.niOpen t p).niState t p = niEnabled) (ha : fld k.addr 4 44 = 0)
  (hen : s.gb (aNimbox t p (fld k.addr 0 4)) TL_NIMBOX.EN = true)
include h he ha hen

theorem State.msgIn_full (hfull : s.mboxDepth t p (fld k.addr 0 4) ≤ (s.ni t p).mboxCount (fld k.addr 0 4) ∨ 256 ≤ (s.ni t p).mbox.length) :
    s.msgIn t p = ((s.niOpen t p).setNi t p { s.ni t p with rx := rest }).niAnswer t p k Resp.RETRY 0 [] := by
  simp only [State.msgIn, State.niOpen_ni, State.niOpen_gb, State.niOpen_mboxDepth, h, he, ha, hen, ne_eq, not_true, Bool.true_eq_false, or_self, if_false]
  exact if_pos hfull

theorem State.msgIn_stores (hroom : (s.ni t p).mboxCount (fld k.addr 0 4) < s.mboxDepth t p (fld k.addr 0 4)) (hlen : (s.ni t p).mbox.length < 256) :
    s.msgIn t p =
      let m := fld k.addr 0 4
      let s2 := ((s.niOpen t p).setNi t p ({ s.ni t p with rx := rest, mbox := (s.ni t p).mbox ++ [⟨m, k⟩] } : Ni).mboxShow).niAnswer t p k Resp.OK 0 []
      if (s.ni t p).mboxCount m = 0 ∧ s.gb (aNimbox t p m) TL_NIMBOX.EVT = true then s2.raiseTile t p else s2 := by
  have hno : ¬ (s.mboxDepth t p (fld k.addr 0 4) ≤ (s.ni t p).mboxCount (fld k.addr 0 4) ∨ 256 ≤ (s.ni t p).mbox.length) := by omega
  simp only [State.msgIn, State.niOpen_ni, State.niOpen_gb, State.niOpen_mboxDepth, h, he, ha, hen, ne_eq, not_true, Bool.true_eq_false, or_self, if_false, hno]

end

/-- What stands on Q once the next mailbox has been looked for. -/
theorem Ni.mboxShow_shows {n : Ni} {m : Nat} (h : n.mboxQ = some m ∨ n.mboxQ = none ∧ n.nextBox = some m) : n.mboxShow.mboxQ = some m := by
  rcases h with h | ⟨h, hnext⟩
  · simp only [Ni.mboxShow, h, Option.orElse_some]
  · simp only [Ni.mboxShow, h, Option.orElse_none, hnext]

/-- The endpoint takes the entry that stands on Q. -/
theorem execMailboxDelivery_takes {t : Tile} {p : LPort} {m : Nat} {x : MboxEntry} {xs : List MboxEntry} (hk : s.kind t.val p.val = .message)
    (ho : s.epOpen t.val p.val = true) (hq : (s.ni t.val p.val).mboxShow.mboxQ = some m)
    (hx : extract (fun (e : MboxEntry) => e.box == m) (s.ni t.val p.val).mbox = some (x, xs)) :
    execMailboxDelivery t p s =
      .next (s.setNi t.val p.val ({ s.ni t.val p.val with mbox := xs, mboxLast := m, mboxQ := none } : Ni).mboxShow) := by
  simp only [execMailboxDelivery, hk, ho, hq, hx, ne_eq, not_true, Bool.true_eq_false, or_self, if_false]

end

/-- Settles O53, by the cases of the request that stands first, of an answer, of the timer and of a mailbox. -/
theorem targetsPresentAndAnswer : Obligations.TargetsPresentAndAnswer := by
  intro s t p k rest mtag old i j n np cmds shut
  have open_of (h : ¬ shut) : s.epOpen i j = true := by
    obtain ⟨h5, h6, hlow, hup, hclk⟩ : s.pst i ≠ 5 ∧ s.pst i ≠ 6 ∧ ¬ n.epLow = true ∧ ¬ n.epUp = false ∧ ¬ n.clkStop = true := by
      simpa only [shut, not_or] using h
    exact State.epOpen_open h5 h6 (eq_false_of_ne_true hlow) (eq_true_of_ne_false hup) (eq_false_of_ne_true hclk)
  refine ⟨fun hk hrx x hx => ⟨fun hc => ?other, fun hc code ha => ?away, fun hc ha hs => ?closed, fun hc ha hs hnew => ?shows⟩, fun c x xs => ⟨fun h => ?_, fun h => ?_⟩,
    fun hs => ⟨?_, fun code data => ?_, ?_⟩, fun hk hs x hf hm => ⟨fun hnp => ?_, fun hnp => ?_⟩, fun code data hc hfull => ?full,
    fun hk hs code data x xs hroom hx => ?answer, fun hs hc b => ?_, fun hc b => ?_, fun hk => ?arrive, fun hk hr x hf => ?timer, fun hk hrx => ?msg,
    fun hk hs m x xs hq hx => ?box⟩
  case other => exact (exec_targetCmds hx hk).trans (congrArg Host.Outcome.next (State.present1_other hrx hc))
  case away => exact (exec_targetCmds hx hk).trans (congrArg Host.Outcome.next (State.present1_away hrx hc ha))
  case closed => exact (exec_targetCmds hx hk).trans (congrArg Host.Outcome.next (State.present1_shut hrx ha (State.epOpen_shut hs)))
  case shows =>
    refine (exec_targetCmds hx hk).trans (congrArg Host.Outcome.next ((State.present1_shows hrx hc ha (open_of hs) hnew).trans ?_))
    rw [targetCmds_old hx k]
    rfl
  · rw [qRaise, h]
    rfl
  · rw [qRaise, if_pos h]
  · exact congrArg Host.Outcome.next (State.qTaken_shut (State.epOpen_shut hs))
  · exact congrArg Host.Outcome.next (State.targetAnswer_shut (.inl (State.epOpen_shut hs)))
  · exact congrArg Host.Outcome.next (if_pos (.inr (State.epOpen_shut hs)))
  · refine congrArg Host.Outcome.next ((State.qTaken_takes hk (open_of hs) hf hm).trans ?_)
    rw [if_pos hnp]
  · refine congrArg Host.Outcome.next ((State.qTaken_takes hk (open_of hs) hf hm).trans ?_)
    rw [hnp, if_neg Bool.noConfusion]
  case full => exact congrArg Host.Outcome.next (State.targetAnswer_shut (.inr (State.niRoom_not hc hfull)))
  case answer =>
    intro u left
    have ho := open_of hs
    have hr : s.niRoom i j (max 1 data.length) = true := State.niRoom_of hroom
    refine ⟨fun hd => congrArg Host.Outcome.next (State.targetAnswer_late hk ho hr hx hd), fun hd hne => ?_, fun hd hok hlen => ?_⟩
    · refine congrArg Host.Outcome.next ((State.targetAnswer_goes hk ho hr hx hd (fun h => absurd h hne)).trans ?_)
      rw [if_neg hne]
      rfl
    · subst hok
      exact congrArg Host.Outcome.next (State.targetAnswer_goes hk ho hr hx hd (fun _ => hlen))
  · rw [State.niEnter, hc, if_neg Bool.noConfusion, State.ni_setNi _ _ _ _ hs]
  · exact if_pos hc
  case arrive =>
    intro o
    have hmsg := State.slaveKind_ne_message hk
    refine ⟨fun code h ha => State.arriveRx_away hmsg h ha, fun h => State.turnAway_closed ?_, fun he hlow => State.arriveRx_open he hlow⟩
    rw [State.niOpen_ni]
    exact h
  case timer => exact execTargetTimeout_of hk hr hf
  case msg =>
    intro m o s1
    have hrun : exec (.msg t p) s = .next (s.msgIn i j) := congrArg Host.Outcome.next (if_pos hk)
    rw [hrun]
    exact ⟨fun hc => congrArg Host.Outcome.next (State.msgIn_refused hrx hc), fun he ha hen =>
      ⟨fun hfull => congrArg Host.Outcome.next (State.msgIn_full hrx he ha hen hfull),
        fun hroom hlen => congrArg Host.Outcome.next (State.msgIn_stores hrx he ha hen hroom hlen)⟩⟩
  case box => exact execMailboxDelivery_takes hk (open_of hs) (Ni.mboxShow_shows hq) hx

end Sys2Proof.Machine
end


section
/-! SUPPORT. Injection and ejection of packets: O50. -/
namespace Sys2Proof.Machine

-- What a port keeps of a request that it injects.

section
variable {s : State} {t p : Nat}

/-- Bringing the tokens up to now leaves the rest of the port. -/
theorem State.settleTok_ni (hs : s.canon) : ∃ toks at_, (s.settleTok t p).ni t p = { s.ni t p with tok := toks, tokAt := at_ } :=
  ⟨_, _, State.ni_setNi _ _ _ _ hs⟩

theorem State.account_setNi (idx : Nat) (r : NiReq) (tag : BitVec 12) : ∃ x : Ni, s.account t p idx r tag = (s.settleTok t p).setNi t p x ∧
    x.going = ((s.settleTok t p).ni t p).going ++ [⟨r.seq, r.cls, r.q.mtag, r.stratum, qopPosted r.op, r.op == Qop.DOORBELL, qopPosted r.op⟩] ∧
    x.sresp = ((s.settleTok t p).ni t p).sresp ∧ x.injq = ((s.settleTok t p).ni t p).injq.eraseIdx idx := by
  unfold State.account
  dsimp only
  split <;> exact ⟨_, rfl, rfl, rfl, rfl⟩

/-- The injected request leaves the injection queue and joins those whose flits stand on the wires; no answer is formed and no register changes. -/
theorem State.account_parts (hs : s.canon) (idx : Nat) (r : NiReq) (tag : BitVec 12) : let s1 := s.account t p idx r tag
    (s1.ni t p).going = (s.ni t p).going ++ [⟨r.seq, r.cls, r.q.mtag, r.stratum, qopPosted r.op, r.op == Qop.DOORBELL, qopPosted r.op⟩] ∧
      (s1.ni t p).sresp = (s.ni t p).sresp ∧ (s1.ni t p).injq = (s.ni t p).injq.eraseIdx idx ∧ s1.regs = s.regs := by
  intro s1
  obtain ⟨toks, at_, hsettled⟩ := State.settleTok_ni (t := t) (p := p) hs
  obtain ⟨x, hx, hgoing, hsresp, hinjq⟩ := State.account_setNi (s := s) (t := t) (p := p) idx r tag
  have hni : s1.ni t p = x := (congrArg (State.ni · t p) hx).trans (State.ni_setNi _ _ _ _ ((keeps_State_settleTok (Keeps.refl s)).canon hs))
  rw [hsettled] at hgoing hsresp hinjq
  rw [hni]
  exact ⟨hgoing, hsresp, hinjq, (congrArg (·.regs) hx : (s.account t p idx r tag).regs = s.regs)⟩

end

-- Injection by source.

section
variable {s : State} {cls : BitVec 2} {tag : BitVec 12}

theorem State.injectHeader_asleep {src : InjSrc} (h : s.coreRuns (s.srcTile src) = false) : s.injectHeader src cls tag = s :=
  if_pos (by rw [h]; exact Bool.noConfusion)

/-- The requests of an initiator. -/
theorem State.injectReq_sends {t p n : Nat} {r : NiReq} (hn : s.nextReq t p = some n) (hr : (s.ni t p).injq[n]? = some r) (hc : r.cls = cls)
    (htag : qopPosted r.op = true ∨ (s.ni t p).tagFree tag = true) : s.injectReq t p cls tag =
      let u := (s.account t p n r tag).place t 0 (4 + p) (reqPkt t p r tag)
      { u with pm := { u.pm with niflits := u.pm.niflits + 1 + r.data.length } } := by
  have hgo : ¬ (r.cls ≠ cls ∨ (qopPosted r.op = false ∧ (s.ni t p).tagFree tag = false)) := by
    rcases htag with h | h <;> simp [hc, h]
  simp only [State.injectReq, hn, hr, if_neg hgo]

theorem State.injectReq_noTag {t p n : Nat} {r : NiReq} (hn : s.nextReq t p = some n) (hr : (s.ni t p).injq[n]? = some r)
    (hnp : qopPosted r.op = false) (htag : (s.ni t p).tagFree tag = false) : s.injectReq t p cls tag = s := by
  simp only [State.injectReq, hn, hr, hnp, htag, and_self, or_true, if_true]

/-- What the command does once the source's core runs. -/
theorem State.injectHeader_ni {t : Tile} {p : LPort} (h : s.coreRuns t.val = true) : s.injectHeader (.ni t p) cls tag =
    if s.kind t.val p.val = .initiator then s.injectReq t.val p.val cls tag else s.injectResp t.val p.val cls := if_neg (not_not_intro h)
theorem State.injectHeader_agent {t : Tile} (h : s.coreRuns t.val = true) : s.injectHeader (.agent t) cls tag = s.injectAgent t.val cls := if_neg (not_not_intro h)
theorem State.injectHeader_sink {t : Tile} (h : s.coreRuns t.val = true) : s.injectHeader (.sink t) cls tag = s.injectSink t.val cls := if_neg (not_not_intro h)
theorem State.injectHeader_trace {t : Tile} (h : s.coreRuns t.val = true) : s.injectHeader (.trace t) cls tag = s.injectTrace t.val cls tag := if_neg (not_not_intro h)
theorem State.injectHeader_cfgep (h : s.coreRuns (epTile s.build.cfgep) = true) : s.injectHeader .cfgep cls tag = s.injectCfg cls := if_neg (not_not_intro h)
theorem State.injectHeader_evc (h : s.coreRuns (epTile s.build.dbep) = true) : s.injectHeader .evc cls tag = s.injectEvc cls := if_neg (not_not_intro h)

end

/-- A command whose injection leaves a state ends with the look at the contexts. -/
theorem exec_injectHeader {s u : State} {src : InjSrc} {cls : BitVec 2} {tag : BitVec 12} (h : s.injectHeader src cls tag = u) :
    exec (.injectHeader src cls tag) s = .next u.recheck := congrArg (fun u : State => Host.Outcome.next u.recheck) h

-- Ejection.

section
variable {s : State} {t pl o : Nat} {r : Recv} {e : Ejected}

theorem State.ejection_waits {fs : List RawFlit} (hbad : (ejectPkt fs).hdrBad = false)
    (hfull : (s.recvFull t o pl (s.recvAt t o pl) (Machine.hdrOf (ejectPkt fs).hdr) ||
      (s.frontHdr t pl o (ejectPkt fs).vc).any (s.recvFull t o pl (s.recvAt t o pl))) = true) : s.ejection t pl o fs = s := by
  refine (apply_ite id _ _ _).symm.trans ?_
  split
  · rfl
  · exact if_pos ⟨hbad, hfull⟩

/-- A packet whose receiver takes it, or whose header is lost, leaves the output and is judged. -/
theorem State.ejection_leaves {fs : List RawFlit} (ho : 4 ≤ o) (hfs : fs ≠ []) (hc : s.coreRuns t = true)
    (h : (ejectPkt fs).hdrBad = true ∨ (s.recvFull t o pl (s.recvAt t o pl) (Machine.hdrOf (ejectPkt fs).hdr) ||
      (s.frontHdr t pl o (ejectPkt fs).vc).any (s.recvFull t o pl (s.recvAt t o pl))) = false) :
    s.ejection t pl o fs = (s.leaveOutput t pl o (ejectPkt fs).vc).ejected t pl o (s.recvAt t o pl) (ejectPkt fs) := by
  have hruns : ¬ (o < 4 ∨ fs = [] ∨ s.coreRuns t = false) := by simp [hfs, hc, ho]
  refine (if_neg hruns).trans (if_neg fun ⟨hbad, hfull⟩ => ?_)
  rcases h with h | h
  · exact absurd (hbad.symm.trans h) Bool.noConfusion
  · exact absurd (h.symm.trans hfull) Bool.noConfusion

variable (h : verdict e (epAddr t (o - 4)) = .good)
include h in
theorem State.ejected_request (hpl : pl = 0) : s.ejected t pl o r e = s.takeReq t o r e.pkt := by
  simp only [State.ejected, h, hpl, if_true]
include h in
theorem State.ejected_response (hpl : pl = 1) (hv : cmdValid 1 e.pkt.cmd e.pkt.dfc.toNat = true) : s.ejected t pl o r e = s.takeResp t o r e.pkt := by
  simp only [State.ejected, h, hpl, Nat.one_ne_zero, if_false, hv, if_true]

/-- A discarded packet is counted, and its output's event raised. -/
def State.discarded (s : State) (t pl o : Nat) (r : Recv) (f : Fd) : State := (s.ejectCount t o r f).discardEvent t pl o

theorem State.ejected_headerLost (h : verdict e (epAddr t (o - 4)) = .headerLost) : s.ejected t pl o r e = s.discarded t pl o r TL_NIERR.CRCERR := by
  simp only [State.ejected, h]
  rfl
theorem State.ejected_misrouted (h : verdict e (epAddr t (o - 4)) = .misrouted) : s.ejected t pl o r e = s.discarded t pl o r TL_NIERR.MISROUTE := by
  simp only [State.ejected, h]
  rfl

/-- A posted request with lost data is discarded. -/
theorem State.ejected_bad {f : Fd} (hpl : pl = 0) (hnp : answerOf e.pkt.cmd = none)
    (h : verdict e (epAddr t (o - 4)) = .poisoned ∧ f = TL_NIERR.POISONED ∨ verdict e (epAddr t (o - 4)) = .crcFailed ∧ f = TL_NIERR.CRCERR) :
    s.ejected t pl o r e = s.discarded t pl o r f := by
  have hposted : nonPosted 0 e.pkt = false := by rw [nonPosted, hnp, Option.isSome_none, Bool.and_false]
  subst hpl
  rcases h with ⟨h, rfl⟩ | ⟨h, rfl⟩ <;>
  · simp only [State.ejected, h, hposted, Nat.zero_ne_one, if_false, Bool.false_eq_true]
    rfl

theorem verdict_of_hdrBad {here : BitVec 10} (h : e.hdrBad = true) : verdict e here = .headerLost := if_pos h

end

/-- Settles O50, source by source, and by the verdict on a packet that leaves. -/
theorem injectionAndEjection : Obligations.InjectionAndEjection := by
  intro s cls tag k rest t p i e d flits
  refine ⟨fun src h => exec_injectHeader (State.injectHeader_asleep h), fun n r hc hk hn hr hcls => ?request, fun hc hk hf => ?response, fun hc hf => ?agent,
    fun hc hf => ?sink, fun hc hf => ?cfgep, fun hc hf => ?evc, fun rec_ recs hc hq => ⟨fun hcls hroom => ?trace, fun hcls => ?otherClass⟩,
    fun q hc => exec_injectHeader (if_neg (not_not_intro hc)), fun x hc => exec_injectHeader (if_neg (not_not_intro hc)),
    fun pl out fs ho hfs hc => ?eject⟩
  case request =>
    have hrun := (State.injectHeader_ni (s := s) (cls := cls) (tag := tag) (p := p) hc).trans (if_pos hk)
    intro s1 sent count
    exact ⟨fun _ htag => exec_injectHeader (hrun.trans (State.injectReq_sends hn hr hcls (.inr htag))),
      fun hnp htag => exec_injectHeader (hrun.trans (State.injectReq_noTag hn hr hnp htag)),
      fun hp => exec_injectHeader (hrun.trans (State.injectReq_sends hn hr hcls (.inl hp))), fun hs => State.account_parts hs n r tag⟩
  case response =>
    refine exec_injectHeader (((State.injectHeader_ni hc).trans (if_neg hk)).trans ?_)
    simp only [State.injectResp, i, hf]
    rfl
  case agent =>
    refine exec_injectHeader ((State.injectHeader_agent hc).trans ?_)
    simp only [State.injectAgent, i, hf]
  case sink =>
    refine exec_injectHeader ((State.injectHeader_sink hc).trans ?_)
    simp only [State.injectSink, i, hf]
  case cfgep =>
    refine exec_injectHeader ((State.injectHeader_cfgep hc).trans ?_)
    simp only [State.injectCfg, e, hf]
  case evc =>
    refine exec_injectHeader ((State.injectHeader_evc hc).trans ?_)
    simp only [State.injectEvc, d, hf]
  case trace =>
    refine exec_injectHeader ((State.injectHeader_trace hc).trans ?_)
    simp only [State.injectTrace, i, hq]
    exact if_pos ⟨hcls, hroom⟩
  case otherClass =>
    refine exec_injectHeader ((State.injectHeader_trace hc).trans ?_)
    simp only [State.injectTrace, i, hq, hcls, false_and, if_false]
  case eject =>
    intro j r s1 full ev
    have judged {u : State} (h : j.hdrBad = true ∨ full = false) (hu : s1.ejected i pl.val out.val r j = u) : exec (.packetEjection t pl out fs) s = .next u :=
      congrArg Host.Outcome.next ((State.ejection_leaves ho hfs hc h).trans hu)
    refine ⟨fun hbad hfull => congrArg Host.Outcome.next (State.ejection_waits hbad hfull),
      fun hfull hv => ⟨fun hpl => judged (.inr hfull) (State.ejected_request hv hpl), fun hpl hcmd => judged (.inr hfull) (State.ejected_response hv hpl hcmd)⟩,
      fun hbad => judged (.inl hbad) (State.ejected_headerLost (verdict_of_hdrBad hbad)),
      fun hfull hv => judged (.inr hfull) (State.ejected_misrouted hv), fun f hfull hpl hnp hv => judged (.inr hfull) (State.ejected_bad hpl hnp hv),
      fun u h => if_pos h, fun u h => if_neg h⟩

end Sys2Proof.Machine
end


section
/-! SUPPORT. Flits, credits and flints at a router: O49. -/
namespace Sys2Proof.Machine

-- A flit leaves the wires.

section
variable {α : Type} {p : α → Bool}

theorem extract_holds {l rest : List α} {a : α} (h : extract p l = some (a, rest)) : p a = true := by
  induction l generalizing rest with
  | nil => cases h
  | cons b l ih =>
    rw [extract] at h
    split at h
    · next hb =>
      cases h
      exact hb
    · obtain ⟨⟨c, r⟩, hcr, heq⟩ := Option.map_eq_some_iff.1 h
      cases heq
      exact ih hcr

theorem find_of_extract {l rest : List α} {a : α} (h : extract p l = some (a, rest)) : l.find? p = some a := by
  induction l generalizing rest with
  | nil => cases h
  | cons b l ih =>
    rw [extract] at h
    split at h
    · next hb =>
      cases h
      exact List.find?_cons_of_pos hb
    · next hb =>
      obtain ⟨⟨c, r⟩, hcr, heq⟩ := Option.map_eq_some_iff.1 h
      cases heq
      rw [List.find?_cons_of_neg hb]
      exact ih hcr

theorem extract_of_find_none {l : List α} (h : l.find? p = none) : extract p l = none :=
  extract_none fun y hy => eq_false_of_ne_true (List.find?_eq_none.1 h y hy)

end

section
variable {s : State} {t pl port vc : Nat} {f : RawFlit} {rest : List RawFlit}
  (hx : extract (fun (x : RawFlit) => fld x.sb 0 3 == vc) (tget [] (s.router t pl).inw port) = some (f, rest))
include hx

theorem State.mayArrive_iff (hp : 4 ≤ port) : s.mayArrive t pl port (some vc) = true ↔ 0 < (s.router t pl).lcredit port vc := by
  have hvc : fld f.sb 0 3 = vc := by simpa using extract_holds hx
  have hfind : (tget [] (s.router t pl).inw port).find? (fun f => (some vc).all (fun v => fld f.sb 0 3 == v)) = some f := find_of_extract hx
  simp only [State.mayArrive, Nat.not_lt.2 hp, decide_false, Bool.false_or, hfind, hvc, decide_eq_true_eq]

/-- A flit of a local input has spent a credit of its originator. -/
def State.spent (s : State) (t pl port vc : Nat) (rest : List RawFlit) : State :=
  s.setRouter t pl ({ s.router t pl with inw := tput [] (s.router t pl).inw port rest }.setLcredit port vc ((s.router t pl).lcredit port vc - 1))

theorem State.popWire_local (hp : 4 ≤ port) : s.popWire t pl port (some vc) = (s.spent t pl port vc rest).noteTail t pl port f := by
  have hvc : fld f.sb 0 3 = vc := by simpa using extract_holds hx
  have hall : extract (fun (f : RawFlit) => (some vc).all (fun v => fld f.sb 0 3 == v)) (tget [] (s.router t pl).inw port) = some (f, rest) := hx
  simp only [State.popWire, Nat.not_lt.2 hp, if_false, hall, hvc]
  rfl

end

/-- A tail of no request that the port keeps changes nothing. -/
theorem State.tailSent_none {s : State} {t p vc : Nat} (h : (s.ni t p).going.find? (fun g => 2 * g.cls.toNat == vc) = none) : s.tailSent t p vc = s := by
  simp only [State.tailSent, extract_of_find_none h]

/-- The tail of a request takes it off; a posted one is answered, and leaves its in-flight counter. -/
theorem State.tailSent_some {s : State} {t p vc : Nat} {g : NiGo} {gs : List NiGo}
    (h : extract (fun (g : NiGo) => 2 * g.cls.toNat == vc) (s.ni t p).going = some (g, gs)) : s.tailSent t p vc =
      let n := s.ni t p
      let left := s.setNi t p { n with going := gs, sresp := if g.owed then n.sresp ++ [⟨g.mtag, Resp.OK, [], false, false, true, none⟩] else n.sresp }
      if g.posted && !g.dbl then left.puDown (puIndex t p) g.stratum else left := by
  simp only [State.tailSent, h]
  cases g.owed <;> rfl

-- Arrival.

section
variable {s : State} {t pl port : Nat} {f : RawFlit}

theorem State.flitArrival_closed (h : s.inputOpen t pl port = false) : s.flitArrival t pl port f = s.popWire t pl port none :=
  if_pos (by rw [h]; exact Bool.noConfusion)

variable (h : s.inputOpen t pl port = true)
include h

theorem State.flitArrival_bad (hsb : sbDecode f.sb f.sbc = .bad) : s.flitArrival t pl port f =
    if s.mayArrive t pl port none = false then s
    else ((s.popWire t pl port none).wake t true).takeDown t pl port (if port < 4 then some (neighbour t port, opposite port) else none) := by
  simp only [State.flitArrival, h, not_true, if_false, hsb]

theorem State.flitArrival_waits {sb : BitVec 8} {lane : Option Nat} (hsb : sbDecode f.sb f.sbc = .ok sb lane)
    (hw : 4 ≤ ((s.router t pl).vc port (fld sb 0 3)).buf.length ∨ s.mayArrive t pl port (some (fld sb 0 3)) = false) : s.flitArrival t pl port f = s := by
  simp only [State.flitArrival, h, not_true, if_false, hsb, if_pos hw]

theorem State.flitArrival_stores {sb : BitVec 8} (hsb : sbDecode f.sb f.sbc = .ok sb none) (hroom : ((s.router t pl).vc port (fld sb 0 3)).buf.length < 4)
    (hmay : s.mayArrive t pl port (some (fld sb 0 3)) = true) :
    s.flitArrival t pl port f = ((s.popWire t pl port (some (fld sb 0 3))).wake t true).storeFlit t pl port f sb := by
  simp only [State.flitArrival, h, not_true, if_false, hsb, Nat.not_le.2 hroom, hmay, Bool.true_eq_false, or_self]

end

section
variable {s : State} {t pl port : Nat} {f : RawFlit}

/-- The flit code of a clean header leaves it as it is. -/
theorem State.flitCode_clean {isHdr : Bool} (h : rsDecode (rsWord f.pay f.chk) = .clean) : s.flitCode t pl port f isHdr false = (s, f.pay, f.chk, false, false) := by
  simp only [State.flitCode, Bool.false_eq_true, if_false, h]

theorem State.notePower_routers (s : State) (t : Nat) (k : Pkt) : (s.notePower t k).routers = s.routers := by
  unfold State.notePower
  dsimp only
  split
  · split <;> rfl
  · rfl

theorem State.notePower_router (s : State) (t : Nat) (k : Pkt) (u pl : Nat) : (s.notePower t k).router u pl = s.router u pl := by
  unfold State.router
  rw [State.notePower_routers]
theorem State.rcount_router (s : State) (t pl : Nat) (fd : Fd) (u v : Nat) : (s.rcount t pl fd).router u v = s.router u v := rfl

/-- A header joins its VC buffer with its route, which this router repairs where its lookahead fails. -/
theorem State.storeFlit_header {sb : BitVec 8} (hft : fld sb 3 2 = ftHead ∨ fld sb 3 2 = ftHeadTail) (hclean : rsDecode (rsWord f.pay f.chk) = .clean) :
    s.storeFlit t pl port f sb =
      let x := (s.router t pl).vc port (fld sb 0 3)
      let s1 := if RawFlit.lookaheadOk f then s else s.rcount t pl TL_RSTAT.LAREPAIR
      let s2 := if pl = 0 then s1.notePower t (Machine.hdrOf f.pay) else s1
      let flit : Flit := ⟨f.pay, f.chk, BitVec.ofNat 2 (fld sb 3 2), bitOf sb 5, false,
        if RawFlit.lookaheadOk f then f.lar.toNat else s.routeHere t pl (bitOf sb 5).toNat port (Machine.hdrOf f.pay).dest⟩
      (s2.setRouter t pl ((s.router t pl).setVc port (fld sb 0 3) { x with discard := false, buf := x.buf ++ [flit] })).settle t pl := by
  have hcode := State.flitCode_clean (s := s) (t := t) (pl := pl) (port := port) (isHdr := true) hclean
  simp only [State.storeFlit, hft, decide_true, Bool.true_eq_false, and_false, false_and, if_false, Bool.not_true, Bool.and_false, hcode, true_and,
    not_true, Bool.false_eq_true]
  cases RawFlit.lookaheadOk f <;> rcases Decidable.em (pl = 0) with hpl | hpl <;>
    simp only [hpl, if_true, if_false, Bool.false_eq_true, not_false_eq_true, not_true, State.notePower_router, State.rcount_router]

end

-- Credits.

section
variable {s : State} {t pl o : Nat} {crv : Bool} {vc : BitVec 3}

/-- The credit on the wires toward an output is taken off, where one is sent. -/
def State.creditOff (s : State) (t pl o : Nat) (crv : Bool) (vc : BitVec 3) : State := if crv then s.popCredit t pl o vc.toNat else s

theorem State.popCredit_regs (s : State) (t pl o v : Nat) : (s.popCredit t pl o v).regs = s.regs ∧ (s.popCredit t pl o v).build = s.build := by
  unfold State.popCredit
  dsimp only
  split <;> exact ⟨rfl, rfl⟩

theorem State.creditOff_g (o' : Nat) (f : Fd) : (s.creditOff t pl o crv vc).g o' f = s.g o' f := by
  unfold State.creditOff
  split
  · obtain ⟨hregs, hbuild⟩ := State.popCredit_regs s t pl o vc.toNat
    exact g_of hregs hbuild o' f
  · rfl

theorem State.creditOff_linkState (d : Nat) : (s.creditOff t pl o crv vc).linkState t pl d = s.linkState t pl d := State.creditOff_g _ _
theorem State.creditOff_pst : (s.creditOff t pl o crv vc).pst t = s.pst t := State.creditOff_g _ _

/-- Good parity is odd over CRV, CRVC and CRP. -/
theorem credit_good (crv : Bool) (vc : BitVec 3) : Bool.xor (Bool.xor crv (parity vc)) (Bool.xor crv (parity vc)) = false := Bool.xor_self _
theorem credit_bad (crv : Bool) (vc : BitVec 3) : Bool.xor (!(Bool.xor crv (parity vc))) (Bool.xor crv (parity vc)) = true := Bool.not_xor_self _

section
variable (h5 : s.pst t ≠ 5) (h6 : s.pst t ≠ 6)
include h5 h6

section
variable (hlink : o < 4 → s.linkState t pl o = 0 ∨ s.linkState t pl o = 3)
include hlink

theorem State.credit_open : ¬ ((s.creditOff t pl o crv vc).pst t = 5 ∨ (s.creditOff t pl o crv vc).pst t = 6 ∨
    (o < 4 ∧ (s.creditOff t pl o crv vc).linkState t pl o ≠ 0 ∧ (s.creditOff t pl o crv vc).linkState t pl o ≠ 3)) := by
  rw [State.creditOff_pst, State.creditOff_linkState]
  rintro (h | h | ⟨ho, h0, h3⟩)
  · exact h5 h
  · exact h6 h
  · exact (hlink ho).elim h0 h3

theorem State.creditReturn_counts : s.creditReturn t pl o true vc (Bool.xor true (parity vc)) =
    let s1 := s.popCredit t pl o vc.toNat
    (s1.setRouter t pl ((s1.router t pl).setCredit o vc.toNat (min 4 ((s1.router t pl).credit o vc.toNat + 1)))).settle t pl := by
  refine (if_neg (State.credit_open (crv := true) h5 h6 hlink)).trans ((if_neg ?_).trans (if_neg (not_not_intro rfl)))
  rw [credit_good]
  exact Bool.noConfusion

theorem State.creditReturn_none : s.creditReturn t pl o false vc (Bool.xor false (parity vc)) = s := by
  refine (if_neg (State.credit_open (crv := false) h5 h6 hlink)).trans ((if_neg ?_).trans (if_pos Bool.noConfusion))
  rw [credit_good]
  exact Bool.noConfusion

theorem State.creditReturn_bad : s.creditReturn t pl o crv vc (!(Bool.xor crv (parity vc))) =
    (s.creditOff t pl o crv vc).takeDown t pl o (if o < 4 then some (t, o) else none) :=
  (if_neg (State.credit_open h5 h6 hlink)).trans (if_pos (credit_bad crv vc))

end

/-- The credit on the wires toward a local input is taken off, where one is sent. -/
def State.localOff (s : State) (t pl o : Nat) (crv : Bool) (vc : BitVec 3) : State :=
  match extract (fun x => x == (o, vc.toNat)) (s.router t pl).crOut with
  | some (_, rest) => if crv then s.setRouter t pl { s.router t pl with crOut := rest } else s
  | none => s

omit h5 h6 in
theorem State.localOff_g (o' : Nat) (f : Fd) : (s.localOff t pl o crv vc).g o' f = s.g o' f := by
  unfold State.localOff
  split
  · split <;> rfl
  · rfl

omit h5 h6 in
theorem State.localOff_none : s.localOff t pl o false vc = s := by
  unfold State.localOff
  split <;> rfl

theorem State.local_open : ¬ ((s.localOff t pl o crv vc).pst t = 5 ∨ (s.localOff t pl o crv vc).pst t = 6) := by
  rintro (h | h)
  · exact h5 ((State.localOff_g _ _).symm.trans h)
  · exact h6 ((State.localOff_g _ _).symm.trans h)

theorem State.localCredit_counts : s.localCredit t pl o true vc (Bool.xor true (parity vc)) =
    let s2 := s.localOff t pl o true vc
    s2.setRouter t pl ((s2.router t pl).setLcredit o vc.toNat (min 4 ((s2.router t pl).lcredit o vc.toNat + 1))) := by
  refine (if_neg (State.local_open (crv := true) (vc := vc) (pl := pl) (o := o) h5 h6)).trans ((if_neg ?_).trans (if_neg (not_not_intro rfl)))
  rw [credit_good]
  exact Bool.noConfusion

theorem State.localCredit_none : s.localCredit t pl o false vc (Bool.xor false (parity vc)) = s := by
  refine ((if_neg (State.local_open (crv := false) (vc := vc) (pl := pl) (o := o) h5 h6)).trans ((if_neg ?_).trans (if_pos Bool.noConfusion))).trans State.localOff_none
  rw [credit_good]
  exact Bool.noConfusion

theorem State.localCredit_bad : s.localCredit t pl o crv vc (!(Bool.xor crv (parity vc))) = (s.localOff t pl o crv vc).takeDown t pl o none :=
  (if_neg (State.local_open h5 h6)).trans (if_pos (credit_bad crv vc))

end

end

-- Flints.

section
variable {s : State} {t pl port : Nat} {dest : BitVec 8} {str : Bool}

theorem State.flintAt_off (h : s.pst t = 5 ∨ s.pst t = 6) : s.flintAt t pl port dest str = s := if_pos h

variable (h : ¬ (s.pst t = 5 ∨ s.pst t = 6))
include h

/-- At its own tile, or for no tile of the grid, a flint only wakes. -/
theorem State.flintAt_here (hd : nodeInGrid dest = false ∨ nodeTile dest = t) : s.flintAt t pl port dest str = s.wake t false := by
  refine (if_neg h).trans (if_pos (hd.imp_left fun hgrid => ?_))
  rw [hgrid]
  exact Bool.noConfusion

variable (hgrid : nodeInGrid dest = true) (ht : nodeTile dest ≠ t)
include hgrid ht

theorem State.flintAt_away : s.flintAt t pl port dest str =
    let u := s.wake t false
    let o := u.routeHere t pl str.toNat port (epAddr (nodeTile dest) 0)
    if 4 ≤ o ∨ u.linkState t pl o = 4 ∨ u.linkState t pl o = 1 then u
    else if (tget none (u.router t pl).flints o).any (fun f => decide (f.cyc = s.cyc) && decide (f.inp ≤ port)) then u
    else u.setRouter t pl { u.router t pl with flints := tput none (u.router t pl).flints o (some ⟨s.cyc, port, dest, str⟩) } := by
  refine (if_neg h).trans ((if_neg ?_).trans ?_)
  · rintro (hg | hn)
    · exact hg hgrid
    · exact ht hn
  · dsimp only
    rw [State.wake_cyc]
    split
    · rfl
    · cases tget none ((s.wake t false).router t pl).flints _ <;> rfl

end

/-- What leaves a state ends with the look at the contexts. -/
theorem exec_flitArrival {s u : State} {t : Tile} {pl : Plane} {port : RPort} {f : RawFlit} (h : s.flitArrival t.val pl.val port.val f = u) :
    exec (.flitArrival t pl port f) s = .next u.recheck := congrArg (fun u : State => Host.Outcome.next u.recheck) h

theorem exec_flint {s : State} {t : Tile} {pl : Plane} {port : RPort} {dest : BitVec 8} {str : Bool} :
    exec (.flint t pl port dest str (flpOf dest str)) s = .next (s.flintAt t.val pl.val port.val dest str) := congrArg Host.Outcome.next (if_pos rfl)

/-- Settles O49, by the flit's sideband, by the parity of a credit and by the parity and the route of a flint. -/
theorem flitsCreditsAndFlints : Obligations.FlitsCreditsAndFlints := by
  intro s t pl port f i l o far
  refine ⟨fun h => exec_flitArrival (State.flitArrival_closed h), fun h hsb => ⟨fun hm => ?down, fun hm => ?waits⟩,
    fun sb lane h hsb hw => exec_flitArrival (State.flitArrival_waits h hsb hw), fun sb h hsb hroom hm => exec_flitArrival (State.flitArrival_stores h hsb hroom hm),
    fun vc rest hp hx => ⟨State.mayArrive_iff hx hp, ?pop⟩, fun sb hft hclean => State.storeFlit_header hft hclean, fun vc crv h5 h6 => ?credit, fun dest str => ?flint⟩
  case down =>
    refine exec_flitArrival ((State.flitArrival_bad h hsb).trans (if_neg ?_))
    rw [hm]
    exact Bool.noConfusion
  case waits => exact exec_flitArrival ((State.flitArrival_bad h hsb).trans (if_pos hm))
  case pop =>
    intro u n tail
    have hvc : fld f.sb 0 3 = vc := by simpa using extract_holds hx
    have hpop : s.popWire i l o (some vc) = u.noteTail i l o f := State.popWire_local hx hp
    have sent (h : tail) : s.popWire i l o (some vc) = u.tailSent i (o - 4) vc := (hpop.trans (if_pos h)).trans (by rw [hvc])
    refine ⟨fun h => hpop.trans (if_neg h), fun h => ⟨fun hnone => (sent h).trans (State.tailSent_none hnone), fun g gs hg => ?_⟩⟩
    intro ok left
    have htail := (sent h).trans (State.tailSent_some hg)
    refine ⟨fun hp hd => htail.trans (if_pos ?_), fun hnot => htail.trans (if_neg ?_)⟩
    · rw [hp, hd]
      rfl
    · rcases hnot with hp | hd
      · rw [hp]
        exact Bool.noConfusion
      · rw [hd, Bool.not_true, Bool.and_false]
        exact Bool.noConfusion
  case credit =>
    intro good s1 s2
    refine ⟨fun hlink => ⟨fun hv => ?_, fun hv => ?_, congrArg Host.Outcome.next (State.creditReturn_bad h5 h6 hlink)⟩, fun hp => ⟨fun hv => ?_, fun hv => ?_, ?_⟩,
      fun hp crp => congrArg Host.Outcome.next (if_pos hp)⟩
    · subst hv
      exact congrArg Host.Outcome.next (State.creditReturn_counts h5 h6 hlink)
    · subst hv
      exact congrArg Host.Outcome.next (State.creditReturn_none h5 h6 hlink)
    all_goals have hloc (crp : Bool) : exec (.creditReturn t pl (.input port) crv vc crp) s = .next (s.localCredit i l o crv vc crp) :=
      congrArg Host.Outcome.next (if_neg (Nat.not_lt.2 hp))
    · subst hv
      exact (hloc _).trans (congrArg Host.Outcome.next (State.localCredit_counts h5 h6))
    · subst hv
      exact (hloc _).trans (congrArg Host.Outcome.next (State.localCredit_none h5 h6))
    · exact (hloc _).trans (congrArg Host.Outcome.next (State.localCredit_bad h5 h6))
  case flint =>
    refine ⟨congrArg Host.Outcome.next (if_neg (fun h => (Bool.not_eq_self _).mp h)), fun h => exec_flint.trans (congrArg Host.Outcome.next (State.flintAt_off h)),
      fun h5 h6 hd => exec_flint.trans (congrArg Host.Outcome.next (State.flintAt_here (not_or.2 ⟨h5, h6⟩) hd)), fun h5 h6 hgrid ht => ?_⟩
    intro u x r got
    have haway : got = .next _ := exec_flint.trans (congrArg Host.Outcome.next (State.flintAt_away (not_or.2 ⟨h5, h6⟩) hgrid ht))
    refine ⟨fun h => haway.trans (congrArg Host.Outcome.next (if_pos h)), fun hx h4 h1 => ?_⟩
    have hout : ¬ (4 ≤ x ∨ u.linkState i l x = 4 ∨ u.linkState i l x = 1) := not_or.2 ⟨Nat.not_le.2 hx, not_or.2 ⟨h4, h1⟩⟩
    refine ⟨fun g hg hc hi => haway.trans (congrArg Host.Outcome.next ((if_neg hout).trans (if_pos ?_))),
      fun hfree => haway.trans (congrArg Host.Outcome.next ((if_neg hout).trans (if_neg ?_)))⟩
    · change (tget none r.flints x).any _ = true
      rw [hg, Option.any_some, Bool.and_eq_true, decide_eq_true_eq, decide_eq_true_eq]
      exact ⟨hc, hi⟩
    · change ¬ (tget none r.flints x).any _ = true
      cases hg : tget none r.flints x with
      | none => exact Bool.noConfusion
      | some g =>
        rw [Option.any_some, Bool.and_eq_true, decide_eq_true_eq, decide_eq_true_eq]
        rintro ⟨hc, hi⟩
        exact (hfree g hg).elim (fun h => h hc) (fun h => absurd hi (Nat.not_le.2 h))

end Sys2Proof.Machine
end


section
/-! SUPPORT. A training pass in a state whose registers are not in canonical form: O24. -/
namespace Sys2Proof.Machine

/-- The register of spares 2 and 3 at the sending end of the link from tile 0 on output 0. -/
def sparesTwoThree : Nat := aLnkmap 0 0 0 0 1

/-- That register is listed twice, each time as at reset but for a spare 2 that carries a lane; the link trains. No canonical table lists a register twice. -/
def sparesListedTwice : State :=
  let v (p : Nat) : W := setFld (setFld (State.reset.rd sparesTwoThree) 12 2 spRepair) 0 10 p
  ({ State.reset with regs := [(sparesTwoThree, v 7), (sparesTwoThree, v 9)] }.p (aLnkstat 0 0 0 0) TL_LNKSTAT.STATE lkReinit).setLink 0 0 0 { LinkX.reset with passes := 1 }

/-- The link from tile 0 on output 0 of plane 0. -/
def linkZero : LinkId := ⟨0, 0, 0⟩

/-- Refutes O24: for the maps of the two ends after a training pass no clause asks for the canonical form. With lane 5 failing, the receiving end's map, whose spare 2 is FREE, is given to the sending end. There it makes the first entry of the register as at reset, which is then no longer listed, and the second entry is read, in which spare 2 carries a lane. -/
theorem not_linkFunctionsAndProcedures : ¬ Obligations.LinkFunctionsAndProcedures := by
  intro h
  obtain ⟨-, procedures⟩ := h
  obtain ⟨-, -, -, -, -, -, training, -⟩ := procedures sparesListedTwice linkZero
  obtain ⟨same, -⟩ := training [5] (by decide +kernel) (by decide +kernel) (by decide) (by decide +kernel)
  exact absurd same (by decide +kernel)

end Sys2Proof.Machine
end


section
/-! SUPPORT. Register and engine functions of a tile agent: O20. -/
namespace Sys2Proof.Machine

-- Registers of a tile's window stand at multiples of eight.

/-- An element of an array whose base and stride are multiples of eight. -/
theorem inArr_aligned {o b st n : Nat} (h : inArr o b st n = true) (hb : b % 8 = 0) (hst : st % 8 = 0) : o % 8 = 0 := by
  simp only [inArr, Bool.and_eq_true, decide_eq_true_eq, beq_iff_eq] at h
  obtain ⟨⟨hle, hmod⟩, -⟩ := h
  obtain ⟨c, hc⟩ := Nat.dvd_of_mod_eq_zero hst
  obtain ⟨d, hd⟩ := Nat.dvd_of_mod_eq_zero hmod
  have ho : o = b + 8 * (c * d) := by
    rw [← Nat.mul_assoc, ← hc, ← hd]
    omega
  omega

theorem rowsNi_aligned {k : NiKind} {o : Nat} (h : o % 8 ≠ 0) : rowsNi k o = [] := by
  have no (b n : Nat) (hb : b % 8 = 0) : inArr o b 8 n = false := eq_false_of_ne_true fun hin => h (inArr_aligned hin hb rfl)
  have ne (b : Nat) (hb : b % 8 = 0) : o ≠ b := fun heq => h (heq ▸ hb)
  simp only [rowsNi, no, ne, if_false, Bool.false_eq_true, and_false, Nat.reduceMod, ite_self]

/-- No register stands between two words. -/
theorem rowsTl_aligned {b : Build} {t o : Nat} (h : o % 8 ≠ 0) : rowsTl b t o = [] := by
  have no (b n : Nat) (hb : b % 8 = 0) : inArr o b 8 n = false := eq_false_of_ne_true fun hin => h (inArr_aligned hin hb rfl)
  have ne (b : Nat) (hb : b % 8 = 0) : o ≠ b := fun heq => h (heq ▸ hb)
  have hni : rowsNi (kindOf b t (o / 0x1000 - 1)) (o % 0x1000) = [] := rowsNi_aligned (by omega)
  have hcor : o % 0x10 ≠ 0 ∧ o % 0x10 ≠ 8 := by omega
  have hlane : o % 0x400 % 8 ≠ 0 := by omega
  rcases Nat.lt_or_ge o 0x4100 with hlt | hge
  · simp only [rowsTl, h, no, ne, hni, hcor, hlane, Nat.not_le.2 hlt, if_false, Bool.false_eq_true, false_and, Nat.reduceMod, ite_self]
  · have hlnk : (o - 0x4100) % 0x30 ≠ 0 := by omega
    have hmap : inArr ((o - 0x4100) % 0x30) 8 8 4 = false := eq_false_of_ne_true fun hin => by
      have := inArr_aligned hin rfl rfl
      omega
    simp only [rowsTl, h, no, ne, hni, hcor, hlane, hlnk, hmap, if_false, Bool.false_eq_true, false_and, Nat.reduceMod, ite_self]

/-- Between two words nothing is read, as the agent's own rule has it. -/
theorem State.agentRead_eq (s : State) (t off : Nat) : s.agentRead t off = s.tlRead t off := by
  unfold State.agentRead
  split
  · rfl
  · next h => rw [State.tlRead, rowsTl_aligned h, if_pos (.inl rfl)]

-- What a configuration read finds.

section
variable (s : State) (t : Nat) {off : Nat}

theorem State.configWord_tile (hp : off < 0x5000 ∨ 0x5400 ≤ off) (h : off < 0x10000) : s.configWord t off = s.tlRead t off := by
  have htm : ¬ baseTm ≤ off := by
    unfold baseTm
    omega
  have hprobe : ¬ (probeCntOff 0 0 ≤ off ∧ off - probeCntOff 0 0 < 1024 ∧ off % 8 = 0) := by
    unfold probeCntOff
    omega
  exact ((if_neg htm).trans (if_neg hprobe)).trans (State.agentRead_eq s t off)

theorem State.configWord_tm (h : baseTm ≤ off) : s.configWord t off = s.peek (.sq 8) off := if_pos h

theorem State.configWord_probe {p n : Nat} (hp : p < 32) (hn : n < 4) (h : s.g (aPrb p) OBS_PRBCTL.TILE = t) :
    s.configWord t (probeCntOff p n) = s.rd (aPrbCnt p n) := by
  have htm : ¬ baseTm ≤ probeCntOff p n := by
    unfold baseTm probeCntOff
    omega
  have hprobe : probeCntOff 0 0 ≤ probeCntOff p n ∧ probeCntOff p n - probeCntOff 0 0 < 1024 ∧ probeCntOff p n % 8 = 0 := by
    unfold probeCntOff
    omega
  have hpi : (probeCntOff p n - probeCntOff 0 0) / 32 = p := by
    unfold probeCntOff
    omega
  have hni : (probeCntOff p n - probeCntOff 0 0) % 32 / 8 = n := by
    unfold probeCntOff
    omega
  refine (if_neg htm).trans ((if_pos hprobe).trans ?_)
  rw [hpi, hni, if_pos h]

end

-- What a configuration write does.

section
variable (s : State) (t : Nat) (v : W) {off : Nat} {strb : BitVec 8}

theorem State.configPut_none : s.configPut t off v 0 = (s, false) := if_pos rfl
theorem State.configPut_tm (h : strb ≠ 0) (hoff : baseTm ≤ off) :
    s.configPut t off v strb = ((s.tmftWrite off v (strbMask strb)).1, (s.tmftWrite off v (strbMask strb)).2 != 0) := (if_neg h).trans (if_pos hoff)
theorem State.configPut_tile (h : strb ≠ 0) (hoff : off < baseTm) : s.configPut t off v strb = s.tlWrite t off v (strbMask strb) :=
  (if_neg h).trans (if_neg (Nat.not_le.2 hoff))

end

-- The switch of a scheduler.

section
variable {s : State} {k : Nat} {str : Bool}

/-- The tree's bank is that of the FLIP, and the list no longer counts as written. -/
def State.flipMarked (s : State) (k : Nat) (str : Bool) : State :=
  { s with tm := { s.tm with flipTree := putBit s.tm.flipTree k str }, seq := { s.seq with written := putBit s.seq.written k false } }

theorem State.schedFlip_same (h : bitOf s.tm.flipTree k = str) : s.schedFlip k str = s := if_pos h

variable (h : bitOf s.tm.flipTree k ≠ str)
include h

theorem State.schedFlip_inBank (hb : (s.gate k).bank = str) : s.schedFlip k str = (s.flipMarked k str).setGate k { s.gate k with pend := none } :=
  (if_neg h).trans (if_pos hb)

theorem State.schedFlip_unwritten (hb : (s.gate k).bank ≠ str) (hw : bitOf s.seq.written k = false) :
    s.schedFlip k str = (s.flipMarked k str).setGate k ⟨str, s.ntNs, none⟩ := by
  refine (if_neg h).trans ((if_neg hb).trans (if_neg ?_))
  rw [hw]
  exact Bool.noConfusion

/-- The state in which the new list's start is pending. -/
def State.flipPending (s : State) (k : Nat) (str : Bool) : State :=
  (s.flipMarked k str).setGate k { s.gate k with pend := some (s.listStart k str.toNat s.ntNs).1 }

theorem State.schedFlip_written (hb : (s.gate k).bank ≠ str) (hw : bitOf s.seq.written k = true) :
    s.schedFlip k str = s.flipPending k str ∨ s.schedFlip k str = ((s.flipPending k str).pb (aEsstat k) TM_ESSTAT.LATE true).raiseTm (16 + k) 848 := by
  by_cases hlate : (s.listStart k str.toNat s.ntNs).2.1 = true
  · exact .inr ((if_neg h).trans ((if_neg hb).trans ((if_pos hw).trans (if_pos hlate))))
  · exact .inl ((if_neg h).trans ((if_neg hb).trans ((if_pos hw).trans (if_neg hlate))))

end

/-- The parts of the block that an event of the traffic manager leaves. -/
theorem State.raiseTm_parts (s : State) (port ev : Nat) : (s.raiseTm port ev).tm.flipTree = s.tm.flipTree ∧ (s.raiseTm port ev).seq = s.seq ∧
    (s.raiseTm port ev).nis = s.nis ∧ (s.raiseTm port ev).routers = s.routers := by
  unfold State.raiseTm State.tmSend
  exact ⟨(congrArg Tm.flipTree (State.wake_tm _ _ _)).trans rfl, State.wake_seq _ _ _, State.wake_nis _ _ _, State.wake_routers _ _ _⟩

/-- A state with a scheduler switched: the tree's bank, the list's mark, its gate list, and all the rest that the statement names as before. -/
structure SchedSwitched (s u : State) (k : Nat) (str : Bool) (g : Gate) : Prop where
  tree : bitOf u.tm.flipTree k = str
  written : bitOf u.seq.written k = false
  nis : u.nis = s.nis
  routers : u.routers = s.routers
  ctx : u.seq.ctx = s.seq.ctx
  gate : u.gate k = g

theorem State.schedSwitched_setGate {s : State} (hs : s.canon) {k : Nat} (hk : k < 32) (str : Bool) (g : Gate) :
    SchedSwitched s ((s.flipMarked k str).setGate k g) k str g where
  tree := bitOf_putBit_self _ _ hk
  written := bitOf_putBit_self _ _ hk
  nis := rfl
  routers := rfl
  ctx := rfl
  gate := tget_tput (d := fun _ => Gate.reset) _ _ hs.tm.gates

theorem SchedSwitched.late {s u : State} {k : Nat} {str : Bool} {g : Gate} (h : SchedSwitched s u k str g) (port ev : Nat) :
    SchedSwitched s ((u.pb (aEsstat k) TM_ESSTAT.LATE true).raiseTm port ev) k str g := by
  obtain ⟨htree, hseq, hnis, hrouters⟩ := (u.pb (aEsstat k) TM_ESSTAT.LATE true).raiseTm_parts port ev
  constructor
  · rw [htree]
    exact h.tree
  · rw [hseq]
    exact h.written
  · exact hnis.trans h.nis
  · exact hrouters.trans h.routers
  · rw [hseq]
    exact h.ctx
  · exact (State.gate_raiseTm _ _ _ _).trans h.gate

/-- The gate list of a scheduler after its switch (R217). -/
def State.flipGate (s : State) (k : Nat) (str : Bool) : Gate :=
  if (s.gate k).bank = str then { s.gate k with pend := none }
  else if bitOf s.seq.written k = true then { s.gate k with pend := some (s.listStart k str.toNat s.ntNs).1 } else ⟨str, s.ntNs, none⟩

theorem State.schedFlip_switches {s : State} (hs : s.canon) {k : Nat} (hk : k < 32) {str : Bool} (h : bitOf s.tm.flipTree k ≠ str) :
    SchedSwitched s (s.schedFlip k str) k str (s.flipGate k str) := by
  unfold State.flipGate
  split
  · next hb =>
    rw [State.schedFlip_inBank h hb]
    exact State.schedSwitched_setGate hs hk str _
  · next hb =>
    split
    · next hw =>
      have hpending := State.schedSwitched_setGate hs hk str { s.gate k with pend := some (s.listStart k str.toNat s.ntNs).1 }
      rcases State.schedFlip_written h hb hw with hu | hu <;> rw [hu]
      · exact hpending
      · exact hpending.late _ _
    · next hw =>
      rw [State.schedFlip_unwritten h hb (eq_false_of_ne_true hw)]
      exact State.schedSwitched_setGate hs hk str _

/-- A list of cycle 0 starts at its base, or 2,000 ns after the FLIP. -/
theorem State.listStart_zero {s : State} {k b f : Nat} (h : s.gcycle k b = 0) : (s.listStart k b f).1 = max (s.gbase k b) (f + 2000) := by
  simp only [State.listStart, h, if_true]

/-- Any other list starts at the first start of a cycle from 2,000 ns after the FLIP on. -/
theorem State.listStart_least {s : State} {k b f : Nat} (h : s.gcycle k b ≠ 0) : f + 2000 ≤ (s.listStart k b f).1 ∧
    ∃ n, (s.listStart k b f).1 = s.gbase k b + n * s.gcycle k b ∧ ∀ m, f + 2000 ≤ s.gbase k b + m * s.gcycle k b → n ≤ m := by
  simp only [State.listStart, h, if_false]
  generalize s.gbase k b = base
  generalize hc : s.gcycle k b = cyc at h
  have hpos : 0 < cyc := Nat.pos_of_ne_zero h
  split
  · next hle => exact ⟨by omega, 0, rfl, fun m _ => Nat.zero_le m⟩
  · next hle =>
    have hceil (m : Nat) : (f + 2000 - base + cyc - 1) / cyc ≤ m ↔ f + 2000 - base ≤ m * cyc := by
      rw [Nat.div_le_iff_le_mul_add_pred hpos, Nat.mul_comm cyc m]
      omega
    have hself := (hceil _).1 (Nat.le_refl _)
    exact ⟨by omega, _, rfl, fun m hm => (hceil m).2 (by omega)⟩

/-- Settles O20: the CTL taken decides, by its function, its offset and its strobes; a scheduler switches by its bank and by what was written. -/
theorem agentFunctions : Obligations.AgentFunctions := by
  refine ⟨fun s t k rest => ⟨fun htake => ?program, fun hnext hruns hbad => ?bad⟩, fun s t k rest htake => ?engine, fun s x str hold hs => ?sched⟩
  case program =>
    refine ⟨fun hm => ?_, fun hm => ?_, fun hm => congrArg Host.Outcome.next (agentRun_takes htake _ hm), fun hm => ?_,
      fun hm => congrArg Host.Outcome.next (agentRun_other htake _ hm), fun hm => congrArg Host.Outcome.next (agentRun_other htake _ hm)⟩
    · exact congrArg Host.Outcome.next (agentRun_takes htake _ hm)
    · refine congrArg Host.Outcome.next ((agentRun_takes htake _ hm).trans ?_)
      simp only [State.agRdreg, State.agentRead_eq]
    · refine congrArg Host.Outcome.next ((agentRun_takes htake _ hm).trans ?_)
      simp only [State.agRdfld, State.agentRead_eq, extField]
  case bad =>
    exact ⟨congrArg Host.Outcome.next (agentRun_bad hnext hruns hbad _), congrArg Host.Outcome.next (agentRun_bad hnext hruns hbad _),
      congrArg Host.Outcome.next (agentRun_bad hnext hruns hbad _), congrArg Host.Outcome.next (agentRun_bad hnext hruns hbad _),
      congrArg Host.Outcome.next (agentRun_bad hnext hruns hbad _), congrArg Host.Outcome.next (agentRun_bad hnext hruns hbad _),
      congrArg Host.Outcome.next (agentRun_bad hnext hruns hbad _)⟩
  case engine =>
    intro i s1
    have mine {n arg : Nat} (h : isEngine k n arg = true) : (k.tag == k.tag && isEngine k n arg) = true := by rw [beq_self_eq_true, h, Bool.and_true]
    refine ⟨fun off hm _ hp hoff => ?tile, fun p n htile hm => ?probe, fun off hm hoff => ?tm, fun off v strb hm => ⟨fun h0 => ?none, fun h0 hoff => ?writeTm, fun h0 hoff => ?writeTile⟩,
      fun hm => congrArg Host.Outcome.next (agentRun_takes htake _ (mine hm)), fun mask hm => congrArg Host.Outcome.next (agentRun_takes htake _ (mine hm)),
      fun str hold hm => congrArg Host.Outcome.next (agentRun_takes htake _ hm), fun str hm => congrArg Host.Outcome.next (agentRun_takes htake _ hm),
      fun hm => congrArg Host.Outcome.next (agentRun_takes htake _ (mine hm)), fun hm => congrArg Host.Outcome.next (agentRun_takes htake _ hm)⟩
    case tile =>
      refine congrArg Host.Outcome.next ((agentRun_takes htake _ (mine hm)).trans ?_)
      rw [State.configWord_tile s1 i hp hoff]
    case probe =>
      have hp := p.isLt
      have hn := n.isLt
      have hoff : (BitVec.ofNat 26 (probeCntOff p.val n.val)).toNat = probeCntOff p.val n.val := by
        rw [BitVec.toNat_ofNat]
        refine Nat.mod_eq_of_lt ?_
        unfold probeCntOff
        omega
      refine congrArg Host.Outcome.next ((agentRun_takes htake _ ?_).trans ?_)
      · rw [hoff]
        exact mine hm
      · rw [hoff, State.configWord_probe s1 i hp hn htile]
        rfl
    case tm =>
      refine congrArg Host.Outcome.next ((agentRun_takes htake _ (mine hm)).trans ?_)
      rw [State.configWord_tm s1 i hoff]
    case none =>
      subst h0
      refine congrArg Host.Outcome.next ((agentRun_takes htake _ (mine hm)).trans ?_)
      rw [State.configPut_none s1 i v]
    case writeTm =>
      refine congrArg Host.Outcome.next ((agentRun_takes htake _ (mine hm)).trans ?_)
      rw [State.configPut_tm s1 i v h0 hoff]
    case writeTile =>
      refine congrArg Host.Outcome.next ((agentRun_takes htake _ (mine hm)).trans ?_)
      rw [State.configPut_tile s1 i v h0 hoff]
  case sched =>
    intro k g u
    have hk : k < 32 := x.isLt
    refine ⟨fun t p => rfl, fun hph hstr => congrArg Host.Outcome.next (if_pos ⟨hph, hstr⟩), fun hno => congrArg Host.Outcome.next (if_neg ?_),
      State.schedFlip_same, fun hne => ?_⟩
    · rintro ⟨hph, hstr⟩
      exact hno.elim (fun h => h hph) (fun h => h hstr)
    obtain ⟨htree, hwritten, hnis, hrouters, hctx, hgate⟩ := State.schedFlip_switches hs hk hne
    refine ⟨htree, hwritten, hnis, hrouters, hctx, fun hb => hgate.trans (if_pos hb), fun hb hw => hgate.trans ((if_neg hb).trans (if_neg ?_)),
      fun hb hw => ⟨_, hgate.trans ((if_neg hb).trans (if_pos hw)), State.listStart_zero, State.listStart_least⟩⟩
    rw [hw]
    exact Bool.noConfusion

end Sys2Proof.Machine
end


section
/-! SUPPORT. The stratum instructions by commit phase (R140 to R154): O15. -/
namespace Sys2Proof.Machine

theorem resetVal_aStstate (b : Build) : resetVal b aStstate = 0 := rfl

-- The instructions, with a bound from their issue.

section
variable {s : State} {c : CtxId} {j : Job} {w : BitVec 32}

/-- The instruction w of job j has been issued, with the bound that it names. -/
def State.bounded (s : State) (c : CtxId) (j : Job) (w : BitVec 32) : State :=
  (s.issued c j w).setCtx c { (s.issued c j w).ctx c with deadline := s.ticks + 16 * (if wT w = 0 then 4096 else wT w) }

theorem State.ctx_bounded (s : State) (c : CtxId) (j : Job) (w : BitVec 32) : (s.bounded c j w).ctx c =
    { s.ctx c with word := w, job := some { j with lastPc := j.pc }, deadline := s.ticks + 16 * (if wT w = 0 then 4096 else wT w) } := by
  simp [State.bounded]

/-- An instruction that completes where its context stands as it was issued. -/
theorem State.doneCode_bounded (hd : (s.ctx c).due = none) {t : State} (ht : t.seq.ctx = (s.bounded c j w).seq.ctx) (n : Nat) :
    t.doneCode c n = t.retired c ({ j with lastPc := j.pc }.set (iRd w) (BitVec.ofNat 64 n)) (j.pc + 1) := by
  have hctx := (State.ctx_of ht c).trans (s.ctx_bounded c j w)
  rw [State.doneCode_eq (j := { j with lastPc := j.pc }) (by rw [hctx]) (by rw [hctx]; exact hd), hctx]

-- What PHASE, CUR and PAUSE read as after other fields of SEQ_STSTATE were written.

/-- A FLIP round of a cycle, with the stratum and the plane that it names. -/
def State.flips (u : State) (cyc : Nat) (c : CtxId) (rv str : Bool) (hold : Option Plane) : State :=
  State.stepSend { u with seq := { u.seq with flipAt := cyc, partialFlip := false } } c (.flip rv none) engFlip (flipArg str hold) spBroadcast opSum

theorem State.flipRound_eq (u : State) (c : CtxId) (rv : Bool) : u.flipRound c rv = u.flips u.cyc c rv u.cur u.heldPlane := rfl

/-- The plane that a value of PAUSE names. -/
def pausePlane (v : Nat) : Option Plane := if v.testBit 0 then some 0 else if v.testBit 1 then some 1 else none

theorem State.heldPlane_eq (s : State) : s.heldPlane = pausePlane (s.g aStstate SEQ_STSTATE.PAUSE) := rfl

/-- A register of which another field is not zero is listed, so that what is written to it reads back. -/
theorem State.rd_p_of_ne {s : State} {o : Nat} {f : Fd} {x : Nat} (h : setFld (s.rd o) f.lo f.w x ≠ resetVal s.build o) : (s.p o f x).rd o = setFld (s.rd o) f.lo f.w x :=
  tget_tput_of_ne h _ _

/-- The turn back of CUR and REVERTED, in a commit that drains. -/
def State.turnedBack (s : State) : State := (s.pb aStstate SEQ_STSTATE.CUR (!s.cur)).pb aStstate SEQ_STSTATE.REVERTED true

theorem State.revertFlips_eq (u : State) (c : CtxId) : u.revertFlips c = u.turnedBack.flips u.cyc c true u.turnedBack.cur u.turnedBack.heldPlane := rfl

theorem fld_ne_zero_of {v : W} {f : Fd} (h : fld v f.lo f.w ≠ 0) : v ≠ 0 := by
  rintro rfl
  exact h (by simp [fld])

/-- Other fields of SEQ_STSTATE, as they read when CUR is turned back. -/
theorem State.rd_turnedBack {s : State} (h : s.phase = phDraining) :
    s.turnedBack.rd aStstate = setFld (setFld (s.rd aStstate) SEQ_STSTATE.CUR.lo SEQ_STSTATE.CUR.w (!s.cur).toNat) SEQ_STSTATE.REVERTED.lo SEQ_STSTATE.REVERTED.w 1 := by
  have hne {v : W} (hv : fld v SEQ_STSTATE.PHASE.lo SEQ_STSTATE.PHASE.w = 2) (b : Build) : v ≠ resetVal b aStstate := by
    rw [resetVal_aStstate]
    exact fld_ne_zero_of (f := SEQ_STSTATE.PHASE) (by rw [hv]; decide)
  have hcur : fld (setFld (s.rd aStstate) SEQ_STSTATE.CUR.lo SEQ_STSTATE.CUR.w (!s.cur).toNat) SEQ_STSTATE.PHASE.lo SEQ_STSTATE.PHASE.w = 2 :=
    (fld_setFld_ne _ _ _ _ _ _ (by decide)).trans h
  have hmid : (s.pb aStstate SEQ_STSTATE.CUR (!s.cur)).rd aStstate = _ := State.rd_p_of_ne (hne hcur s.build)
  have hrev : fld (setFld ((s.pb aStstate SEQ_STSTATE.CUR (!s.cur)).rd aStstate) SEQ_STSTATE.REVERTED.lo SEQ_STSTATE.REVERTED.w 1)
      SEQ_STSTATE.PHASE.lo SEQ_STSTATE.PHASE.w = 2 := by
    rw [hmid]
    exact (fld_setFld_ne _ _ _ _ _ _ (by decide)).trans hcur
  exact (State.rd_p_of_ne (hne hrev _)).trans (by rw [hmid])

theorem State.turnedBack_facts {s : State} (hrd : s.turnedBack.rd aStstate =
      setFld (setFld (s.rd aStstate) SEQ_STSTATE.CUR.lo SEQ_STSTATE.CUR.w (!s.cur).toNat) SEQ_STSTATE.REVERTED.lo SEQ_STSTATE.REVERTED.w 1) :
    s.turnedBack.cur = !s.cur ∧ s.turnedBack.heldPlane = s.heldPlane := by
  constructor
  · have hc : s.turnedBack.g aStstate SEQ_STSTATE.CUR = (!s.cur).toNat := by
      unfold State.g
      rw [hrd, fld_setFld_ne _ _ _ _ _ _ (by decide), fld_setFld _ _ _ _ (by decide)]
      cases s.cur <;> rfl
    have hb : s.turnedBack.cur = (s.turnedBack.g aStstate SEQ_STSTATE.CUR != 0) := rfl
    rw [hb, hc]
    cases s.cur <;> rfl
  · have hp : s.turnedBack.g aStstate SEQ_STSTATE.PAUSE = s.g aStstate SEQ_STSTATE.PAUSE := by
      unfold State.g
      rw [hrd, fld_setFld_ne _ _ _ _ _ _ (by decide), fld_setFld_ne _ _ _ _ _ _ (by decide)]
    rw [State.heldPlane_eq, hp]
    rfl

-- Part one: what is issued, by the phase.

/-- STPREP, STCOMMIT, STDRAIN and STQUERY act on the state in which they were issued. -/
theorem execStratum_eq :
    (s.atInstr c 0x50 j w → exec (.stprep c) s = .next ((s.bounded c j w).stprep c (fld w 12 4)).recheck) ∧
    (s.atInstr c 0x51 j w → exec (.stcommit c) s = .next ((s.bounded c j w).stcommit c (bitOf w 12)).recheck) ∧
    (s.atInstr c 0x52 j w → exec (.stdrain c) s = .next ((s.bounded c j w).stdrain c (bitOf w 12)).recheck) ∧
    (s.atInstr c 0x53 j w → exec (.stquery c) s = .next ((s.bounded c j w).stquery c (bitOf w 12)).recheck) :=
  ⟨fun h => congrArg Host.Outcome.next (State.issue_runs h _), fun h => congrArg Host.Outcome.next (State.issue_runs h _),
    fun h => congrArg Host.Outcome.next (State.issue_runs h _), fun h => congrArg Host.Outcome.next (State.issue_runs h _)⟩

/-- STCOMMIT, by REVERT and the phase. -/
theorem State.stcommit_cases (u : State) (c : CtxId) :
    (u.phase = phIdle → u.stcommit c false = u.doneCode c rNotPrep) ∧
    (u.phase = phPrepared → u.stcommit c false = (u.setCtx c { u.ctx c with wait := .commitDrain u.seq.nextId u.seq.nextKey }).commitGo1 c) ∧
    (u.phase = phDraining → u.seq.partialFlip = false → u.stcommit c false = u.doneCode c rBusy) ∧
    (u.phase = phDraining → u.seq.partialFlip = true → u.stcommit c false = (u.strIssue c).flipRound c false) ∧
    (u.phase ≠ phDraining → u.stcommit c true = u.doneCode c rNotPrep) ∧
    (u.phase = phDraining → u.heldPlane.isSome = true → u.stcommit c true = (u.strIssue c).gatherOld c (.gather true 0)) ∧
    (u.phase = phDraining → u.heldPlane = none → u.stcommit c true = u.revertFlips c) := by
  unfold State.stcommit phIdle phPrepared phDraining
  refine ⟨fun h => ?_, fun h => ?_, fun h hp => ?_, fun h hp => ?_, fun h => ?_, fun h hp => ?_, fun h hp => ?_⟩ <;>
    simp [*]

theorem State.strIssue_facts (u : State) (c : CtxId) : (u.strIssue c).cyc = u.cyc ∧ (u.strIssue c).cur = u.cur ∧ (u.strIssue c).heldPlane = u.heldPlane := by
  unfold State.strIssue
  split
  · exact ⟨rfl, rfl, rfl⟩
  · exact ⟨rfl, rfl, rfl⟩

/-- The instructions of a stratum are issued by phase. -/
theorem stratum_issued (hd : (s.ctx c).due = none) :
    let s' := s.bounded c j w
    let j' := { j with lastPc := j.pc }
    let sends : State := if s.heldPlane.isSome then { s' with seq := { s'.seq with strCtx := some c } } else s'
    let code (t : State) (n : Nat) : Res := .next (t.retired c (j'.set (iRd w) (BitVec.ofNat 64 n)) (j.pc + 1)).recheck
    let prepared := State.setPhase { s' with seq := { s'.seq with written := 0 } } phPrepared
    let flips (u : State) (rv str : Bool) : Res := .next (u.flips s.cyc c rv str s.heldPlane).recheck
    (s.atInstr c 0x50 j w →
      (s.phase = phDraining → exec (.stprep c) s = code s' rBusy) ∧
      (s.phase ≠ phDraining → fld w 12 4 = 0 → exec (.stprep c) s = code prepared rOk) ∧
      (s.phase ≠ phDraining → fld w 12 4 ≠ 0 →
        exec (.stprep c) s = .next (prepared.stepSend c .prepCopy engCopy (fld w 12 4) spBroadcast opSum).recheck)) ∧
    (s.atInstr c 0x51 j w →
      (bitOf w 12 = false → s.phase = phIdle → exec (.stcommit c) s = code s' rNotPrep) ∧
      (bitOf w 12 = false → s.phase = phPrepared →
        let waits := s'.setCtx c { s'.ctx c with wait := .commitDrain s.seq.nextId s.seq.nextKey }
        (s.commitBusy s.seq.nextId s.seq.nextKey = false →
          exec (.stcommit c) s = .next (waits.stepSend c .commitBarrier engBarrier 0 spGather opOr).recheck) ∧
        (s.commitBusy s.seq.nextId s.seq.nextKey = true → exec (.stcommit c) s = .next waits.recheck)) ∧
      (bitOf w 12 = false → s.phase = phDraining → s.seq.partialFlip = false → exec (.stcommit c) s = code s' rBusy) ∧
      (bitOf w 12 = false → s.phase = phDraining → s.seq.partialFlip = true → exec (.stcommit c) s = flips sends false s.cur) ∧
      (bitOf w 12 = true → s.phase ≠ phDraining → exec (.stcommit c) s = code s' rNotPrep) ∧
      (bitOf w 12 = true → s.phase = phDraining → s.heldPlane.isSome = true →
        exec (.stcommit c) s = .next (sends.stepSend c (.gather true 0) engGather 0 spGather opSum).recheck) ∧
      (bitOf w 12 = true → s.phase = phDraining → s.heldPlane = none →
        exec (.stcommit c) s = flips s'.turnedBack true (!s.cur))) ∧
    (s.atInstr c 0x52 j w →
      (s.phase ≠ phDraining → exec (.stdrain c) s = code s' rOk) ∧
      (s.phase = phDraining → bitOf w 12 = true → exec (.stdrain c) s = .next (sends.stepSend c .flush engFlush 0 spBroadcast opSum).recheck) ∧
      (s.phase = phDraining → bitOf w 12 = false →
        exec (.stdrain c) s = .next (sends.stepSend c (.gather false 0) engGather 0 spGather opSum).recheck)) ∧
    (s.atInstr c 0x53 j w →
      (bitOf w 12 = false → exec (.stquery c) s = .next (s'.retired c (j'.set (iRd w) (s.rd aStstate)) (j.pc + 1)).recheck) ∧
      (bitOf w 12 = true → exec (.stquery c) s = .next (s'.stepSend c .queryGather engGather 0 spGather opSum).recheck)) := by
  intro s' j' sends code prepared flips
  obtain ⟨hprep, hcommit, hdrain, hquery⟩ := execStratum_eq (s := s) (c := c) (j := j) (w := w)
  have ended {u t : State} {n : Nat} {r : Res} (hr : r = .next u.recheck) (hu : u = t.doneCode c n) (ht : t.seq.ctx = s'.seq.ctx) : r = code t n := by
    rw [hr, hu, State.doneCode_bounded hd ht]
  have goes {u t : State} {r : Res} (hr : r = .next u.recheck) (hu : u = t) : r = .next t.recheck := hu ▸ hr
  have hissue : s'.strIssue c = sends := rfl
  obtain ⟨hidle, hready, hbusy, hagain, hnot, hheld, hback⟩ := s'.stcommit_cases c
  refine ⟨fun h => ⟨fun hp => ended (hprep h) (if_pos hp) rfl, fun hp hm => ended (hprep h) ((if_neg hp).trans (if_pos hm)) rfl,
      fun hp hm => goes (hprep h) ((if_neg hp).trans (if_neg hm))⟩,
    fun h => ?commit,
    fun h => ⟨fun hp => ended (hdrain h) (if_pos hp) rfl, fun hp hf => goes (hdrain h) ((if_neg (Classical.not_not.mpr hp)).trans (if_pos hf)),
      fun hp hf => goes (hdrain h) ((if_neg (Classical.not_not.mpr hp)).trans (if_neg (by rw [hf]; exact Bool.noConfusion)))⟩,
    fun h => ⟨fun hf => goes (hquery h) ?query, fun hf => goes (hquery h) (if_pos hf)⟩⟩
  case commit =>
    have hc := hcommit h
    refine ⟨fun hr hp => ?_, fun hr hp => ?_, fun hr hp hf => ?_, fun hr hp hf => ?_, fun hr hp => ?_, fun hr hp hl => ?_, fun hr hp hl => ?_⟩ <;> rw [hr] at hc
    · exact ended hc (hidle hp) rfl
    · intro waits
      have hgo : s'.stcommit c false = if s.commitBusy s.seq.nextId s.seq.nextKey then waits else waits.stepSend c .commitBarrier engBarrier 0 spGather opOr := by
        rw [hready hp]
        unfold State.commitGo1
        rw [State.ctx_setCtx]
        rfl
      exact ⟨fun hb => goes hc (hgo.trans (if_neg (by rw [hb]; exact Bool.noConfusion))), fun hb => goes hc (hgo.trans (if_pos hb))⟩
    · exact ended hc (hbusy hp hf) rfl
    · refine goes hc ((hagain hp hf).trans ?_)
      obtain ⟨hcyc, hcur, hplane⟩ := s'.strIssue_facts c
      rw [State.flipRound_eq, hcyc, hcur, hplane, hissue]
      rfl
    · exact ended hc (hnot hp) rfl
    · exact goes hc ((hheld hp hl).trans (congrArg (fun t : State => t.gatherOld c (.gather true 0)) hissue))
    · obtain ⟨hcur, hplane⟩ := State.turnedBack_facts (s := s') (State.rd_turnedBack hp)
      refine goes hc ((hback hp hl).trans ?_)
      rw [State.revertFlips_eq, hcur, hplane]
      rfl
  case query =>
    have hctx := s.ctx_bounded c j w
    refine (if_neg (by rw [hf]; exact Bool.noConfusion)).trans ?_
    refine (State.doneRd_eq (j := j') (by rw [hctx]) (by rw [hctx]; exact hd) _).trans ?_
    rw [hctx]
    rfl

end

end Sys2Proof.Machine
end


section
/-! SUPPORT. The answers of the steps of a stratum instruction (R140 to R154), and O15. -/
namespace Sys2Proof.Machine

theorem setFld_again {n : Nat} (v : BitVec n) (lo w x : Nat) : setFld (setFld v lo w x) lo w x = setFld v lo w x := by
  unfold setFld
  ext i hi
  simp only [BitVec.getElem_or, BitVec.getElem_and, Bool.and_or_distrib_right, Bool.or_assoc]
  cases v[i] <;> cases (~~~(BitVec.ofNat n (2 ^ w - 1) <<< lo))[i] <;> simp

/-- What is written a second time changes nothing. -/
theorem State.p_again {s : State} (hs : s.regsOk) (o : Nat) (f : Fd) (x : Nat) : (s.p o f x).p o f x = s.p o f x := by
  have hv : setFld ((s.p o f x).rd o) f.lo f.w x = setFld (s.rd o) f.lo f.w x := by
    rw [State.rd_p hs, setFld_again]
  have hregs : tput (resetVal s.build o) (tput (resetVal s.build o) s.regs o (setFld (s.rd o) f.lo f.w x)) o (setFld ((s.p o f x).rd o) f.lo f.w x) =
      tput (resetVal s.build o) s.regs o (setFld (s.rd o) f.lo f.w x) := by
    rw [hv]
    exact tput_tput (d := fun k => resetVal s.build k) hs _ _ _
  exact congrArg (fun r => { s with regs := r }) hregs

/-- A state in which a step of context c goes on: its tables are in form, and the contexts, the cycle and CUR are as they were. -/
structure Stands (s t : State) : Prop where
  canon : t.canon
  ctx : t.seq.ctx = s.seq.ctx
  cyc : t.cyc = s.cyc
  cur : t.cur = s.cur

/-- A field of SEQ_STSTATE other than CUR is written. -/
theorem Stands.p {s t : State} (h : Stands s t) (f : Fd) (x : Nat) (hf : 0 < f.lo) : Stands s (t.p aStstate f x) where
  canon := ((Keeps.refl t).wr _ _).canon h.canon
  ctx := h.ctx
  cyc := h.cyc
  cur := (congrArg (· != 0) (t.g_p_other aStstate f SEQ_STSTATE.CUR x h.canon.regs (.inl hf))).trans h.cur

theorem Stands.seq {s t : State} (h : Stands s t) (f : Seq → Seq) (hc : (f t.seq).ctx = t.seq.ctx) (hk : t.seq.canon → (f t.seq).canon) :
    Stands s { t with seq := f t.seq } where
  canon := { h.canon with regs := h.canon.regs, seq := hk h.canon.seq }
  ctx := hc.trans h.ctx
  cyc := h.cyc
  cur := h.cur

section
variable {s t : State} {c : CtxId} {j : Job}

/-- The code that ends the current instruction. -/
def State.coded (t : State) (c : CtxId) (j : Job) (word : BitVec 32) (n : Nat) : State := t.retired c (j.set (iRd word) (BitVec.ofNat 64 n)) (j.pc + 1)

theorem Stands.doneCode (h : Stands s t) (hj : (s.ctx c).job = some j) (hd : (s.ctx c).due = none) (n : Nat) :
    t.doneCode c n = t.coded c j (s.ctx c).word n := by
  have hctx := State.ctx_of h.ctx c
  rw [State.doneCode_eq (j := j) (by rw [hctx]; exact hj) (by rw [hctx]; exact hd), hctx]
  rfl

/-- An instruction that ends leaves nothing of its wait. -/
theorem State.coded_setCtx (t : State) (c : CtxId) (j : Job) (word : BitVec 32) (n : Nat) (w : Wait) :
    (t.setCtx c { t.ctx c with wait := w }).coded c j word n = t.coded c j word n := by
  unfold State.coded State.retired
  rw [State.ctx_setCtx, State.setCtx_setCtx]

end

/-- PAUSE names the plane that differs. -/
theorem pausePlane_of_dldiff {dl : Nat} (h4 : dl < 4) (h3 : dl ≠ 3) : pausePlane (dl % 2 ^ 2) = if dl = 1 then some 0 else if dl = 2 then some 1 else none := by
  obtain rfl | rfl | rfl : dl = 0 ∨ dl = 1 ∨ dl = 2 := by omega
  · rfl
  · rfl
  · rfl

section
variable {s t : State} {c : CtxId} {j : Job}

-- STCOMMIT, once its barrier has ended.

/-- The commit of a stratum of which the plane of `dl` differs, before its FLIP. -/
def State.committed (d : State) (cur : Bool) (dl : Nat) : State :=
  (((d.pb aStstate SEQ_STSTATE.CUR (!cur)).setPhase phDraining).pb aStstate SEQ_STSTATE.REVERTED false).p aStstate SEQ_STSTATE.PAUSE dl

theorem State.committed_facts {d : State} (hd : d.canon) (cur : Bool) {dl : Nat} (h4 : dl < 4) (h3 : dl ≠ 3) :
    (d.committed cur dl).cur = !cur ∧ (d.committed cur dl).heldPlane = (if dl = 1 then some 0 else if dl = 2 then some 1 else none) ∧
      (d.committed cur dl).cyc = d.cyc := by
  have h1 : (d.pb aStstate SEQ_STSTATE.CUR (!cur)).regsOk := State.regsOk_wr hd.regs _ _
  have hc : (d.pb aStstate SEQ_STSTATE.CUR (!cur)).g aStstate SEQ_STSTATE.CUR = (!cur).toNat := (d.g_p _ _ _ hd.regs (by decide)).trans (by cases cur <;> rfl)
  have hcyc : (d.pb aStstate SEQ_STSTATE.CUR (!cur)).cyc = d.cyc := rfl
  unfold State.committed
  generalize d.pb aStstate SEQ_STSTATE.CUR (!cur) = a at h1 hc hcyc ⊢
  have h2 : (a.setPhase phDraining).regsOk := State.regsOk_wr h1 _ _
  have hc2 := (a.g_p_other aStstate SEQ_STSTATE.PHASE SEQ_STSTATE.CUR phDraining h1 (by decide)).trans hc
  have hcyc2 : (a.setPhase phDraining).cyc = d.cyc := hcyc
  change (a.setPhase phDraining).g aStstate SEQ_STSTATE.CUR = _ at hc2
  generalize a.setPhase phDraining = b at h2 hc2 hcyc2 ⊢
  have h5 : (b.pb aStstate SEQ_STSTATE.REVERTED false).regsOk := State.regsOk_wr h2 _ _
  have hc3 : (b.pb aStstate SEQ_STSTATE.REVERTED false).g aStstate SEQ_STSTATE.CUR = (!cur).toNat :=
    (b.g_p_other aStstate SEQ_STSTATE.REVERTED SEQ_STSTATE.CUR _ h2 (by decide)).trans hc2
  have hcyc3 : (b.pb aStstate SEQ_STSTATE.REVERTED false).cyc = d.cyc := hcyc2
  generalize b.pb aStstate SEQ_STSTATE.REVERTED false = e at h5 hc3 hcyc3 ⊢
  refine ⟨?_, ?_, hcyc3⟩
  · have hb := (e.g_p_other aStstate SEQ_STSTATE.PAUSE SEQ_STSTATE.CUR dl h5 (by decide)).trans hc3
    exact (congrArg (· != 0) hb).trans (by cases cur <;> rfl)
  · rw [State.heldPlane_eq, e.g_p _ _ _ h5 (by decide)]
    exact pausePlane_of_dldiff h4 h3

/-- The plane that DLDIFF says is to be held. -/
def dlPlane (dl : Nat) : Option Plane := if dl = 1 then some 0 else if dl = 2 then some 1 else none

/-- The planes and the context that a commit holds from its FLIP on. -/
def State.holding (x : State) (hold : Option Plane) (str : Option CtxId) : State := { x with seq := { x.seq with planeStr := hold, strCtx := str } }

theorem State.holding_facts (x : State) (hold : Option Plane) (str : Option CtxId) :
    (x.holding hold str).cyc = x.cyc ∧ (x.holding hold str).cur = x.cur ∧ (x.holding hold str).heldPlane = x.heldPlane := ⟨rfl, rfl, rfl⟩

/-- A commit whose barrier has ended, by the phase that it finds. -/
theorem State.commitFlips_cases {u : State} (hu : u.canon) (c : CtxId) (dl : Nat) (h4 : dl < 4) :
    let d := u.p aStstate SEQ_STSTATE.DLDIFF dl
    let x := d.committed u.cur dl
    (u.phase = phIdle → u.commitFlips c dl = d.doneCode c rNotPrep) ∧ (u.phase = phDraining → u.commitFlips c dl = d.doneCode c rBusy) ∧
    (u.phase = phPrepared → dl = 3 → u.commitFlips c dl = d.doneCode c rDl2 ∧ d.phase = phPrepared ∧ d.cur = u.cur) ∧
    (u.phase = phPrepared → dl ≠ 3 → u.commitFlips c dl =
      (x.holding (dlPlane dl) (if dl = 0 then none else some c)).flips u.cyc c false (!u.cur) (dlPlane dl)) := by
  intro d x
  have hd : d.canon := ((Keeps.refl u).wr _ _).canon hu
  have hph : d.phase = u.phase := u.g_p_other aStstate SEQ_STSTATE.DLDIFF SEQ_STSTATE.PHASE dl hu.regs (by decide)
  have hcur : d.cur = u.cur := congrArg (· != 0) (u.g_p_other aStstate SEQ_STSTATE.DLDIFF SEQ_STSTATE.CUR dl hu.regs (by decide))
  have hrun : u.commitFlips c dl = if d.phase ≠ phPrepared then d.doneCode c (if d.phase = phDraining then rBusy else rNotPrep)
      else if dl = 3 then d.doneCode c rDl2
      else ((d.committed d.cur dl).holding (d.committed d.cur dl).heldPlane (if dl = 0 then none else some c)).flipRound c false := rfl
  rw [hrun, hph, hcur]
  refine ⟨fun h => ?_, fun h => ?_, fun h hl => ⟨?_, h, rfl⟩, fun h hl => ?_⟩
  · rw [h, if_pos (by decide), if_neg (by decide)]
  · rw [h, if_pos (by decide), if_pos rfl]
  · rw [if_neg (Classical.not_not.mpr h), if_pos hl]
  · rw [if_neg (Classical.not_not.mpr h), if_neg hl]
    obtain ⟨hc, hp, hcyc⟩ := State.committed_facts hd u.cur h4 hl
    obtain ⟨hycyc, hycur, hyplane⟩ := (d.committed u.cur dl).holding_facts (dlPlane dl) (if dl = 0 then none else some c)
    have hplane : (d.committed u.cur dl).heldPlane = dlPlane dl := hp
    have hdcyc : d.cyc = u.cyc := rfl
    rw [hplane, State.flipRound_eq, hycyc, hycur, hyplane, hc, hplane, hcyc, hdcyc]

-- FLIP, flush, gather and release.

section
variable (h : Stands s t) (hj : (s.ctx c).job = some j) (hd : (s.ctx c).due = none) (x : Comb)

/-- The state in which the units that are missing have been counted. -/
def State.counts (t : State) (n : Nat) : State := t.p aStstate SEQ_STSTATE.WAITING (min n 0xFF)

include h

theorem Stands.counts (n : Nat) : Stands s (t.counts n) := h.p _ _ (by decide)

/-- Nothing of a plane is held any more. -/
theorem Stands.allReleased : Stands s t.allReleased := (h.seq (fun q => { q with strCtx := none }) rfl (fun k => { k with saved := k.saved })).p _ _ (by decide)

theorem Stands.reverts : t.revertFlips c = t.turnedBack.flips s.cyc c true (!s.cur) t.heldPlane := by
  have hcurs := h.cur
  have hmid : (t.pb aStstate SEQ_STSTATE.CUR (!t.cur)).regsOk := State.regsOk_wr h.canon.regs _ _
  have hrd : t.turnedBack.rd aStstate = setFld (setFld (t.rd aStstate) SEQ_STSTATE.CUR.lo SEQ_STSTATE.CUR.w (!t.cur).toNat) SEQ_STSTATE.REVERTED.lo SEQ_STSTATE.REVERTED.w 1 :=
    (State.rd_p hmid _ _ _).trans (congrArg (fun v => setFld v SEQ_STSTATE.REVERTED.lo SEQ_STSTATE.REVERTED.w 1) (State.rd_p h.canon.regs _ _ _))
  obtain ⟨hc, hp⟩ := State.turnedBack_facts hrd
  rw [State.revertFlips_eq, hc, hp, h.cyc, hcurs]

include hj hd

/-- A FLIP round whose agents have all answered: it ends where every scheduler has switched, and otherwise waits for them. -/
theorem Stands.flipAnswered (rv : Bool) (f : Option Nat) (id : Nat) :
    let u := t.counts x.missing
    (u.schedsLeft = [] → t.stepEnds c (.flip rv f) id x = State.coded { u with seq := { u.seq with partialFlip := decide (x.missing ≠ 0) } } c j (s.ctx c).word
      (if x.missing = 0 then rOk else rPartial)) ∧
    (u.schedsLeft ≠ [] → t.stepEnds c (.flip rv f) id x = u.setCtx c { u.ctx c with wait := .step (.flip rv (some x.missing)) id }) := by
  intro u
  let y := u.setCtx c { u.ctx c with wait := .step (.flip rv (some x.missing)) id }
  have hrun : t.stepEnds c (.flip rv f) id x = if u.schedsLeft = [] then y.flipEnds c x.missing else y := by
    change y.flipCheck c = _
    unfold State.flipCheck
    rw [State.ctx_setCtx]
    rfl
  refine ⟨fun hl => hrun.trans ((if_pos hl).trans ?_), fun hl => hrun.trans (if_neg hl)⟩
  have hu : Stands s u := h.counts _
  have hbool : (x.missing != 0) = decide (x.missing ≠ 0) := (decide_not ..).symm
  let z : State := { u with seq := { u.seq with partialFlip := decide (x.missing ≠ 0) } }
  have hagain : z.setWaiting x.missing = z := congrArg (fun v : State => ({ v with seq := z.seq } : State)) (State.p_again h.canon.regs aStstate SEQ_STSTATE.WAITING _)
  have hends : y.flipEnds c x.missing = (z.setCtx c { z.ctx c with wait := .step (.flip rv (some x.missing)) id }).doneCode c (if x.missing = 0 then rOk else rPartial) := by
    conv => rhs; rw [← hagain]
    unfold State.flipEnds
    rw [hbool]
    rfl
  have hctx : z.ctx c = s.ctx c := State.ctx_of hu.ctx c
  rw [hends, State.doneCode_eq (j := j) (by rw [State.ctx_setCtx, hctx]; exact hj) (by rw [State.ctx_setCtx, hctx]; exact hd), State.ctx_setCtx, hctx, ← hctx]
  exact z.coded_setCtx c j _ _ _

end

-- A gather of a drain, or of a revert.

/-- RELEASE is to be repeated: it was sent, and a tile still holds the plane. -/
def State.stillHeld (s : State) (v : W) : Bool := s.heldPlane.isSome && s.seq.planeStr.isNone && decide (fld v 56 8 ≠ 0)

theorem Stands.drainEnds (h : Stands s t) (hj : (s.ctx c).job = some j) (hd : (s.ctx c).due = none) :
    let z := ((t.setPhase phIdle).bump aStstate SEQ_STSTATE.COMMITS).pb aStstate SEQ_STSTATE.REVERTED false
    let nis : Tab Ni := z.nis.map (fun kv => (kv.1, { kv.2 with hist := kv.2.hist.filter (fun h => h.stratum == s.cur) }))
    t.drainEnds c = State.coded { z with nis := nis.filter (fun kv => kv.2 != Ni.reset), seq := { z.seq with strCtx := none, partialFlip := false } } c j (s.ctx c).word rOk := by
  intro z nis
  have hz : Stands s z := ((h.p SEQ_STSTATE.PHASE phIdle (by decide)).p SEQ_STSTATE.COMMITS _ (by decide)).p SEQ_STSTATE.REVERTED _ (by decide)
  have hnis : (z.nis.map (fun kv => (kv.1, { kv.2 with hist := kv.2.hist.filter (fun h => h.stratum == z.cur) })) : Tab Ni) = nis := by rw [hz.cur]
  have hrun : t.drainEnds c = State.doneCode { z with nis := nis.filter (fun kv => kv.2 != Ni.reset), seq := { z.seq with strCtx := none, partialFlip := false } } c rOk := by
    rw [← hnis]
    rfl
  have hctx : (State.ctx { z with nis := nis.filter (fun kv => kv.2 != Ni.reset), seq := { z.seq with strCtx := none, partialFlip := false } } c) = s.ctx c :=
    State.ctx_of hz.ctx c
  rw [hrun, State.doneCode_eq (j := j) (by rw [hctx]; exact hj) (by rw [hctx]; exact hd), hctx]
  rfl

/-- What a gather finds, in the order in which it is looked at. -/
theorem State.drainGathered_cases (u : State) (c : CtxId) (rv : Bool) (x : Comb) :
    (x.missing ≠ 0 → u.stillHeld x.value = false → u.drainGathered c rv x = u.gatherOld c (.gather rv 0)) ∧
    (u.stillHeld x.value = true → u.drainGathered c rv x = u.releaseAgain c rv (fld x.value 56 8 + x.missing)) ∧
    (x.missing = 0 → ∀ p, u.seq.planeStr = some p →
      ((if p.val = 0 then fld x.value 0 24 else fld x.value 24 24) = 0 →
        u.drainGathered c rv x = State.sendRelease { u with seq := { u.seq with planeStr := none } } c rv) ∧
      ((if p.val = 0 then fld x.value 0 24 else fld x.value 24 24) ≠ 0 → u.drainGathered c rv x = u.gatherOld c (.gather rv 0))) ∧
    (x.missing = 0 → u.seq.planeStr = none → u.stillHeld x.value = false →
      let rel := if fld x.value 56 8 = 0 then u.allReleased else u
      (rv = true → u.drainGathered c rv x = rel.revertFlips c) ∧
      (rv = false → fld x.value 0 24 = 0 ∧ fld x.value 24 24 = 0 ∧ fld x.value 48 8 = 0 → u.drainGathered c rv x = rel.drainEnds c) ∧
      (rv = false → ¬ (fld x.value 0 24 = 0 ∧ fld x.value 24 24 = 0 ∧ fld x.value 48 8 = 0) → u.drainGathered c rv x = rel.gatherOld c (.gather rv 0))) := by
  have hstill : (u.heldPlane.isSome && u.seq.planeStr.isNone && oldPaused x.value != 0) = u.stillHeld x.value :=
    congrArg (u.heldPlane.isSome && u.seq.planeStr.isNone && ·) (decide_not (p := fld x.value 56 8 = 0)).symm
  unfold State.drainGathered
  simp only [hstill]
  refine ⟨fun hm hs => ?_, fun hs => ?_, fun hm p hp => ⟨fun ho => ?_, fun ho => ?_⟩, fun hm hp hs => ?_⟩
  · rw [if_pos hm, hs]
    exact if_neg Bool.noConfusion
  · have hp : u.seq.planeStr = none := by
      unfold State.stillHeld at hs
      simp only [Bool.and_eq_true, Option.isNone_iff_eq_none] at hs
      exact hs.1.2
    have hv : fld x.value 56 8 ≠ 0 := by
      unfold State.stillHeld at hs
      simp only [Bool.and_eq_true, decide_eq_true_eq] at hs
      exact hs.2
    rw [hs, hp]
    by_cases hm : x.missing = 0
    · rw [if_neg (Classical.not_not.mpr hm)]
      exact (if_pos rfl).trans (congrArg (fun v : State => v.releaseAgain c rv _) (if_neg hv))
    · rw [if_pos hm]
      exact if_pos rfl
  · rw [if_neg (Classical.not_not.mpr hm), hp]
    exact if_pos ho
  · rw [if_neg (Classical.not_not.mpr hm), hp]
    exact if_neg ho
  · refine ⟨fun hr => ?_, fun hr ho => ?_, fun hr ho => ?_⟩ <;> rw [if_neg (Classical.not_not.mpr hm), hp, hs, hr]
    · rfl
    · exact if_pos ho
    · exact if_neg ho

end

-- The answer of a step.

/-- What the CRSP of a step says: the units that confirmed and those that did not (R262, R300). -/
def crspOf (o : OutCtl) (r : CrspBody) : Comb := (crspComb r).getD ⟨0, 0, 0, o.tiles⟩

theorem crspOf_missing (o : OutCtl) (r : CrspBody) :
    (crspOf o r).missing = if r.lenm1 = 15 ∧ r.data ≠ [] then fld (r.data.getD 1 0) 16 16 + fld (r.data.getD 1 0) 32 16 else o.tiles := by
  unfold crspOf
  split
  · next h =>
    rw [crspComb_counted h]
    rfl
  · next h =>
    rw [crspComb_uncounted h]
    exact Nat.zero_add _

theorem crspOf_value (o : OutCtl) (r : CrspBody) : (crspOf o r).value = if r.lenm1 = 15 ∧ r.data ≠ [] then r.data.getD 0 0 else 0 := by
  unfold crspOf
  split
  · next h =>
    rw [crspComb_counted h]
    rfl
  · next h =>
    rw [crspComb_uncounted h]
    rfl

/-- The state that a CRSP of a CTL leaves, with RELFLT told and the CTL no longer outstanding. -/
def State.offCtl (s1 : State) (o : OutCtl) (r : CrspBody) : State := (if fld o.tag 8 3 ≠ 0 ∧ bitOf r.aux 12 = true then s1.raise 944 else s1).dropCtl o.id

/-- What a CRSP off the queue leaves: nothing that a step reads has changed. -/
theorem Stands.offCtl {s s1 : State} {o : OutCtl} {r : CrspBody} (hs : s.canon) {p : Pkt → Bool} (ht : s.takeCrsp p = some s1) :
    Stands s (s1.offCtl o r) ∧ (s1.offCtl o r).phase = s.phase ∧ (s1.offCtl o r).heldPlane = s.heldPlane ∧ (s1.offCtl o r).seq.planeStr = s.seq.planeStr := by
  have hkeeps : Keeps s s1 := keeps_State_takeCrsp (Keeps.refl s) _ ht
  obtain ⟨x, -, rfl⟩ := Option.map_eq_some_iff.mp ht
  unfold State.offCtl
  split
  · exact ⟨⟨(keeps_State_dropCtl (keeps_State_raise hkeeps)).canon hs, rfl, rfl, rfl⟩, rfl, rfl, rfl⟩
  · exact ⟨⟨(keeps_State_dropCtl hkeeps).canon hs, rfl, rfl, rfl⟩, rfl, rfl, rfl⟩

/-- The CRSP of a step ends the step that awaits it. -/
theorem execCrsp_step {s s1 : State} {o : OutCtl} {r : CrspBody} {k : StepKind} (hf : s.seq.ctls.find? (fun x => x.id == o.id) = some o) (hh : o.held = none)
    (hk : o.kind = .step) (hop : o.op = none) (hw : (s.ctx o.ctx).wait = .step k o.id)
    (ht : s.takeCrsp (fun x => x.tag == o.tag && x.src == o.dest && sameBody x r) = some s1) :
    exec (.crsp o.id r) s = .next ((s1.offCtl o r).stepEnds o.ctx k o.id (crspOf o r)).barrGo.recheck := by
  refine (execCrsp_takes hf hh ht).trans (congrArg (fun v : State => Host.Outcome.next v.barrGo.recheck) ?_)
  have hs1 := State.takeCrsp_ctx ht
  have hctx : (if fld o.tag 8 3 ≠ 0 ∧ bitOf r.aux 12 = true then s1.raise 944 else s1).seq.ctx = s.seq.ctx := by
    split
    · exact hs1
    · exact hs1
  unfold State.crspIn State.ctlAnswer
  rw [hop, hk]
  dsimp only
  rw [State.ctx_of hctx, hw]
  exact if_pos rfl

/-- No old packet is left in either half of a report. -/
theorem fld_old_zero (v : W) : fld v 0 48 = 0 ∧ fld v 48 8 = 0 ↔ fld v 0 24 = 0 ∧ fld v 24 24 = 0 ∧ fld v 48 8 = 0 := by
  simp only [fld, BitVec.extractLsb'_toNat, Nat.shiftRight_eq_div_pow]
  omega

/-- Settles O15: what each stratum instruction issues by the phase, and what the answer of each of its steps does. -/
theorem stratumInstructionsActByPhase : Obligations.StratumInstructionsActByPhase := by
  unfold Obligations.StratumInstructionsActByPhase
  refine ⟨fun s c j w hd => stratum_issued hd, fun s o r j k hs hf hh hk hop hw hj hd s1 ht => ?_⟩
  intro c counted counts n v off waits u is code flips gathers released reverts
  have hstep := execCrsp_step hf hh hk hop hw ht
  obtain ⟨hoff, hphase, hplane, hstr⟩ := Stands.offCtl (o := o) (r := r) hs ht
  have hn : (crspOf o r).missing = n := crspOf_missing o r
  have hv : (crspOf o r).value = v := crspOf_value o r
  have hu : Stands s u := hoff.counts n
  have hends {t : State} (h : (s1.offCtl o r).stepEnds o.ctx k o.id (crspOf o r) = t) : is t := h ▸ hstep
  have hcode {t : State} (ht : Stands s t) (x : Nat) : t.doneCode c x = code t x := ht.doneCode hj hd x
  generalize crspOf o r = x at hn hv hends
  have huplane : u.heldPlane = s.heldPlane := by
    rw [State.heldPlane_eq, ← hplane, State.heldPlane_eq]
    exact congrArg pausePlane (off.g_p_other aStstate SEQ_STSTATE.WAITING SEQ_STSTATE.PAUSE _ hoff.canon.regs (by decide))
  have huphase : u.phase = s.phase :=
    (off.g_p_other aStstate SEQ_STSTATE.WAITING SEQ_STSTATE.PHASE _ hoff.canon.regs (by decide)).trans hphase
  have hustr : u.seq.planeStr = s.seq.planeStr := hstr
  have hreverts {t : State} (ht : Stands s t) : t.revertFlips c = reverts t := by
    rw [ht.reverts, State.turnedBack, ht.cur]
    rfl
  refine ⟨?copy, ?commit, ?flip, ?flush, ?gather, ?release, ?query⟩
  case copy =>
    rintro rfl
    refine hends ((congrArg (fun m => (off.counts m).doneCode c (if m = 0 then rOk else rTimeout)) hn).trans ?_)
    exact hcode hu _
  case commit =>
    rintro rfl
    refine ⟨fun h0 => hends ((if_neg (by rw [hn]; exact h0)).trans ?_), fun h0 => ?_⟩
    · rw [hn]
      exact hcode hu _
    · intro dl d hold flipped
      have hzero : off.counts 0 = u := congrArg off.counts h0.symm
      have hrun {t : State} (ht : u.commitFlips c dl = t) : is t := by
        refine hends ((if_pos (hn.trans h0)).trans ?_)
        rw [hv]
        exact (congrArg (fun w : State => w.commitFlips c dl) hzero).trans ht
      have hd' : Stands s d := hu.p _ _ (by decide)
      obtain ⟨hidle, hdrain, hboth, hone⟩ := State.commitFlips_cases hu.canon c dl (v.extractLsb' 0 2).isLt
      rw [huphase] at hidle hdrain hboth hone
      rw [hu.cur] at hboth hone
      refine ⟨fun hp => hrun ((hidle hp).trans (hcode hd' _)), fun hp => hrun ((hdrain hp).trans (hcode hd' _)), fun hp hl => ?_, fun hp hl => hrun ((hone hp hl).trans ?_)⟩
      · obtain ⟨he, hph, hc⟩ := hboth hp hl
        exact ⟨hrun (he.trans (hcode hd' _)), hph, hc⟩
      · rw [hu.cyc]
        rfl
  case flip =>
    rintro rv f rfl
    obtain ⟨hdone, hwaits⟩ := hoff.flipAnswered hj hd x rv f o.id
    rw [hn] at hdone hwaits
    exact ⟨fun hl => hends (hdone hl), fun hl => hends (hwaits hl)⟩
  case flush =>
    rintro rfl
    exact hends rfl
  case gather =>
    rintro rv left rfl still
    have hrun {t : State} (ht : u.drainGathered c rv x = t) : is t := hends ((congrArg (fun m => (off.counts m).drainGathered c rv x) hn).trans ht)
    have hstill : u.stillHeld x.value = still := by
      rw [State.stillHeld, huplane, hustr, hv]
    obtain ⟨hagain, hrelease, hplanes, hrest⟩ := u.drainGathered_cases c rv x
    rw [hn, hv] at hrelease hagain hplanes hrest
    rw [hustr] at hplanes hrest
    rw [hv] at hstill
    rw [hstill] at hrelease hagain hrest
    refine ⟨fun h0 hs => hrun (hagain h0 hs), fun hs => hrun (hrelease hs), fun h0 p hp => ?_, fun h0 hp hs => ?_⟩
    · obtain ⟨hold, hnew⟩ := hplanes h0 p hp
      refine ⟨fun ho => hrun ((hold ho).trans ?_), fun ho => hrun (hnew ho)⟩
      have hcur : State.cur { u with seq := { u.seq with planeStr := none } } = s.cur := hu.cur
      unfold State.sendRelease
      rw [hcur]
    · intro rel
      obtain ⟨hback, hdone, hmore⟩ := hrest h0 hp hs
      have hrel : Stands s rel := by
        unfold rel
        split
        · exact hu.allReleased
        · exact hu
      exact ⟨fun hr => hrun ((hback hr).trans (hreverts hrel)), fun hr ho => hrun ((hdone hr ((fld_old_zero v).mp ho)).trans (hrel.drainEnds hj hd)),
        fun hr ho => hrun (by subst hr; exact hmore rfl (mt (fld_old_zero v).mpr ho))⟩
  case release =>
    rintro rv rfl
    have hrun : (s1.offCtl o r).stepEnds o.ctx (.release rv) o.id x = if n ≠ 0 then u.gatherOld c (.gather rv n)
        else if rv then u.allReleased.revertFlips c else u.allReleased.gatherOld c (.gather rv 0) := by
      have hnode : off.releaseEnds c rv x = if x.missing ≠ 0 then (off.counts x.missing).gatherOld c (.gather rv x.missing)
          else if rv then (off.counts x.missing).allReleased.revertFlips c else (off.counts x.missing).allReleased.gatherOld c (.gather rv 0) := rfl
      rw [hn] at hnode
      exact hnode
    exact ⟨fun h0 => hends (hrun.trans (if_pos h0)),
      fun h0 hr => hends (hrun.trans ((if_neg (Classical.not_not.mpr h0)).trans ((if_pos hr).trans (hreverts hu.allReleased)))),
      fun h0 hr => hends (hrun.trans ((if_neg (Classical.not_not.mpr h0)).trans (by rw [hr]; rfl)))⟩
  case query =>
    rintro rfl
    have hctx : u.ctx c = s.ctx c := State.ctx_of hu.ctx c
    have hrun : (s1.offCtl o r).stepEnds o.ctx .queryGather o.id x =
        u.queryEnds c (if n = 0 then BitVec.ofNat 64 (fld v 0 24 + 2 ^ 32 * fld v 24 24) else BitVec.allOnes 64) := by
      have hnode : (s1.offCtl o r).stepEnds o.ctx .queryGather o.id x = (off.counts x.missing).queryEnds c
          (if x.missing = 0 then BitVec.ofNat 64 (fld x.value 0 24 + 2 ^ 32 * fld x.value 24 24) else BitVec.allOnes 64) := rfl
      rw [hn, hv] at hnode
      exact hnode
    refine hends (hrun.trans ?_)
    unfold State.queryEnds
    dsimp only
    rw [State.done_eq (j := j) (by rw [hctx]; exact hj) (by rw [hctx]; exact hd), hctx]

end Sys2Proof.Machine
end


section
/-! SUPPORT. The conditions that end a wait: O14. -/
namespace Sys2Proof.Machine

-- The in-flight counters after reset.

theorem inArr_below {o b st n : Nat} (hst : 0 < st) (h : b + st * n ≤ o) : inArr o b st n = false := by
  refine eq_false_of_ne_true fun hin => ?_
  simp only [inArr, Bool.and_eq_true, decide_eq_true_eq] at hin
  obtain ⟨-, hlt⟩ := hin
  have := (Nat.div_lt_iff_lt_mul hst).1 hlt
  rw [Nat.mul_comm] at this
  omega

/-- No register of the protection units differs from its table at reset. -/
theorem builtVal_pu {b : Build} {o : Nat} (v : W) (hlo : basePu ≤ o) (hhi : o < baseTl) : builtVal b o v = v := by
  unfold basePu at hlo
  unfold baseTl at hhi
  have hmax : inArr o 0x100 8 11 = false := inArr_below (by decide) (by omega)
  have hmap : inArr o 0x200 8 11 = false := inArr_below (by decide) (by omega)
  have htm : inArr o (baseTm + 0x202400) 8 48 = false := by
    have : ¬ baseTm + 0x202400 ≤ o := by
      unfold baseTm
      omega
    simp only [inArr, this, decide_false, Bool.false_and]
  have hfab : o ≠ aXbFabep := fun h => absurd (h ▸ hlo) (by decide)
  have hevc : o ≠ aEvcInfo := fun h => absurd (h ▸ hlo) (by decide)
  have hring : o ≠ aRingcfg 8 := fun h => absurd (h ▸ hlo) (by decide)
  have hchn : o ≠ aChnId := fun h => absurd (h ▸ hlo) (by decide)
  have hseed : o ≠ aFtSeed 1 := fun h => absurd (h ▸ hhi) (by decide)
  have htl : ¬ baseTl ≤ o := by
    unfold baseTl
    omega
  simp only [builtVal, hfab, hmax, hmap, hevc, hring, hchn, htl, htm, hseed, if_false, Bool.false_eq_true, false_and]

theorem aPuCnt_eq (i : Nat) : aPuCnt i = 0x1E0008 + 0x40 * i := by
  unfold aPuCnt puBase
  omega

/-- An in-flight counter resets to 0, in a block that has the unit or not. -/
theorem resetVal_aPuCnt (b : Build) {i : Nat} (h : i < 432) : resetVal b (aPuCnt i) = 0 := by
  have ho := aPuCnt_eq i
  have hlo : basePu ≤ aPuCnt i := by
    unfold basePu
    omega
  have hrows : rowsAt b (aPuCnt i) = rowsPu b (0xE0008 + 0x40 * i) := by
    unfold rowsAt
    simp only [baseBf, baseChn, basePm, baseEvc, baseSeq, basePu, baseObs, ho]
    rw [if_neg (by omega), if_neg (by omega), if_neg (by omega), if_neg (by omega), if_neg (by omega), if_neg (by omega), if_pos (by omega)]
    exact congrArg (rowsPu b) (by omega)
  have hzero : rstOf (rowsPu b (0xE0008 + 0x40 * i)) = 0 := by
    unfold rowsPu
    rw [if_neg (by omega), if_pos (by omega)]
    split
    · have hk : (0xE0008 + 0x40 * i) % 0x40 = 8 := by omega
      simp only [hk]
      decide
    · rfl
  rw [resetVal, hrows, hzero]
  refine builtVal_pu 0 hlo ?_
  unfold baseTl
  omega

/-- What a table lists, or what it reads as where it lists nothing. -/
theorem tget_cases {α : Type} (d : α) (t : Tab α) (k : Nat) : (∃ v, (k, v) ∈ t) ∨ tget d t k = d := by
  induction t with
  | nil => exact .inr rfl
  | cons x t ih =>
    obtain ⟨j, a⟩ := x
    by_cases hj : j = k
    · exact .inl ⟨a, hj ▸ List.mem_cons_self⟩
    · rcases ih with ⟨v, hv⟩ | h
      · exact .inl ⟨v, List.mem_cons_of_mem _ hv⟩
      · exact .inr ((if_neg hj).trans h)

/-- No access of the other epoch is in flight at a PU. -/
def State.puZero (s : State) (i : Nat) : Prop := s.g (aPuCnt i) (cntFd (!s.cur)) = 0

/-- A FENCE of one PU, or of all, has nothing left to await (R268). -/
theorem State.fenceClear_iff {s : State} {pu : Nat} :
    s.fenceClear pu = true ↔ (pu = 0x1FF ∧ ∀ i, i < 432 → s.puZero i) ∨ (pu ≠ 0x1FF ∧ s.puZero pu) := by
  unfold State.fenceClear
  split
  · next hall =>
    simp only [hall, true_and, ne_eq, not_true, false_and, or_false, List.all_eq_true, Bool.or_eq_true, Bool.not_eq_true', beq_iff_eq]
    constructor
    · intro h i hi
      rcases tget_cases (resetVal s.build (aPuCnt i)) s.regs (aPuCnt i) with ⟨v, hv⟩ | hreset
      · have hin : inArr (aPuCnt i) (aPuCnt 0) 0x40 432 = true := by
          simp only [inArr, Bool.and_eq_true, decide_eq_true_eq, beq_iff_eq, aPuCnt_eq]
          omega
        have hi' : (aPuCnt i - aPuCnt 0) / 0x40 = i := by
          rw [aPuCnt_eq, aPuCnt_eq]
          omega
        have hzero := (h _ hv).resolve_left (by rw [hin]; exact Bool.noConfusion)
        rwa [hi'] at hzero
      · have hrd : s.rd (aPuCnt i) = 0 := hreset.trans (resetVal_aPuCnt s.build hi)
        unfold State.puZero State.g
        rw [hrd]
        cases s.cur <;> rfl
    · intro h kv _
      by_cases hin : inArr kv.1 (aPuCnt 0) 0x40 432 = true
      · refine .inr (h _ ?_)
        simp only [inArr, Bool.and_eq_true, decide_eq_true_eq] at hin
        exact hin.2
      · exact .inl (eq_false_of_ne_true hin)
  · next hone =>
    simp only [hone, false_and, ne_eq, not_false_eq_true, true_and, false_or, beq_iff_eq]
    rfl

/-- A condition on the sequencer's own state holds (R265). -/
def State.condMet (s : State) (c : CtxId) (cond : BitVec 9) : Prop :=
  (fld cond 6 3 = 0 ∧ s.lockState (fld cond 0 6) ≠ lkIsHeld) ∨ (fld cond 6 3 = 1 ∧ ∀ d : CtxId, d.val = fld cond 0 2 → (s.ctx d).job = none) ∨
    (fld cond 6 3 = 4 ∧ s.tsOut c = 0)

theorem State.condHolds_iff {s : State} {c : CtxId} {cond : BitVec 9} : s.condHolds c cond = true ↔ s.condMet c cond := by
  unfold State.condHolds State.condMet
  split
  · next h => simp [h]
  · next h =>
    simp only [h, Nat.one_ne_zero, false_and, true_and, false_or, or_false, Option.isNone_iff_eq_none, Nat.reduceEqDiff]
    exact ⟨fun hj d hd => (congrArg (fun e => (s.ctx e).job) (Fin.ext hd)).trans hj, fun hall => hall _ rfl⟩
  · next h => simp [h]
  · next h0 h1 h4 =>
    refine iff_of_false Bool.noConfusion ?_
    rintro (⟨h, -⟩ | ⟨h, -⟩ | ⟨h, -⟩)
    · exact h0 h
    · exact h1 h
    · exact h4 h

-- Waits that end, or do not.

section
variable {s : State} {c : CtxId} {j : Job} (hj : (s.ctx c).job = some j)

theorem State.untilTick_ctx (s : State) (n : Nat) (c : CtxId) : (s.untilTick n).ctx c = s.ctx c := rfl

section
include hj

theorem State.recheck1_waitc {cond : BitVec 9} (hw : (s.ctx c).wait = .waitc cond) : s.recheck1 c = if s.condHolds c cond then s.doneCode c rOk else s := by
  simp only [State.recheck1, hj, hw]

theorem State.recheck1_fence {pu : Nat} (hw : (s.ctx c).wait = .fence pu) : s.recheck1 c = if s.fenceClear pu then s.doneCode c rOk else s := by
  simp only [State.recheck1, hj, hw]

end

/-- What the end of a wait's bound does, by the wait. -/
def State.expired (s : State) (c : CtxId) : State := s.untilTick (s.ctx c).deadline

theorem execWaitTimeout_waitc {cond : BitVec 9} (hw : (s.ctx c).wait = .waitc cond) :
    execWaitTimeout c s = .next ((s.expired c).doneCode c (if (s.expired c).condHolds c cond then rOk else rTimeout)).recheck := by
  simp only [execWaitTimeout, hw]
  rfl

theorem execWaitTimeout_waitt {target : W} (hw : (s.ctx c).wait = .waitt target) :
    execWaitTimeout c s = .next ((s.expired c).doneCode c (if target.toNat ≤ (s.expired c).ntNs then rOk else rTimeout)).recheck := by
  simp only [execWaitTimeout, hw]
  rfl

theorem execWaitTimeout_fence {pu : Nat} (hw : (s.ctx c).wait = .fence pu) :
    execWaitTimeout c s = .next ((s.expired c).doneCode c (if (s.expired c).fenceClear pu then rOk else rTimeout)).recheck := by
  simp only [execWaitTimeout, hw]
  rfl

theorem execWaitTimeout_step {k : StepKind} {id : Nat} (hw : (s.ctx c).wait = .step k id) :
    execWaitTimeout c s = .next ((s.expired c).stepExpires c k id).barrGo.recheck := by
  simp only [execWaitTimeout, hw]
  rfl

theorem execWaitTimeout_barrDrain {ch : Bool} {id key : Nat} (hw : (s.ctx c).wait = .barrDrain ch id key) :
    execWaitTimeout c s = .next ((s.expired c).barrEnds c ((s.expired c).barrUnits ch) (s.expired c).seq.abandoned).barrGo.recheck := by
  simp only [execWaitTimeout, hw]
  rfl

-- The load of a WAITC.

/-- The condition of LDEQ or LDNE holds for a word read. -/
theorem pollHolds_iff {word : BitVec 32} {v : W} : pollHolds word j v = true ↔
    (fld (wCond word) 6 3 = 2 ∧ v &&& j.get (fld (wCond word) 0 4 + 1) = j.get (fld (wCond word) 0 4 + 2)) ∨
      (fld (wCond word) 6 3 ≠ 2 ∧ ¬ v &&& j.get (fld (wCond word) 0 4 + 1) = j.get (fld (wCond word) 0 4 + 2)) := by
  unfold pollHolds
  dsimp only
  split
  · next h => simp only [h, true_and, ne_eq, not_true, false_and, or_false, beq_iff_eq]
  · next h => simp only [h, false_and, ne_eq, not_false_eq_true, true_and, false_or, Bool.not_eq_true', beq_eq_false_iff_ne]

end

end Sys2Proof.Machine
end


section
/-! SUPPORT. WAITT, WAITC, FENCE and BARR as they are issued (R264 to R268). -/
namespace Sys2Proof.Machine

section
variable {s : State} {c : CtxId} {j : Job} {w : BitVec 32}

/-- The basalt tick at which the bound of a wait ends. -/
def State.endsAt (s : State) (w : BitVec 32) : Nat := s.ticks + 16 * (if wT w = 0 then 4096 else wT w)

/-- The network time that a WAITT names (R266). -/
def State.waitTarget (s : State) (j : Job) (w : BitVec 32) : W :=
  if bitOf (wCond w) 4 then BitVec.ofNat 64 s.ntNs + j.get (fld (wCond w) 0 4) else j.get (fld (wCond w) 0 4)

/-- WAITT, by network time (R266). -/
theorem execWaitt_cases (hd : (s.ctx c).due = none) (h : s.atInstr c 0x44 j w) :
    (s.gb aTbStat TB_STAT.VALID = false → exec (.waitt c) s = .next (s.wrote c j w (iRd w) (BitVec.ofNat 64 rNoTime) (j.pc + 1)).recheck) ∧
    (s.gb aTbStat TB_STAT.VALID = true → (s.waitTarget j w).toNat ≤ s.ntNs →
      exec (.waitt c) s = .next (s.wrote c j w (iRd w) (BitVec.ofNat 64 rOk) (j.pc + 1)).recheck) ∧
    (s.gb aTbStat TB_STAT.VALID = true → s.ntNs < (s.waitTarget j w).toNat →
      exec (.waitt c) s = .next ((s.issued c j w).await c (.waitt (s.waitTarget j w)) (s.endsAt w)).recheck) := by
  have hrun : exec (.waitt c) s = .next (if s.gb aTbStat TB_STAT.VALID = false then (s.issued c j w).doneCode c rNoTime
      else if (s.waitTarget j w).toNat ≤ s.ntNs then (s.issued c j w).doneCode c rOk
      else (s.issued c j w).await c (.waitt (s.waitTarget j w)) (s.endsAt w)).recheck := congrArg Host.Outcome.next (State.issue_runs h _)
  rw [State.doneCode_issued hd, State.doneCode_issued hd] at hrun
  refine ⟨fun hv => ?_, fun hv ht => ?_, fun hv ht => ?_⟩ <;> rw [hrun, hv]
  · rfl
  · rw [if_neg Bool.noConfusion, if_pos ht]
  · rw [if_neg Bool.noConfusion, if_neg (Nat.not_le.mpr ht)]

/-- WAITC, by what its condition is on (R265). -/
theorem execWaitc_cases (h : s.atInstr c 0x43 j w) :
    let cond := wCond w
    let polled : W := j.get (fld cond 0 4) &&& 0xFFFFFFFFFF#64
    (fld cond 6 3 ≠ 2 → fld cond 6 3 ≠ 3 → exec (.waitc c) s = .next ((s.issued c j w).await c (.waitc cond) (s.endsAt w)).recheck) ∧
    ((fld cond 6 3 = 2 ∨ fld cond 6 3 = 3) → (s.chainAccess polled false = true → j.pchain = true) → polled.toNat % 8 = 0 → fld polled 26 6 = 0 →
      exec (.waitc c) s = .next (((s.issued c j w).await c (.waitc cond) (s.endsAt w)).issueAcc c { j with lastPc := j.pc } .poll false polled 0 0).recheck) := by
  intro cond polled
  have hrun : exec (.waitc c) s = .next ((s.issued c j w).waitcStart c { j with lastPc := j.pc } w).recheck := congrArg Host.Outcome.next (State.issue_runs h _)
  refine ⟨fun h2 h3 => hrun.trans ?_, fun h23 hmay hal hin => hrun.trans ?_⟩
  · exact congrArg (fun t : State => (.next t.recheck : Res)) (if_neg (not_or.mpr ⟨h2, h3⟩))
  · have haddr : ctlAddr (j.get (fld cond 0 4)) 0 = polled := congrArg (· &&& 0xFFFFFFFFFF#64) (BitVec.add_zero _)
    have hmay' : ¬ (s.chainAccess polled false && !j.pchain) = true := by simpa using hmay
    have hpre : (s.issued c j w).accPre { j with lastPc := j.pc } (ctlAddr (j.get (fld cond 0 4)) 0) false 8 = .issue := by
      rw [haddr]
      exact (if_neg hmay').trans ((if_neg (Classical.not_not.mpr hal)).trans (if_neg (Classical.not_not.mpr hin)))
    refine congrArg (fun t : State => (.next t.recheck : Res)) ?_
    unfold State.waitcStart
    dsimp only
    have hget : Job.get { j with lastPc := j.pc } (fld cond 0 4) = j.get (fld cond 0 4) := rfl
    rw [if_pos h23, hget, hpre, haddr]
    rfl

/-- FENCE, by the phase and the PU that it names (R268). -/
theorem execFence_cases (hd : (s.ctx c).due = none) (h : s.atInstr c 0x45 j w) :
    let cond := wCond w
    (cond = 0x1FF#9 ∨ puExists s.build cond.toNat = true →
      (s.phase = phIdle → exec (.fence c) s = .next (s.wrote c j w (iRd w) (BitVec.ofNat 64 rOk) (j.pc + 1)).recheck) ∧
      (s.phase ≠ phIdle → exec (.fence c) s = .next ((s.issued c j w).await c (.fence cond.toNat) (s.endsAt w)).recheck)) ∧
    (cond ≠ 0x1FF#9 → puExists s.build cond.toNat = false →
      exec (.fence c) s = .next (s.wrote c j w (iRd w) (BitVec.ofNat 64 rDecerr) (j.pc + 1)).recheck) := by
  intro cond
  have hrun : exec (.fence c) s = .next (if cond.toNat ≠ 0x1FF ∧ puExists s.build cond.toNat = false then (s.issued c j w).doneCode c rDecerr
      else if s.phase = phIdle then (s.issued c j w).doneCode c rOk else (s.issued c j w).await c (.fence cond.toNat) (s.endsAt w)).recheck :=
    congrArg Host.Outcome.next (State.issue_runs h _)
  rw [State.doneCode_issued hd, State.doneCode_issued hd] at hrun
  have hall : cond.toNat ≠ 0x1FF ↔ cond ≠ 0x1FF#9 := not_congr ⟨fun h => BitVec.eq_of_toNat_eq h, fun h => by rw [h]; rfl⟩
  refine ⟨fun hex => ?_, fun hne hno => hrun.trans (congrArg (fun t : State => (.next t.recheck : Res)) (if_pos ⟨hall.mpr hne, hno⟩))⟩
  have hok : ¬ (cond.toNat ≠ 0x1FF ∧ puExists s.build cond.toNat = false) := by
    rintro ⟨hne, hno⟩
    rcases hex with he | he
    · exact hall.mp hne he
    · rw [hno] at he
      exact Bool.noConfusion he
  rw [if_neg hok] at hrun
  exact ⟨fun hp => hrun.trans (congrArg (fun t : State => (.next t.recheck : Res)) (if_pos hp)),
    fun hp => hrun.trans (congrArg (fun t : State => (.next t.recheck : Res)) (if_neg hp))⟩

/-- BARR, by its right to the chain (R267, R431). -/
theorem execBarr_cases (h : s.atInstr c 0x42 j w) :
    let cond := wCond w
    let s' := s.issued c j w
    (bitOf cond 8 = true → j.pchain = false → exec (.barr c) s = .next (s'.trap c tPerm 0).recheck) ∧
    (bitOf cond 8 = false ∨ (j.pchain = true ∧ s.chnReady = true) → exec (.barr c) s =
      .next ((s'.setCtx c { s'.ctx c with deadline := s.endsAt w, wait := .barrDrain (bitOf cond 8) s.seq.nextId s.seq.nextKey }).barrGo).recheck) := by
  intro cond s'
  have hrun : exec (.barr c) s = .next (if bitOf cond 8 && !j.pchain then s'.trap c tPerm 0 else (s.bounded c j w).barr c (bitOf cond 8)).recheck :=
    congrArg Host.Outcome.next (State.issue_runs h _)
  refine ⟨fun hb hp => ?_, fun hb => ?_⟩
  · rw [hrun, hb, hp]
    rfl
  · have hmay : ¬ (bitOf cond 8 && !j.pchain) = true := by
      rcases hb with hb | ⟨hp, -⟩ <;> simp [*]
    have hready : ¬ (bitOf cond 8 = true ∧ (s.bounded c j w).chnReady = false) := by
      rintro ⟨hb', hn⟩
      have hn : s.chnReady = false := hn
      rcases hb with hb | ⟨-, hr⟩
      · exact Bool.noConfusion (hb.symm.trans hb')
      · exact Bool.noConfusion (hn.symm.trans hr)
    rw [hrun, if_neg hmay]
    refine congrArg (fun t : State => (.next t.recheck : Res)) ((if_neg hready).trans (congrArg State.barrGo ?_))
    unfold State.bounded
    rw [State.ctx_setCtx, State.setCtx_setCtx]
    rfl

end

-- The next step of a BARR.

/-- CTLs of the same numbers and kinds. -/
def SameCtls (l m : List OutCtl) : Prop := ∃ f : OutCtl → OutCtl, m = l.map f ∧ ∀ x, (f x).id = x.id ∧ (f x).kind = x.kind

theorem SameCtls.refl (l : List OutCtl) : SameCtls l l := ⟨id, by simp, fun _ => ⟨rfl, rfl⟩⟩

theorem State.launchCtl_facts (s : State) (n : Nat) : SameCtls s.seq.ctls (s.launchCtl n).seq.ctls ∧ (s.launchCtl n).seq.nextId = s.seq.nextId ∧
    (s.launchCtl n).seq.ctx = s.seq.ctx := by
  unfold State.launchCtl
  split
  · exact ⟨.refl _, rfl, rfl⟩
  · split
    · rw [State.wake_seq]
      refine ⟨⟨_, rfl, fun x => ?_⟩, rfl, rfl⟩
      split
      · exact ⟨rfl, rfl⟩
      · exact ⟨rfl, rfl⟩
    · exact ⟨.refl _, rfl, rfl⟩

/-- A step is sent: its CTL is the last one outstanding, and the context waits for it. -/
theorem State.stepSend_facts (s : State) (c : CtxId) (k : StepKind) (n arg spread op : Nat) :
    (∃ l o, (s.stepSend c k n arg spread op).seq.ctls = l ++ [o] ∧ o.id = s.seq.nextId ∧ o.kind = .step) ∧
      (s.stepSend c k n arg spread op).lastId = s.seq.nextId ∧ ((s.stepSend c k n arg spread op).ctx c).wait = .step k s.seq.nextId := by
  let o : OutCtl := s.ctlNote c .step (((s.ctx c).job.map (·.key)).getD 0) true spread op (epAddr s.build.root.val 3) (engFunc n) 63 (engArgs n arg) s.liveTiles none
  obtain ⟨⟨f, hctls, hf⟩, hnext, -⟩ := (s.ctlNoted o).launchCtl_facts s.seq.nextId
  have hrun : s.stepSend c k n arg spread op = ((s.ctlNoted o).launchCtl s.seq.nextId).setCtx c
      { ((s.ctlNoted o).launchCtl s.seq.nextId).ctx c with wait := .step k ((s.ctlNoted o).launchCtl s.seq.nextId).lastId } := rfl
  generalize (s.ctlNoted o).launchCtl s.seq.nextId = t at hctls hnext hrun
  have hlast : t.lastId = s.seq.nextId := by
    rw [State.lastId, hnext]
    exact Nat.add_sub_cancel _ _
  rw [hrun]
  refine ⟨⟨_, f o, hctls.trans List.map_append, (hf o).1, (hf o).2⟩, hlast, ?_⟩
  rw [State.ctx_setCtx, hlast]

/-- An operation that begins at this instance is recorded, and then only frames are sent (R307). -/
theorem State.opStart_facts (s : State) (opid : BitVec 16) (x : Option SpreadOp) (func : BitVec 8) (args : List W) (up : Bool) :
    ∃ op : ChainOp, op.opid = opid ∧ op.own = true ∧ PortsOnly { s with chn := { s.chn with ops := s.chn.ops ++ [op] } } (s.opStart opid x func args up) :=
  ⟨_, rfl, rfl, PortsOnly.foldl (fun s _ => .sendFrame s _ _ _ _) _ _⟩

/-- The CTL sent last belongs to a new operation over the chain. -/
def State.withOp (t : State) : State :=
  { t with
    seq := { t.seq with ctls := t.seq.ctls.map (fun o => if o.id = t.lastId then { o with op := some t.freshOp } else o) }
    chn := { t.chn with nextOp := t.freshOp + 1 } }

theorem State.barrStep_chain (s : State) (c : CtxId) :
    s.barrStep c true = (s.stepSend c (.barrier s.seq.abandoned) engBarrier 0 spGather opOr).withOp.opStart
      (s.stepSend c (.barrier s.seq.abandoned) engBarrier 0 spGather opOr).freshOp none 0 [0] false := rfl

/-- A BARR whose messages have been answered spreads its barrier, and with CH begins an operation over the chain (R267, R303, R308). -/
theorem State.barrStep_facts (s : State) (c : CtxId) : ∃ o opid, (s.barrStep c true).seq.ctls.getLast? = some o ∧ o.id = s.seq.nextId ∧ o.kind = .step ∧
    o.op = some opid ∧ ((s.barrStep c true).ctx c).wait = .step (.barrier s.seq.abandoned) o.id ∧ ∃ x ∈ (s.barrStep c true).chn.ops, x.opid = opid ∧ x.own = true := by
  obtain ⟨⟨l, o, hl, hid, hk⟩, hlast, hw⟩ := s.stepSend_facts c (.barrier s.seq.abandoned) engBarrier 0 spGather opOr
  rw [State.barrStep_chain]
  generalize s.stepSend c (.barrier s.seq.abandoned) engBarrier 0 spGather opOr = t at hl hlast hw ⊢
  obtain ⟨op, hopid, hown, hports⟩ := t.withOp.opStart_facts t.freshOp none 0 [0] false
  generalize t.withOp.opStart t.freshOp none 0 [0] false = u at hports ⊢
  have hseq : u.seq = t.withOp.seq := by rw [hports]
  have hctls : t.withOp.seq.ctls = l.map (fun o => if o.id = t.lastId then { o with op := some t.freshOp } else o) ++ [{ o with op := some t.freshOp }] := by
    rw [State.withOp]
    dsimp only
    rw [hl, List.map_append, List.map_singleton, if_pos (hid.trans hlast.symm)]
  refine ⟨{ o with op := some t.freshOp }, t.freshOp, ?_, hid, hk, rfl, ?_, op, ?_, hopid, hown⟩
  · rw [hseq, hctls, List.getLast?_concat]
  · rw [State.ctx, hseq, hid]
    exact hw
  · rw [hports.ops]
    exact List.mem_append_right _ (List.mem_singleton.mpr rfl)

end Sys2Proof.Machine
end


section
/-! SUPPORT. The ends of waits (R264 to R269, R271, R279), and O14. -/
namespace Sys2Proof.Machine

section
variable {s t : State} {c : CtxId} {j : Job}

/-- A code ends the current instruction where its context stands as it was. -/
theorem State.doneCode_coded (hj : (s.ctx c).job = some j) (hd : (s.ctx c).due = none) (ht : t.ctx c = s.ctx c) (n : Nat) :
    t.doneCode c n = t.coded c j (s.ctx c).word n := by
  rw [State.doneCode_eq (j := j) (by rw [ht]; exact hj) (by rw [ht]; exact hd), ht]
  rfl

/-- The units and messages that a barrier of BARR found missing are counted (R267, R303). -/
def State.quieted (t : State) (missing ab : Nat) : State :=
  { t with seq := { t.seq with abandoned := t.seq.abandoned - ab } }.p aStstate SEQ_STSTATE.WAITING (min (missing + ab) 0xFF)

/-- A barrier of BARR has ended (R267, R303). -/
def State.barred (t : State) (c : CtxId) (j : Job) (word : BitVec 32) (missing ab : Nat) : State :=
  (t.quieted missing ab).coded c j word (if missing + ab = 0 then rOk else rTimeout)

theorem State.expired_ctx (s : State) (c : CtxId) : (s.expired c).ctx c = s.ctx c := rfl

theorem State.barrEnds_eq (hj : (s.ctx c).job = some j) (hd : (s.ctx c).due = none) (ht : t.ctx c = s.ctx c) (missing ab : Nat) :
    t.barrEnds c missing ab = t.barred c j (s.ctx c).word missing ab := by
  have hu : (t.quieted missing ab).ctx c = s.ctx c := ht
  exact (State.doneCode_coded hj hd hu _ : (t.quieted missing ab).doneCode c (if missing + ab = 0 then rOk else rTimeout) = _)

theorem next_recheck {r : Res} {u v : State} (hr : r = .next u.recheck) (hu : u = v) : r = .next v.recheck := hu ▸ hr

section
variable (hj : (s.ctx c).job = some j) (hd : (s.ctx c).due = none)
include hj hd

/-- WAITC looks at its condition, and at the end of its bound (R264, R265). -/
theorem waitc_ends {cond : BitVec 9} (hw : (s.ctx c).wait = .waitc cond) :
    (s.condMet c cond → s.recheck1 c = s.coded c j (s.ctx c).word rOk) ∧ (¬ s.condMet c cond → s.recheck1 c = s) ∧
    ((s.expired c).condMet c cond → exec (.waitTimeout c) s = .next ((s.expired c).coded c j (s.ctx c).word rOk).recheck) ∧
    (¬ (s.expired c).condMet c cond → exec (.waitTimeout c) s = .next ((s.expired c).coded c j (s.ctx c).word rTimeout).recheck) := by
  have hlook := State.recheck1_waitc hj hw
  have hend : exec (.waitTimeout c) s = _ := execWaitTimeout_waitc hw
  refine ⟨fun hm => hlook.trans ((if_pos (State.condHolds_iff.mpr hm)).trans (State.doneCode_coded hj hd rfl _)),
    fun hm => hlook.trans (if_neg (mt State.condHolds_iff.mp hm)), fun hm => next_recheck hend ?_, fun hm => next_recheck hend ?_⟩
  · rw [if_pos (State.condHolds_iff.mpr hm)]
    exact State.doneCode_coded hj hd (s.expired_ctx c) _
  · rw [if_neg (mt State.condHolds_iff.mp hm)]
    exact State.doneCode_coded hj hd (s.expired_ctx c) _

/-- FENCE looks at its counters, and at the end of its bound (R264, R268). -/
theorem fence_ends {pu : Nat} (hw : (s.ctx c).wait = .fence pu) :
    (s.fenceClear pu = true → s.recheck1 c = s.coded c j (s.ctx c).word rOk) ∧ (¬ s.fenceClear pu = true → s.recheck1 c = s) ∧
    ((s.expired c).fenceClear pu = true → exec (.waitTimeout c) s = .next ((s.expired c).coded c j (s.ctx c).word rOk).recheck) ∧
    (¬ (s.expired c).fenceClear pu = true → exec (.waitTimeout c) s = .next ((s.expired c).coded c j (s.ctx c).word rTimeout).recheck) := by
  have hlook := State.recheck1_fence hj hw
  have hend : exec (.waitTimeout c) s = _ := execWaitTimeout_fence hw
  refine ⟨fun hm => hlook.trans ((if_pos hm).trans (State.doneCode_coded hj hd rfl _)),
    fun hm => hlook.trans (if_neg hm), fun hm => next_recheck hend ?_, fun hm => next_recheck hend ?_⟩
  · rw [if_pos hm]
    exact State.doneCode_coded hj hd (s.expired_ctx c) _
  · rw [if_neg hm]
    exact State.doneCode_coded hj hd (s.expired_ctx c) _

/-- The load of a WAITC is answered (R265). -/
theorem State.poll_answers {key : Nat} {addr : W} (ha : (s.ctx c).acc = some (key, .poll, addr)) (n : Nat) (v : W) :
    (n = 0 → pollHolds (s.ctx c).word j v = true → s.accAnswer c key n v = (s.answered c).coded c j (s.ctx c).word rOk) ∧
    (n = 0 → ¬ pollHolds (s.ctx c).word j v = true → s.accAnswer c key n v = s.answered c) ∧
    (n ≠ 0 → s.accAnswer c key n v = (s.answered c).coded c j (s.ctx c).word (accCode n)) := by
  have hrun := State.accAnswer_eq (code := n) hj ha v
  have hcode (m : Nat) : (s.answered c).doneCode c m = (s.answered c).coded c j (s.ctx c).word m := by
    rw [State.doneCode_eq (j := j) (by rw [State.ctx_answered]; exact hj) (by rw [State.ctx_answered]; exact hd), State.ctx_answered]
    rfl
  refine ⟨fun h0 hp => hrun.trans ?_, fun h0 hp => hrun.trans ?_, fun h0 => hrun.trans ?_⟩
  · exact (if_neg (Classical.not_not.mpr h0)).trans ((if_pos hp).trans (hcode _))
  · exact (if_neg (Classical.not_not.mpr h0)).trans (if_neg hp)
  · exact (if_pos h0).trans (hcode _)

/-- A job of which an end is due goes on where it may not be interrupted, and otherwise ends (R279, R281, R284). -/
theorem State.endSoon_eq (d : Due) :
    s.endSoon c d = if (s.ctx c).wait.holds || (d != .runlim && (s.ctx c).wait.completes) then s.setCtx c { s.ctx c with due := some d }
      else (s.setCtx c { s.ctx c with due := some d }).boundary c := by
  have hlive : ¬ (s.ctx c).job.isNone = true := by
    rw [hj]
    exact Bool.noConfusion
  unfold State.endSoon
  dsimp only
  rw [if_neg hlive, hd]

end

/-- The waits that are no waits but instructions in progress. -/
theorem Wait.completes_iff {w : Wait} : w.completes = true ↔ w = .access ∨ (∃ n, w = .time n) ∨ ∃ tag dest, w = .inject tag dest := by
  cases w <;> simp [Wait.completes]

theorem State.boundary_due (d : Due) (h : (t.ctx c).due = some d) :
    (∀ tail, d = .abort tail → t.boundary c = t.abortJob c tail) ∧ (d = .mcheck → t.boundary c = t.mcheckJob c 0 0) ∧ (d = .runlim → t.boundary c = t.trap c tRunlim 0) := by
  unfold State.boundary
  rw [h]
  exact ⟨fun _ h => by rw [h], fun h => by rw [h], fun h => by rw [h]⟩

/-- What an access, a change of the timebase and an injection have in common with the waits that hold: a job goes on to their end. -/
theorem Wait.goesOn_iff {w : Wait} : (w.holds || w.completes) = true ↔ w.holds = true ∨ w = .access ∨ (∃ n, w = .time n) ∨ ∃ tag dest, w = .inject tag dest := by
  rw [Bool.or_eq_true, Wait.completes_iff]

/-- A lease that ends breaks its slot, tells so, and hands it on (R271). -/
theorem execLeaseExpiry_breaks (slot : Fin 64) (hl : tget 0 s.seq.leaseEnd slot.val ≠ 0) (hc : (tget ⟨false, 0, 0⟩ s.pm.cts 64 : Ct).cnt < 15) :
    exec (.leaseExpiry slot) s =
      .next ((((s.untilTick (tget 0 s.seq.leaseEnd slot.val)).ctPulse 64 577).breakSlot slot.val 941).wakeMgmt.grantLock slot.val).recheck := by
  have hroom : ¬ ((tget ⟨false, 0, 0⟩ s.pm.cts 64 : Ct).busy = true ∧ 15 ≤ (tget ⟨false, 0, 0⟩ s.pm.cts 64 : Ct).cnt) := fun h => absurd hc (Nat.not_lt.mpr h.2)
  exact congrArg Host.Outcome.next ((if_neg hl).trans (if_neg hroom))

/-- MAXRUN has passed (R279). -/
theorem execRunlimExpiry_ends (hj : (s.ctx c).job = some j) (hd : (s.ctx c).due = none) (hm : s.g (aRingcfg j.ring.val) SEQ_RINGCFG.MAXRUN ≠ 0) :
    let marked := (s.untilTick ((s.ctx c).started + 16 * s.g (aRingcfg j.ring.val) SEQ_RINGCFG.MAXRUN)).setCtx c { s.ctx c with due := some .runlim }
    ((s.ctx c).wait.holds = false → exec (.runlimExpiry c) s = .next (marked.trap c tRunlim 0).recheck) ∧
    ((s.ctx c).wait.holds = true → exec (.runlimExpiry c) s = .next marked.recheck) := by
  intro marked
  let late := s.untilTick ((s.ctx c).started + 16 * s.g (aRingcfg j.ring.val) SEQ_RINGCFG.MAXRUN)
  have hctx : late.ctx c = s.ctx c := s.untilTick_ctx _ c
  have hrun : exec (.runlimExpiry c) s = .next (late.endSoon c .runlim).recheck := by
    change (Host.Outcome.next _ : Res) = _
    rw [hj]
    exact congrArg Host.Outcome.next (if_neg hm)
  have hsoon := State.endSoon_eq (s := late) (c := c) (j := j) (by rw [hctx]; exact hj) (by rw [hctx]; exact hd) .runlim
  rw [hctx] at hsoon
  refine ⟨fun hw => next_recheck hrun (hsoon.trans ?_), fun hw => next_recheck hrun (hsoon.trans ?_)⟩
  · rw [hw]
    exact (State.boundary_due (t := marked) .runlim (by rw [State.ctx_setCtx])).2.2 rfl
  · rw [hw]
    rfl

/-- The step of a BARR is answered (R267, R303). -/
theorem barrier_ends (hj : (s.ctx c).job = some j) (hd : (s.ctx c).due = none) {ab n : Nat} (hw : (s.ctx c).wait = .step (.barrier ab) n) {o : OutCtl}
    (hf : s.seq.ctls.find? (fun x => x.id == n) = some o) (hh : o.held = none) (hc : o.ctx = c) (hk : o.kind = .step) (hop : o.op = none) :
    (∀ (r : CrspBody) s', s.takeCrsp (fun k => k.tag == o.tag && k.src == o.dest && sameBody k r) = some s' →
      exec (.crsp n r) s = .next ((s'.offCtl o r).barred c j (s.ctx c).word (crspOf o r).missing ab).barrGo.recheck) ∧
    exec (.waitTimeout c) s = .next (((s.expired c).leaveCtl n).barred c j (s.ctx c).word o.tiles ab).barrGo.recheck := by
  obtain rfl : o.id = n := by simpa using List.find?_some hf
  subst hc
  constructor
  · intro r s' ht
    have hctx : (s'.offCtl o r).ctx o.ctx = s.ctx o.ctx := by
      have hs' := State.takeCrsp_ctx ht
      refine State.ctx_of ?_ _
      unfold State.offCtl
      split
      · exact hs'
      · exact hs'
    exact (execCrsp_step hf hh hk hop hw ht).trans (congrArg (fun t : State => (.next t.barrGo.recheck : Res)) (State.barrEnds_eq hj hd hctx _ _))
  · have hrun : exec (.waitTimeout o.ctx) s = _ := execWaitTimeout_step hw
    have hfl : (s.expired o.ctx).seq.ctls.find? (fun x => x.id == o.id) = some o := hf
    have hmissing : (s.expired o.ctx).opMissing o = o.tiles := by
      unfold State.opMissing
      rw [hop]
      rfl
    refine hrun.trans (congrArg (fun t : State => (.next t.barrGo.recheck : Res)) ?_)
    unfold State.stepExpires
    rw [hfl]
    dsimp only
    rw [hmissing]
    exact State.barrEnds_eq (t := (s.expired o.ctx).leaveCtl o.id) hj hd rfl _ _

end

/-- Settles O14: each wait as it is issued, and what ends it. -/
theorem waitsBeginAndEnd : Obligations.WaitsBeginAndEnd := by
  unfold Obligations.WaitsBeginAndEnd
  refine ⟨fun s c j w hd => ⟨execWaitt_cases hd, execWaitc_cases, execFence_cases hd, execBarr_cases⟩, fun s c j hj hd => ?_⟩
  intro late code ended met zero clear barred
  refine ⟨fun cond hw => ?waitc, fun pu hw => ?fence, fun ch id key hw => ?barr, fun ab id hw o hf hh hc hk hop => ?barrier, fun d hr => ?due,
    fun target hw => ?waitt, fun l lease hw => ?lock, execLeaseExpiry_breaks, execRunlimExpiry_ends hj hd⟩
  case waitc =>
    obtain ⟨hmet, hnot, hlate, hover⟩ := waitc_ends hj hd hw
    refine ⟨hmet, hnot, hlate, hover, fun key addr n v ha => ?_, fun hload ha => ?_⟩
    · intro word ra eq answered holds
      obtain ⟨hh, hn, hc⟩ := State.poll_answers hj hd ha n v
      refine ⟨fun h0 hp => hh h0 (pollHolds_iff.mpr hp), fun h0 hp => hn h0 (mt pollHolds_iff.mp hp), fun h => ?_, fun h => ?_, fun h => ?_, fun h => ?_⟩
      · exact (hc (by omega)).trans (by rw [h]; rfl)
      · exact (hc (by omega)).trans (by rw [h]; rfl)
      · exact (hc (by omega)).trans (by rw [h]; rfl)
      · exact (hc (by omega)).trans (by rw [accCode_of_large h]; rfl)
    · have haddr : ctlAddr (j.get (fld cond 0 4)) 0 = j.get (fld cond 0 4) &&& 0xFFFFFFFFFF#64 := congrArg (· &&& 0xFFFFFFFFFF#64) (BitVec.add_zero _)
      change (Host.Outcome.next _ : Res) = _
      rw [hj, hw, ha, ← haddr]
      exact congrArg Host.Outcome.next (if_pos hload)
  case fence =>
    have hclear (t : State) : clear t pu ↔ t.fenceClear pu = true := State.fenceClear_iff.symm
    obtain ⟨hmet, hnot, hlate, hover⟩ := fence_ends hj hd hw
    exact ⟨fun h => hmet ((hclear s).mp h), fun h => hnot (mt (hclear s).mpr h), fun h => hlate ((hclear late).mp h), fun h => hover (mt (hclear late).mpr h)⟩
  case barr =>
    have hgo : s.barrGo1 c = if s.barrBusy id key then s else s.barrStep c ch := by
      unfold State.barrGo1
      rw [hw]
    refine ⟨fun hb => hgo.trans (if_pos hb), fun hb => ?_, ?_⟩
    · have hstep : s.barrGo1 c = s.barrStep c ch := hgo.trans (if_neg (by rw [hb]; exact Bool.noConfusion))
      refine ⟨fun hc => ?_, fun hc => ?_⟩ <;> rw [hstep, hc]
      · rfl
      · exact s.barrStep_facts c
    · exact (execWaitTimeout_barrDrain hw).trans (congrArg (fun t : State => (.next t.barrGo.recheck : Res)) (State.barrEnds_eq hj hd (s.expired_ctx c) _ _))
  case barrier =>
    obtain ⟨hcrsp, hlate⟩ := barrier_ends hj hd hw hf hh hc hk hop
    refine ⟨fun r s' ht => ?_, hlate⟩
    obtain rfl : o.id = id := by simpa using List.find?_some hf
    intro off
    rw [hcrsp r s' ht, crspOf_missing]
    rfl
  case due =>
    intro marked goesOn
    have hsoon := State.endSoon_eq hj hd d
    rw [bne_iff_ne.mpr hr, Bool.true_and] at hsoon
    obtain ⟨habort, hmcheck, -⟩ := State.boundary_due (t := marked) (c := c) d (by rw [State.ctx_setCtx])
    refine ⟨fun hg => hsoon.trans (if_pos (Wait.goesOn_iff.mpr hg)), fun hg => ?_⟩
    have hends := hsoon.trans (if_neg (mt Wait.goesOn_iff.mp hg))
    exact ⟨fun tail h => hends.trans (habort tail h), fun h => hends.trans (hmcheck h)⟩
  case waitt =>
    refine ⟨next_recheck (execWaitTimeout_waitt hw) (State.doneCode_coded hj hd (s.expired_ctx c) _), fun hb ht => ?_⟩
    change (Host.Outcome.next _ : Res) = _
    rw [hw]
    exact congrArg Host.Outcome.next ((if_pos ⟨hb, ht⟩).trans (congrArg State.recheck (State.doneCode_coded (t := s.until (s.cyc + s.cyclesTo target.toNat)) hj hd rfl _)))
  case lock =>
    have hrun : exec (.lockWaitExpiry c) s = .next (late.lockGivesUp c).recheck := by
      change (Host.Outcome.next _ : Res) = _
      rw [hw]
    exact next_recheck hrun (State.lockGivesUp_eq (s := late) hj hd)

end Sys2Proof.Machine
end


section
/-! SUPPORT. The watchdog of the crossbar (R358), and O30. -/
namespace Sys2Proof.Machine

section
variable {s : State} {j : Nat}

/-- What the watchdog does at the port of an access, once what the port awaits has been given up. -/
def State.fires (s1 : State) (j : Nat) (a : Acc) : State :=
  let u := (((((s1.sat (aXbTstat j) XB_TSTAT.WDFIRE).sat aXbStat XB_STAT.WDCNT).putBitAt aXbStat j true).raise (960 + j))).finishPort j (a.sameBeats 3 [])
  u.setXport j { u.xport j with next := none }

theorem State.watchdog_idle (h : (s.xport j).holder = none) : s.watchdog j = s := by
  unfold State.watchdog
  dsimp only
  rw [h]

theorem State.watchdog_held {a : Acc} (h : (s.xport j).holder = some a) :
    ((s.xport j).waits = none ∨ (j ≠ 7 ∧ j ≠ 8) → s.watchdog j = s.fires j a) ∧
    (∀ id, j = 7 ∨ j = 8 → (s.xport j).waits = some id → s.watchdog j = (s.leaveCtl id).fires j a) := by
  unfold State.watchdog
  dsimp only
  rw [h]
  refine ⟨fun hw => ?_, fun id hj hw => ?_⟩
  · by_cases hj : j = 7 ∨ j = 8
    · rw [hw.resolve_right (fun hn => hj.elim hn.1 hn.2)]
      dsimp only
      rw [if_pos hj]
      rfl
    · dsimp only
      rw [if_neg hj]
      rfl
  · rw [hw]
    dsimp only
    rw [if_pos hj]
    rfl

/-- The last response beat leaves what waits, and decides among it. -/
theorem State.lastBeat_facts (hs : s.canon) (j : Nat) : ((s.lastBeat j).xport j).holder = none ∧ ((s.lastBeat j).xport j).next = s.winnerNow j ∧
    ((s.lastBeat j).xport j).pend = (s.xport j).pend := by
  unfold State.lastBeat
  rw [State.xport_setXport _ _ _ hs]
  exact ⟨rfl, rfl, rfl⟩

end

/-- Settles O30: what the arbitration grants, what it decides, and what the watchdog ends. -/
theorem crossbarGrantsAndWatchdog : Obligations.CrossbarGrantsAndWatchdog := by
  unfold Obligations.CrossbarGrantsAndWatchdog
  refine ⟨fun s j => ?grants, fun s j => ?watchdog, fun s h n b hno => State.beatTo_none b hno⟩
  case grants =>
    intro x after
    have goes {u : State} (hu : s.portGrant j.val = u) : exec (.portGrant j) s = after u :=
      congrArg (fun v : State => (.next v.loadGo.broadcastGo.recheck : Res)) hu
    refine ⟨fun h => ?_, fun h => ?_, fun h => goes (State.portGrant_held h), fun hm hh => ⟨fun h => goes (State.portGrant_empty h),
        fun m keep a rest hw he => goes (State.portGrant_winner hm hh hw he)⟩, fun d h hp => State.winner_decided h hp, fun d h hp => State.winner_gone h hp,
      State.winner_undecided, fun h => ⟨if_pos h, State.keepsPort_facts h⟩, fun h => if_neg (by rw [h]; exact Bool.noConfusion), fun m h => State.roundRobin_facts h,
      fun hs => State.lastBeat_facts hs j.val⟩
    · unfold State.loadGo
      rw [h]
      rfl
    · unfold State.broadcastGo
      rw [h, Bool.and_false, Bool.false_and, Bool.false_and]
      rfl
  case watchdog =>
    intro x
    have goes {u : State} (hu : s.watchdog j.val = u) : exec (.watchdogFire j) s = .next u.barrGo.recheck :=
      congrArg (fun v : State => (.next v.barrGo.recheck : Res)) hu
    refine ⟨fun h => goes (State.watchdog_idle h), fun a h => ?_⟩
    intro fired
    obtain ⟨hplain, hleft⟩ := State.watchdog_held h
    exact ⟨fun h7 h8 => goes (hplain (.inr ⟨h7, h8⟩)), fun hw => goes (hplain (.inl hw)), fun id hj hw => goes (hleft id hj hw)⟩

end Sys2Proof.Machine
end
